-- ==== Sys2Proof/Word.lean ====
section
/-! DEFINITION. The word types of the FVS-6400 model: bytes, the widths registers and messages use, and the
bounded numbers that name functions, rings, cores, ports and the like. -/

namespace Sys2Proof

/-- The smallest addressable unit. -/
abbrev Byte := BitVec 8

/-- A block of bytes as the part reads it, lowest address first (R3: little-endian fields). -/
abbrev Bytes := List (BitVec 8)

/-- A function: 0 is the PF, 1 to 31 are VF1 to VF31 (R37). -/
abbrev Fn := Fin 32

/-- A ring pair q (R56). -/
abbrev RingId := Fin 32

/-- A core C00 to C63 (R133). -/
abbrev CoreId := Fin 64

/-- A cluster CL0 to CL7. -/
abbrev ClusterId := Fin 8

/-- A fabric port P0 to P23 (R346). -/
abbrev PortId := Fin 24

/-- An HBM stack 0 to 5 (R201). -/
abbrev StackId := Fin 6

/-- A firmware processor: 0 SEC, 1 PMC, 2 SCH, 3 to 10 CCC0 to CCC7 (R82). -/
abbrev AgentId := Fin 11

/-- An external power phase (R394). -/
abbrev PhaseId := Fin 24

/-- One of the 24 islands on VDD_CORE: 0 to 7 are CLS0 to CLS7, 8 to 23 are CI0 to CI15 (R10). -/
abbrev IslandId := Fin 24

/-- An on-die temperature sensor (R429). -/
abbrev SensorId := Fin 96

/-- A Flint tile (R333). -/
abbrev TileId := Fin 16

/-- A descriptor DMA engine of the part: 16 × cluster + number (R199). -/
abbrev EngineId := Fin 128

/-- A 64-byte Slate unit, Grains row or cache line; byte i is bits 8i + 7 to 8i (R3). -/
abbrev Unit64 := BitVec 512

/-- A submission entry without its OPCODE, which the command's row gives (R61). Argument bytes 0x10 to 0x3F of the entry
are bits 0 to 383 of `args`, little-endian (R3). -/
structure Sqe where
  flags : BitVec 16
  tag : BitVec 32
  handle : BitVec 64
  args : BitVec 384
  deriving DecidableEq, Repr

/-- Where a mailbox command comes from: entry `e` fetched from SQ `q`, or the message in DIRECT_CMD (R65). `alien` stands for an
entry in SQ `q` whose OPCODE is no command's of the table (R67). -/
inductive Src where
  | ring (q : RingId) (e : Sqe)
  | direct
  | alien (q : RingId) (e : Sqe) (op : BitVec 16)
  deriving DecidableEq, Repr

/-- How much of a 64-bit register one read takes (R20, R463). -/
inductive ReadPart where
  | full
  | low
  | high
  deriving DecidableEq, Repr

/-- What PMC measures and estimates for one update (R417 to R421, R431): powers and demands in mW, the compute power at OP0
to OP7, the compute power at OP0 with g = 0, 2, … 12, the highest predicted die peak at OP0 to OP7 and the highest
predicted HBM peak in 0.125 °C. -/
structure PmcSample where
  uncore : Nat
  links : Nat
  memory : Nat
  compute : Nat
  demLinks : Nat
  demMemory : Nat
  demCompute : Nat
  input : Nat
  points : List Nat
  gated : List Nat
  diePeak : List Int
  hbmPeak : Int
  deriving DecidableEq, Repr

/-- An owner of energy in a window (R424 to R426). A request is named by its context's INDEX, a task by its number, a run by
its network's handle. -/
inductive EnergyOwner where
  | step
  | fetch (idx : Nat)
  | seal (idx : Nat)
  | shipment (idx : Nat)
  | home (idx : Nat)
  | revival (idx : Nat)
  | task (n : Nat)
  | run (net : Nat)
  | flintStatic
  | system (f : Option Fn)
  | keepWarm
  | ballast
  deriving DecidableEq, Repr

/-- MCTP control messages, and a packet that R449 drops. -/
inductive MctpReq where
  | setEid (eid : BitVec 8)
  | getEid
  | versions
  | types
  | uuid
  | malformed
  deriving DecidableEq, Repr

/-- What a PLDM request asks for (R449, R412): READY_MAP, a temperature or power sensor by number, the value of a limit, a
limit to set or withdraw, ALERT_CAUSE bits to clear, FRU data. -/
inductive PldmReq where
  | base
  | readyMap
  | die (k : SensorId)
  | stack (h : StackId)
  | power (k : Fin 5)
  | limit (quantity : Fin 3)
  | setLimit (quantity : Fin 3) (v : Option Nat)
  | clearAlert (mask : BitVec 8)
  | fru
  | malformed
  deriving DecidableEq, Repr

/-- An ordered set (R353) without its CRC; a set with a bad CRC is ignored before it becomes one of these. -/
structure OrdSet where
  type : BitVec 4
  lane : BitVec 3
  port : BitVec 5
  width : BitVec 2
  pam4 : Bool
  addrValid : Bool
  addr : BitVec 12
  nonce : BitVec 64
  laneOk : BitVec 8
  request : BitVec 3
  target : BitVec 3
  deriving DecidableEq, Repr

/-- The three issue slots, which are CLASS 0 to 2 (R133, R164). -/
inductive SlotKind where
  | span | vec | xfer
  deriving DecidableEq, Repr

/-- One row that a serving kernel writes into a page during a step (R226, R232): the request, the model flag, the layer, the
row's place 64 × COLUMN + row, K of every head followed by V of every head, and for MX formats their scales in the same order,
two for each 64-byte unit. -/
structure PageRow where
  idx : Nat
  draft : Bool
  layer : Nat
  pos : Nat
  kv : Bytes
  scales : Bytes
  deriving DecidableEq, Repr

/-- Where an uncorrectable unit lies (R206): a 64-byte unit of an A-side or B-side Grains row, of a sideband (unit i holds the scales of
rows, or of columns over the tile slots, 16i to 16i + 15), of an accumulator plane (unit u is a quarter of row u ÷ 4), of Slate, or of its
scale shadow (unit i holds those of units 16i to 16i + 15) in a core; of Basalt by its offset there; or of HBM by device address. -/
inductive UeAt where
  | aRow (k : CoreId) (buf : Fin 2) (row : Fin 256)
  | bRow (k : CoreId) (buf : Fin 2) (row : Fin 256)
  | aSide (k : CoreId) (buf : Fin 2) (unit : Fin 16)
  | bSide (k : CoreId) (buf : Fin 2) (unit : Fin 16)
  | shadow (k : CoreId) (unit : Fin 1536)
  | plane (k : CoreId) (p : Fin 2) (unit : Fin 256)
  | slate (k : CoreId) (unit : Fin 24576)
  | basalt (off : Nat)
  | hbm (addr : Nat)
  deriving DecidableEq, Repr

end Sys2Proof
end

