-- ==== Sys2Proof/Syntax.lean ====
section
/-! DEFINITION. The commands of the block: one constructor for each row of the operation table, in its order. The table gives
no operands; the operands are what the rule named beside each row needs from outside (INVENTORY.md, Instructions). -/

namespace Sys2Proof

/-- A command (the 282 rows of the operation table). Bytes that the part reads from the host or the NOR, and what a sensor or
a partner answers, come as operands (logs 8 and 10). -/
inductive Instr where
  /-- PERST_DEASSERT (R22). The level of ADDR_SEL at the deassertion. -/
  | perstDeassert (addrSel : BitVec 2)
  /-- PERST_ASSERT (R447). -/
  | perstAssert
  /-- PROV_READ_DONE (R23). Whether the NOR is read by four bits, and whether it still reports an operation after the 600 ms poll. -/
  | provReadDone (quad : Bool) (pollTimedOut : Bool)
  /-- SEC_ROM_READY (R27). -/
  | secRomReady
  /-- HBM_TRAINING_DONE (R202). Whether training succeeds at the rate asked for, and at 6.4 Gb/s. -/
  | hbmTrainingDone (h : StackId) (okAtRate : Bool) (okAtBase : Bool)
  /-- BASALT_SELFTEST_DONE (R198). -/
  | basaltSelftestDone (ok : Bool)
  /-- CFG_READY (R26). -/
  | cfgReady
  /-- CONFIG_REQUEST (R26). Offset of the doubleword; the value written, if a write. -/
  | configRequest (f : Fn) (reg : BitVec 12) (write : Option (BitVec 32))
  /-- SYNC_BEAT_DUE (R17). -/
  | syncBeatDue
  /-- SYNC_REQ (R352). -/
  | syncReq (p : PortId) (epoch : BitVec 16) (seq : BitVec 16) (t1 : BitVec 64) (t4prev : BitVec 64)
  /-- SYNC_RESP (R352). -/
  | syncResp (p : PortId) (epoch : BitVec 16) (seq : BitVec 16) (master : BitVec 16) (hops : BitVec 8) (flags : BitVec 8) (t2 : BitVec 64) (t3 : BitVec 64) (rootOfs : BitVec 64)
  /-- SYNC_BEAT_MISSED (R352). -/
  | syncBeatMissed (p : PortId)
  /-- FT_NOW_READ (R20). -/
  | ftNowRead (f : Fn) (part : ReadPart)
  /-- VDD_CORE_DIP (R30). The depth of the supply below the setpoint in 0.25 %. -/
  | vddCoreDip (depth : Nat)
  /-- BROWNOUT_WARNING (R30). -/
  | brownoutWarning (depth : Nat)
  /-- BROWNOUT_RESET (R32). -/
  | brownoutReset (depth : Nat)
  /-- BROWNOUT_RECOVERY (R31). -/
  | brownoutRecovery
  /-- HOST_LINK_RETRAIN (R35). The rate code of HOST_LINK_STATUS and the negotiated width. -/
  | hostLinkRetrain (rate : BitVec 2) (width : BitVec 5)
  /-- HOST_LINK_DOWN (R54). -/
  | hostLinkDown
  /-- VF_ENABLE (R37). -/
  | vfEnable (num : Nat) (enable : Bool)
  /-- BUS_MASTER_ENABLE_CLEAR (R47). -/
  | busMasterEnableClear (f : Fn)
  /-- BUS_MASTER_ENABLE_SET (R81). -/
  | busMasterEnableSet (f : Fn)
  /-- D3HOT_ENTRY (R47). -/
  | d3hotEntry (f : Fn)
  /-- D0_RETURN (R81). -/
  | d0Return (f : Fn)
  /-- FENCE_DONE (R47). -/
  | fenceDone (f : Fn)
  /-- INITIATE_FLR (R54). -/
  | initiateFlr (f : Fn)
  /-- FLR_COMPLETE (R55). -/
  | flrComplete (f : Fn)
  /-- BAR_ACCESS_MALFORMED (R40). -/
  | barAccessMalformed (f : Fn) (bar4 : Bool) (write : Bool) (off : BitVec 21)
  /-- REGISTER_WRITE (R40). -/
  | registerWrite (f : Fn) (bar4 : Bool) (off : BitVec 21) (size64 : Bool) (v : BitVec 64)
  /-- HOST_WINDOW_READ (R41). Whether a unit it reads is uncorrectable (R206). -/
  | hostWindowRead (f : Fn) (off : BitVec 34) (len : Nat) (uncorrectable : Bool)
  /-- HOST_WINDOW_WRITE (R41). -/
  | hostWindowWrite (f : Fn) (off : BitVec 34) (data : Bytes)
  /-- SEC_RESET (R44). -/
  | secReset (imageOk : Bool)
  /-- BACK_INVALIDATE_RESPONSE (R51). The line's number, and its data where the host wrote it back first. -/
  | backInvalidateResponse (line : Nat) (data : Option Unit64)
  /-- SNP_DATA (R52). -/
  | snpData (line : Nat)
  /-- SNP_INV (R53). -/
  | snpInv (line : Nat)
  /-- SNP_CUR (R52). -/
  | snpCur (line : Nat)
  /-- WRITE_PULL (R53). -/
  | writePull (line : Nat)
  /-- EVICTION_GO (R53). -/
  | evictionGo (line : Nat)
  /-- RING_ENABLE (R58). -/
  | ringEnable (f : Fn) (v : BitVec 32)
  /-- RING_DISABLE (R58). -/
  | ringDisable (f : Fn) (v : BitVec 32)
  /-- SQ_TAIL_DB (R59). -/
  | sqTailDb (f : Fn) (q : RingId) (v : BitVec 32)
  /-- CQ_HEAD_DB (R59). -/
  | cqHeadDb (f : Fn) (q : RingId) (v : BitVec 32)
  /-- COALESCE_TIMEOUT (R64). -/
  | coalesceTimeout (f : Fn) (q : RingId)
  /-- DIRECT_DB (R65). -/
  | directDb (f : Fn) (v : BitVec 32)
  /-- CANCEL_DB_LOW (R74). -/
  | cancelDbLow (f : Fn) (v : BitVec 32)
  /-- CANCEL_DB (R74). A write of the high half alone, or of all 64 bits. -/
  | cancelDb (f : Fn) (high : Bool) (v : BitVec 64)
  /-- LEASE_HEARTBEAT (R78). -/
  | leaseHeartbeat (f : Fn)
  /-- LEASE_CTRL_WRITE (R78). -/
  | leaseCtrlWrite (f : Fn) (v : BitVec 32)
  /-- LEASE_EXPIRY (R79). -/
  | leaseExpiry (f : Fn)
  /-- IDENTIFY (R76). -/
  | identify (f : Fn) (src : Src)
  /-- ADOPT (R80). -/
  | adopt (f : Fn) (src : Src)
  /-- RING_CREATE (R58). -/
  | ringCreate (f : Fn) (src : Src)
  /-- RING_DELETE (R69). -/
  | ringDelete (f : Fn) (src : Src)
  /-- LIST (R77). -/
  | list (f : Fn) (src : Src)
  /-- COUNTERS (R461). -/
  | counters (f : Fn) (src : Src)
  /-- BUF_ALLOC (R265). -/
  | bufAlloc (f : Fn) (src : Src)
  /-- BUF_FREE (R69). -/
  | bufFree (f : Fn) (src : Src)
  /-- WIN_MAP (R41). -/
  | winMap (f : Fn) (src : Src)
  /-- WIN_UNMAP (R41). -/
  | winUnmap (f : Fn) (src : Src)
  /-- KEY_LOAD (R115). -/
  | keyLoad (f : Fn) (src : Src) (blob : Bytes)
  /-- MODEL_LOAD (R263). -/
  | modelLoad (f : Fn) (src : Src) (header : Bytes)
  /-- MODEL_UNLOAD (R280). -/
  | modelUnload (f : Fn) (src : Src)
  /-- ADAPTER_LOAD (R275). -/
  | adapterLoad (f : Fn) (src : Src) (header : Bytes)
  /-- ADAPTER_UNLOAD (R69). -/
  | adapterUnload (f : Fn) (src : Src)
  /-- MODEL_QUERY (R278). -/
  | modelQuery (f : Fn) (src : Src)
  /-- PROG_LOAD (R215). -/
  | progLoad (f : Fn) (src : Src) (manifest image : Bytes)
  /-- PROG_UNLOAD (R69). -/
  | progUnload (f : Fn) (src : Src)
  /-- FLINT_LOAD (R336). -/
  | flintLoad (f : Fn) (src : Src) (image : Bytes)
  /-- FLINT_UNLOAD (R336). -/
  | flintUnload (f : Fn) (src : Src)
  /-- PROFILE_SET (R305). -/
  | profileSet (f : Fn) (src : Src) (table : Bytes)
  /-- PROFILE_FREE (R69). -/
  | profileFree (f : Fn) (src : Src)
  /-- POOL_SET (R281). -/
  | poolSet (f : Fn) (src : Src)
  /-- LIMIT_SET (R9). -/
  | limitSet (f : Fn) (src : Src)
  /-- PHASE_OP_SET (R416). -/
  | phaseOpSet (f : Fn) (src : Src)
  /-- FW_UPDATE (R94). The bundle, none where the fetch cannot complete. -/
  | fwUpdate (f : Fn) (src : Src) (bundle : Option Bytes)
  /-- PROV_STAGE (R128). -/
  | provStage (f : Fn) (src : Src) (data : Bytes)
  /-- REQ_SUBMIT (R71). -/
  | reqSubmit (f : Fn) (src : Src) (prompt : List (BitVec 32))
  /-- REQ_CANCEL (R297). -/
  | reqCancel (f : Fn) (src : Src)
  /-- REQ_QUERY (R285). -/
  | reqQuery (f : Fn) (src : Src)
  /-- TASK_RUN (R217). -/
  | taskRun (f : Fn) (src : Src)
  /-- FLINT_RUN (R341). -/
  | flintRun (f : Fn) (src : Src)
  /-- FLINT_RUN_START (R341). -/
  | flintRunStart (net : Nat)
  /-- BOOT_GO (R85). -/
  | bootGo (f : Fn) (v : BitVec 32)
  /-- BUNDLE_FETCH_COMPLETE (R86). The bundle, none where the fetch cannot complete. -/
  | bundleFetchComplete (bundle : Option Bytes)
  /-- PROCESSOR_RUNNING (R90). -/
  | processorRunning (p : AgentId)
  /-- WATCHDOG_EXPIRY (R99). -/
  | watchdogExpiry (p : AgentId)
  /-- PROCESSOR_MEMORY_UE (R99). -/
  | processorMemoryUe (p : AgentId)
  /-- TRAP_IN_TRAP_HANDLER (R99). -/
  | trapInTrapHandler (p : AgentId)
  /-- REVOCATION_DEFERRED (R98). -/
  | revocationDeferred (p : AgentId)
  /-- PAUSE_LIMIT_EXPIRY (R93). -/
  | pauseLimitExpiry (p : AgentId)
  /-- HANDOFF_SAFE_POINT (R92). -/
  | handoffSafePoint (p : AgentId) (block : Bytes)
  /-- FW_TARGET_REPLACED (R94). -/
  | fwTargetReplaced (p : AgentId)
  /-- GET_CERTIFICATE (R110). -/
  | getCertificate (mctp : Bool) (slot : Nat) (off : Nat) (len : Nat) (wellFormed : Bool)
  /-- CHALLENGE (R110). -/
  | challenge (mctp : Bool) (slot : Nat) (nonce : BitVec 256) (wellFormed : Bool)
  /-- KEY_EXCHANGE (R109). -/
  | keyExchange (mctp : Bool) (slot : Nat) (share : Bytes) (wellFormed : Bool)
  /-- GET_MEASUREMENTS (R111). -/
  | getMeasurements (mctp : Bool) (op : Nat) (nonce : BitVec 256) (wellFormed : Bool)
  /-- IDE_KM (R112). -/
  | ideKm (session : Nat) (stream : Nat) (go : Bool) (wellFormed : Bool)
  /-- KEY_CERT (R352). -/
  | keyCert (p : PortId) (frag : Nat) (frags : Nat) (data : Bytes)
  /-- KEY_SHARE (R352). -/
  | keyShare (p : PortId) (pub : Bytes)
  /-- KEY_PROOF (R119). -/
  | keyProof (p : PortId) (sig : Bytes)
  /-- KEY_DONE (R352). -/
  | keyDone (p : PortId) (phase : BitVec 32)
  /-- REKEY_DUE (R120). -/
  | rekeyDue (p : PortId)
  /-- REKEY (R352). -/
  | rekey (p : PortId) (phase : BitVec 32)
  /-- REKEY_ACK (R120). -/
  | rekeyAck (p : PortId) (phase : BitVec 32)
  /-- INSTRUCTION_DISPATCH (R158). -/
  | instructionDispatch (k : CoreId)
  /-- NOP (R164). -/
  | nop (k : CoreId) (slot : Option SlotKind)
  /-- SPAN_LOADB (R134). -/
  | spanLoadb (k : CoreId)
  /-- SPAN_MM (R135). -/
  | spanMm (k : CoreId)
  /-- SPAN_DRAIN (R147). -/
  | spanDrain (k : CoreId)
  /-- VADD (R171). -/
  | vadd (k : CoreId)
  /-- VSUB (R171). -/
  | vsub (k : CoreId)
  /-- VMUL (R171). -/
  | vmul (k : CoreId)
  /-- VFMA (R171). -/
  | vfma (k : CoreId)
  /-- VMIN (R171). -/
  | vmin (k : CoreId)
  /-- VMAX (R171). -/
  | vmax (k : CoreId)
  /-- VCMP (R171). -/
  | vcmp (k : CoreId)
  /-- VSEL (R171). -/
  | vsel (k : CoreId)
  /-- VCVT (R171). -/
  | vcvt (k : CoreId)
  /-- VEXP (R150). -/
  | vexp (k : CoreId)
  /-- VRCP (R150). -/
  | vrcp (k : CoreId)
  /-- VRSQ (R150). -/
  | vrsq (k : CoreId)
  /-- VSIN (R150). -/
  | vsin (k : CoreId)
  /-- VCOS (R150). -/
  | vcos (k : CoreId)
  /-- VMAXR (R151). -/
  | vmaxr (k : CoreId)
  /-- VEXPS (R151). -/
  | vexps (k : CoreId)
  /-- VRESC (R151). -/
  | vresc (k : CoreId)
  /-- VTOPK (R152). -/
  | vtopk (k : CoreId)
  /-- VROT (R153). -/
  | vrot (k : CoreId)
  /-- VREL (R137). -/
  | vrel (k : CoreId)
  /-- VSETS (R171). -/
  | vsets (k : CoreId)
  /-- VMOVR (R171). -/
  | vmovr (k : CoreId)
  /-- VFCLR (R171). -/
  | vfclr (k : CoreId)
  /-- SLD (R173). -/
  | sld (k : CoreId)
  /-- DMA_GO (R174). -/
  | dmaGo (k : CoreId)
  /-- SYNC_WAIT (R174). -/
  | syncWait (k : CoreId)
  /-- SYNC_ADD (R211). -/
  | syncAdd (k : CoreId)
  /-- SYNC_TAS (R209). -/
  | syncTas (k : CoreId)
  /-- LOOP (R177). -/
  | loop (k : CoreId)
  /-- SETI (R177). -/
  | seti (k : CoreId)
  /-- INC (R177). -/
  | inc (k : CoreId)
  /-- SETD (R169). -/
  | setd (k : CoreId)
  /-- HALT (R163). -/
  | halt (k : CoreId)
  /-- INSTRUCTION_COMPLETE (R161). -/
  | instructionComplete (k : CoreId) (n : Nat)
  /-- DMA_DESCRIPTOR_COMPLETE (R174). -/
  | dmaDescriptorComplete (e : EngineId)
  /-- BANK_STARVATION (R188). -/
  | bankStarvation (k : CoreId) (bank : Fin 32)
  /-- TASK_PLACED (R217). -/
  | taskPlaced (n : Nat)
  /-- TASK_END (R163). -/
  | taskEnd (n : Nat)
  /-- VISION_RECORD (R321). -/
  | visionRecord (n : Nat)
  /-- HBM_TEMP_READ (R430). -/
  | hbmTempRead (h : StackId) (temp : Option Int)
  /-- HBM_SCRUB (R204). -/
  | hbmScrub (h : StackId) (corrected uncorrectable : List Nat)
  /-- HBM_STACK_LOST (R205). -/
  | hbmStackLost (h : StackId)
  /-- UNCORRECTABLE_UNIT (R207). -/
  | uncorrectableUnit (u : UeAt)
  /-- STEP_BUILD (R287). -/
  | stepBuild
  /-- STEP_END (R226). -/
  | stepEnd (rows : List PageRow)
  /-- JASPER_ROW (R301). -/
  | jasperRow (idx : Nat) (draft : Bool) (node : Nat) (logits : List (BitVec 32))
  /-- PAGE_FETCH (R251). -/
  | pageFetch (eng : ClusterId) (k : CoreId) (base bias idx : Nat) (draft : Bool) (layer col : Nat)
  /-- PAGE_FETCH_DONE (R249). -/
  | pageFetchDone (eng : ClusterId)
  /-- SEAL_START (R245). -/
  | sealStart (eng : ClusterId)
  /-- SEAL_SWITCH (R249). -/
  | sealSwitch (eng : ClusterId) (second : Bool)
  /-- SEAL_STARVATION (R249). -/
  | sealStarvation (eng : ClusterId)
  /-- TIER_FETCH_DONE (R268). -/
  | tierFetchDone (k n : Nat) (raw : List Bytes)
  /-- POOL_VIEW_DUE (R380). -/
  | poolViewDue
  /-- POOL_VIEW (R380). -/
  | poolView (src : BitVec 12) (tag : BitVec 32) (body : Bytes)
  /-- ADVERT_DUE (R290). -/
  | advertDue
  /-- ADVERT (R290). -/
  | advert (src : BitVec 12) (tag : BitVec 32) (body : Bytes)
  /-- ASSIGN (R282). -/
  | assign (src : BitVec 12) (tag : BitVec 32) (body : Bytes)
  /-- ASSIGN_ACK (R380). -/
  | assignAck (src : BitVec 12) (tag : BitVec 32) (body : Bytes)
  /-- TOKEN_SEG (R381). -/
  | tokenSeg (src : BitVec 12) (tag : BitVec 32) (body : Bytes)
  /-- PROFILE_SEG (R380). -/
  | profileSeg (src : BitVec 12) (tag : BitVec 32) (body : Bytes)
  /-- TOKENS (R293). -/
  | tokens (src : BitVec 12) (tag : BitVec 32) (body : Bytes)
  /-- CANCEL (R298). -/
  | cancel (src : BitVec 12) (tag : BitVec 32) (body : Bytes)
  /-- SHIP_OFFER (R290). -/
  | shipOffer (src : BitVec 12) (tag : BitVec 32) (body : Bytes)
  /-- SHIP_ACCEPT (R381). -/
  | shipAccept (src : BitVec 12) (tag : BitVec 32) (body : Bytes)
  /-- SHIP_REFUSE (R290). -/
  | shipRefuse (src : BitVec 12) (tag : BitVec 32) (body : Bytes)
  /-- SHIP_OFFER_RETRY (R290). -/
  | shipOfferRetry (idx : Nat)
  /-- SHIP_PAGE (R291). -/
  | shipPage (src : BitVec 12) (tag : BitVec 32) (body : Bytes)
  /-- SHIP_END (R291). -/
  | shipEnd (src : BitVec 12) (tag : BitVec 32) (body : Bytes)
  /-- SHIP_DONE (R291). -/
  | shipDone (src : BitVec 12) (tag : BitVec 32) (body : Bytes)
  /-- SHIP_ABORT (R292). -/
  | shipAbort (src : BitVec 12) (tag : BitVec 32) (body : Bytes)
  /-- SHIP_TIMEOUT (R292). -/
  | shipTimeout (idx : Nat)
  /-- WORK_ROUTE_TIMEOUT (R299). -/
  | workRouteTimeout (idx : Nat)
  /-- HOME_ROUTE_TIMEOUT (R299). -/
  | homeRouteTimeout (idx : Nat)
  /-- LOAD_BEGIN (R382). -/
  | loadBegin (src : BitVec 12) (tag : BitVec 32) (body : Bytes)
  /-- WEIGHT_CHUNK (R276). -/
  | weightChunk (src : BitVec 12) (tag : BitVec 32) (body : Bytes)
  /-- LOAD_STATUS (R277). -/
  | loadStatus (src : BitVec 12) (tag : BitVec 32) (body : Bytes)
  /-- LOAD_END (R277). -/
  | loadEnd (src : BitVec 12) (tag : BitVec 32) (body : Bytes)
  /-- REPAIR_REQ (R279). -/
  | repairReq (src : BitVec 12) (tag : BitVec 32) (body : Bytes)
  /-- REPAIR_DATA (R279). -/
  | repairData (src : BitVec 12) (tag : BitVec 32) (body : Bytes)
  /-- REDUCE (R382). -/
  | reduce (src : BitVec 12) (tag : BitVec 32) (body : Bytes)
  /-- GATHER (R382). -/
  | gather (src : BitVec 12) (tag : BitVec 32) (body : Bytes)
  /-- FLINT_STROBE (R337). -/
  | flintStrobe
  /-- FLINT_INPUT_WAKE (R339). -/
  | flintInputWake (net : Nat)
  /-- FLINT_LAG_OVERFLOW (R338). -/
  | flintLagOverflow (net : Nat) (tile : Nat)
  /-- FLINT_DURATION_END (R341). -/
  | flintDurationEnd (net : Nat)
  /-- TS1 (R354). -/
  | ts1 (p : PortId) (sets : List (Fin 8 × OrdSet))
  /-- TS2 (R355). -/
  | ts2 (p : PortId) (o : OrdSet)
  /-- HOLD (R358). -/
  | hold (p : PortId) (o : OrdSet)
  /-- REQ (R361). -/
  | req (p : PortId) (o : OrdSet)
  /-- ACCEPT (R355). -/
  | accept (p : PortId) (o : OrdSet)
  /-- TRAINING_STAGE_DONE (R354). -/
  | trainingStageDone (p : PortId) (lanes : BitVec 8) (delay : Nat)
  /-- TRAINING_STAGE_TIMEOUT (R354). -/
  | trainingStageTimeout (p : PortId)
  /-- TRAINING_RETRY (R359). -/
  | trainingRetry (p : PortId)
  /-- FIRST_SECOND_END (R29). -/
  | firstSecondEnd
  /-- FRAME (R349). -/
  | frame (p : PortId) (seq ack : BitVec 16) (vc : Fin 8) (nak phase : Bool) (credVc credits : Nat) (payload : Bytes) (corr uncorr : Nat) (crcOk : Bool)
  /-- LANE_LOCK_LOST (R360). -/
  | laneLockLost (p : PortId) (lane : Fin 8)
  /-- FEC_BURST (R360). -/
  | fecBurst (p : PortId) (n : Nat)
  /-- REPLAY_LIMIT (R360). -/
  | replayLimit (p : PortId)
  /-- LOW_MODE_TIMER (R360). -/
  | lowModeTimer (p : PortId)
  /-- LINK_REQ (R352). -/
  | linkReq (p : PortId) (request : Nat) (target : Nat) (cause : Nat)
  /-- LINK_DOWN_TIMEOUT (R362). -/
  | linkDownTimeout (p : PortId)
  /-- LINK_STATE_RECORD (R370). -/
  | linkStateRecord (p : PortId) (body : Bytes)
  /-- RECORD_REFRESH_DUE (R370). -/
  | recordRefreshDue
  /-- RECORD_AGE_OUT (R370). -/
  | recordAgeOut (id : BitVec 64)
  /-- SETTLE (R372). -/
  | settle
  /-- ADDRESS_HOLD_EXPIRY (R374). -/
  | addressHoldExpiry (a : BitVec 12)
  /-- MESSAGE_FORWARD (R385). -/
  | messageForward
  /-- VC_HEAD_STALL (R386). -/
  | vcHeadStall (p : PortId) (vc : Fin 8)
  /-- MSEQ_GAP_TIMEOUT (R387). -/
  | mseqGapTimeout (src : BitVec 12) (cls : Nat)
  /-- CORE_EN_ASSERT (R392). -/
  | coreEnAssert
  /-- VCORE_GOOD (R392). -/
  | vcoreGood
  /-- CORE_EN_DEASSERT (R393). -/
  | coreEnDeassert
  /-- RAMP_SETTLED (R395). -/
  | rampSettled
  /-- SLEW_WINDOW (R402). The current in mA that the islands' activity asks for. -/
  | slewWindow (want : Nat)
  /-- PHASE_IMBALANCE (R397). -/
  | phaseImbalance (k : PhaseId)
  /-- PHASE_PROBE_END (R397). Whether the other phases' sum rose by half the mean share or more. -/
  | phaseProbeEnd (k : PhaseId) (rose : Bool)
  /-- SENSE_STUCK (R398). -/
  | senseStuck (k : PhaseId)
  /-- SENSE_OUT_OF_RANGE (R398). -/
  | senseOutOfRange (k : PhaseId)
  /-- PH_FAULT (R399). -/
  | phFault (k : PhaseId)
  /-- STAGE_OVER_140 (R399). -/
  | stageOver140 (k : PhaseId)
  /-- STAGE_HOT (R399). -/
  | stageHot (k : PhaseId)
  /-- STAGE_COOLED (R399). -/
  | stageCooled (k : PhaseId)
  /-- DROOP_CROSSING (R406). The stretch level of the threshold crossed. -/
  | droopCrossing (k : IslandId) (level : Fin 4)
  /-- DROOP_STEP_DOWN (R407). -/
  | droopStepDown (k : IslandId)
  /-- DROOP_HOLD_END (R408). -/
  | droopHoldEnd
  /-- OVERSHOOT (R409). -/
  | overshoot
  /-- PWRBRK_ASSERT (R411). -/
  | pwrbrkAssert
  /-- PWRBRK_RELEASE (R411). -/
  | pwrbrkRelease
  /-- ALERT_CAUSE_WRITE (R412). -/
  | alertCauseWrite (f : Fn) (v : BitVec 32)
  /-- PMC_UPDATE (R417). -/
  | pmcUpdate (m : PmcSample)
  /-- ENERGY_WINDOW (R424). -/
  | energyWindow (input : Option Nat) (shares : List (EnergyOwner × Nat))
  /-- MODEL_REFIT (R428). -/
  | modelRefit
  /-- METER_SELF_CHECK (R423). -/
  | meterSelfCheck (ok : Bool)
  /-- METER_STUCK (R427). -/
  | meterStuck
  /-- THERMAL_SENSOR_SAMPLE (R432). Readings in 0.125 °C, sensor 0 first. -/
  | thermalSensorSample (readings : List Int)
  /-- SENSOR_EXCLUSION (R429). -/
  | sensorExclusion (k : SensorId)
  /-- CRITICAL_TIMEOUT (R433). -/
  | criticalTimeout
  /-- THERMTRIP (R434). -/
  | thermtrip
  /-- SYSCLK_25M_LOSS (R446). -/
  | sysclk25mLoss
  /-- FAB_REFCLK_LOSS (R446). -/
  | fabRefclkLoss
  /-- FAB_REFCLK_RETURN (R446). -/
  | fabRefclkReturn
  /-- SETDASA (R448). -/
  | setdasa
  /-- ENTDAA (R448). -/
  | entdaa (addr : BitVec 7)
  /-- DISEC (R448). -/
  | disec
  /-- MCTP_CONTROL (R449). -/
  | mctpControl (req : MctpReq)
  /-- PLDM_REQUEST (R449). -/
  | pldmRequest (req : PldmReq)
  /-- EXTEST (R452). -/
  | extest
  /-- IDCODE (R451). -/
  | idcode
  /-- SAMPLE_PRELOAD (R451). -/
  | samplePreload (levels : Bytes)
  /-- CLAMP (R452). -/
  | clamp
  /-- HIGHZ (R452). -/
  | highz
  /-- EXTEST_PULSE (R452). -/
  | extestPulse
  /-- EXTEST_TRAIN (R452). -/
  | extestTrain
  /-- BYPASS (R451). -/
  | bypass
  /-- TRST (R451). -/
  | trst
  /-- TELEMETRY_COUNTER_READ (R463). -/
  | telemetryCounterRead (f : Fn) (k : Nat) (part : ReadPart)
  /-- VDD_AUX_LOSS (R441). -/
  | vddAuxLoss
  /-- SYSCLK_25M_RETURN (R446). -/
  | sysclk25mReturn
  /-- AON_READY (R22). -/
  | aonReady
  /-- FT_RUNNING (R20). -/
  | ftRunning
  /-- CXL_MEM_REQUEST (R51). A read the host keeps (`keeps`) or a write; whether HBM has an uncorrectable error there. -/
  | cxlMemRequest (line : Nat) (write : Option Unit64) (keeps : Bool) (uncorrectable : Bool)
  /-- L0P_WIDTH_CHANGE (R35). -/
  | l0pWidthChange (width : BitVec 5)
  /-- ENEC (R448). -/
  | enec
  /-- GET_VERSION (R109). -/
  | getVersion (mctp : Bool) (v12 : Bool) (v13 : Bool) (wellFormed : Bool)
  /-- GET_CAPABILITIES (R110). -/
  | getCapabilities (mctp : Bool) (wellFormed : Bool)
  /-- NEGOTIATE_ALGORITHMS (R109). -/
  | negotiateAlgorithms (mctp : Bool) (offers : Bool) (wellFormed : Bool)
  /-- FINISH (R109). -/
  | finish (session : Nat) (macOk : Bool) (wellFormed : Bool)
  /-- END_SESSION (R109). -/
  | endSession (session : Nat) (wellFormed : Bool)
  /-- KEY_UPDATE (R110). -/
  | keyUpdate (session : Nat) (wellFormed : Bool)
  /-- HEARTBEAT (R110). -/
  | heartbeat (session : Nat) (wellFormed : Bool)
  /-- VCORE_GOOD_DEASSERT (R393). -/
  | vcoreGoodDeassert
  /-- STREAM_CHUNK (R263). -/
  | streamChunk (n : Nat) (data : Bytes)
  /-- NOR_OPERATION_DONE (R128). -/
  | norOperationDone
  deriving DecidableEq, Repr

end Sys2Proof
end

