-- ==== Sys2Proof/Decode.lean ====
section
/-! DEFINITION. The operation table spells no command by bits: every row has an empty list of fields, so that no word stands for
a command (log 21). The 64-bit words of tile programs, which the part itself decodes, are in Machine/TileDecode.lean. -/

/-- The command that a word of the operation table spells: none, for the table gives no row any bits. -/
def Sys2Proof.decodeTableWord (_nbits _w : Nat) : Option Sys2Proof.Instr := none
end

