-- ==== Sys2Proof/Config.lean ====
section
/-! DEFINITION. What the spec leaves open and what one implementation fixes, as constants without a value: nothing can be
proved about them, so a statement holds whatever they are. Free values are named by the counter `free` of the state
(log 5); identities and cryptography by their inputs (logs 11 and 14). -/

namespace Sys2Proof.Config

/-- A fresh value of w bits where the spec says a value results but not which (log 5). -/
opaque freeBits : (w : Nat) → Nat → BitVec w

/-- A fresh number where the spec fixes at most a range (log 5). -/
opaque freeNat : Nat → Nat

/-- Esornir's assigned vendor identifier (R2, R44; log 14). -/
opaque vendorId : BitVec 16

/-- The JEDEC manufacturer identity of the JTAG identification register (R451; log 14). -/
opaque jedecId : BitVec 11

/-- The MCTP versions that the endpoint answers, its UUID and its FRU data (R449; log 14). -/
opaque mctpVersions : BitVec 32
opaque mctpUuid : BitVec 128
opaque fruData : List Int

/-- The part's PART_ID (R368; log 14). -/
opaque partId : BitVec 64

/-- SHA-384 of a block (log 11). -/
opaque sha384 : Bytes → BitVec 384

/-- Whether an ECDSA P-384 signature over a block verifies under a public key: key, block, signature (log 11). -/
opaque verify : Bytes → Bytes → Bytes → Bool

/-- The Esornir firmware public key of an index 0 to 3, held in ROM (R106). -/
opaque fwKey : Nat → Bytes

/-- The Esornir provisioning public key, held in ROM (R106). -/
opaque provKey : Bytes

/-- The KWK public key, uncompressed, of DEVICE_SEED and an effective firmware floor (R113). -/
opaque kwkPub : BitVec 256 → Nat → Bytes

/-- The wrapping key of R114: DEVICE_SEED, floor, EPH_PUB and the info bytes. -/
opaque wrapKey : BitVec 256 → Nat → Bytes → Bytes → BitVec 256

/-- Whether the identity area holds the certificate of the IDK of DEVICE_SEED, signed by the Esornir root (R107, R108). -/
opaque identityValid : BitVec 256 → Bytes → Bool

/-- The AK of DEVICE_SEED and the SHA-384 of measurement blocks 1 to 4 (R108; log 11). -/
opaque akKey : BitVec 256 → BitVec 384 → BitVec 384

/-- What an SCH image, by its digest, announces in IAREK_CAP bits 3 to 0 (R57, R95): its own, so free. -/
opaque imageCaps : BitVec 384 → BitVec 4

/-- The opcodes beyond the catalogue that an SCH image with EXT_CMDS serves, each with its flags in the IDENTIFY page (R68, R76; log 29). -/
opaque extOpcodes : BitVec 384 → List Nat

/-- AES-256-GCM opening: key, nonce, associated data, ciphertext, tag; none where the tag fails (R114, R117; log 11). -/
opaque gcmOpen : BitVec 256 → Bytes → Bytes → Bytes → Bytes → Option Bytes

/-- The signature of a block under an AK (R108, R119; log 11). -/
opaque akSign : BitVec 384 → Bytes → Bytes

/-- IMON_MA, TMON and DUTY of a phase as an update of the telemetry at a fabric time shows them (R436; log 45). -/
opaque phaseSense : Nat → BitVec 64 → Bytes

/-- The certificate chain of slot 0, root to AK, for the IDK of DEVICE_SEED, an AK and a firmware SVN (R108, R110; log 14). -/
opaque certChain : BitVec 256 → BitVec 384 → Nat → Bytes

/-- The SHA-384 of the SEC and PMC ROM (R111, block 1; log 14). -/
opaque romDigest : BitVec 384

/-- The SVN that a partner's AK certificate chain carries, none where the chain does not end at the Esornir root
(R119; log 11). -/
opaque chainSvn : Bytes → Option Nat

/-- The PART_ID of a partner by its certificate chain (18 Terms; log 11). -/
opaque chainPart : Bytes → BitVec 64

/-- The AK public key of a partner's certificate chain (R119; log 11). -/
opaque chainKey : Bytes → Bytes

/-- HKDF-SHA-384 of a secret with an info string (R352; log 11). -/
opaque hkdf : Bytes → Bytes → BitVec 256

/-- The ECDH secret of the part's ephemeral key of an attempt with a partner's public key (R352; log 11). -/
opaque ecdh : Nat → Bytes → Bytes

/-- The part's ephemeral P-384 public key of an attempt, 97 bytes (R352; log 11). -/
opaque ephPub : Nat → Bytes

/-- What the skew that DESKEW has measured for a port takes off a link delay, in units of 1/1024 ns: the spec states the correction
and not its arithmetic (01, time tree; R354; log 55). -/
opaque skewOf : Nat → Int

/-- Offset of the Filvos control DVSEC in the PF's configuration space (R44; not stated, log 31). -/
opaque dvsec : Nat

/-- Offset of the MSI-X capability in configuration space (R43; not stated, log 31). -/
opaque msixCap : Nat

/-- Offsets of the other capabilities of R36 and R37 in configuration space, and of the PBA of a function in BAR4 in units of 8 bytes
(R38; not stated, log 31). -/
opaque pcieCap : Nat
opaque sriovCap : Nat
opaque atsCap : Nat
opaque pasidCap : Nat
opaque aerCap : Nat
opaque pbaOffset : Nat → Nat

/-- The PASID that a function's requests carry once ATS is enabled (R45): the host's choice (log 61). -/
opaque pasidOf : Nat → BitVec 20

/-- How far the vector unit's function 0 exp, 1 reciprocal, 2 rsqrt, 3 sin or 4 cos, or Jasper's exp (5), lies from the nearest FP32
value to the exact result, at an operand: R150 gives only a bound (logs 35 and 41). -/
opaque vecError : Nat → BitVec 32 → Nat

/-- The result of such a function where R150 states none: rsqrt(−0), sin and cos of an infinity (log 35). -/
opaque vecOpen : Nat → BitVec 32 → BitVec 32

/-- How far exp(a − b) of VEXPS and VRESC stands from the exact value, within the bound of R150; and whether the difference is rounded
to FP32 first (R151; log 35). -/
opaque expDiffError : BitVec 32 → BitVec 32 → Nat
opaque expDiffRounds : Bool

/-- How far sin (0) and cos (1) of position × frequency stand from the exact value, within the bound of R150; and which products of a
rotated pair are rounded before they are added (R153; log 35). -/
opaque rotError : Nat → Nat → BitVec 32 → Nat
opaque rotRounding : Nat

/-- Which result a minimum and a maximum have where IEEE 754 allows several: the first operand, the second or, with a NaN, the
canonical NaN (R149; log 35). -/
opaque min32 : BitVec 32 → BitVec 32 → Nat
opaque max32 : BitVec 32 → BitVec 32 → Nat

/-- The element codes beside an MX scale of NaN: format code, FP32 codes of the block, place in the block (R147; log 35). -/
opaque mxNan : Nat → List Nat → Nat → Nat

/-- What VCVT makes of a NaN in an integer format of so many bits (log 35). -/
opaque nanToInt : Nat → Nat

/-- The last 16 bytes of a written 6-bit row, which the part ignores (R136, R166; log 35). -/
opaque pad6 : Nat → BitVec 128

/-- The code lengths that an engine gives the 256 symbols of a stream (R246); how it chooses them is not stated (log 40). -/
opaque micaLengths : Bytes → List Nat

/-- exp of a difference of infinities in the softmax of R313, of which nothing is stated (log 41). -/
opaque softExp : BitVec 32 → BitVec 32

end Sys2Proof.Config
end

