-- ==== Sys2Proof/Machine/Bytes.lean ====
section
/-! DEFINITION. Fields of byte blocks and of wide words, all little-endian (R3), and the CRC-32 that the spec names.
Which CRC-32 is meant the spec does not say; the reflected polynomial 0xEDB88320 of IEEE 802.3 is taken (log 16). -/

namespace Sys2Proof.Machine

/-- The number that bytes spell, lowest byte first (R3). -/
def leNat : Bytes → Nat
  | [] => 0
  | b :: r => b.toNat + 256 * leNat r

/-- The n-byte field at an offset; bytes beyond the end read 0. -/
def rd (b : Bytes) (off n : Nat) : Nat := leNat ((b.drop off).take n)

/-- The n-byte field at an offset, as a word. -/
def rdBV (w : Nat) (b : Bytes) (off : Nat) : BitVec w := BitVec.ofNat w (rd b off ((w + 7) / 8))

/-- n bytes at an offset. -/
def slice (b : Bytes) (off n : Nat) : Bytes := (b.drop off).take n

/-- The n little-endian bytes of a number. -/
def toLe : Nat → Nat → Bytes
  | 0, _ => []
  | n + 1, v => BitVec.ofNat 8 v :: toLe n (v / 256)

/-- Every byte is 0 (a reserved range, R4). -/
def allZero (b : Bytes) : Bool := b.all (· == 0#8)

/-- The offset of the first byte that is not 0 in a reserved range, if any. -/
def firstNonZero (b : Bytes) (off n : Nat) : Option Nat :=
  ((b.drop off).take n).findIdx? (· != 0#8) |>.map (off + ·)

/-- n bytes, short blocks filled with 0 and long ones cut. -/
def fit (n : Nat) (b : Bytes) : Bytes := (b ++ List.replicate n 0#8).take n

/-- The bits of a word from lo, n of them, as a number. -/
def bits {w : Nat} (v : BitVec w) (lo n : Nat) : Nat := (v.toNat >>> lo) % 2 ^ n

/-- A word with the n bits from lo replaced. -/
def setBits {w : Nat} (v : BitVec w) (lo n x : Nat) : BitVec w :=
  let m := (BitVec.ofNat w (2 ^ n - 1)) <<< lo
  (v &&& ~~~ m) ||| ((BitVec.ofNat w (x % 2 ^ n)) <<< lo)

/-- The bytes of a unit. -/
def unitBytes (u : Unit64) : Bytes := toLe 64 u.toNat

/-- The unit that 64 bytes spell. -/
def bytesUnit (b : Bytes) : Unit64 := BitVec.ofNat 512 (leNat (b.take 64))

/-- Cut a block into pieces of n bytes, at most k pieces. -/
def chunks (n : Nat) : Nat → Bytes → List Bytes
  | 0, _ => []
  | _ + 1, [] => []
  | k + 1, b => b.take n :: chunks n k (b.drop n)

/-- A two's-complement number of n bits. -/
def sgn (n : Nat) (v : Nat) : Int :=
  if v % 2 ^ n < 2 ^ (n - 1) then ((v % 2 ^ n : Nat) : Int) else ((v % 2 ^ n : Nat) : Int) - (2 ^ n : Nat)

/-- The n-bit two's-complement code of a number. -/
def unsgn (n : Nat) (i : Int) : Nat := (i % (2 ^ n : Nat)).toNat

/-- Clamp a number between two bounds. -/
def clampI (lo hi i : Int) : Int := if i < lo then lo else if hi < i then hi else i

/-- One step of a reflected CRC. -/
def crcShift (poly : Nat) : Nat → Nat → Nat
  | 0, c => c
  | n + 1, c => crcShift poly n (if c % 2 = 1 then Nat.xor (c / 2) poly else c / 2)

/-- A reflected CRC over bytes. -/
def crcRun (poly : Nat) (c : Nat) (b : Bytes) : Nat :=
  b.foldl (fun a x => crcShift poly 8 (Nat.xor a x.toNat)) c

/-- CRC-32 of R127 and R247 (log 16: the polynomial is not stated). -/
def crc32 (b : Bytes) : Nat := Nat.xor (crcRun 0xEDB88320 0xFFFFFFFF b) 0xFFFFFFFF

end Sys2Proof.Machine
end

