-- ==== Sys2Proof/Machine/Codes.lean ====
section
/-! DEFINITION. The numbers of the spec that name something: status codes (R5), counter indices (R459), event codes (R73),
cause codes (R104), READY_MAP bits (R24) and message opcodes (R69, R70). -/

namespace Sys2Proof.Machine

/-- A status code of R5. -/
abbrev Status := BitVec 16

abbrev stOk : Status := 0x0000#16
abbrev eBusy : Status := 0x0101#16
abbrev eNotReady : Status := 0x0102#16
abbrev eNoFit : Status := 0x0103#16
abbrev eNoMem : Status := 0x0104#16
abbrev eLevel : Status := 0x0201#16
abbrev eSig : Status := 0x0202#16
abbrev eCancelled : Status := 0x0301#16
abbrev eEnergy : Status := 0x0302#16
abbrev eEvicted : Status := 0x0303#16
abbrev eLease : Status := 0x0401#16
abbrev eThermal : Status := 0x0501#16
abbrev eFabric : Status := 0x0601#16

/-- The completion codes of R5. -/
def isStatus (x : Status) : Bool :=
  [stOk, eBusy, eNotReady, eNoFit, eNoMem, eLevel, eSig, eCancelled, eEnergy, eEvicted, eLease, eThermal, eFabric].contains x

/-! Counter indices (R459). -/

abbrev cViolFtStale : Nat := 0x000
abbrev cFtStep : Nat := 0x001
abbrev cBrownShort : Nat := 0x002
abbrev cBrownWarn : Nat := 0x003
abbrev cBrownReset : Nat := 0x004
abbrev cViolBarWrite : Nat := 0x005
abbrev cViolBarAccess : Nat := 0x006
abbrev cViolWinUnmapped : Nat := 0x007
abbrev cViolWinAlias : Nat := 0x008
abbrev cViolCfgWrite : Nat := 0x009
abbrev cViolD3Active : Nat := 0x00A
abbrev cHbmPoison : Nat := 0x00B
abbrev cViolIarekOpcode : Nat := 0x00C
abbrev cViolIarekField : Nat := 0x00D
abbrev cViolIarekHandle : Nat := 0x00E
abbrev cViolIarekPriv : Nat := 0x00F
abbrev cViolIarekRing : Nat := 0x010
abbrev cViolIarekDoorbell : Nat := 0x011
abbrev cViolIarekCqFull : Nat := 0x012
abbrev cViolLeaseLate : Nat := 0x013
abbrev cViolBootChannel : Nat := 0x014
abbrev cViolEpochStale : Nat := 0x015
abbrev cViolSpdm : Nat := 0x016
abbrev cViolProvOrder : Nat := 0x017
abbrev cLinkAuthFail : Nat := 0x018
abbrev cProvFallback : Nat := 0x019
abbrev cViolSpanPlane : Nat := 0x01A
abbrev cViolSpanFormat : Nat := 0x01B
abbrev cViolGrainsOverwrite : Nat := 0x01C
abbrev cViolTileEvent : Nat := 0x01D
abbrev cViolTileField : Nat := 0x01E
abbrev cViolTileBounds : Nat := 0x01F
abbrev cViolTileDesc : Nat := 0x020
abbrev cSlateConflict : Nat := 0x021
abbrev cHbmRateFallback : Nat := 0x022
abbrev cHbmThrottle : Nat := 0x023
abbrev cGrainsUe : Nat := 0x024
abbrev cSlateCe : Nat := 0x025
abbrev cSlateUe : Nat := 0x026
abbrev cBasaltCe : Nat := 0x027
abbrev cBasaltUe : Nat := 0x028
abbrev cHbmCe : Nat := 0x029
abbrev cHbmUe : Nat := 0x02A
abbrev cViolProvSetting : Nat := 0x02B
abbrev cViolSyncRange : Nat := 0x02C
abbrev cKvFramesFree : Nat := 0x02D
abbrev cKvDropPages : Nat := 0x02E
abbrev cKvGhostPages : Nat := 0x02F
abbrev cKvRevivePages : Nat := 0x030
abbrev cKvRecomputeTokens : Nat := 0x031
abbrev cKvInterrupted : Nat := 0x032
abbrev cKvEvicted : Nat := 0x033
abbrev cMicaSealCoded : Nat := 0x034
abbrev cMicaSealRaw : Nat := 0x035
abbrev cMicaSealAbandoned : Nat := 0x036
abbrev cMicaGranulesSaved : Nat := 0x037
abbrev cKvGranulesGhost : Nat := 0x038
abbrev cMicaGhostReclaimed : Nat := 0x039
abbrev cMicaGhostStranded : Nat := 0x03A
abbrev cMicaCrcFail : Nat := 0x03B
abbrev cViolTierSource : Nat := 0x03C
abbrev cWeightRepaired : Nat := 0x03D
abbrev cShipRefused : Nat := 0x03E
abbrev cShipAbandoned : Nat := 0x03F
abbrev cReqFailover : Nat := 0x040
abbrev cServeOrphaned : Nat := 0x041
abbrev cServeEnergyLate : Nat := 0x042
abbrev cViolServeMsg : Nat := 0x043
abbrev cJasperRows : Nat := 0x044
abbrev cJasperNan : Nat := 0x045
abbrev cJasperCountFull : Nat := 0x046
abbrev cSpecDrafted : Nat := 0x047
abbrev cSpecAccepted : Nat := 0x048
abbrev cViolVisionParam : Nat := 0x049
abbrev cViolVisionBox : Nat := 0x04A
abbrev cVisionRecords : Nat := 0x04B
abbrev cFlintSyn : Nat := 0x04C
abbrev cFlintSpikes : Nat := 0x04D
abbrev cFlintQueueDrop : Nat := 0x04E
abbrev cFlintLagDrop : Nat := 0x04F
abbrev cFlintLateInput : Nat := 0x050
abbrev cFlintOutDrop : Nat := 0x051
abbrev cFlintWakeIdle : Nat := 0x052
abbrev cViolFlintInput : Nat := 0x053
abbrev cViolLinkRace : Nat := 0x054
abbrev cViolFabHold : Nat := 0x055
abbrev cViolLinkWiring : Nat := 0x056
abbrev cLinkDown : Nat := 0x057
abbrev cLinkCreditReclaim : Nat := 0x058
abbrev cLinkWidthChange : Nat := 0x059
abbrev cViolFabLevel : Nat := 0x05A
abbrev cViolFabScale : Nat := 0x05B
abbrev cViolFabAddr : Nat := 0x05C
abbrev cViolFabMsg : Nat := 0x05D
abbrev cFabUnreachable : Nat := 0x05E
abbrev cFabNoDest : Nat := 0x05F
abbrev cFabStallDrop : Nat := 0x060
abbrev cFabMsgLost : Nat := 0x061
abbrev cFabForward : Nat := 0x062
abbrev cPhaseDrop : Nat := 0x063
abbrev cPhaseSenseFail : Nat := 0x064
abbrev cPhaseHot : Nat := 0x065
abbrev cDroopStretch : Nat := 0x066
abbrev cOpChangeAbandoned : Nat := 0x067
abbrev cVcoreOvershoot : Nat := 0x068
abbrev cPwrbrk : Nat := 0x069
abbrev cSlewBallast : Nat := 0x06A
abbrev cSensorFail : Nat := 0x06B
abbrev cMeterFail : Nat := 0x06C
abbrev cThermalPredict : Nat := 0x06D
abbrev cThermalThrottle : Nat := 0x06E
abbrev cThermalCritical : Nat := 0x06F
abbrev cViolMctp : Nat := 0x070
abbrev cViolJtagMode : Nat := 0x071
abbrev cSpiSlow : Nat := 0x072
abbrev cRefclkLoss : Nat := 0x073

/-- How many counters level 3.x has (R461). -/
abbrev counterCount : Nat := 116

/-- The Tenant counters of R459; the others are Part counters. -/
def isTenant (k : Nat) : Bool :=
  (0x005 ≤ k && k ≤ 0x00A) || (0x00C ≤ k && k ≤ 0x013) || (0x01A ≤ k && k ≤ 0x021) || (0x024 ≤ k && k ≤ 0x02A) ||
  (0x02C ≤ k && k ≤ 0x053)

/-- The four 64-bit counters of R459. -/
def isWide (k : Nat) : Bool :=
  k == cServeEnergyLate || k == cFlintSyn || k == cFabForward || k == cSlewBallast

/-- The two level counters of R459, which CLEAR leaves unchanged (R461). -/
def isLevel (k : Nat) : Bool := k == cKvFramesFree || k == cKvGranulesGhost

/-! Bits of IAREK_CAP (R57). -/

abbrev capHandoff : Nat := 2
abbrev capExt : Nat := 3

/-! READY_MAP bits (R24). -/

abbrev rAon : Nat := 0
abbrev rSecRom : Nat := 1
abbrev rCfg : Nat := 2
abbrev rProv : Nat := 3
abbrev rFw : Nat := 4
abbrev rPmc : Nat := 5
abbrev rSch : Nat := 6
/-- Bit of HBM stack `s`. -/
abbrev rHbm (s : Nat) : Nat := 7 + s
abbrev rBasalt : Nat := 13
/-- Bit of cluster `n`. -/
abbrev rCl (n : Nat) : Nat := 14 + n
abbrev rFlint : Nat := 22
abbrev rFtLock : Nat := 23
abbrev rFabricAny : Nat := 24
abbrev rFabricAll : Nat := 25
abbrev rVf : Nat := 26

/-! Opcodes (R69, R70). -/

abbrev opIdentify : Nat := 0x0001
abbrev opAdopt : Nat := 0x0002
abbrev opRingCreate : Nat := 0x0003
abbrev opRingDelete : Nat := 0x0004
abbrev opList : Nat := 0x0005
abbrev opCounters : Nat := 0x0006
abbrev opBufAlloc : Nat := 0x0010
abbrev opBufFree : Nat := 0x0011
abbrev opWinMap : Nat := 0x0012
abbrev opWinUnmap : Nat := 0x0013
abbrev opKeyLoad : Nat := 0x0020
abbrev opModelLoad : Nat := 0x0021
abbrev opModelUnload : Nat := 0x0022
abbrev opAdapterLoad : Nat := 0x0023
abbrev opAdapterUnload : Nat := 0x0024
abbrev opModelQuery : Nat := 0x0025
abbrev opProgLoad : Nat := 0x0030
abbrev opProgUnload : Nat := 0x0031
abbrev opFlintLoad : Nat := 0x0032
abbrev opFlintUnload : Nat := 0x0033
abbrev opProfileSet : Nat := 0x0040
abbrev opProfileFree : Nat := 0x0041
abbrev opPoolSet : Nat := 0x0050
abbrev opLimitSet : Nat := 0x0051
abbrev opPhaseOpSet : Nat := 0x0052
abbrev opFwUpdate : Nat := 0x0060
abbrev opProvStage : Nat := 0x0061
abbrev opReqSubmit : Nat := 0x0101
abbrev opReqCancel : Nat := 0x0102
abbrev opReqQuery : Nat := 0x0103
abbrev opTaskRun : Nat := 0x0104
abbrev opFlintRun : Nat := 0x0105

/-- The catalogue of R69 and R70 in ascending order, each with the bits 16 (admin), 17 (PF only) and 18 (direct slot only)
of the IDENTIFY page (R76). -/
def catalogue : List Nat :=
  [0x10001, 0x50002, 0x10003, 0x10004, 0x10005, 0x10006, 0x10010, 0x10011, 0x10012, 0x10013] ++
  [0x10020, 0x10021, 0x10022, 0x10023, 0x10024, 0x10025, 0x10030, 0x10031, 0x10032, 0x10033] ++
  [0x10040, 0x10041, 0x30050, 0x30051, 0x30052, 0x30060, 0x30061] ++
  [0x0101, 0x0102, 0x0103, 0x0104, 0x0105]

/-- An admin opcode of the catalogue (R69). -/
def isAdminOp (op : Nat) : Bool := catalogue.any (fun e => e % 65536 == op && (e / 65536) % 2 == 1)

/-- A PF-only opcode of the catalogue (R69). -/
def isPfOp (op : Nat) : Bool := catalogue.any (fun e => e % 65536 == op && (e / 131072) % 2 == 1)

/-! Event codes (R73) and the causes of event 0x0006 (R104). -/

abbrev evThermal : Nat := 1
abbrev evFabric : Nat := 2
abbrev evPhase : Nat := 3
abbrev evBrown : Nat := 4
abbrev evHbm : Nat := 5
abbrev evFw : Nat := 6

abbrev cauRestart : Nat := 0
abbrev cauHandoff : Nat := 1
abbrev cauWatchdog : Nat := 2
abbrev cauMemory : Nat := 3
abbrev cauTrap : Nat := 4
abbrev cauSecReset : Nat := 5
abbrev cauRollback : Nat := 6
abbrev cauBrownout : Nat := 7

/-! Handle kinds (R66). -/

abbrev kKey : Nat := 0
abbrev kRequest : Nat := 1
abbrev kModel : Nat := 2
abbrev kAdapter : Nat := 3
abbrev kBuffer : Nat := 4
abbrev kProgram : Nat := 5
abbrev kProfile : Nat := 6
abbrev kNetwork : Nat := 7

/-! Agents (R82). -/

abbrev agSec : Nat := 0
abbrev agPmc : Nat := 1
abbrev agSch : Nat := 2
/-- CCCn. -/
abbrev agCcc (n : Nat) : Nat := 3 + n

end Sys2Proof.Machine
end

