-- ==== Sys2Proof/Machine/Tab.lean ====
section
/-! DEFINITION. Sparse tables: a list of keys and values, keys rising, with a default for a key that is not listed.
Register files, memories of cores and object tables are kept this way, so that a state is plain data and stays small. -/

namespace Sys2Proof.Machine

/-- A sparse table keyed by number. -/
abbrev Tab (α : Type) := List (Nat × α)

/-- The entry listed for a key. -/
def Tab.find {α : Type} (t : Tab α) (k : Nat) : Option α :=
  match t with
  | [] => none
  | (i, v) :: r => if i = k then some v else Tab.find r k

/-- The value at a key, the default where none is listed. -/
def Tab.get {α : Type} (d : α) (t : Tab α) (k : Nat) : α :=
  (Tab.find t k).getD d

/-- Insert before the first larger key. -/
def Tab.insert {α : Type} (t : Tab α) (k : Nat) (v : α) : Tab α :=
  match t with
  | [] => [(k, v)]
  | (i, w) :: r => if k < i then (k, v) :: (i, w) :: r else (i, w) :: Tab.insert r k v

/-- The table without a key. -/
def Tab.erase {α : Type} (t : Tab α) (k : Nat) : Tab α :=
  t.filter (fun e => e.1 != k)

/-- The table with a value at a key. -/
def Tab.put {α : Type} (t : Tab α) (k : Nat) (v : α) : Tab α :=
  Tab.insert (Tab.erase t k) k v

/-- The table with the value at a key changed by a function. -/
def Tab.upd {α : Type} (d : α) (t : Tab α) (k : Nat) (f : α → α) : Tab α :=
  Tab.put t k (f (Tab.get d t k))

/-- The keys, in the order listed. -/
def Tab.keys {α : Type} (t : Tab α) : List Nat := t.map (·.1)

/-- The values, in the order listed. -/
def Tab.vals {α : Type} (t : Tab α) : List α := t.map (·.2)

/-- Whether a key is listed. -/
def Tab.has {α : Type} (t : Tab α) (k : Nat) : Bool := (Tab.find t k).isSome

/-- Keep the entries that satisfy a test. -/
def Tab.keep {α : Type} (t : Tab α) (p : Nat → α → Bool) : Tab α :=
  t.filter (fun e => p e.1 e.2)

/-- Change every value. -/
def Tab.mapVals {α : Type} (t : Tab α) (f : Nat → α → α) : Tab α :=
  t.map (fun e => (e.1, f e.1 e.2))

/-- The lowest key from `k` on, among at most `n` candidates, that is not listed. -/
def Tab.freeFrom {α : Type} (t : Tab α) (k : Nat) : Nat → Nat
  | 0 => k
  | n + 1 => if Tab.has t k then Tab.freeFrom t (k + 1) n else k

/-- The lowest key that is not listed. -/
def Tab.fresh {α : Type} (t : Tab α) : Nat := Tab.freeFrom t 0 t.length

/-- The keys rise strictly. -/
def Tab.sorted {α : Type} : Tab α → Bool
  | [] => true
  | [_] => true
  | (i, _) :: (j, w) :: r => decide (i < j) && Tab.sorted ((j, w) :: r)

/-- Insert in an order. -/
def insertBy {α : Type} (before : α → α → Bool) (x : α) : List α → List α
  | [] => [x]
  | y :: r => if before x y then x :: y :: r else y :: insertBy before x r

end Sys2Proof.Machine
end

