-- ==== Sys2Proof/Machine/TypesHost.lean ====
section
/-! DEFINITION. The state of bring-up, fabric time, the host link, the mailboxes and the firmware processors
(01 to 04). A field's default value is its value at reset; where the spec gives none, log 7 names it. -/

namespace Sys2Proof.Machine

/-- Pins, rails and references the part sees (R446, R447, R391, R392). -/
structure Pins where
  /-- PERST# asserted. -/
  perst : Bool := true
  /-- ADDR_SEL as sampled at PERST# deassertion (R447, R448). -/
  addrSel : BitVec 2 := 0
  coreEn : Bool := false
  vcoreGood : Bool := false
  /-- THERMTRIP# asserted; only VDD_AUX loss releases it (R434). -/
  thermtrip : Bool := false
  /-- Every phase set to mid-level (R409, R434). -/
  phasesMid : Bool := true
  /-- SPI_CS# high (R447). -/
  spiCs : Bool := true
  /-- Island clocks stopped (R434). -/
  clocksStopped : Bool := false
  /-- SYSCLK_25M runs (R446). -/
  refSys : Bool := true
  /-- FAB_REFCLK runs (R446). -/
  refFab : Bool := true
  /-- SYSCLK_25M has stopped and returned; the loops trim again without a step (R446). -/
  loopsHeld : Bool := false
  deriving DecidableEq, Repr

/-- Fabric time (R15 to R20). -/
structure FabricTime where
  /-- FT_NOW in units of 2⁻¹⁶ of 1/1024 ns: the 64-bit count and 16 fraction bits of the rate word (R15). -/
  count : BitVec 80 := 0
  rate : BitVec 32 := 0x06666666#32
  epoch : BitVec 16 := 0
  hops : BitVec 4 := 0
  master : Bool := false
  holdover : Bool := false
  locked : Bool := false
  running : Bool := false
  /-- The part has taken its first step to its parent's time (R18). -/
  everLocked : Bool := false
  /-- ROOT_OFS, signed 64 bits (R17). -/
  rootOfs : BitVec 64 := 0
  /-- Consecutive missed beats (R18). -/
  missed : Nat := 0
  /-- The view of the time master's epoch (R19). -/
  masterEpoch : BitVec 16 := 0
  /-- EPOCH as the last beat of a neighbour in another Furlong carried it, per port: the view of that Furlong's master (R17, R19). -/
  peerEpoch : Tab (BitVec 16) := []
  /-- Address of the time master as the parent reports it (R352). -/
  masterAddr : BitVec 12 := 0
  /-- Port towards the time-tree parent, and towards the root parent (R15, R17). -/
  parent : Option Nat := none
  rootParent : Option Nat := none
  /-- SEQ of the last SYNC_REQ sent, and of the one still unanswered per port (R352). -/
  seq : BitVec 16 := 0
  waiting : Tab (BitVec 16 × BitVec 64) := []
  /-- T4 of the previous SYNC_RESP per port (R352). -/
  t4 : Tab (BitVec 64) := []
  /-- Half the round trip, corrected by the measured skew, per port (01, time tree). -/
  delay : Tab Int := []
  /-- The part has regained its parent and slews back towards it (R18). -/
  slewing : Bool := false
  deriving DecidableEq, Repr

/-- An event 0x0004 kept while SCH is not running (R33): KIND, depth and duration. -/
structure BrownEvent where
  kind : Nat
  depth : Nat
  dur : Nat
  deriving DecidableEq, Repr

/-- A dip that is over and whose event waits for the release of BROWN# (R33): whether it was a reset, whether READY_MAP.FW was 0
then, whether a cluster has been left FAULTED since, and its deepest point. -/
structure BrownDue where
  reset : Bool
  fw0 : Bool
  faulted : Bool
  depth : Nat
  deriving DecidableEq, Repr

/-- The VDD_CORE dip in progress and BROWN# (R30 to R33). -/
structure Brown where
  dip : Bool := false
  /-- The dip in progress has taken the warning response, or the reset response. -/
  warned : Bool := false
  reset : Bool := false
  /-- VDD_CORE has recovered since the last dip (R31). -/
  recovered : Bool := true
  /-- BROWN# asserted. -/
  asserted : Bool := false
  /-- Cluster bits set before a reset that have neither returned nor been left FAULTED (R32). -/
  awaited : List Nat := []
  /-- A cluster was left FAULTED after the reset of the dip in progress (R33). -/
  faulted : Bool := false
  /-- READY_MAP.FW was 0 at the reset of the dip in progress (R32). -/
  fwWas0 : Bool := false
  /-- Dips that are over, whose events wait for the release of BROWN#, oldest first (R33). -/
  due : List BrownDue := []
  /-- Deepest point of the dip in progress, in 0.25 % below setpoint (R33). -/
  depth : Nat := 0
  /-- `time` at the assertion of BROWN#. -/
  since : Nat := 0
  /-- Events kept for SCH, at most 16 (R33). -/
  kept : List BrownEvent := []
  deriving DecidableEq, Repr

/-- An MSI-X table entry (R43). -/
structure MsixVec where
  addr : BitVec 64 := 0
  data : BitVec 32 := 0
  mask : Bool := true
  deriving DecidableEq, Repr

/-- A completion entry before its ring fields are filled in (R62). Bytes 0x10 to 0x37 are bits 0 to 319 of `result`. -/
structure Cqe where
  kind : Nat := 0
  final : Bool := true
  status : Status := stOk
  tag : BitVec 32 := 0
  handle : BitVec 64 := 0
  result : BitVec 320 := 0
  retry : Nat := 0
  opcode : Nat := 0
  sqId : Nat := 0
  deriving DecidableEq, Repr

/-- An entry of the held store: the ring pair it belongs to, and the entry (R63). -/
structure Held where
  q : Nat
  e : Cqe
  /-- It was produced while the function was fenced (R79). -/
  fence : Bool := false
  deriving DecidableEq, Repr

/-- An owner tag (R96). -/
structure Tag where
  agent : Nat := 15
  fn : Nat := 0
  fepoch : BitVec 11 := 0
  aepoch : BitVec 12 := 0
  deriving DecidableEq, Repr

/-- The 32 bits of an owner tag (R96). -/
def Tag.word (t : Tag) : BitVec 32 :=
  BitVec.ofNat 32 (t.agent % 16 * 2 ^ 28 + t.fn % 32 * 2 ^ 23 + t.fepoch.toNat * 2 ^ 12 + t.aepoch.toNat)

/-- One ring pair (R57 to R59). -/
structure Ring where
  sqBase : BitVec 64 := 0
  cqBase : BitVec 64 := 0
  enable : Bool := false
  vector : BitVec 6 := 0
  weight : BitVec 4 := 0
  sqLog : BitVec 5 := 0
  cqLog : BitVec 5 := 0
  /-- RING_COAL: COAL_US and COAL_N. -/
  coalUs : BitVec 8 := 0
  coalN : BitVec 8 := 0
  sqHead : Nat := 0
  sqTail : Nat := 0
  cqHead : Nat := 0
  cqTail : Nat := 0
  phase : Bool := true
  /-- Owner tag (R96). -/
  tag : Tag := {}
  /-- Entries written since the last message (R64). -/
  unsig : Nat := 0
  /-- The CQ is in the held state (R63). -/
  full : Bool := false
  deriving DecidableEq, Repr

/-- What a BAR2 slot maps: a buffer and the 4 MiB unit within it (R41). -/
structure Slot where
  buf : Nat
  unit : Nat
  deriving DecidableEq, Repr

/-- One function: its fence, lease, mailboxes, window and interrupts (02, 03). -/
structure Func where
  fenced : Bool := false
  fenceDone : Bool := false
  fenceCause : BitVec 2 := 0
  /-- Bus Master Enable (R47); PCIe resets it to 0. -/
  bme : Bool := false
  /-- In D3hot (R47). -/
  d3 : Bool := false
  /-- Device Control, with the sizes of payload and read requests, and ASPM Control (R36); PCIe's reset values (log 61). -/
  devCtl : BitVec 16 := 0x2810#16
  aspm : BitVec 2 := 0
  /-- ATS and PASID are enabled (R36, R45). -/
  ats : Bool := false
  pasid : Bool := false
  /-- AER: uncorrectable mask and severity, and correctable mask (R36); PCIe's reset values (log 61). -/
  aerMask : BitVec 32 × BitVec 32 × BitVec 32 := (0x00400000#32, 0x00462030#32, 0x0000E000#32)
  /-- An FLR runs (R55). -/
  flr : Bool := false
  slots : Tab Slot := []
  msix : Tab MsixVec := []
  pba : BitVec 64 := 0
  msixEn : Bool := false
  msixMask : Bool := false
  policy : BitVec 2 := 0
  period : BitVec 14 := 0x00FA#14
  armed : Bool := false
  expired : Bool := false
  settled : Bool := false
  /-- POLICY is applied to the function's work (R79), from a lease expiry or a fence of cause 0b10 or 0b11. -/
  policyOn : Bool := false
  cancelLow : Option (BitVec 32) := none
  directCmd : BitVec 512 := 0
  directCpl : BitVec 512 := 0
  rings : Tab Ring := []
  held : List Held := []
  fepoch : BitVec 11 := 0
  ftLatch : Option (BitVec 32) := none
  /-- High halves of counters that a read of the low half has latched (R463). -/
  teleLatch : Tab (BitVec 32) := []
  deriving DecidableEq, Repr

/-- The host link (R35, R44, R37). -/
structure HostLink where
  /-- RATE of HOST_LINK_STATUS. -/
  rate : BitVec 2 := 0
  width : BitVec 5 := 0
  l0p : BitVec 5 := 0x10#5
  flit : Bool := false
  cxlMem : Bool := false
  cxlCache : Bool := false
  degraded : Bool := false
  /-- CXL stopped until the next whole-part reset (R35). -/
  cxlOff : Bool := false
  /-- Size of the coherent window in 256 MiB units (R50). -/
  winUnits : Nat := 0
  secResetBusy : Bool := false
  numVfs : Nat := 0
  vfEnable : Bool := false
  /-- Base addresses of BAR0, BAR2 and BAR4 of the PF, and of the first VF (R38). -/
  bars : List (BitVec 64) := [0, 0, 0]
  vfBars : List (BitVec 64) := [0, 0, 0]
  deriving DecidableEq, Repr

/-- MESI states of a device-cache line (R52). -/
inductive Mesi where
  | m | e | s | i
  deriving DecidableEq, Repr

/-- A device-cache line. -/
structure CacheLine where
  state : Mesi
  data : Unit64
  deriving DecidableEq, Repr

/-- The three eviction requests of R53. -/
inductive EvictKind where
  | clean | cleanNoData | dirty
  deriving DecidableEq, Repr

/-- An eviction-buffer entry (R53): the line as it was before, its kind, whether a snoop has hit it and the state left. -/
structure Evict where
  line : Nat
  state : Mesi
  data : Unit64
  kind : EvictKind
  snooped : Bool
  deriving DecidableEq, Repr

/-- The device cache, the eviction buffer and the snoop filter (R49 to R53). -/
structure Cxl where
  lines : Tab CacheLine := []
  evict : List Evict := []
  /-- Coherent-window lines the host holds, least recently used first (R51). -/
  snoop : List Nat := []
  /-- Lines with a back-invalidate outstanding (R51). -/
  waiting : List Nat := []
  deriving DecidableEq, Repr

/-- BOOT_STATUS.STATE (R84). -/
inductive BootState where
  | wait | fetch | verify | load | running | refused | updating
  deriving DecidableEq, Repr

/-- The code of a boot state (R84). -/
def BootState.code : BootState → Nat
  | .wait => 0 | .fetch => 1 | .verify => 2 | .load => 3 | .running => 4 | .refused => 5 | .updating => 6

/-- PROC_STATUS.STATE (R84). -/
inductive ProcState where
  | rom | loading | running | restarting | handoff | faulted
  deriving DecidableEq, Repr

/-- The code of a processor state (R84). -/
def ProcState.code : ProcState → Nat
  | .rom => 0 | .loading => 1 | .running => 2 | .restarting => 3 | .handoff => 4 | .faulted => 5

/-- One image table entry of a bundle (R83). -/
structure Image where
  target : Nat
  fmt : Nat
  off : Nat
  codeLen : Nat
  dataLen : Nat
  digest : BitVec 384
  deriving DecidableEq, Repr

/-- A verified bundle in the firmware store (R89): its header fields, its images and the bundle itself. -/
structure Bundle where
  level : BitVec 16
  abi : BitVec 16
  build : BitVec 32
  svn : Nat
  keyIdx : Nat
  images : List Image
  bytes : Bytes
  deriving DecidableEq, Repr

/-- One firmware processor (R84, R98, R103). -/
structure Proc where
  aepoch : BitVec 12 := 0
  /-- The running image comes from slot B (R84). -/
  slotB : Bool := false
  restarts : Nat := 0
  lastCause : Nat := 0
  state : ProcState := .rom
  /-- An image has been loaded and not lost: the processor has left ROM or reset. -/
  imaged : Bool := false
  /-- Instruction and data memory as SEC last loaded them (R82, R83). What the firmware writes to its data memory is its own. -/
  imem : Bytes := []
  dmem : Bytes := []
  /-- SEC's image has come through the boot channel, because the one in its slot failed its checks (R102). -/
  pushed : Bool := false
  /-- It is FAULTED, or was when the FW_UPDATE in progress began to replace it (R103). -/
  halted : Bool := false
  /-- `time` of the faults counted towards R103, newest first. -/
  faults : List Nat := []
  /-- `time` of the last advance of AEPOCH (R98). -/
  lastAdv : Option Nat := none
  /-- A revocation deferred by R98, with the cause of its event. -/
  deferred : Option Nat := none
  /-- The revocation of the fault in hand has been done, so that the image may be reloaded (R99). -/
  revoked : Bool := true
  /-- The image being replaced ran from slot B (R93). -/
  oldSlotB : Bool := false
  /-- A new image set by FW_UPDATE has not yet set RUNNING (R93), and whether by handoff. -/
  fresh : Option Bool := none
  /-- A fault to be handled by SEC once SEC runs again (R102). -/
  waitingSec : Bool := false
  deriving DecidableEq, Repr

/-- The boot channel and the firmware store (R84, R89). -/
structure Boot where
  state : BootState := .wait
  result : Status := 0
  src : BitVec 64 := 0
  len : BitVec 32 := 0
  slotA : Option Bundle := none
  slotB : Option Bundle := none
  /-- Places of the two slots that an uncorrectable error has hit since they were written: slot B or A, and byte (R89, R206). -/
  bad : List (Bool × Nat) := []
  /-- RUN_LEVEL and RUN_BUILD of SCH's running image. -/
  runLevel : BitVec 16 := 0
  runAbi : BitVec 16 := 0
  runBuild : BitVec 32 := 0
  /-- IAREK_CAP bits 3 to 0 as the running SCH image announces them (R57). -/
  cap : BitVec 4 := 0
  /-- Digest of the running SCH image, on which what it announces depends (R57, R76). -/
  schImage : BitVec 384 := 0
  /-- GO waits for READY_MAP.BASALT or for the fetch (R86, R87). -/
  fetching : Bool := false
  /-- Only the SEC image of the next bundle is taken (R102). -/
  secOnly : Bool := false
  /-- DETAIL of events 0x0006 that wait for SCH (R104), and stacks that failed before it ran (R205). -/
  late : List Nat := []
  lateHbm : List Nat := []
  deriving DecidableEq, Repr

/-- An FW_UPDATE in progress (R94): who asked, the targets still to replace, the one in hand and the slot it runs from. -/
structure FwUpdate where
  fn : Nat
  /-- Ring pair of the command, or none for the direct slot. -/
  q : Option Nat
  tag : BitVec 32
  todo : List Nat
  cur : Option Nat
  handoff : Bool
  toB : Bool
  /-- The PF was reset meanwhile: no completion is written (R54). -/
  orphan : Bool
  deriving DecidableEq, Repr

/-- The handoff area (R92): the processor it is open to, its format and the block. -/
structure Handoff where
  agent : Nat
  fmt : Nat
  block : Bytes
  deriving DecidableEq, Repr

end Sys2Proof.Machine
end

