-- ==== Sys2Proof/Machine/TypesFab.lean ====
section
/-! DEFINITION. The state of Flint (16), the fabric links (17) and the topology (18), and the layout of what travels on
them. -/

namespace Sys2Proof.Machine

/-- A neuron record (R335). -/
structure Neuron where
  thr : Nat
  decay : Nat
  wshift : Nat
  resetSub : Bool
  output : Bool
  wake : Bool
  refrac : Nat
  first : Nat
  count : Nat
  wline : Nat
  deriving DecidableEq, Repr

/-- An input record (R335). -/
structure InLine where
  tile : Nat
  count : Nat
  first : Nat
  deriving DecidableEq, Repr

/-- A synapse entry (R335). -/
structure Synapse where
  tile : Nat
  neuron : Nat
  delay : Nat
  weight : Int
  deriving DecidableEq, Repr

/-- A loaded network (R335, R336): synapses per network-local tile, and the tiles granted in that order. -/
structure Net where
  fn : Nat
  tiles : Nat
  neurons : List Neuron
  inputs : List InLine
  syn : List (List Synapse)
  granted : List Nat
  deriving DecidableEq, Repr

/-- State of a neuron in a run (R337). -/
structure NState where
  v : Int := 0
  last : Nat := 0
  refEnd : Nat := 0
  deriving DecidableEq, Repr

/-- A synaptic event in a wheel: due step, target network-local tile and neuron, weight (R338). -/
structure Event where
  due : Nat
  tile : Nat
  neuron : Nat
  weight : Int
  deriving DecidableEq, Repr

/-- An input record read from IN_BUF and not yet due (R339). -/
structure InEvent where
  step : Nat
  line : Nat
  stop : Bool
  deriving DecidableEq, Repr

/-- A run of a network, waiting or in progress (R341). -/
structure Run where
  fn : Nat
  q : Nat
  tag : BitVec 32
  net : Nat
  inBuf : Nat
  outBuf : Nat
  duration : Nat
  started : Bool := false
  step : Nat := 0
  /-- Neuron states, keyed by neuron. -/
  neurons : Tab NState := []
  wheel : List Event := []
  /-- Strobes since step 0 began; `step` is the number of steps closed, and the difference is the lag (R338). -/
  strobes : Nat := 0
  /-- Events of the step being closed that each network-local tile has integrated so far. -/
  spent : Tab Nat := []
  inputs : List InEvent := []
  lastIn : Nat := 0
  inEvents : Nat := 0
  spikes : Nat := 0
  drops : Nat := 0
  synEvents : Nat := 0
  energy : Nat := 0
  tStart : BitVec 64 := 0
  /-- It has ended with this status while SCH was down, and its completion waits for SCH (R341). -/
  ended : Option Status := none
  deriving DecidableEq, Repr

/-- Flint (16): networks by handle, what holds each tile, and the runs, oldest first. -/
structure Flint where
  nets : Tab Net := []
  tiles : Tab Tag := []
  runs : List Run := []
  deriving DecidableEq, Repr

/-- States of a port (R363). -/
inductive PortState where
  | unused | hold | training | up | retrain | down
  deriving DecidableEq, Repr

/-- The code of a port state (R363). -/
def PortState.code : PortState → Nat
  | .unused => 0 | .hold => 1 | .training => 2 | .up => 3 | .retrain => 4 | .down => 5

/-- Training stages (R354). -/
inductive Stage where
  | detect | lock | identify | equalize | deskew | linkInit
  deriving DecidableEq, Repr

/-- A frame as the part sends or holds it (R348), its payload in plaintext. -/
structure FrameT where
  seq : BitVec 16
  ack : BitVec 16
  vc : Nat
  nak : Bool
  phase : Bool
  credVc : Nat
  credits : Nat
  payload : Bytes
  deriving DecidableEq, Repr

/-- A port (R346 to R363). -/
structure Port where
  st : PortState := .unused
  bundle : Nat := 0
  firstLane : Nat := 0
  width : Nat := 0
  level : Nat := 0
  mode : Nat := 0
  /-- Lanes in use, by lane of the port. -/
  lanes : BitVec 8 := 0
  stage : Stage := .detect
  /-- What the running attempt is: 1 full training, 2 fast retrain, 3 width change (R353). -/
  attempt : Nat := 0
  /-- The cause of R364 that led to it. -/
  cause : Nat := 0
  /-- The port has stopped carrying frames and has not yet reached DOWN (R362), and the mode it ran in before. -/
  linkDown : Bool := false
  oldMode : Nat := 0
  nonce : BitVec 64 := 0
  partnerNonce : BitVec 64 := 0
  partner : Option Nat := none
  /-- PART_ID of the partner, learnt with its certificate (R370). -/
  partnerId : BitVec 64 := 0
  partnerPort : Nat := 0
  /-- The partner's record gives the link another level (R368). -/
  levelBad : Bool := false
  partnerWidth : Nat := 0
  partnerPam4 : Bool := false
  /-- Lanes that have passed the last stage here and at the partner (R355). -/
  laneOk : BitVec 8 := 0
  partnerOk : BitVec 8 := 0
  leader : Bool := false
  reversed : Bool := false
  selfWired : Bool := false
  /-- A mode has been chosen and accepted in this attempt (R355). -/
  accepted : Bool := false
  /-- The other end's HOLD was met: first in line for a slot (R358). -/
  listens : Bool := false
  attempts : Nat := 0
  givenUp : Bool := false
  /-- The port has been UP since the last whole-part reset (R364). -/
  wasUp : Bool := false
  retrains : Nat := 0
  replays : Nat := 0
  fecCorr : Nat := 0
  fecUncorr : Nat := 0
  pathDelay : Nat := 0
  /-- The end's own request, the CAUSE of the partner's last LINK_REQ, and the cause still to be checked after a collision
  (R352, R361). -/
  request : Nat := 0
  reqCause : Nat := 0
  deferred : Option Nat := none
  -- link keys (R119, R120, R352)
  keyed : Bool := false
  rejected : Bool := false
  certs : List Bytes := []
  certsDone : Bool := false
  partnerPub : Option Bytes := none
  ephNo : Nat := 0
  proofSent : Bool := false
  /-- A KEY_PROOF that waits for SEC (R102). -/
  proofIn : Option Bytes := none
  accept : Bool := false
  doneSeen : Bool := false
  keyTx : BitVec 256 := 0
  keyRx : BitVec 256 := 0
  keyRxOld : Option (BitVec 256) := none
  phaseTx : BitVec 32 := 0
  phaseRx : BitVec 32 := 0
  rekeying : Bool := false
  framesTx : Nat := 0
  -- frames (R349, R350)
  seqTx : BitVec 16 := 0
  wrapsTx : Nat := 0
  /-- Highest SEQ received in order, and whether any has been. -/
  seqRx : BitVec 16 := 0
  ackedTx : BitVec 16 := 0
  /-- Frames sent and not acknowledged, oldest first, each with how often it has been resent. -/
  replay : List (FrameT × Nat) := []
  /-- Frames queued per VC, waiting for credit. -/
  queues : Tab (List Bytes) := []
  /-- KV and BULK take turns (R377): BULK is next. -/
  bulkNext : Bool := false
  /-- Credits of the partner in use per VC, and credits owed to the partner (R350). -/
  used : Tab Nat := []
  owed : Tab Nat := []
  /-- Frames of a message of several frames received so far per VC (R378), and frames left of the message whose sending has
  begun per VC. -/
  partial_ : Tab Bytes := []
  txLeft : Tab Nat := []
  deriving DecidableEq, Repr

/-- A port entry of a link-state record (R370). -/
structure LsPort where
  port : Nat
  level : Nat
  mode : Nat
  partnerPort : Nat
  partnerId : BitVec 64
  deriving DecidableEq, Repr

/-- A link-state record (R370). -/
structure LsRecord where
  id : BitVec 64
  seq : BitVec 32
  addr : Option Nat
  fabricAll : Bool
  settled : Bool
  furlong : Nat
  ports : List LsPort
  /-- It has not been refreshed for 3 s. -/
  aged : Bool := false
  deriving DecidableEq, Repr

/-- A route: hops, each (upper, port) (R378). -/
structure Route where
  hops : List (Bool × Nat)
  gen : Nat
  deriving DecidableEq, Repr

/-- The header of a message of CTRL, KV or BULK (R378). -/
structure MsgHdr where
  dest : Nat
  src : Nat
  cls : Nat
  hop : Nat
  hops : Nat
  rerouted : Bool
  mseq : BitVec 16
  length : Nat
  tag : BitVec 32
  route : BitVec 96
  mtype : Nat
  deriving DecidableEq, Repr

/-- A message with its payload, which begins at offset 0x20 (R379). -/
structure Msg where
  hdr : MsgHdr
  body : Bytes
  deriving DecidableEq, Repr

/-- Order of messages received from one source in one class (R387). -/
structure MsgOrder where
  next : BitVec 16 := 0
  held : List Msg := []
  deriving DecidableEq, Repr

/-- The fabric (18). -/
structure Fab where
  ports : Tab Port := []
  /-- The first second has ended (R29). -/
  freePacing : Bool := false
  addr : Nat := 0
  valid : Bool := false
  settled : Bool := false
  /-- The first settle after PERST# has taken place (R372). -/
  everSettled : Bool := false
  parts : Nat := 0
  furlong : Nat := 0
  /-- Records by PART_ID, the part's own among them. -/
  db : List LsRecord := []
  seq : BitVec 32 := 0
  /-- Addresses held for a PART_ID (R374). -/
  holds : Tab (BitVec 64) := []
  routes : Tab Route := []
  gen : Nat := 0
  /-- MSEQ to be used next, keyed by 4096 × class + destination. -/
  mseq : Tab (BitVec 16) := []
  /-- Order received, keyed by 4096 × class + source. -/
  order : Tab MsgOrder := []
  /-- Messages for other parts that have arrived and wait to be sent on their next hop, with the port and the VC they came on
  (R385). -/
  fwd : List (Nat × Nat × Msg) := []
  deriving DecidableEq, Repr

end Sys2Proof.Machine
end

