-- ==== Sys2Proof/Machine/TypesPower.lean ====
section
/-! DEFINITION. The state of power delivery (19), of caps, metering and thermal control (20), and of the sideband and test
ports (21). A field's default value is its value at reset; where the spec gives none, log 7 names it. -/

namespace Sys2Proof.Machine

/-- A phase (R394 to R401, R436). -/
structure Phase where
  /-- 0 trusted, 1 sense untrusted, 2 dropped. -/
  st : Nat := 0
  /-- Cause code of R401. -/
  cause : Nat := 0
  /-- Its current share is halved (R399). -/
  hot : Bool := false
  /-- It is set to mid-level for a probe (R397). -/
  probing : Bool := false
  deriving DecidableEq, Repr

/-- An operating-point change in progress (R395): where it started and where it goes. -/
structure OpChange where
  src : Nat
  dst : Nat
  deriving DecidableEq, Repr

/-- Power delivery (R390 to R414). -/
structure Power where
  /-- The VDD_CORE setpoint in 0.1 µV; during a ramp, the ramp's present value. -/
  setpoint : Nat := 0
  /-- The setpoint the ramp goes to, and whether it moves at the 0.5 V/ms of power-up and power-down (R392, R393). -/
  target : Nat := 0
  slow : Bool := true
  /-- The total VDD_CORE current as the governor lets it be, in mA (R402). -/
  amps : Nat := 0
  /-- The operating point PMC has set (OP_IN_FORCE), and the one whose frequency the islands run at. -/
  op : Nat := 0
  freqOp : Nat := 0
  change : Option OpChange := none
  /-- A change is held or was abandoned until the rail has been in the band for 20 µs (R408). -/
  held : Bool := false
  /-- Stretch level of each island (R406); unlisted is 0. -/
  stretch : Tab Nat := []
  phases : Tab Phase := []
  /-- Slew limits of the driver and of the management controller, and S as the governor applies it (R402). -/
  slewDrv : Option Nat := none
  slewBmc : Option Nat := none
  slewWin : Nat := 50
  /-- ALERT_CAUSE (R412). -/
  alert : BitVec 8 := 0
  /-- PWRBRK# taken as asserted (R411). -/
  pwrbrk : Bool := false
  /-- VDD_CORE above the setpoint: every phase at mid-level until the rail is back in the band (R409). -/
  overshoot : Bool := false
  deriving DecidableEq, Repr

/-- The cap and the operating point (R415 to R421). -/
structure Caps where
  /-- Caps of the driver and of the management controller in 0.1 W (R418). -/
  capDrv : Option Nat := none
  capBmc : Option Nat := none
  /-- Preferred points of the classes 0 to 4 (R416). -/
  pref : List Nat := [3, 3, 3, 1, 0]
  limiter : Nat := 0
  gate : Nat := 0
  /-- Ceiling 3 of R417, 7 when it does not bind. -/
  hotCeil : Nat := 7
  /-- Updates left of ceiling 6, and its point (R417, R90). -/
  pmcLeft : Nat := 0
  pmcPoint : Nat := 3
  /-- Updates since ceiling 3 was last raised, with every die sensor at or below 102 °C (R432). -/
  ceilWait : Nat := 0
  /-- Reduction of the memory budget in steps of 10 % (R431). -/
  memCut : Nat := 0
  /-- Budgets of links, memory and compute of the last update in mW (R419), and the power measured of the four (R436). -/
  budLinks : Nat := 0
  budMem : Nat := 0
  budComp : Nat := 0
  powLinks : Nat := 0
  powMem : Nat := 0
  powComp : Nat := 0
  powUncore : Nat := 0
  inputMw : Nat := 0
  deriving DecidableEq, Repr

/-- The energy meter (R422 to R428). -/
structure Meter where
  /-- Buckets of R426 in table order, in 2⁻²⁰ J; unlisted is 0. -/
  buckets : Tab Nat := []
  /-- FUNC_ENERGY of each function, and what each function has in each bucket at 16 × function + bucket (R426, R436). -/
  funcs : Tab Nat := []
  funcBuckets : Tab Nat := []
  degraded : Bool := false
  /-- How often the coefficients have been refitted; their values stand behind the estimates a window brings (R428). -/
  refits : Nat := 0
  deriving DecidableEq, Repr

/-- Thermal control (R429 to R435). -/
structure Thermal where
  /-- Last reading of each die sensor in 0.125 °C; unlisted is none. -/
  die : Tab Int := []
  /-- Sensors excluded until the next whole-part reset (R429). -/
  excluded : List Nat := []
  throttle : Bool := false
  critical : Bool := false
  /-- The critical state has lasted 1 s and its work has been ended (R433). -/
  critEnded : Bool := false
  /-- Samples of 20 µs in a row at which every die sensor was at or below 102 °C, and at which the conditions for leaving
  the critical state held (R432). -/
  coolFor : Nat := 0
  critFor : Nat := 0
  /-- Highest predicted die and HBM peaks in 0.125 °C (R431), and PREDICT of the last update. -/
  peakDie : Int := 0
  peakHbm : Int := 0
  predict : Bool := false
  warmDrv : Option Nat := none
  warmBmc : Option Nat := none
  warming : Bool := false
  /-- Telemetry SEQ and T_UPDATE (R436). -/
  seq : BitVec 32 := 0
  tUpdate : BitVec 64 := 0
  deriving DecidableEq, Repr

/-- JTAG instructions held in the instruction register (R451). -/
inductive Jtag where
  | extest | idcode | sample | clamp | highz | extestPulse | extestTrain | bypass
  deriving DecidableEq, Repr

/-- The I3C port, MCTP and JTAG (R448 to R453). -/
structure Side where
  /-- The dynamic address, none until SETDASA or ENTDAA. -/
  dyn : Option (BitVec 7) := none
  /-- In-band interrupts enabled (R448). -/
  ibi : Bool := true
  eid : BitVec 8 := 0
  /-- The I3C target acknowledges (R27). -/
  up : Bool := false
  ir : Jtag := .idcode
  /-- A test instruction controls the pins (R452). -/
  pins : Bool := false
  /-- Levels preloaded into the boundary register; its length is the BSDL's. -/
  boundary : Bytes := []
  deriving DecidableEq, Repr

end Sys2Proof.Machine
end

