-- ==== Sys2Proof/Machine/TypesCore.lean ====
section
/-! DEFINITION. The state of the cores, tile programs, memories, counters and tasks (06 to 09). -/

namespace Sys2Proof.Machine

/-- States of an accumulator plane (R137). -/
inductive PlaneState where
  | free | accumulating | full | draining
  deriving DecidableEq, Repr

/-- Element formats in the order of their codes 0x0 to 0xA (R165). -/
inductive Fmt where
  | int8 | int4 | mxint8 | e4m3 | e5m2 | e3m2 | e2m1 | bf16 | fp16 | fp32 | int32
  deriving DecidableEq, Repr

/-- Vector operations with the fields of R170 (R171). -/
inductive VecOp where
  | vadd | vsub | vmul | vfma | vmin | vmax | vcmp | vsel | vcvt | vexp | vrcp | vrsq | vsin | vcos
  | vmaxr | vexps | vresc | vtopk | vrot | vrel | vfclr
  deriving DecidableEq, Repr

/-- Fields of SPAN.MM (R167). -/
structure MmFields where
  ix : BitVec 4
  aslot : BitVec 8
  abuf : Bool
  set : Bool
  p : Bool
  rowsM1 : BitVec 6
  d0 : BitVec 6
  fmtA : Fmt
  fmtB : Fmt
  first : Bool
  last : Bool
  release : Bool
  sat : Bool
  deriving DecidableEq, Repr

/-- Fields of SPAN.DRAIN (R167). -/
structure DrainFields where
  ix : BitVec 4
  dst : BitVec 15
  pitch : BitVec 8
  fmt : Fmt
  p : Bool
  sat : Bool
  acc : Bool
  shift : BitVec 5
  sc : Bool
  deriving DecidableEq, Repr

/-- Fields of the vector instructions (R170). -/
structure VecFields where
  dst : BitVec 4
  sa : BitVec 4
  sb : BitVec 4
  sc : BitVec 4
  scal : BitVec 4
  countM1 : BitVec 6
  mod : BitVec 8
  shift : BitVec 5
  deriving DecidableEq, Repr

/-- Fields of SLD (R172). -/
structure SldFields where
  ix : BitVec 4
  src : BitVec 15
  pitch : BitVec 8
  sideB : Bool
  buf : Bool
  dslot : BitVec 8
  rowsM1 : BitVec 6
  tr : Bool
  sc : Bool
  deriving DecidableEq, Repr

/-- Fields of DMA.GO (R172). -/
structure GoFields where
  ix : BitVec 4
  engine : BitVec 4
  desc : BitVec 15
  countM1 : BitVec 6
  counter : BitVec 12
  sig : Bool
  deriving DecidableEq, Repr

/-- Fields of SETD (R169). -/
structure SetdFields where
  vd : BitVec 4
  kind : BitVec 2
  fmt : Fmt
  base : BitVec 15
  stride : BitVec 12
  auto : Bool
  ix : BitVec 4
  deriving DecidableEq, Repr

/-- What a stream word does, operands included (R164 to R177). -/
inductive TileOp where
  | nop (slot : SlotKind)
  | loadb (release set buf : Bool) (slot : BitVec 2)
  | mm (x : MmFields)
  | drain (x : DrainFields)
  | vec (op : VecOp) (x : VecFields)
  | vsets (sreg : BitVec 4) (imm : BitVec 32)
  | vmovr (sreg : BitVec 4) (src : BitVec 8)
  | sld (x : SldFields)
  | dmaGo (x : GoFields)
  | syncWait (eq : Bool) (counter : BitVec 12) (value : BitVec 32)
  | syncAdd (counter : BitVec 12) (addend : BitVec 32)
  | syncTas (counter : BitVec 12)
  | ctlNop
  | loop (countM1 : BitVec 16) (body : BitVec 12)
  | seti (reg : BitVec 4) (value : BitVec 32)
  | inc (reg : BitVec 4) (addend : BitVec 32)
  | setd (x : SetdFields)
  | halt
  deriving DecidableEq, Repr

/-- A decoded stream word: the event fields of the common header and the operation (R164). -/
structure TileInstr where
  wt : Bool := false
  wev : BitVec 4 := 0
  st : Bool := false
  sev : BitVec 4 := 0
  op : TileOp
  deriving DecidableEq, Repr

/-- An operand descriptor with the index register already added to BASE (R169). -/
structure VDesc where
  kind : BitVec 2 := 0
  fmt : Fmt := .int8
  base : Int := 0
  stride : Int := 1
  auto : Bool := false
  deriving DecidableEq, Repr

/-- An instruction in a slot queue, its effective addresses fixed at dispatch (R158): the A slot, unit or descriptor it
starts at, and the descriptors of DST, SA, SB and SC. -/
structure Queued where
  /-- The word of the stream it came from. -/
  word : Nat
  instr : TileInstr
  addr : Nat := 0
  d : VDesc := {}
  a : VDesc := {}
  b : VDesc := {}
  c : VDesc := {}
  deriving DecidableEq, Repr

/-- One result of an issued instruction that is still to be written. -/
inductive Write where
  | slate (unit : Nat) (v : Unit64)
  | shadow (unit : Nat) (v : BitVec 32)
  | planeRow (p row : Nat) (v : BitVec 2048)
  | aRow (buf row : Nat) (v : Unit64)
  | aScale (buf row : Nat) (v : BitVec 32)
  | bRow (buf tile row : Nat) (v : Unit64)
  | bScale (buf tile col : Nat) (v : BitVec 32)
  | scalar (r : Nat) (v : BitVec 32)
  | flag (f : BitVec 5)
  /-- Accumulate-on-write of one unit: the format, the addend, and the drain's SAT (R192). -/
  | acc (unit : Nat) (fmt : Fmt) (sat : Bool) (v : Unit64)
  /-- Presence of a segment or tile slot set by the final write (R138). -/
  | presA (buf seg : Nat)
  | presB (buf tile : Nat)
  | planeTo (p : Nat) (st : PlaneState)
  deriving DecidableEq, Repr

/-- An issued instruction that has not completed (R161): its slot, its event, what it still writes, and for DMA.GO the
descriptors that are not done. -/
structure InFlight where
  id : Nat
  slot : SlotKind
  st : Bool
  sev : Nat
  writes : List Write
  descs : Nat
  deriving DecidableEq, Repr

/-- A loop being run at dispatch (R177): first word, word after the body, iterations left. -/
structure LoopFrame where
  first : Nat
  last : Nat
  left : Nat
  deriving DecidableEq, Repr

/-- A core (R133). Arrays are sparse tables; an entry that is not listed reads 0, or a free value of generation `junk`
once the contents have become undefined (R32, R97). -/
structure Core where
  /-- Stationary set k: row r of its tile at 64k + r, scales of column n at 64k + n. -/
  setRows : Tab Unit64 := []
  setScale : Tab (BitVec 32) := []
  /-- A-side Grains: row slot r of buffer k at 256k + r; presence bit of segment s at bit 16k + s. -/
  aRows : Tab Unit64 := []
  aScale : Tab (BitVec 32) := []
  aPres : BitVec 32 := 0
  /-- B-side Grains: row r of tile slot t of buffer k at 256k + 64t + r; presence at bit 4k + t. -/
  bRows : Tab Unit64 := []
  bScale : Tab (BitVec 32) := []
  bPres : BitVec 8 := 0
  /-- Row r of plane p at 64p + r. -/
  plane : Tab (BitVec 2048) := []
  plane0 : PlaneState := .free
  plane1 : PlaneState := .free
  /-- The plane holds INT32 values (R145). -/
  int0 : Bool := false
  int1 : Bool := false
  flags : BitVec 5 := 0
  slate : Tab Unit64 := []
  shadow : Tab (BitVec 32) := []
  spread : Bool := false
  ev : Tab Nat := []
  ix : Tab (BitVec 32) := []
  sr : Tab (BitVec 32) := []
  vd : Tab VDesc := []
  stream : List (BitVec 64) := []
  pc : Nat := 0
  loops : List LoopFrame := []
  halted : Bool := true
  qs : List Queued := []
  qv : List Queued := []
  qx : List Queued := []
  inflight : List InFlight := []
  nextId : Nat := 0
  ftLatch : Option (BitVec 32) := none
  /-- Banks whose next cycle is withheld from reservation (R188). -/
  starved : List Nat := []
  /-- Generation of undefined contents of Slate and Grains, and of planes and stationary sets; 0: none. -/
  junk : Nat := 0
  junkP : Nat := 0
  /-- The task that holds the core, and the stream's index in it. -/
  task : Option Nat := none
  localIdx : Nat := 0
  /-- Units of the declared data region, and whether the scale shadow is declared (R179). -/
  dataUnits : Nat := 0
  hasShadow : Bool := false
  /-- First unit of the stream in Slate (R158). -/
  streamBase : Nat := 0
  /-- Slate units whose stored value is uncorrectable and that nothing has written since (R207). -/
  bad : List Nat := []
  /-- Last owner of Slate and Grains, for zeroing at grant (R121). -/
  owner : Tag := {}
  deriving DecidableEq, Repr

/-- A hardware sync counter (R208, R212). -/
structure SyncCtr where
  value : BitVec 32 := 0
  tag : Tag := {}
  deriving DecidableEq, Repr

/-- A queued descriptor (R174): its core and the instruction it belongs to, its 64 bytes, the counter to signal with the tag
of that increment, the tag that the descriptor carries, and the grant of its engine under which it was queued. -/
structure QDesc where
  core : Nat
  go : Nat
  desc : BitVec 512
  sig : Option (Nat × Tag)
  tag : Tag
  grant : Nat
  deriving DecidableEq, Repr

/-- A descriptor DMA engine (R174, R199), and how often it has been granted. -/
structure Engine where
  queue : List QDesc := []
  tag : Tag := {}
  grant : Nat := 0
  deriving DecidableEq, Repr

/-- A core record of a manifest (R213). -/
structure CoreRec where
  spread : Bool
  shadow : Bool
  dataKib : Nat
  deriving DecidableEq, Repr

/-- A counter record of a manifest (R213). -/
structure CtrRec where
  kind : Nat
  producers : BitVec 64
  consumers : BitVec 64
  deriving DecidableEq, Repr

/-- A loaded program (R156, R213). -/
structure Program where
  fn : Nat
  cores : Nat
  placement : Nat
  engines : Nat
  /-- The BUFFERS byte. -/
  buffers : Nat
  basalt : Nat
  coreRecs : List CoreRec
  ctrRecs : List CtrRec
  streams : List (List (BitVec 64))
  imageLen : Nat
  builtin : Bool
  deriving DecidableEq, Repr

/-- Where a task runs (R217). -/
structure Place where
  /-- Core of each stream. -/
  cores : List Nat
  /-- Hardware counter of each program-local counter. -/
  counters : List Nat
  /-- Hardware engine of local engine e in cluster n, keyed 16n + e. -/
  engines : Tab Nat
  /-- First Basalt region, and how many (R197). -/
  basalt : Nat
  basaltN : Nat
  deriving DecidableEq, Repr

/-- A task of TASK_RUN, waiting or placed (R217). -/
structure Task where
  fn : Nat
  q : Nat
  tag : BitVec 32
  prog : Nat
  buf0 : Nat
  buf1 : Nat
  buf2 : Nat
  cls : Nat
  prio : Nat
  /-- Order of fetch. -/
  order : Nat
  place : Option Place := none
  /-- Paused by the lease policy (R79). -/
  paused : Bool := false
  /-- Vision program: records done, skipped, and the first skipped (R322). -/
  visDone : Nat := 0
  visSkipped : Nat := 0
  visFirst : Nat := 0xFFFFFFFF
  visNext : Nat := 0
  /-- CORES, COUNT and REC_OFF of the list header, as read when the task was first placed (R321). -/
  visCores : Nat := 0
  visCount : Nat := 0
  visOff : Nat := 0
  /-- Energy charged, in 2⁻²⁰ J. -/
  energy : Nat := 0
  deriving DecidableEq, Repr

/-- A buffer of 4 MiB units: the device unit numbers (device address ÷ 4 MiB) it consists of (R265). -/
structure Buf where
  fn : Nat
  units : List Nat
  deriving DecidableEq, Repr

/-- An HBM stack (R201 to R205). -/
structure Hbm where
  usable : Bool := false
  failed : Bool := false
  lost : Bool := false
  /-- Rate code at which it runs (R202). -/
  rate : Nat := 0
  halved : Bool := false
  throttled : Bool := false
  /-- Usable but its temperature report has stopped (R204, R430). -/
  silent : Bool := false
  /-- Last reading in 0.125 °C. -/
  temp : Option Int := none
  deriving DecidableEq, Repr

end Sys2Proof.Machine
end

