-- ==== Sys2Proof/Machine/TypesSec.lean ====
section
/-! DEFINITION. The state of SEC: fuses, SPDM, IDE, the key store, the SPI NOR and the provisioning record (05). -/

namespace Sys2Proof.Machine

/-- The fuses (R105). Thermometer codes are held as their counts; DEVICE_SEED is the part's own secret. -/
structure Fuses where
  deviceSeed : BitVec 256 := 0
  fwSvn : Nat := 0
  provSvn : Nat := 0
  keyRevoke : BitVec 4 := 0
  ownerHash : BitVec 384 := 0
  debugLock : Bool := true
  deriving DecidableEq, Repr

/-- The two ways to the SPDM responder (R109). -/
inductive Transport where
  | doe
  | mctp
  deriving DecidableEq, Repr

/-- How far a connection has got (R109). -/
inductive SpdmPhase where
  | start | version | capabilities | algorithms
  deriving DecidableEq, Repr

/-- A secured session: its number, transport, whether FINISH has come, and how often its keys have been updated. -/
structure Session where
  id : Nat
  via : Transport
  established : Bool
  updates : Nat
  deriving DecidableEq, Repr

/-- A slot of the key store (R114 to R116). -/
structure KeyRec where
  use : Nat
  fnByte : Nat
  kwkId : BitVec 64
  modelId : BitVec 128
  key : BitVec 256
  owner : Tag
  deriving DecidableEq, Repr

/-- States of a journal entry (R127). -/
inductive JState where
  | idle | downloading | downloaded | verifying | verified | activating | trial | confirming | invalid
  deriving DecidableEq, Repr

/-- The code of a journal state (R127). -/
def JState.code : JState → Nat
  | .idle => 0 | .downloading => 1 | .downloaded => 2 | .verifying => 3 | .verified => 4 | .activating => 5
  | .trial => 6 | .confirming => 7 | .invalid => 8

/-- The fields of a journal entry (R127); slots are 0 A, 1 B, 0xFF none. -/
structure JEntry where
  jseq : BitVec 32
  state : JState
  slot : Nat
  tries : Nat
  xslot : Nat
  recSeq : BitVec 32
  digest : BitVec 128
  deriving DecidableEq, Repr

/-- The SPI NOR (R123): the journal's entries of 32 bytes in the order written, which sector is current and how many
entries it holds, and the two record slots. -/
structure Nor where
  /-- Entries of the sector that is current, oldest first. -/
  journal : List Bytes := []
  /-- Entries of the other sector. -/
  other : List Bytes := []
  slotA : Bytes := []
  slotB : Bytes := []
  /-- The identity area, 16 KiB written at manufacture (R107, R123): the IDK certificate. No command writes it. -/
  identity : Bytes := []
  /-- An erase or program is in progress (R23). -/
  busy : Bool := false
  /-- Read by four bits (R450). -/
  quad : Bool := true
  deriving DecidableEq, Repr

/-- The fields of a provisioning record that the part uses (R124). -/
structure ProvRec where
  flags : BitVec 16
  seq : BitVec 32
  provSvn : Nat
  fwFloor : Nat
  cxlWindow : Nat
  revoke : BitVec 4
  keepWarm : Nat
  split : List Nat
  newOwner : BitVec 384
  digest : BitVec 384
  deriving DecidableEq, Repr

/-- The settings in force (R125 and the owners of the items; 22). -/
structure Settings where
  hbmRate : Nat := 0
  hbmMask : BitVec 6 := 0
  micaGhost : Bool := true
  kvFloor : Nat := 16
  linkNrz : Bool := false
  /-- The levels of the ports two bits each, none for the default levels (R368). -/
  fabricPorts : Option (BitVec 48) := none
  furlong : Nat := 0
  pwrbrkCap : Nat := 100
  /-- POWER_SPLIT: order and floors of links, memory, compute in W (R420). -/
  order : Nat := 0
  floors : Nat × Nat × Nat := (10, 30, 30)
  meterShunt : Nat := 500000
  deriving DecidableEq, Repr

/-- The provisioning record that runs and the stage in progress (R128 to R130). -/
structure Prov where
  /-- SEC's ROM has made its choice at this boot. -/
  decided : Bool := false
  record : Option ProvRec := none
  /-- The slot that runs: 0 A, 1 B, 0xFF none. -/
  slot : Nat := 0xFF
  /-- The stage in progress: stage, who asked and the data. -/
  stage : Option (Nat × Nat × Option Nat × BitVec 32 × Bytes) := none
  deriving DecidableEq, Repr

/-- States of an IDE stream (R112): keys not programmed, programmed, in use. -/
inductive IdeState where
  | programmed | active
  deriving DecidableEq, Repr

/-- SEC (R105 to R116). -/
structure Sec where
  /-- What the last check of the identity area said (R107). -/
  identityOk : Bool := true
  /-- SPDM version negotiated per transport, 0 none, and how far the connection has got. -/
  verDoe : Nat := 0
  verMctp : Nat := 0
  phaseDoe : SpdmPhase := .start
  phaseMctp : SpdmPhase := .start
  sessions : List Session := []
  /-- IDE streams with keys: stream 0 is the link stream, 1 to 32 selective ones (R112). -/
  ide : Tab (IdeState × Nat) := []
  /-- The AK has been derived at this start (R107, R108). -/
  akReady : Bool := false
  /-- The AK, and the SVN of the bundle that its certificate carries (R108). -/
  ak : BitVec 384 := 0
  akSvn : Nat := 0
  /-- Key store by handle (R116). -/
  keys : Tab KeyRec := []
  deriving DecidableEq, Repr

end Sys2Proof.Machine
end

