-- ==== Sys2Proof/Machine/TypesServe.lean ====
section
/-! DEFINITION. The state of the KV page store, Mica, the loaded models, the serving service and Jasper (10 to 14). -/

namespace Sys2Proof.Machine

/-- States of a KV page (R224). -/
inductive PageState where
  | absent | opened | sealed | shipping | ghost
  deriving DecidableEq, Repr

/-- A page entry of a directory (R224). -/
structure Page where
  st : PageState := .absent
  fill : Nat := 0
  frame : Nat := 0
  ghost : Nat := 0
  /-- The page was SEALED when it was chosen for shipment (R292). -/
  wasSealed : Bool := false
  deriving DecidableEq, Repr

/-- STATE of a page entry (R224). -/
def PageState.code : PageState → Nat
  | .absent => 0 | .opened => 1 | .sealed => 2 | .shipping => 3 | .ghost => 4

/-- A granule map reference (R250): CODED, the index of the map entry, and the granules that the entry names. -/
structure Gmap where
  coded : Bool := false
  map : Nat := 0
  grans : List Nat := []
  deriving DecidableEq, Repr

/-- A frame record (R223). -/
structure Frame where
  tag : Tag
  req : Nat
  draft : Bool
  layer : Nat
  col : Nat
  gmap : Gmap
  deriving DecidableEq, Repr

/-- A ghost record (R254). -/
structure Ghost where
  tag : Tag
  req : Nat
  draft : Bool
  layer : Nat
  col : Nat
  gmap : Gmap
  fill : Nat
  dropSeq : Nat
  deriving DecidableEq, Repr

/-- A seal, queued or running on an engine (R245): the page, and once it runs the granules it writes. -/
structure Seal where
  eng : Nat
  key : Nat
  running : Bool := false
  grans : List Nat := []
  /-- It has been queued for 100 µs, so its next stage runs ahead of page fetches (R249). -/
  urgent : Bool := false
  deriving DecidableEq, Repr

/-- A page fetch in progress on an engine (R249, R251): the page and, where the page has been switched since it began, the number of
the old granules that it still reads. -/
structure Fetch where
  eng : Nat
  key : Nat
  old : Option Nat := none
  deriving DecidableEq, Repr

/-- Granules of a page before its switch, kept until the fetches that began earlier have completed (R249). -/
structure OldGrans where
  no : Nat
  fetches : Nat
  grans : List Nat
  deriving DecidableEq, Repr

/-- The KV store (10, 11). Directories are keyed by `pageKey`. -/
structure Kv where
  pages : Tab Page := []
  frames : Tab Frame := []
  /-- Scale slot of each frame (R222). -/
  scales : Tab Bytes := []
  ghosts : Tab Ghost := []
  dropSeq : Nat := 0
  /-- The clock hand over granule indices (R256). -/
  hand : Nat := 0
  seals : List Seal := []
  fetches : List Fetch := []
  old : List OldGrans := []
  /-- Column under revival: request and column (R256). -/
  reviving : Option (Nat × Nat) := none
  deriving DecidableEq, Repr

/-- Who holds a 4 MiB unit of HBM that is not in the KV store. -/
inductive UnitUse where
  | buffer | weight | adapter
  deriving DecidableEq, Repr

/-- HBM as SCH grants it (R223, R265, R206, R121). -/
structure Store where
  /-- S of R201, fixed at bring-up. -/
  nStacks : Nat := 0
  /-- The stacks of the interleave, in ascending order (R201). -/
  order : List Nat := []
  /-- 4 MiB units that SCH's own tables take, below the coherent window (R223, R265). -/
  schUnits : Nat := 0
  /-- Units granted. -/
  units : Tab UnitUse := []
  /-- Last owner of a unit, and of a granule regranted since (R121). -/
  unitTag : Tab Tag := []
  granTag : Tab Tag := []
  /-- Granules retired (R206). -/
  retired : List Nat := []
  /-- Granules of weights that have been replaced after an uncorrectable unit: the retired one and the fresh one (R279). -/
  lent : Tab Nat := []
  /-- Basalt regions granted, and the last owner of each (R197, R121). -/
  basalt : Tab Nat := []
  basaltTag : Tab Tag := []
  /-- 64-byte units of Basalt, by offset ÷ 64, whose stored value is uncorrectable and that nothing has written since (R207). -/
  basaltBad : List Nat := []
  deriving DecidableEq, Repr

/-- The fields of a model header (R260). -/
structure ModelHdr where
  kvFmt : Nat
  modelId : BitVec 128
  layers : Nat
  qHeads : Nat
  kvHeads : Nat
  dim : Nat
  rope : Nat
  freqs : Nat
  width : Nat
  ffn : Nat
  vocab : Nat
  context : Nat
  tensors : Nat
  tableOff : Nat
  freqOff : Nat
  plainLen : Nat
  digest : BitVec 384
  deriving DecidableEq, Repr

/-- A tensor table entry and where the tensor lies (R261, R267). -/
structure Tensor where
  role : Nat
  fmt : Nat
  layer : Nat
  rank : Nat
  rows : Nat
  cols : Nat
  off : Nat
  len : Nat
  tiered : Bool := false
  /-- Offset within the copy's resident region. -/
  place : Nat := 0
  deriving DecidableEq, Repr

/-- States of a copy (R278); one that is unloaded while a running step reads it is UNLOADING until that step ends (log 44). -/
inductive CopyState where
  | loading | ready | damaged | unloading
  deriving DecidableEq, Repr

/-- STATE of a copy in a model record and in POOL_VIEW (R278); one that is loading has no code there. -/
def CopyState.code : CopyState → Nat
  | .loading => 0 | .ready => 1 | .damaged => 2 | .unloading => 3

/-- A copy of a model in HBM (R270). -/
structure Copy where
  hdr : ModelHdr
  /-- Header bytes 0x000 to 0x0FF, compared on attachment (R271). -/
  raw : Bytes
  freq : List (BitVec 32)
  tensors : List Tensor
  share : Bool
  spread : Bool
  strict : Bool
  state : CopyState
  loader : Nat
  key : Nat
  src : BitVec 64
  nonce : BitVec 64
  units : List Nat
  hbmBytes : Nat
  tierBytes : Nat
  stageBytes : Nat
  lost : List Nat := []
  tierFetched : Nat := 0
  /-- The content key, held while the copy is loaded (R118), and the half of the staging region that the next fetch takes. -/
  ckey : BitVec 256
  half : Bool := false
  /-- Shard group size, 0 without SPREAD (R276). -/
  shard : Nat := 0
  /-- SHARD_INDEX, the part's place in its shard group (R382). -/
  place : Nat := 0
  /-- The Rod-wide load that made it: the loading part and LOAD_ID; and whether that part is another one, so that this one holds a
  share as a member (R276). -/
  rodId : Option (Nat × Nat) := none
  member : Bool := false
  deriving DecidableEq, Repr

/-- A function's handle to a copy (R271). -/
structure ModelH where
  fn : Nat
  copy : Nat
  attached : Bool
  /-- The key handle under which the function loaded it (R77, R271). -/
  key : Nat := 0
  deriving DecidableEq, Repr

/-- A private adapter (R274, R275). -/
structure Adapter where
  fn : Nat
  model : Nat
  copy : Nat
  rank : Nat
  fmt : Nat
  alpha : BitVec 32
  baseId : BitVec 128
  /-- ROLE, LAYER and OFFSET of each adapted tensor. -/
  entries : List (Nat × Nat × Nat)
  units : List Nat
  bytes : Nat
  key : Nat
  deriving DecidableEq, Repr

/-- What a load brings in (R263, R274). -/
inductive LoadKind where
  | model | adapter (model : Nat)
  deriving DecidableEq, Repr

/-- A MODEL_LOAD or ADAPTER_LOAD in progress (R263): who asked, what it opens with, the chunk it waits for and the
plaintext so far. -/
structure Load where
  fn : Nat
  q : Option Nat
  tag : BitVec 32
  kind : LoadKind
  copy : Nat
  key : BitVec 256
  modelId : BitVec 128
  nonce : BitVec 64
  length : Nat
  next : Nat
  plain : Bytes
  units : List Nat
  /-- Waits for a copy that is still loading (R271). -/
  waits : Option Nat := none
  /-- A Rod-wide load (R276): its LOAD_ID, the members that hold a share with S and place, and those that have not yet
  reported (R277). -/
  rod : Option (Nat × List (Nat × Nat × Nat) × List Nat) := none
  src : BitVec 64
  tier : Bool
  share : Bool
  spread : Bool
  keyHandle : Nat
  /-- The plaintext of the whole stream has been read; a Rod-wide load waits for its members. -/
  read : Bool := false
  /-- The chip-level DMA engine that reads the stream (R200). -/
  dma : Nat := 0
  deriving DecidableEq, Repr

/-- Grammar edges: LO, HI, NEXT (R304). -/
structure Edge where
  lo : Nat
  hi : Nat
  next : Nat
  deriving DecidableEq, Repr

/-- A grammar state: set index, END and edges (R304). -/
structure GState where
  set : Nat
  fin : Bool
  edges : List Edge
  deriving DecidableEq, Repr

/-- A token-selection profile (R303, R304). -/
structure Prof where
  mode : BitVec 8 := 0
  temp : BitVec 32 := 0
  topK : Nat := 0
  topP : BitVec 32 := 0
  rep : BitVec 32 := 0
  pres : BitVec 32 := 0
  freq : BitVec 32 := 0
  seed : BitVec 64 := 0
  specNodes : Nat := 0
  specDepth : Nat := 0
  specBranch : Nat := 0
  minPath : BitVec 32 := 0
  stops : List Nat := []
  vocab : Nat := 0
  start : Nat := 0
  states : List GState := []
  sets : List Bytes := []
  allow : Bytes := []
  deriving DecidableEq, Repr

/-- A loaded profile (R305). -/
structure ProfH where
  fn : Nat
  prof : Prof
  bytes : Nat
  table : Bytes
  deriving DecidableEq, Repr

/-- States of a request (R285). -/
inductive ReqState where
  | admitted | prefill | shipping | decode | paused | restoring | ended
  deriving DecidableEq, Repr

/-- The code of a request state (R285). -/
def ReqState.code : ReqState → Nat
  | .admitted => 0 | .prefill => 1 | .shipping => 2 | .decode => 3 | .paused => 4 | .restoring => 5 | .ended => 6

/-- A speculative node (R231): parent (0 is the root), token, depth, path probability and draft score as FP32 bits. -/
structure Node where
  parent : Nat
  token : Nat
  depth : Nat
  prob : BitVec 32
  score : BitVec 32
  deriving DecidableEq, Repr

/-- A context (R283): the part's side of a request, as its home part, its working part or both. -/
structure Ctx where
  home : Bool
  work : Bool
  /-- The request counts as a context of this part as working part: a step of it has started here, or a shipment of it was accepted
  (R283, R290). -/
  begun : Bool := false
  /-- The home part's address, and the handle there. -/
  homeAddr : Nat
  handle : Nat
  fn : Nat
  tag : Tag
  q : Nat
  ctag : BitVec 32
  /-- Working part's address, none when the request has none (R285). -/
  workAddr : Option Nat
  /-- Model handle named at submission, the copy here and the draft's; none where this part holds no copy. -/
  model : Nat
  draftH : Nat
  copy : Option Nat
  draft : Option Nat
  modelId : BitVec 128
  draftId : BitVec 128
  adapter : Nat
  profH : Nat
  prof : Prof
  profDigest : BitVec 128
  /-- Token IDs here, and how many the request has; a working part elsewhere receives them in TOKEN_SEG messages. -/
  prompt : List Nat
  written : List Nat
  promptLen : Nat
  writtenLen : Nat := 0
  maxTokens : Nat
  budget : Nat
  meter : Nat := 0
  /-- The home part's own charges (R296). -/
  homeMeter : Nat := 0
  prio : Nat
  tAccept : BitVec 64
  tFirst : BitVec 64 := 0
  nonce : BitVec 32
  seed : BitVec 64
  state : ReqState
  before : ReqState := .admitted
  /-- Positions committed on this part (R232). -/
  committed : Nat := 0
  /-- Order of admission at this part (R287), and the step number of its last commit (R235). -/
  order : Nat
  lastCommit : Nat := 0
  /-- Occasions of drops since the last committed step (R240), and whether the present one has dropped columns. -/
  drops : Nat := 0
  dropMark : Bool := false
  /-- First dropped column, if any (R237). -/
  dropped : Option Nat := none
  /-- Charge and rows of the previous step of each kind (R295). -/
  prevPrefill : Option (Nat × Nat) := none
  prevDecode : Option (Nat × Nat) := none
  grammar : Nat := 0
  counts : Tab Nat := []
  /-- The charge at the start of the running step (R295). -/
  meterAt : Nat := 0
  /-- The running step at Jasper: the nodes built, the target sample at each node, the children found at the present level and
  the nodes of the level whose draft row has been processed (R317, R318). -/
  nodes : List Node := []
  samples : Tab Nat := []
  cands : List Node := []
  drafted : List Nat := []
  /-- Rows of the draft levels that the running step has processed (R425). -/
  draftRows : Nat := 0
  /-- The draft levels of the step are over. -/
  draftOver : Bool := false
  /-- Ends with this status when the running step ends, or has ended here (R298). -/
  endWith : Option Status := none
  failovers : Nat := 0
  abandons : Nat := 0
  /-- A first uncorrectable unit has been met (R207). -/
  ueSeen : Bool := false
  /-- Position of the next token entry at the home part (R72). -/
  position : Nat := 0
  /-- Charge after the home part's mark (R298). -/
  late : Bool := false
  deriving DecidableEq, Repr

/-- Kinds of steps (R287). -/
inductive StepKind where
  | prefill | decode
  deriving DecidableEq, Repr

/-- One request's share of a step: rows, first position, and whether it recomputes (R237). -/
structure StepReq where
  idx : Nat
  rows : Nat
  pos : Nat
  recompute : Bool
  /-- Columns opened by the step (R226). -/
  opened : List Nat
  /-- Cancelled or masked during the step (R298). -/
  masked : Bool := false
  /-- The step is discarded for the request (R241). -/
  discard : Bool := false
  deriving DecidableEq, Repr

/-- The running step (R287). -/
structure Step where
  kind : StepKind
  copy : Nat
  reqs : List StepReq
  reissued : Bool := false
  /-- Clusters whose share must be reissued (R100). -/
  lost : List Nat := []
  /-- The step is discarded at its end (R241, R268). -/
  discard : Bool := false
  /-- Tiered tensors that the step has fetched: copy and place in the table (R268). -/
  tiers : List (Nat × Nat) := []
  deriving DecidableEq, Repr

/-- Phases of a shipment at the sender and the receiver (R289 to R292). -/
inductive ShipState where
  | offered | refusedAll | sending | waitDone | receiving
  deriving DecidableEq, Repr

/-- A shipment of a request's pages (R289). -/
structure Ship where
  idx : Nat
  /-- SHIP_ID (R381). -/
  id : Nat
  out : Bool
  peer : Nat
  st : ShipState
  /-- Columns in all, pages per column, pages moved. -/
  cols : Nat := 0
  perCol : Nat := 0
  pages : Nat := 0
  /-- Members that have refused since the last offer round (R290). -/
  refused : List Nat := []
  /-- Frames reserved at the receiver. -/
  reserved : Nat := 0
  nextCol : Nat := 0
  /-- Fragments of the page that is arriving. -/
  partial_ : Bytes := []
  deriving DecidableEq, Repr

/-- What a member of the Rod has made known of itself (R281, R290, R380). -/
structure Member where
  role : Nat := 0
  pool : Nat := 0
  /-- MODEL_ID, S, SHARD_INDEX and STATE of each copy. -/
  copies : List (BitVec 128 × Nat × Nat × Nat) := []
  frames : Nat := 0
  ctxs : Nat := 0
  queued : Nat := 0
  adv : Bool := false
  deriving DecidableEq, Repr

/-- A Rod-wide load of another member that this part takes part in (R276, R382): its number, who loads, S and the place in the
shard group, how many chunks the stream has, the chunks received, the fragments of the present one, the copy they make once
chunk 0 has arrived, and whether the outcome has been reported. -/
structure RodLoad where
  id : Nat
  loader : Nat
  modelId : BitVec 128
  shard : Nat
  place : Nat
  chunks : Nat
  got : Tab Bytes := []
  partial_ : Bytes := []
  copy : Option Nat := none
  reported : Bool := false
  deriving DecidableEq, Repr

/-- A REDUCE or GATHER message received for the running step (R382). -/
structure Partial where
  reduce : Bool
  src : Nat
  body : Bytes
  deriving DecidableEq, Repr

/-- A chunk of weights that is lost and has been asked for (R279): the copy, the chunk, the part asked, and the fragments received. -/
structure Repair where
  copy : Nat
  chunk : Nat
  peer : Nat
  got : Bytes := []
  deriving DecidableEq, Repr

/-- The serving service (12, 13). -/
structure Serve where
  role : Nat := 0
  pool : Nat := 0
  members : Tab Member := []
  ctxs : Tab Ctx := []
  step : Option Step := none
  /-- Steps finished, and decode steps since the last prefill step (R287). -/
  stepNo : Nat := 0
  sincePrefill : Nat := 0
  order : Nat := 0
  ships : List Ship := []
  /-- SHIP_ID of the next offer. -/
  shipNo : Nat := 0
  copies : Tab Copy := []
  models : Tab ModelH := []
  adapters : Tab Adapter := []
  loads : List Load := []
  nextCopy : Nat := 1
  rod : List RodLoad := []
  nextRod : Nat := 0
  repairs : List Repair := []
  /-- Profiles received from other parts: the first 16 bytes of the digest, TABLE_LEN and what has arrived (R380). -/
  remoteProf : List (BitVec 128 × Nat × Bytes) := []
  profs : Tab ProfH := []
  /-- VIEW_GEN of the last POOL_VIEW (R380). -/
  viewGen : BitVec 32 := 0
  /-- ASSIGN messages that wait for a context (R283): source, tag and payload. -/
  assigns : List (Nat × BitVec 32 × Bytes) := []
  /-- What the other members of a shard group have sent for the running step. -/
  sums : List Partial := []
  deriving DecidableEq, Repr

end Sys2Proof.Machine
end

