-- ==== Sys2Proof/Machine/State.lean ====
section
/-! DEFINITION. The whole state of the part with the queue of waiting commands, what the part sends out, and the state right
after reset. The substructures stand in the Types files; a field's default value there is its value at reset. -/

namespace Sys2Proof.Machine

/-- What the part sends to the outside (log 4): appended to `State.out`, newest last. -/
inductive Out where
  /-- A completion entry written at entry `idx` of CQ `q` of a function, with its PASID where ATS is enabled (R45, R59, R62). -/
  | cq (f q idx : Nat) (entry : BitVec 512) (pasid : Option (BitVec 20))
  /-- An MSI-X message of a vector (R43, R64). -/
  | msix (f vec : Nat) (addr : BitVec 64) (data : BitVec 32)
  /-- A DMA write of data to host memory, with its PASID where ATS is enabled; it uses Relaxed Ordering, which entries and messages do
  not (R45). -/
  | host (f : Nat) (addr : Nat) (data : Bytes) (pasid : Option (BitVec 20))
  /-- The data of a register or telemetry read. -/
  | read (f : Nat) (v : BitVec 64)
  /-- The data of a BAR2 read, and whether it is poisoned (R41, R203). -/
  | window (f : Nat) (data : Bytes) (poison : Bool)
  /-- A configuration request answered with Request Retry Status (R26). -/
  | cfgRetry (f : Nat)
  /-- A configuration request answered: the data of a read, none for a write (R26). -/
  | cfgDone (f : Nat) (data : Option (BitVec 32))
  /-- A PLDM event on the sideband, with an in-band interrupt when they are enabled: a READY_MAP sensor or an event entry
  (R25, R73, R448). -/
  | pldm (ibi : Bool) (code detail : Nat)
  /-- An MCTP response: message type and body (R449). -/
  | mctp (type : Nat) (body : Bytes)
  /-- An SPDM response: transport, response code and body (R109 to R112). -/
  | spdm (viaMctp : Bool) (code : Nat) (body : Bytes)
  /-- An ordered set sent on every lane of a port (R353). -/
  | ordSet (p : Nat) (o : OrdSet)
  /-- A frame sent or resent on a port (R348), its payload in plaintext (log 11). -/
  | frame (p : Nat) (x : FrameT)
  /-- A frame with no payload that carries an acknowledgement or a NAK, and returns credits (R348 to R350). -/
  | ack (p : Nat) (seq : BitVec 16) (nak : Bool) (credVc credits : Nat)
  /-- A CXL.mem response: data and poison (R51). -/
  | cxlMem (line : Nat) (data : Option Unit64) (poison : Bool)
  /-- A back-invalidate snoop of a line (R51). -/
  | cxlBi (line : Nat)
  /-- A CXL.cache response to a snoop: the data, and the state the line is left in (R52, R53). -/
  | cxlSnp (line : Nat) (data : Option Unit64) (left : Mesi)
  /-- An eviction request of a line (R53). -/
  | cxlEvict (line : Nat) (kind : EvictKind)
  /-- The data of a write pull, and whether it is marked Bogus (R53). -/
  | cxlPull (line : Nat) (data : Unit64) (bogus : Bool)
  /-- The 32 bits of the JTAG register that an instruction captures (R451). -/
  | jtag (v : BitVec 32)
  /-- A PLDM response: the values asked for (R449). -/
  | pldmReply (values : List Int)
  deriving DecidableEq, Repr

/-- Faults: none. The spec gives every command an effect, a violation included (R6), so nothing raises one; the type has no
constructor, which is safe. -/
inductive Fault where
  deriving DecidableEq, Repr

/-- Refusals. -/
inductive Refusal where
  /-- Raised by the dispatch alone, for a command that has no meaning yet; safe. -/
  | notModelled (mnemonic : String)
  deriving DecidableEq, Repr

/-- The part (INVENTORY.md, State). -/
structure State where
  /-- Ticks of 1.6 ns since power-up: the model's own clock (log 1). -/
  time : Nat := 0
  /-- READY_MAP (R24). -/
  ready : BitVec 32 := 0
  /-- Whole-part values of the counters by index, and values per function at 4096 × function + index (R459, R460). -/
  cnt : Tab Nat := []
  fcnt : Tab Nat := []
  pins : Pins := {}
  ft : FabricTime := {}
  brown : Brown := {}
  link : HostLink := {}
  cxl : Cxl := {}
  funcs : Tab Func := []
  /-- The I/O ring that was fetched last, as 32 × function + q, and how many more entries its turn has (R60). -/
  turn : Nat × Nat := (0, 0)
  boot : Boot := {}
  procs : Tab Proc := []
  upd : Option FwUpdate := none
  hand : Option Handoff := none
  fuses : Fuses := {}
  sec : Sec := {}
  nor : Nor := {}
  prov : Prov := {}
  settings : Settings := {}
  hbm : Tab Hbm := []
  store : Store := {}
  bufs : Tab Buf := []
  cores : Tab Core := []
  /-- Sync counter i of cluster n at 512n + i (R208). -/
  ctrs : Tab SyncCtr := []
  engines : Tab Engine := []
  /-- Owner tags of the chip-level DMA engines (R96, R199). -/
  chipDma : Tab Tag := []
  progs : Tab Program := []
  /-- Tasks of TASK_RUN by number in order of fetch (R217). -/
  tasks : Tab Task := []
  nextTask : Nat := 0
  kv : Kv := {}
  serve : Serve := {}
  flint : Flint := {}
  fab : Fab := {}
  power : Power := {}
  caps : Caps := {}
  meter : Meter := {}
  thermal : Thermal := {}
  side : Side := {}
  /-- Every handle issued since the last whole-part reset (R66), so that a stale one can be told from a bad one. -/
  issued : List Nat := []
  /-- HBM and Basalt by device address (R181), in canonical form; an address not listed reads 0 (log 6). -/
  mem : List Host.Cell := []
  /-- What the part has sent (log 4). -/
  out : List Out := []
  /-- Number of the next free value (log 5): the model's own field. -/
  free : Nat := 0
  /-- Commands that are waiting, first in, first out: the model's own field. -/
  pending : List Instr := []
  deriving DecidableEq, Repr

/-- The part right after power-up with VDD_AUX present and PERST# asserted: every field at its reset value. -/
def State.reset : State := {}

end Sys2Proof.Machine
end

