-- ==== Sys2Proof/Machine/Ops.lean ====
section
/-! DEFINITION. The operations every family shares: the end of a meaning, free values, counters, READY_MAP and its
interrupts, device memory, completion rings with the held store, handles and mailbox commands (01 to 03, 22). -/

namespace Sys2Proof.Machine

/-- The end of a meaning: the next state, the queue as it was. -/
def done (s t : State) : Host.Outcome State Fault Refusal := .next { t with pending := s.pending }

/-- The end of a meaning that needs the part out of reset with its clocks running (R434, R447): while PERST# is asserted or
THERMTRIP# has stopped the clocks, nothing changes. -/
def live (s t : State) : Host.Outcome State Fault Refusal :=
  if s.pins.perst || s.pins.clocksStopped then done s s else done s t

/-- Send something to the outside. -/
def emit (o : Out) (s : State) : State := { s with out := s.out ++ [o] }

/-- A step over every element of a list. -/
def forEach {α : Type} (l : List α) (f : α → State → State) (s : State) : State := l.foldl (fun t x => f x t) s

/-- A step taken only where a condition holds. -/
def onlyIf (c : Bool) (f : State → State) (s : State) : State := if c then f s else s

/-! ## Free values (log 5) -/

/-- The next free value of w bits. -/
def freeWord (w : Nat) (s : State) : BitVec w := Config.freeBits w s.free

/-- The next free number. -/
def freeNumber (s : State) : Nat := Config.freeNat s.free

/-- A free value has been taken. -/
def tookFree (s : State) : State := { s with free := s.free + 1 }

/-- The certificate chain of slot 0 that SEC offers (R108, R110). -/
def State.chain (s : State) : Bytes := Config.certChain s.fuses.deviceSeed s.sec.ak s.sec.akSvn

/-! ## Counters (R459, R460) -/

/-- Add to a count, saturating at 32 bits but for the 64-bit counters. -/
def countUp (k n v : Nat) : Nat :=
  if isWide k then (v + n) % 2 ^ 64 else if v + n < 2 ^ 32 then v + n else 2 ^ 32 - 1

/-- Add n to a counter of the whole part. -/
def bumpPartBy (k n : Nat) (s : State) : State := { s with cnt := Tab.upd 0 s.cnt k (countUp k n) }

/-- Add n to a counter of function f: its own value, where the counter is a Tenant one, and the whole-part value. -/
def bumpBy (f k n : Nat) (s : State) : State :=
  bumpPartBy k n { s with fcnt := if isTenant k then Tab.upd 0 s.fcnt (4096 * f + k) (countUp k n) else s.fcnt }

/-- Count one event of function f. -/
def bump (f k : Nat) (s : State) : State := bumpBy f k 1 s

/-- Count one event of the part. -/
def bumpPart (k : Nat) (s : State) : State := bumpPartBy k 1 s

/-! ## Functions and interrupts (R37, R43, R47) -/

/-- The state of a function. -/
def State.fn (s : State) (f : Nat) : Func := Tab.get {} s.funcs f

/-- Change the state of a function. -/
def updFn (f : Nat) (g : Func → Func) (s : State) : State := { s with funcs := Tab.upd {} s.funcs f g }

/-- The PF, and each VF that is enabled. -/
def State.present (s : State) (f : Nat) : Bool := f == 0 || (s.link.vfEnable && decide (f ≤ s.link.numVfs))

/-- The functions that exist, PF first. -/
def State.functions (s : State) : List Nat := 0 :: (if s.link.vfEnable then (List.range s.link.numVfs).map (· + 1) else [])

/-- MSI-X vectors of a function: 64 in the PF, 16 in a VF (R43). -/
def vectorsOf (f : Nat) : Nat := if f = 0 then 64 else 16

/-- A vector fires (R43, R47): its message is sent, or its Pending Bit is set while the function is fenced or the vector or
the function is masked. Nothing happens while MSI-X is not enabled. -/
def raiseVec (f v : Nat) (s : State) : State :=
  let x := s.fn f
  let e := Tab.get {} x.msix v
  if !x.msixEn || !decide (v < vectorsOf f) then s
  else if x.fenced || x.msixMask || e.mask then
    updFn f (fun y => { y with pba := y.pba ||| BitVec.ofNat 64 (2 ^ v) }) s
  else emit (.msix f v e.addr e.data) s

/-- Send the messages of pending vectors that nothing holds back any more (R47). -/
def sendPending (f : Nat) (s : State) : State :=
  forEach (List.range (vectorsOf f)) (fun v t =>
    let x := t.fn f
    if x.pba.getLsbD v && x.msixEn && !x.fenced && !x.msixMask && !(Tab.get {} x.msix v).mask then
      raiseVec f v (updFn f (fun y => { y with pba := y.pba &&& ~~~ BitVec.ofNat 64 (2 ^ v) }) t)
    else t) s

/-- Vector 0 of every function (R25, R35). -/
def raiseAll (s : State) : State := forEach s.functions (fun f t => raiseVec f 0 t) s

/-- A PLDM event, with an in-band interrupt unless the controller has disabled them (R25, R448). -/
def pldmEvent (code detail : Nat) (s : State) : State := emit (.pldm (s.side.ibi && s.side.dyn.isSome) code detail) s

/-- A READY_MAP bit. -/
def State.isReady (s : State) (b : Nat) : Bool := s.ready.getLsbD b

/-- A configuration write to a function: answered with Request Retry Status before CFG is set and while the function is under FLR
(R26, R55); a function that is not enabled takes none. -/
def configWrite (f : Nat) (run : State → State) (s : State) : State :=
  if !s.isReady rCfg || (s.fn f).flr then emit (.cfgRetry f) s else if s.present f then run s else s

/-- A memory access to a function: it reaches the function once CFG is set, and is ignored and counted during an FLR. -/
def barAccess (f : Nat) (run : State → State) (s : State) : State :=
  if !s.isReady rCfg || !s.present f then s
  else if (s.fn f).flr then bump f cViolBarAccess s
  else run s

/-- Set or clear a READY_MAP bit; a change raises vector 0 of every function and a PLDM event (R24, R25). -/
def setReady (b : Nat) (v : Bool) (s : State) : State :=
  if s.isReady b = v then s
  else
    let r := if v then s.ready ||| BitVec.ofNat 32 (2 ^ b) else s.ready &&& ~~~ BitVec.ofNat 32 (2 ^ b)
    pldmEvent 0 r.toNat (raiseAll { s with ready := r })

/-- The link fields of HOST_LINK_STATUS have changed where a step makes a difference to them (R35). -/
def linkChange (g : HostLink → HostLink) (s : State) : State :=
  let l := g s.link
  let t := { s with link := l }
  if s.link.rate = l.rate ∧ s.link.width = l.width ∧ s.link.l0p = l.l0p ∧ s.link.flit = l.flit ∧ s.link.cxlMem = l.cxlMem ∧
      s.link.cxlCache = l.cxlCache ∧ s.link.degraded = l.degraded then t
  else raiseAll t

/-! ## Device memory (R181): HBM and Basalt bytes in canonical form; an address that is not listed reads 0 (log 6) -/

/-- The byte at a device address. -/
def memGet (m : List Host.Cell) (a : Nat) : Byte :=
  match m with
  | [] => 0#8
  | (i, b) :: r => if i = a then b else memGet r a

/-- Write a byte, keeping the canonical form: writing 0 removes the entry. -/
def memSet (m : List Host.Cell) (a : Nat) (b : Byte) : List Host.Cell :=
  match m with
  | [] => if b = 0#8 then [] else [(a, b)]
  | (i, c) :: r =>
    if a < i then (if b = 0#8 then (i, c) :: r else (a, b) :: (i, c) :: r)
    else if a = i then (if b = 0#8 then r else (a, b) :: r)
    else (i, c) :: memSet r a b

/-- The canonical form: addresses rise strictly and no entry is 0. -/
def Memory.wf : List Host.Cell → Bool
  | [] => true
  | [(_, b)] => b != 0#8
  | (i, b) :: (j, c) :: r => b != 0#8 && decide (i < j) && Memory.wf ((j, c) :: r)

/-- n bytes from a device address. -/
def memRead (m : List Host.Cell) (a n : Nat) : Bytes := (List.range n).map (fun i => memGet m (a + i))

/-- Write bytes from a device address on. -/
def memWrite (m : List Host.Cell) (a : Nat) : Bytes → List Host.Cell
  | [] => m
  | b :: r => memWrite (memSet m a b) (a + 1) r

/-- Write bytes to device memory. -/
def store (a : Nat) (b : Bytes) (s : State) : State := { s with mem := memWrite s.mem a b }

/-- Drop the entries of an address range: n bytes from a read 0 (R121). -/
def memClear (m : List Host.Cell) (a n : Nat) : List Host.Cell := m.filter (fun c => c.1 < a || a + n ≤ c.1)

/-- Zero a range of device memory. -/
def zero (a n : Nat) (s : State) : State := { s with mem := memClear s.mem a n }

/-- Size of a 4 MiB unit, in bytes. -/
abbrev unitBytes4M : Nat := 4194304

/-! ## Completion rings and the held store (R59, R62 to R64, R79) -/

/-- A ring pair of a function. -/
def State.ring (s : State) (f q : Nat) : Ring := Tab.get {} (s.fn f).rings q

/-- Change a ring pair. -/
def updRing (f q : Nat) (g : Ring → Ring) (s : State) : State :=
  updFn f (fun x => { x with rings := Tab.upd {} x.rings q g }) s

/-- Entries of the SQ and of the CQ. -/
def Ring.sqSize (r : Ring) : Nat := 2 ^ r.sqLog.toNat
def Ring.cqSize (r : Ring) : Nat := 2 ^ r.cqLog.toNat

/-- The CQ is full (R59). -/
def Ring.cqFull (r : Ring) : Bool := (r.cqTail + 1) % r.cqSize == r.cqHead

/-- The 64 bytes of a completion entry (R62). -/
def Cqe.pack (e : Cqe) (held busy phase : Bool) (sqHead : Nat) : BitVec 512 :=
  BitVec.ofNat 512 (e.kind % 256 + e.final.toNat * 2 ^ 8 + held.toNat * 2 ^ 9 + e.status.toNat * 2 ^ 16 +
    e.tag.toNat * 2 ^ 32 + e.handle.toNat * 2 ^ 64 + e.result.toNat * 2 ^ 128 + (sqHead % 65536) * 2 ^ 448 +
    (e.retry % 65536) * 2 ^ 464 + (e.opcode % 65536) * 2 ^ 480 + (e.sqId % 256) * 2 ^ 496 + phase.toNat * 2 ^ 504 +
    busy.toNat * 2 ^ 505)

/-- The PASID of a function's DMA requests, where ATS is enabled (R45); its value is the host's own (log 61). -/
def State.pasidOf (s : State) (f : Nat) : Option (BitVec 20) :=
  if (s.fn f).ats && (s.fn f).pasid then some (Config.pasidOf f) else none

/-- Write an entry to CQ q and signal it as R64 states. -/
def writeCq (f q : Nat) (e : Cqe) (held : Bool) (s : State) : State :=
  let r := s.ring f q
  let t := emit (.cq f q r.cqTail (e.pack held false r.phase r.sqHead) (s.pasidOf f)) s
  let wraps := (r.cqTail + 1) % r.cqSize == 0
  let signal := r.coalN.toNat == 0 || decide (r.coalN.toNat ≤ r.unsig + 1)
  let t := updRing f q (fun r => { r with
    cqTail := (r.cqTail + 1) % r.cqSize, phase := if wraps then !r.phase else r.phase,
    unsig := if signal then 0 else r.unsig + 1 }) t
  if signal then raiseVec f r.vector.toNat t else t

/-- COUNT of a token entry, and its tokens as one word (R72). -/
def Cqe.count (e : Cqe) : Nat := bits e.result 32 8
def Cqe.tokens (e : Cqe) : List Nat := (List.range e.count).map (fun i => bits e.result (64 + 32 * i) 32)

/-- RESULT of a token entry (R72). -/
def tokenResult (pos : Nat) (ts : List Nat) : BitVec 320 :=
  BitVec.ofNat 320 (pos % 2 ^ 32 + (ts.length % 256) * 2 ^ 32 +
    (ts.zipIdx.map (fun (t, i) => (t % 2 ^ 32) * 2 ^ (64 + 32 * i))).sum)

/-- Merge a token entry into the last entry that the fence has held for the same request, up to COUNT = 8 (R79): the held
entries of the function in reverse order, and what is left of the new entry. -/
def mergeHeld (q : Nat) (e : Cqe) : List Held → Option (List Held × Option Cqe)
  | [] => none
  | h :: r =>
    if h.q = q ∧ h.e.handle = e.handle then
      if h.fence ∧ h.e.kind = 1 ∧ h.e.count < 8 then
        let all := h.e.tokens ++ e.tokens
        let pos := bits h.e.result 0 32
        let one := { h with e := { h.e with result := tokenResult pos (all.take 8) } }
        let rest := all.drop 8
        some (one :: r, if rest = [] then none else some { e with result := tokenResult (pos + 8) rest })
      else none
    else (mergeHeld q e r).map (fun p => (h :: p.1, p.2))

/-- Put an entry into the held store; token entries produced under a fence are merged (R63, R79). -/
def hold (f q : Nat) (e : Cqe) (s : State) : State :=
  let x := s.fn f
  let plain := x.held ++ [{ q := q, e := e, fence := x.fenced }]
  let l := if x.fenced ∧ e.kind = 1 then
      match mergeHeld q e x.held.reverse with
      | none => plain
      | some (l, none) => l.reverse
      | some (l, some r) => l.reverse ++ [{ q := q, e := r, fence := true }]
    else plain
  updFn f (fun y => { y with held := l }) s

/-- Produce a completion entry for CQ q (R63): it is written, or held while the function is fenced, the ring pair is not
enabled, the CQ is full or older entries of the CQ are still held. -/
def post (f q : Nat) (e : Cqe) (s : State) : State :=
  let x := s.fn f
  let r := s.ring f q
  let e := { e with sqId := q }
  if x.fenced || !r.enable || x.held.any (·.q == q) then
    let late := !x.fenced && r.enable && r.cqFull && !r.full
    hold f q e (if late then bump f cViolIarekCqFull (updRing f q (fun r => { r with full := true }) s) else s)
  else if r.cqFull then
    hold f q e (if r.full then s else bump f cViolIarekCqFull (updRing f q (fun r => { r with full := true }) s))
  else writeCq f q e false s

/-- Write held entries of CQ q while it has room (R63), at most n. -/
def drainHeld (f q : Nat) : Nat → State → State
  | 0, s => s
  | n + 1, s =>
    let x := s.fn f
    let r := s.ring f q
    match x.held.find? (·.q == q) with
    | none => updRing f q (fun r => { r with full := false }) s
    | some h =>
      if x.fenced || !r.enable || r.cqFull then s
      else drainHeld f q n (writeCq f q h.e true (updFn f (fun y => { y with held := y.held.erase h }) s))

/-- Write what the held store holds for CQ q as far as it fits. -/
def flushHeld (f q : Nat) (s : State) : State := drainHeld f q ((s.fn f).held.length + 1) s

/-- An event entry on the PF's admin CQ (R73), and the PLDM event that R448 carries. -/
def postEvent (code : Nat) (st : Status) (detail : Nat) (s : State) : State :=
  pldmEvent code detail
    (post 0 0 { kind := 2, final := false, status := st,
                result := BitVec.ofNat 320 (code % 65536 + detail % 2 ^ 32 * 2 ^ 32) } s)

/-! ## Handles (R66) -/

def hFunc (h : Nat) : Nat := h / 2 ^ 59 % 32
def hKind (h : Nat) : Nat := h / 2 ^ 56 % 8
def hGen (h : Nat) : Nat := h / 2 ^ 32 % 2 ^ 24
def hIndex (h : Nat) : Nat := h % 2 ^ 32

/-- The handle with the fields given. -/
def mkHandle (f kind gen idx : Nat) : Nat :=
  (f % 32) * 2 ^ 59 + (kind % 8) * 2 ^ 56 + (gen % 2 ^ 24) * 2 ^ 32 + idx % 2 ^ 32

/-- The first GEN from g on that the part has not issued with these fields. -/
def freshGen (issued : List Nat) (f kind idx g : Nat) : Nat → Nat
  | 0 => g
  | n + 1 => if issued.contains (mkHandle f kind g idx) then freshGen issued f kind idx (g + 1) n else g

/-- The first INDEX from i on that no listed handle carries. -/
def freshIndex (live : List Nat) (i : Nat) : Nat → Nat
  | 0 => i
  | n + 1 => if live.any (fun h => hIndex h == i) then freshIndex live (i + 1) n else i

/-- Issue a handle with a given INDEX: the handle and the state (log 15: GEN is free but not one issued before). -/
def issueAt (f kind idx : Nat) (s : State) : Nat × State :=
  let g := freshGen s.issued f kind idx (freeNumber s % 2 ^ 23) s.issued.length
  let h := mkHandle f kind g idx
  (h, { tookFree s with issued := h :: s.issued })

/-- Issue a handle; the INDEX is free but not one of a live object of the kind. -/
def issue (f kind : Nat) (live : List Nat) (s : State) : Nat × State :=
  issueAt f kind (freshIndex live (freeNumber s % 2 ^ 31) live.length) (tookFree s)

/-- How a handle stands for a function and a kind (R66): live, stale, or a violation. -/
inductive HandleIs where
  | live | stale | bad
  deriving DecidableEq, Repr

/-- R66, given whether the object is live. -/
def handleIs (s : State) (f kind h : Nat) (live : Bool) : HandleIs :=
  if hFunc h = f ∧ hKind h = kind ∧ s.issued.contains h then (if live then .live else .stale) else .bad

/-! ## Mailbox commands (R61, R65, R67, R75) -/

/-- A command that is being run: the function, where it came from, its opcode and its entry. -/
structure Cmd where
  f : Nat
  src : Src
  op : Nat
  e : Sqe

/-- The entry that DIRECT_CMD holds. -/
def sqeOf (v : BitVec 512) : Sqe :=
  { flags := BitVec.ofNat 16 (bits v 16 16), tag := BitVec.ofNat 32 (bits v 32 32),
    handle := BitVec.ofNat 64 (bits v 64 64), args := BitVec.ofNat 384 (bits v 128 384) }

/-- DIRECT_CPL.BUSY. -/
def Func.busy (x : Func) : Bool := x.directCpl.getLsbD 505

/-- Write a completion into DIRECT_CPL with BUSY clear and PHASE inverted (R65). -/
def directDone (f : Nat) (e : Cqe) (s : State) : State :=
  updFn f (fun x => { x with directCpl := { e with sqId := 0xFF }.pack false false (!x.directCpl.getLsbD 504) 0 }) s

/-- The direct slot becomes free without a completion (log 17). -/
def directDrop (f : Nat) (s : State) : State :=
  updFn f (fun x => { x with directCpl := x.directCpl &&& ~~~ BitVec.ofNat 512 (2 ^ 505) }) s

/-- RETRY_AFTER goes with E_NOTREADY and E_BUSY; its value is a free one (R62, log 5). -/
def retryOf (st : Status) (s : State) : Nat := if st = eNotReady ∨ st = eBusy then (freeWord 16 s).toNat else 0

/-- A completion of a command. -/
def Cmd.entry (c : Cmd) (final : Bool) (st : Status) (h : Nat) (r : BitVec 320) (s : State) : Cqe :=
  { kind := 0, final := final, status := st, tag := c.e.tag, handle := BitVec.ofNat 64 h, result := r,
    retry := retryOf st s, opcode := c.op }

/-- Where a completion of function f goes: a ring pair, or the direct slot. -/
def complete (f : Nat) (q : Option Nat) (e : Cqe) (s : State) : State :=
  match q with
  | some q => post f q e s
  | none => directDone f e s

/-- The ring pair of a source, none for the direct slot. -/
def srcQ : Src → Option Nat
  | .ring q _ | .alien q _ _ => some q.val
  | .direct => none

/-- Answer a command with its final completion. -/
def Cmd.answer (c : Cmd) (st : Status) (h : Nat) (r : BitVec 320) (s : State) : State :=
  tookFree (complete c.f (srcQ c.src) (c.entry true st h r s) s)

/-- Answer a command with a status alone; HANDLE is the one it named. -/
def Cmd.end (c : Cmd) (st : Status) (s : State) : State := c.answer st c.e.handle.toNat 0 s

/-- Answer a command with a status alone and a RETRY_AFTER that the spec states. -/
def Cmd.endRetry (c : Cmd) (st : Status) (retry : Nat) (s : State) : State :=
  complete c.f (srcQ c.src) { c.entry true st c.e.handle.toNat 0 s with retry := retry } s

/-- Drop an entry that breaks a rule (R67): no completion, one count. -/
def Cmd.drop (c : Cmd) (k : Nat) (s : State) : State :=
  let t := bump c.f k s
  match c.src with
  | .direct => directDrop c.f t
  | _ => t

/-- The n-byte argument at an offset of the entry, 0x10 or more. -/
def Cmd.arg (c : Cmd) (off n : Nat) : Nat := bits c.e.args (8 * (off - 16)) (8 * n)

/-- The argument bytes outside the listed fields are 0 (R4, R68), and so are the reserved FLAGS bits (R61). PRIORITY is no reserved
field: a command that has no use for it takes every value (DESIGN CHOICE, log 62). -/
def Cmd.reservedOk (c : Cmd) (fields : List (Nat × Nat)) : Bool :=
  decide (fields.foldl (fun a x => setBits a (8 * (x.1 - 16)) (8 * x.2) 0) c.e.args = 0) && decide (c.e.flags.toNat < 16)

/-- FLAGS.PRIORITY (R61). -/
def Cmd.prio (c : Cmd) : Nat := bits c.e.flags 1 3

/-- RESULT of up to 40 bytes from (offset from 0x10, length, value) fields. -/
def result (fields : List (Nat × Nat × Nat)) : BitVec 320 :=
  BitVec.ofNat 320 ((fields.map (fun x => (x.2.2 % 2 ^ (8 * x.2.1)) * 2 ^ (8 * x.1))).sum)

end Sys2Proof.Machine
end

