-- ==== Sys2Proof/Machine/OpsLink.lean ====
section
/-! DEFINITION. Sending on the fabric: frames and credits of a port (R348 to R350), link messages on VC0 (R352), messages of
CTRL, KV and BULK with their header and route (R378, R385), and owner tags (R96, R97). -/

namespace Sys2Proof.Machine

/-- A processor. -/
def State.proc (s : State) (p : Nat) : Proc := Tab.get {} s.procs p

/-- Change a processor. -/
def updProc (p : Nat) (g : Proc → Proc) (s : State) : State := { s with procs := Tab.upd {} s.procs p g }

/-- The owner tag of an agent and a function under the current epochs (R96). -/
def State.tagOf (s : State) (agent f : Nat) : Tag :=
  { agent := agent, fn := f, fepoch := (s.fn f).fepoch, aepoch := (s.proc agent).aepoch }

/-- Both epochs of a tag are current (R97). -/
def State.tagLive (s : State) (t : Tag) : Bool :=
  decide (t.fepoch = (s.fn t.fn).fepoch) && decide (t.aepoch = (s.proc t.agent).aepoch) && decide (t.agent < 11)

/-- A resource under tag `r` takes an item under tag `i` (R97). -/
def State.accepts (s : State) (r i : Tag) : Bool := r.agent == i.agent && r.fn == i.fn && s.tagLive i

/-- The tag that 32 bits spell. -/
def tagOfWord (w : Nat) : Tag :=
  { agent := w / 2 ^ 28 % 16, fn := w / 2 ^ 23 % 32, fepoch := BitVec.ofNat 11 (w / 2 ^ 12), aepoch := BitVec.ofNat 12 w }

/-- Change the fabric state. -/
def updFab (g : Fab → Fab) (s : State) : State := { s with fab := g s.fab }

/-- A port. -/
def State.port (s : State) (p : Nat) : Port := Tab.get {} s.fab.ports p

/-- Change a port. -/
def updPort (p : Nat) (g : Port → Port) (s : State) : State :=
  updFab (fun x => { x with ports := Tab.upd {} x.ports p g }) s

/-- How many lanes of a port are in use. -/
def Port.laneCount (x : Port) : Nat := ((List.range 8).filter (fun k => x.lanes.getLsbD k)).length

/-- Frames of the pool that VC1 to VC7 share (R350). -/
def Port.pool (x : Port) : Nat := 32 * x.laneCount - 32

/-- A credit is at hand for a frame of a VC (R350). -/
def Port.hasCredit (x : Port) (vc : Nat) : Bool :=
  decide (Tab.get 0 x.used vc < 4) ||
    (vc != 0 && decide (((x.used.map (fun e => if e.1 = 0 then 0 else e.2 - 4)).sum) < x.pool))

/-- The VCs in the order in which a port serves them (R377). -/
def Port.vcOrder (x : Port) : List Nat := [0, 2, 1, 7] ++ (if x.bulkNext then [6, 5, 4, 3] else [4, 3, 6, 5])

/-- The VC of which the next frame is sent, if any: the port is UP, VC0 alone before keys are in force (R351), a frame is
queued with a credit, and the replay buffer has room (R349). -/
def Port.nextVc (x : Port) : Option Nat :=
  if x.st = .up ∧ x.replay.length < 256 then
    x.vcOrder.find? (fun v => (v == 0 || x.keyed) && x.hasCredit v && !(Tab.get [] x.queues v).isEmpty)
  else none

/-- Send queued frames of a port while credit lasts, at most n. -/
def pump (p : Nat) : Nat → State → State
  | 0, s => s
  | n + 1, s =>
    let x := s.port p
    match x.nextVc with
    | none => s
    | some v =>
      match Tab.get [] x.queues v with
      | [] => s
      | b :: r =>
        let owed := x.owed.find? (fun e => decide (0 < e.2))
        let fr : FrameT := { seq := x.seqTx, ack := x.seqRx, vc := v, nak := false, phase := x.phaseTx.getLsbD 0,
                             credVc := (owed.map (·.1)).getD 0, credits := (owed.map (·.2)).getD 0, payload := b }
        let left := Tab.get 0 x.txLeft v
        let y := { x with
          txLeft := if v = 0 ∨ v = 7 then x.txLeft
            else Tab.put x.txLeft v (if left = 0 then (rd b 10 2 + 991) / 992 - 1 else left - 1),
          queues := Tab.put x.queues v r, used := Tab.upd 0 x.used v (· + 1), seqTx := x.seqTx + 1,
          wrapsTx := if x.seqTx = 0xFFFF#16 then x.wrapsTx + 1 else x.wrapsTx, framesTx := x.framesTx + 1,
          replay := x.replay ++ [(fr, 0)], bulkNext := if v = 3 ∨ v = 4 then true else if v = 5 ∨ v = 6 then false else x.bulkNext,
          owed := match owed with | none => x.owed | some e => Tab.put x.owed e.1 0 }
        pump p n (emit (.frame p fr) (updPort p (fun _ => y) s))

/-- Frames that wait at a port. -/
def Port.waiting (x : Port) : Nat := (x.queues.map (fun e => e.2.length)).sum

/-- A frame without payload: the last SEQ received in order as ACK or NAK, and credits owed (R348 to R350). -/
def sendAck (p : Nat) (nak : Bool) (s : State) : State :=
  let x := s.port p
  let owed := x.owed.find? (fun e => decide (0 < e.2))
  emit (.ack p x.seqRx nak ((owed.map (·.1)).getD 0) ((owed.map (·.2)).getD 0))
    (updPort p (fun x => { x with owed := match owed with | none => x.owed | some e => Tab.put x.owed e.1 0 }) s)

/-- Send what a port can send. -/
def flushPort (p : Nat) (s : State) : State := pump p ((s.port p).waiting) s

/-- Queue frames on a VC of a port. -/
def queueFrames (p vc : Nat) (l : List Bytes) (s : State) : State :=
  flushPort p (updPort p (fun x => { x with queues := Tab.upd [] x.queues vc (· ++ l) }) s)

/-- A link message on VC0 (R352). -/
def sendLink (p ltype : Nat) (body : Bytes) (s : State) : State :=
  queueFrames p 0 [fit 992 ([BitVec.ofNat 8 ltype, 0#8] ++ toLe 2 body.length ++ body)] s

/-- Payloads of the frames that a block of bytes takes. -/
def framePayloads (b : Bytes) : List Bytes := (chunks 992 9 b).map (fit 992)

/-- The 12 route bytes of hops, hop k in bits 6k + 5 to 6k (R378). -/
def routeBits (hops : List (Bool × Nat)) : Nat :=
  (hops.zipIdx.map (fun (h, k) => (h.1.toNat * 32 + h.2 % 32) * 2 ^ (6 * k))).sum

/-- The bytes of a message (R378). -/
def Msg.bytes (m : Msg) : Bytes :=
  toLe 2 m.hdr.dest ++ toLe 2 m.hdr.src ++ [BitVec.ofNat 8 m.hdr.cls, BitVec.ofNat 8 m.hdr.hop, BitVec.ofNat 8 m.hdr.hops,
    BitVec.ofNat 8 m.hdr.rerouted.toNat] ++ toLe 2 m.hdr.mseq.toNat ++ toLe 2 m.hdr.length ++ toLe 4 m.hdr.tag.toNat ++
    toLe 12 m.hdr.route.toNat ++ toLe 2 m.hdr.mtype ++ [0#8, 0#8] ++ m.body

/-- Hop k of a route word: UPPER and PORT. -/
def routeHop (r : BitVec 96) (k : Nat) : Bool × Nat := (bits r (6 * k + 5) 1 == 1, bits r (6 * k) 5)

/-- The VC of a class, lower or upper (R377). -/
def vcOf (cls : Nat) (upper : Bool) : Nat := 2 * cls - 1 + upper.toNat

/-- Send a message on hop HOP of its route and increment HOP (R385). -/
def sendHop (m : Msg) (s : State) : State :=
  let h := routeHop m.hdr.route m.hdr.hop
  queueFrames h.2 (vcOf m.hdr.cls h.1) (framePayloads ({ m with hdr := { m.hdr with hop := m.hdr.hop + 1 } }).bytes) s

/-- Send a message to another part on the route in force (R378, R385); without a route nothing is sent. -/
def sendMsg (dest cls mtype : Nat) (tag : BitVec 32) (body : Bytes) (s : State) : State :=
  match Tab.find s.fab.routes dest with
  | none => s
  | some r =>
    let q := Tab.get 0 s.fab.mseq (4096 * cls + dest)
    sendHop { hdr := { dest := dest, src := s.fab.addr, cls := cls, hop := 0, hops := r.hops.length, rerouted := false,
                       mseq := q, length := 32 + body.length, tag := tag,
                       route := BitVec.ofNat 96 (routeBits r.hops), mtype := mtype }, body := body }
      (updFab (fun x => { x with mseq := Tab.put x.mseq (4096 * cls + dest) (q + 1) }) s)

/-- The address this part goes by in contexts. -/
def State.me (s : State) : Nat := if s.fab.valid then s.fab.addr else 0xFFFF

/-- The part has a route to an address, or it is its own. -/
def State.reaches (s : State) (a : Nat) : Bool := (s.fab.valid && s.fab.addr == a) || Tab.has s.fab.routes a

/-- Members of the part's Rod other than itself that it has routes to. -/
def State.rodMembers (s : State) : List Nat :=
  if !s.fab.valid then [] else (Tab.keys s.fab.routes).filter (fun a => a / 16 = s.fab.addr / 16 ∧ a ≠ s.fab.addr)

end Sys2Proof.Machine
end

