-- ==== Sys2Proof/Machine/OpsRecord.lean ====
section
/-! DEFINITION. Link-state records (18 R370): what the part sends of itself, and what it takes from others. -/

namespace Sys2Proof.Machine

/-- The bytes of a record. -/
def LsRecord.bytes (r : LsRecord) : Bytes :=
  toLe 8 r.id.toNat ++ toLe 4 r.seq.toNat ++ toLe 2 (match r.addr with | none => 0 | some a => 0x8000 + a) ++
    toLe 1 (r.fabricAll.toNat + 2 * r.settled.toNat) ++ toLe 1 r.furlong ++ toLe 1 r.ports.length ++ List.replicate 15 0#8 ++
    (r.ports.map (fun p => toLe 1 p.port ++ toLe 1 p.level ++ toLe 1 p.mode ++ toLe 1 p.partnerPort ++ toLe 4 0 ++
      toLe 8 p.partnerId.toNat)).flatten

/-- Port entry k of a record. -/
def lsPortAt (b : Bytes) (k : Nat) : LsPort :=
  let o := 0x20 + 16 * k
  { port := rd b o 1, level := rd b (o + 1) 1, mode := rd b (o + 2) 1, partnerPort := rd b (o + 3) 1,
    partnerId := rdBV 64 b (o + 8) }

/-- The record that bytes spell, none where they are malformed. -/
def lsRecord (b : Bytes) : Option LsRecord :=
  let n := rd b 0x10 1
  let a := rd b 0x0C 2
  let ps := (List.range n).map (lsPortAt b)
  if b.length < 0x20 + 16 * n ∨ 24 < n ∨ 4 ≤ rd b 0x0E 1 ∨ 15 < rd b 0x0F 1 ∨ a / 4096 % 8 ≠ 0 ∨
      !allZero (slice b 0x11 15) ∨ (List.range n).any (fun k => rd b (0x24 + 16 * k) 4 != 0) ∨
      ps.any (fun p => decide (23 < p.port ∨ 2 < p.level ∨ 6 < p.mode ∨ 23 < p.partnerPort)) then none
  else some { id := rdBV 64 b 0, seq := rdBV 32 b 8, addr := if 0x8000 ≤ a then some (a % 4096) else none,
              fabricAll := rd b 0x0E 1 % 2 == 1, settled := rd b 0x0E 1 / 2 == 1, furlong := rd b 0x0F 1, ports := ps }

/-- The part's own record now, with a SEQ: its keyed ports, those among them whose routes a link-down of under 5 ms still keeps (R362, log 52). -/
def State.ownRecord (s : State) (seq : BitVec 32) : LsRecord :=
  { id := Config.partId, seq := seq, addr := if s.fab.valid then some s.fab.addr else none,
    fabricAll := s.isReady rFabricAll, settled := s.fab.settled, furlong := s.settings.furlong,
    ports := (s.fab.ports.filter (fun e => e.2.keyed && (e.2.st == .up || e.2.linkDown))).map (fun e =>
      { port := e.1, level := e.2.level, mode := e.2.mode, partnerPort := e.2.partnerPort, partnerId := e.2.partnerId }) }

/-- Put a record into the database. -/
def storeRecord (r : LsRecord) (s : State) : State :=
  updFab (fun x => { x with
    db := r :: x.db.filter (fun y => y.id ≠ r.id),
    holds := match r.addr with | none => x.holds | some a => Tab.put x.holds a r.id }) s

/-- The record of a part. -/
def State.recordOf (s : State) (id : BitVec 64) : Option LsRecord := s.fab.db.find? (fun r => r.id = id)

/-- The two ends give the link of port p different levels (R368). -/
def State.levelClash (s : State) (p : Nat) : Bool := (s.port p).levelBad

/-- A record of the partner of port p gives their link another level. -/
def State.clashes (s : State) (p : Nat) (r : LsRecord) : Bool :=
  let x := s.port p
  decide (x.partnerId = r.id) && r.ports.any (fun e =>
    e.port == x.partnerPort && e.partnerId == Config.partId && e.partnerPort == p && e.level != x.level)

/-- Ports on which a record goes out: UP, keyed, of one level at both ends, and not the one it came on. -/
def State.recordPorts (s : State) (skip : Option Nat) : List Nat :=
  (Tab.keys (s.fab.ports.filter (fun e => e.2.st = .up && e.2.keyed))).filter (fun p => some p ≠ skip && !s.levelClash p)

/-- Send a record on VC7. -/
def sendRecord (r : LsRecord) (skip : Option Nat) (s : State) : State :=
  forEach (s.recordPorts skip) (fun p t => queueFrames p 7 [fit 992 r.bytes] t) s

/-- Originate a new record, once the bundle is loaded (R370, R371). -/
def originate (s : State) : State :=
  if !s.isReady rFw then s
  else
    let r := s.ownRecord (s.fab.seq + 1)
    sendRecord r none (storeRecord r (updFab (fun x => { x with seq := x.seq + 1 }) s))

/-- Originate a new record where the ports, the address or the flags differ from those of the part's last one (R370). -/
def renew (s : State) : State :=
  if (s.recordOf Config.partId).map (fun r => { r with seq := 0 }) = some (s.ownRecord 0) then s else originate s

/-- A record arrives on port p (R368, R370, R371). -/
def rxRecord (p : Nat) (b : Bytes) (s : State) : State :=
  let x := s.port p
  if !s.isReady rFw || x.st != .up || !x.keyed || s.levelClash p then s
  else match lsRecord b with
    | none => bumpPart cViolFabMsg s
    | some r =>
      let old := (s.recordOf r.id).map (fun y => decide (r.seq.toNat ≤ y.seq.toNat))
      if r.id = Config.partId ∨ old = some true then s
      else
        let t := storeRecord r s
        let clash := (Tab.keys t.fab.ports).filter (fun q => t.clashes q r && !t.levelClash q)
        let t := forEach clash (fun q t => updPort q (fun x => { x with levelBad := true }) t) t
        sendRecord r (some p) (bumpPartBy cViolFabLevel clash.length t)

end Sys2Proof.Machine
end

