-- ==== Sys2Proof/Machine/OpsCxl.lean ====
section
/-! DEFINITION. The device cache: lines that the mailbox engine takes, their sets and ways, and lines on their way out (02 R49, R52,
R53). -/

namespace Sys2Proof.Machine

/-- 1,024 sets of 16 lines of 64 bytes (R49), and the entries of the eviction buffer (R53). -/
abbrev cacheSets : Nat := 1024
abbrev cacheWays : Nat := 16
abbrev evictEntries : Nat := 32

/-- Change CXL state. -/
def updCxl (g : Cxl → Cxl) (s : State) : State := { s with cxl := g s.cxl }

/-- A line leaves the device cache (R53): it enters the eviction buffer, and then its eviction request is sent. -/
def evictLine (line : Nat) (s : State) : State :=
  match Tab.find s.cxl.lines line with
  | none => s
  | some c =>
    let kind := if c.state = .m then EvictKind.dirty else .clean
    emit (.cxlEvict line kind) (updCxl (fun x => { x with
      lines := Tab.erase x.lines line,
      evict := x.evict ++ [{ line := line, state := c.state, data := c.data, kind := kind, snooped := false }] }) s)

/-- The device cache takes a line in a state. A full set gives up one of its lines first, and takes none while all entries of the
eviction buffer are occupied (R49, R53); which one it gives up is free (log 61). -/
def takeLine (line : Nat) (c : CacheLine) (s : State) : State :=
  let mates := (Tab.keys s.cxl.lines).filter (fun k => k % cacheSets = line % cacheSets ∧ k ≠ line)
  let put := updCxl (fun x => { x with lines := Tab.put x.lines line c })
  if s.cxl.evict.any (·.line == line) then s
  else if mates.length < cacheWays then put s
  else if evictEntries ≤ s.cxl.evict.length then s
  else put (tookFree (evictLine (mates.getD (freeNumber s % mates.length) 0) s))

/-- A line as the device cache takes it: its state and what it holds are free (log 61). -/
def freeLine (s : State) : CacheLine :=
  { state := match Config.freeNat (s.free + 1) % 3 with
      | 0 => .s
      | 1 => .e
      | _ => .m
    data := Config.freeBits 512 (s.free + 2) }

/-- The mailbox engine uses the device cache as it fetches (R52): it takes a line of host memory, a ring index or a flag. Which line
it is, is the engine's own, so free (log 61). -/
def useCache (s : State) : State :=
  if !s.link.cxlCache then s else takeLine (freeNumber s) (freeLine s) { s with free := s.free + 3 }

end Sys2Proof.Machine
end

