-- ==== Sys2Proof/Machine/OpsKv.lean ====
section
/-! DEFINITION. HBM as SCH grants it, and the KV page store: units, granules, frames, page states, drops, ghosts and revival
(08, 10, 11; zeroing by R121 and R122). -/

namespace Sys2Proof.Machine

/-- Change the KV store. -/
def updKv (g : Kv → Kv) (s : State) : State := { s with kv := g s.kv }

/-- Change the serving service. -/
def updServe (g : Serve → Serve) (s : State) : State := { s with serve := g s.serve }

/-- Change the grants of HBM. -/
def updStore (g : Store → Store) (s : State) : State := { s with store := g s.store }

/-- Change a context. -/
def updCtx (idx : Nat) (g : Ctx → Ctx) (s : State) : State :=
  match Tab.find s.serve.ctxs idx with
  | none => s
  | some c => updServe (fun x => { x with ctxs := Tab.put x.ctxs idx (g c) }) s

/-! ## Units and granules -/

/-- 4 MiB units of HBM: S × 24 GiB (R201), and the units below the coherent window (R181). -/
def State.totalUnits (s : State) : Nat := s.store.nStacks * 6144
def State.topUnit (s : State) : Nat := s.totalUnits - s.link.winUnits * 64

/-- The weight headroom in units (R265). -/
def State.headroom (s : State) : Nat :=
  s.topUnit - s.store.schUnits - s.store.units.length - s.settings.kvFloor * 256

/-- G, the granules of the KV store (R223): those of units that are not granted, without the retired ones (R206). -/
def State.granules (s : State) : Nat :=
  (s.topUnit - s.store.schUnits - s.store.units.length) * 1024 -
    (s.store.retired.filter (fun g => !Tab.has s.store.units (g / 1024))).length - s.store.lent.length

/-- Frames available to pages: F − 16 (R223, R244). -/
def State.framesTotal (s : State) : Nat := min (s.granules / 16) 2097152 - 16

/-- Frames granted, or reserved for an arriving shipment (R290). -/
def State.framesHeld (s : State) : Nat := s.kv.frames.length + (s.serve.ships.map (·.reserved)).sum

/-- KV_FRAMES_FREE (R242). -/
def State.framesFree (s : State) : Nat := s.framesTotal - s.framesHeld

/-- Granules in use. -/
def Kv.used (k : Kv) : List Nat :=
  (k.frames.map (fun e => e.2.gmap.grans)).flatten ++ (k.ghosts.map (fun e => e.2.gmap.grans)).flatten ++
    (k.seals.map (·.grans)).flatten ++ (k.old.map (·.grans)).flatten

/-- A granule belongs to the KV store. -/
def State.isKvGran (s : State) (g : Nat) : Bool :=
  decide (s.store.schUnits ≤ g / 1024) && decide (g / 1024 < s.topUnit) && !Tab.has s.store.units (g / 1024) &&
    !s.store.retired.contains g && !s.store.lent.any (fun e => e.2 == g)

/-- The first n numbers that satisfy a test, scanning from a start modulo m. -/
def scan (ok : Nat → Bool) (m start : Nat) : Nat → Nat → List Nat
  | _, 0 => []
  | 0, _ => []
  | fuel + 1, n + 1 =>
    if ok (start % m) then (start % m) :: scan ok m (start + 1) fuel n else scan ok m (start + 1) fuel (n + 1)

/-- Who wrote a granule last (R121): its own tag, else that of its unit. -/
def State.granOwner (s : State) (g : Nat) : Option Tag :=
  match Tab.find s.store.granTag g with
  | some t => some t
  | none => Tab.find s.store.unitTag (g / 1024)

/-- A resource last held under tag a needs no zeroing for tag b: same function, same FEPOCH (R121). -/
def sameOwner (a : Option Tag) (b : Tag) : Bool :=
  match a with
  | none => false
  | some t => decide (t.fn = b.fn) && decide (t.fepoch = b.fepoch)

/-- A Slate unit is written. -/
def Core.putUnit (c : Core) (u : Nat) (v : Unit64) : Core :=
  { c with slate := Tab.put c.slate u v, bad := c.bad.filter (· != u) }

/-- A core with its memories zeroed. -/
def Core.zeroed (c : Core) : Core :=
  { c with
    slate := [], shadow := [], aRows := [], aScale := [], bRows := [], bScale := [], plane := [], setRows := [], setScale := [],
    junk := 0, junkP := 0, bad := [] }

/-- A core as its memories are when it is granted to an owner: zeroed where another owner, or an earlier epoch, held it. -/
def Core.granted (c : Core) (owner : Tag) : Core :=
  if sameOwner (some c.owner) owner && c.owner.agent != 15 then { c with owner := owner } else { c.zeroed with owner := owner }

/-- A core as a serving step takes it for a request (R121): zeroed where a task of another function held it last. It then belongs to no
function, as a step brings pages of several, so the next grant of it zeroes it (log 42). -/
def Core.serves (c : Core) (tag : Tag) : Core :=
  let d := if c.owner.agent = 15 ∨ sameOwner (some c.owner) tag then c else c.zeroed
  { d with owner := { tag with agent := 15 } }

/-- n free granules, from a free start (log 18), zeroed for their owner where R121 asks for it. -/
def takeGrans (n : Nat) (owner : Tag) (zeroing : Bool) (s : State) : List Nat × State :=
  let used := s.kv.used
  let m := s.topUnit * 1024
  let l := scan (fun g => s.isKvGran g && !used.contains g) m (freeNumber s) m n
  let mem := if zeroing then
      l.foldl (fun mm g => if sameOwner (s.granOwner g) owner then mm else memClear mm (4096 * g) 4096) s.mem
    else s.mem
  (l, { tookFree s with
        mem := mem, store := { s.store with granTag := l.foldl (fun t g => Tab.put t g owner) s.store.granTag } })

/-- A granule is retired until PERST# (R206). -/
def retire (g : Nat) (s : State) : State :=
  if s.store.retired.contains g then s else updStore (fun x => { x with retired := g :: x.retired }) s

/-- The function whose data a device address holds, none where nobody has been granted it. -/
def State.fnAt (s : State) (a : Nat) : Option Nat := (s.granOwner (a / 4096)).map (·.fn)

/-- Count an event of a memory: for the function whose data it is, or for the part alone. -/
def bumpOwner (f : Option Nat) (k : Nat) (s : State) : State :=
  match f with
  | some f => bump f k s
  | none => bumpPart k s

/-- A read from outside meets an uncorrectable unit of HBM (R206): it is counted, and its granule is retired. -/
def ueRead (a : Nat) (s : State) : State := retire (a / 4096) (bumpOwner (s.fnAt a) cHbmUe s)

/-- Where an HBM address lies (R201): its stack, counted among the usable ones in ascending order, and its pseudo-channel there. -/
def State.hbmPlace (s : State) (a : Nat) : Nat × Nat := (s.store.order.getD (a / 8192 % s.store.nStacks) 0, a / 256 % 32)

/-- The lowest entry of the granule map table that no frame and no ghost holds (R250; log 40). -/
def Kv.freeMap (k : Kv) : Nat :=
  let used := k.frames.map (fun e => e.2.gmap.map) ++ k.ghosts.map (fun e => e.2.gmap.map)
  ((List.range (used.length + 1)).find? (fun m => !used.contains m)).getD 0

/-! ## Models, columns and pages -/

/-- Units per row of one head: R of R220. -/
def ModelHdr.rowUnits (h : ModelHdr) : Nat := h.dim * (if h.kvFmt = 7 then 2 else 1)

/-- N_raw: granules of an uncompressed page. -/
def ModelHdr.rawGrans (h : ModelHdr) : Nat := 2 * h.kvHeads * h.rowUnits

/-- A copy. -/
def State.copy (s : State) (k : Nat) : Option Copy := Tab.find s.serve.copies k

/-- A copy's header as this member of its shard group sees it: the KV heads it holds (R276). -/
def Copy.memberHdr (c : Copy) : ModelHdr := { c.hdr with kvHeads := c.hdr.kvHeads / max c.shard 1 }

/-- The target and the draft of a request that are on this part: the model flag and the header. -/
def State.ctxModels (s : State) (c : Ctx) : List (Bool × ModelHdr) :=
  ((c.copy.bind s.copy).map (fun x => (false, x.memberHdr))).toList ++ ((c.draft.bind s.copy).map (fun x => (true, x.memberHdr))).toList

/-- The key of a page: request index, model flag, layer and column. -/
def pageKey (idx : Nat) (draft : Bool) (layer col : Nat) : Nat := ((idx * 2 + draft.toNat) * 256 + layer) * 2048 + col

/-- The request index, model flag, layer and column of a page's key. -/
def keyIdx (k : Nat) : Nat := k / 2 ^ 20
def keyDraft (k : Nat) : Bool := k / 2 ^ 19 % 2 == 1
def keyLayer (k : Nat) : Nat := k / 2 ^ 11 % 256
def keyCol (k : Nat) : Nat := k % 2048

/-- A page entry; unlisted is ABSENT. -/
def State.page (s : State) (k : Nat) : Page := Tab.get {} s.kv.pages k

/-- Change a page entry; an ABSENT one is not listed. -/
def putPage (k : Nat) (p : Page) (s : State) : State :=
  updKv (fun x => { x with pages := if p = {} then Tab.erase x.pages k else Tab.put x.pages k p }) s

/-- The keys of the pages of a column. -/
def State.columnKeys (s : State) (idx col : Nat) : List Nat :=
  match Tab.find s.serve.ctxs idx with
  | none => []
  | some c => ((s.ctxModels c).map (fun m => (List.range m.2.layers).map (fun l => pageKey idx m.1 l col))).flatten

/-- Columns in which a request holds frames. -/
def State.heldColumns (s : State) (idx : Nat) : List Nat :=
  ((s.kv.pages.filter (fun e => keyIdx e.1 = idx ∧ (e.2.st = .opened ∨ e.2.st = .sealed ∨ e.2.st = .shipping))).map
    (fun e => keyCol e.1)).dedup

/-- The function whose request it is, for counters. -/
def State.ctxFn (s : State) (idx : Nat) : Nat := ((Tab.find s.serve.ctxs idx).map (·.fn)).getD 0

/-- The owner tag under which SCH of this part holds a request's frames (R101, R223). -/
def State.ctxTag (s : State) (idx : Nat) : Tag :=
  match Tab.find s.serve.ctxs idx with
  | none => {}
  | some c => { c.tag with agent := agSch, aepoch := (s.proc agSch).aepoch }

/-! ## Which requests may join a step (R269, R286, R287) -/

/-- A copy has tiered tensors. -/
def Copy.tiered (c : Copy) : Bool := c.tensors.any (·.tiered)

/-- A step of the context needs a tiered tensor while its loading function is fenced (R269). -/
def State.tierFenced (s : State) (c : Ctx) : Bool :=
  [c.copy, c.draft].any (fun k => match k.bind s.copy with
    | some x => x.tiered && (s.fn x.loader).fenced
    | none => false)

/-- The context's models are SPREAD = 1. -/
def State.isSpread (s : State) (c : Ctx) : Bool := ((c.copy.bind s.copy).map (·.spread)).getD false

/-- This part holds the profile of a digest, in full (R380). -/
def State.profHeld (s : State) (d : BitVec 128) : Bool :=
  d == 0 || s.serve.remoteProf.any (fun e => e.1 = d && e.2.1 == e.2.2.length) ||
    s.serve.profs.any (fun e => BitVec.ofNat 128 (Config.sha384 e.2.table).toNat = d)

/-- A request can take part in a step: it is worked here, not ended, paused or in shipment, its models are READY, and its
tokens and its profile are here. -/
def State.eligible (s : State) (c : Ctx) : Bool :=
  c.work && c.state != .ended && c.state != .paused && c.state != .shipping && c.endWith.isNone &&
    c.prompt.length == c.promptLen && c.written.length == c.writtenLen && (c.home || s.profHeld c.profDigest) && !s.tierFenced c &&
    ((c.copy.bind s.copy).map (fun x => x.state == .ready)).getD false &&
    (c.draftId == 0 || ((c.draft.bind s.copy).map (fun x => x.state == .ready)).getD false)

/-! ## Frames, ghosts and columns -/

/-- A seal of a page is abandoned, where there is one (R249). -/
def abandonSeal (k : Nat) (s : State) : State :=
  if s.kv.seals.any (·.key == k) then
    bump (s.ctxFn (keyIdx k)) cMicaSealAbandoned (updKv (fun x => { x with seals := x.seals.filter (·.key != k) }) s)
  else s

/-- A page gives up its frame: the frame, its granules and its scale slot are freed (R225). -/
def freeFrame (k : Nat) (s : State) : State :=
  let f := (s.page k).frame
  updKv (fun x => { x with frames := Tab.erase x.frames f, scales := Tab.erase x.scales f }) (abandonSeal k s)

/-- A ghost is destroyed: its granules return to the pool, and the page entry that names it becomes ABSENT (R225, R257). -/
def destroyGhost (g : Nat) (s : State) : State :=
  updKv (fun k => { k with
    ghosts := Tab.erase k.ghosts g,
    pages := Tab.keep k.pages (fun _ p => !(p.st == .ghost && p.ghost == g)) }) s

/-- Ghosts of a request in column c and above. -/
def State.ghostsFrom (s : State) (idx c : Nat) : List Nat :=
  Tab.keys (s.kv.ghosts.filter (fun e => e.2.req = idx ∧ c ≤ e.2.col))

/-- Stranded ghosts are destroyed (R255): those at or above the lowest column with an ABSENT page. -/
def strand (idx : Nat) (s : State) : State :=
  let top := ((s.kv.ghosts.filter (fun e => e.2.req = idx)).map (fun e => e.2.col + 1)).foldl max 0
  match (List.range top).find? (fun c => (s.columnKeys idx c).any (fun k => decide ((s.page k).st = .absent))) with
  | none => s
  | some c => forEach (s.ghostsFrom idx c) (fun g t => bump (s.ctxFn idx) cMicaGhostStranded (destroyGhost g t)) s

/-- The ghost that the clock hand meets next (R256): the least first granule at or after the hand, else the least of all;
ghosts of a column under revival are skipped. -/
def Kv.nextGhost (k : Kv) : Option (Nat × Ghost) :=
  let l := k.ghosts.filter (fun e => k.reviving ≠ some (e.2.req, e.2.col))
  let first := fun (e : Nat × Ghost) => e.2.gmap.grans.headD 0
  let least := fun (l : List (Nat × Ghost)) => l.foldl (fun (a : Option (Nat × Ghost)) e =>
    match a with
    | none => some e
    | some b => if first e < first b then some e else some b) none
  match least (l.filter (fun e => decide (k.hand ≤ first e))) with
  | some e => some e
  | none => least l

/-- Reclaim one ghost (R256). -/
def reclaimGhost (s : State) : Option State :=
  match s.kv.nextGhost with
  | none => none
  | some (g, x) =>
    let t := updKv (fun k => { k with hand := x.gmap.grans.headD 0 }) (destroyGhost g s)
    some (strand x.req (bump (s.ctxFn x.req) cMicaGhostReclaimed t))

/-- Reclaim ghosts until fewer than n exist (R253). -/
def trimGhosts (n : Nat) : Nat → State → State
  | 0, s => s
  | fuel + 1, s =>
    if s.kv.ghosts.length < n then s
    else match reclaimGhost s with
      | none => s
      | some t => trimGhosts n fuel t

/-- Reclaim ghosts until n granules are free, at most as many as there are (R252, R256). -/
def ensureGrans (n : Nat) : Nat → State → State
  | 0, s => s
  | fuel + 1, s =>
    if n + s.kv.used.length ≤ s.granules then s
    else match reclaimGhost s with
      | none => s
      | some t => ensureGrans n fuel t

/-- Free granules for an owner, after ghosts have been reclaimed where the pool is short. -/
def grantGrans (n : Nat) (owner : Tag) (zeroing : Bool) (s : State) : List Nat × State :=
  takeGrans n owner zeroing (ensureGrans n (s.kv.ghosts.length + 1) s)

/-- A page is granted a frame and becomes OPEN with FILL 0 (R225, R252). -/
def openPage (idx : Nat) (draft : Bool) (h : ModelHdr) (layer col : Nat) (s : State) : State :=
  let (l, t) := grantGrans h.rawGrans (s.ctxTag idx) true s
  let f := t.kv.frames.fresh
  putPage (pageKey idx draft layer col) { st := .opened, fill := 0, frame := f }
    (updKv (fun x => { x with
      frames := Tab.put x.frames f { tag := s.ctxTag idx, req := idx, draft := draft, layer := layer, col := col,
                                     gmap := { map := t.kv.freeMap, grans := l } },
      scales := Tab.erase x.scales f }) t)

/-- Every page of a column that is ABSENT is granted. -/
def openColumn (idx col : Nat) (s : State) : State :=
  match Tab.find s.serve.ctxs idx with
  | none => s
  | some c => forEach (s.ctxModels c) (fun m t =>
      forEach (List.range m.2.layers) (fun l t =>
        if (t.page (pageKey idx m.1 l col)).st = .absent then openPage idx m.1 m.2 l col t else t) t) s

/-- One page of a dropped column (R236, R253): a CODED sealed page becomes a ghost when ghosts are kept and none of its granules is
retired (R241), any other page ABSENT. Where the drop would pass F − 16 ghosts, one is reclaimed first. -/
def dropPage (k : Nat) (s : State) : State :=
  let p := s.page k
  let f := s.ctxFn (keyIdx k)
  let x := Tab.find s.kv.frames p.frame
  match p.st with
  | .absent | .ghost | .shipping => s
  | .opened => bump f cKvDropPages (putPage k {} (freeFrame k s))
  | .sealed =>
    let keep := x.filter (fun r => s.settings.micaGhost && r.gmap.coded && !r.gmap.grans.any s.store.retired.contains)
    let t := if keep.isNone then s else trimGhosts s.framesTotal (s.kv.ghosts.length + 1) s
    match keep.filter (fun _ => decide (t.kv.ghosts.length < t.framesTotal)) with
    | some r =>
      let g := Tab.freeFrom t.kv.ghosts 1 t.kv.ghosts.length
      bump f cKvGhostPages (bump f cKvDropPages
        (putPage k { p with st := .ghost, ghost := g, frame := 0 } (updKv (fun v => { v with
          ghosts := Tab.put v.ghosts g { tag := r.tag, req := keyIdx k, draft := keyDraft k, layer := keyLayer k,
                                         col := keyCol k, gmap := r.gmap, fill := p.fill, dropSeq := v.dropSeq } }) (freeFrame k t))))
    | none => bump f cKvDropPages (putPage k {} (freeFrame k s))

/-- Drop a column (R234, R236). -/
def dropColumn (idx col : Nat) (s : State) : State :=
  let t := forEach (s.columnKeys idx col) dropPage s
  let t := updKv (fun x => { x with dropSeq := x.dropSeq + 1 }) t
  let t := updCtx idx (fun c => { c with dropMark := true, dropped := some (match c.dropped with | none => col | some d => min d col) }) t
  strand idx t

/-- The requests in the running step. -/
def State.running (s : State) : List Nat := ((s.serve.step.map (fun t => t.reqs.map (·.idx))).getD [])

/-- The next column to drop (R234, R235), none where every column is pinned: of the requests neither running nor in `prep`
whose highest column is not being shipped, those that can join no step before those that a later batch can take (log 40), then
the lowest priority, then the longest time since the last committed step, then the highest index. -/
def State.victim (s : State) (prep : List Nat) : Option (Nat × Nat) :=
  let busy := s.running ++ prep
  let cand := s.serve.ctxs.filterMap (fun e =>
    if busy.contains e.1 then none
    else match (s.heldColumns e.1) with
      | [] => none
      | l =>
        let c := l.foldl max 0
        if (s.columnKeys e.1 c).any (fun k => decide ((s.page k).st = .shipping)) then none else some (e.1, c, e.2))
  let before := fun (a b : Nat × Nat × Ctx) =>
    if s.eligible a.2.2 ≠ s.eligible b.2.2 then s.eligible b.2.2
    else if a.2.2.prio ≠ b.2.2.prio then decide (a.2.2.prio < b.2.2.prio)
    else if a.2.2.lastCommit ≠ b.2.2.lastCommit then decide (a.2.2.lastCommit < b.2.2.lastCommit)
    else decide (b.1 < a.1)
  (cand.foldl (fun (a : Option (Nat × Nat × Ctx)) x => match a with
    | none => some x
    | some b => if before x b then some x else some b) none).map (fun x => (x.1, x.2.1))

/-- Drop columns until n more frames fit, as far as unpinned columns last. -/
def makeRoom (n : Nat) (prep : List Nat) : Nat → State → State
  | 0, s => s
  | fuel + 1, s =>
    if n + s.framesHeld ≤ s.framesTotal then s
    else match s.victim prep with
      | none => s
      | some v => makeRoom n prep fuel (dropColumn v.1 v.2 s)

/-- An occasion of drops ends: each request that lost columns counts one (R240). -/
def countDrops (s : State) : State :=
  updServe (fun x => { x with ctxs := x.ctxs.map (fun e =>
    if e.2.dropMark then (e.1, { e.2 with dropMark := false, drops := e.2.drops + 1 }) else e) }) s

/-- Drop columns until n more frames fit; whether they do. -/
def roomFor (n : Nat) (prep : List Nat) (s : State) : Bool × State :=
  let t := countDrops (makeRoom n prep (s.kv.frames.length + 1) s)
  (decide (n + t.framesHeld ≤ t.framesTotal), t)

/-- A request gives up every page: frames and ghosts are freed (R225). -/
def freePages (idx : Nat) (s : State) : State :=
  let keys := Tab.keys (s.kv.pages.filter (fun e => keyIdx e.1 = idx))
  forEach keys (fun k t =>
    match (t.page k).st with
    | .absent => t
    | .ghost => destroyGhost (t.page k).ghost t
    | _ => putPage k {} (freeFrame k t)) s

/-! ## Pages of a step -/

/-- Columns that a share's rows lie in. -/
def StepReq.columns (r : StepReq) : List Nat :=
  ((List.range ((r.pos + r.rows - 1) / 64 + 1 - r.pos / 64)).map (· + r.pos / 64)).filter (· < 2048)

/-- Pages that a share needs a frame for. -/
def State.newPages (s : State) (r : StepReq) : Nat :=
  (r.columns.map (fun c => ((s.columnKeys r.idx c).filter (fun k => decide ((s.page k).st = .absent))).length)).sum

/-- Free the columns that a step opened and that hold no committed row (R225, R233). -/
def closeUnused (r : StepReq) (s : State) : State :=
  forEach r.opened (fun c t => forEach (t.columnKeys r.idx c) (fun k t =>
    if (t.page k).st = .opened ∧ (t.page k).fill = 0 then putPage k {} (freeFrame k t) else t) t) s

/-- A fetch of a page is over: the old granules that it still reads, if any, lose a reader (R249). -/
def fetchOver (x : Fetch) (l : List OldGrans) : List OldGrans :=
  match x.old with
  | none => l
  | some n => (l.map (fun o => if o.no = n then { o with fetches := o.fetches - 1 } else o)).filter (·.fetches != 0)

/-! ## Grants of units -/

/-- Move a granule of the KV store to another place, with what it holds (R200). -/
def moveGran (g g' : Nat) (s : State) : State :=
  let sub := fun (l : List Nat) => l.map (fun x => if x = g then g' else x)
  let bytes := memRead s.mem (4096 * g) 4096
  { s with
    mem := memWrite (memClear s.mem (4096 * g') 4096) (4096 * g') bytes,
    store := { s.store with granTag := match s.granOwner g with
                                       | none => s.store.granTag
                                       | some t => Tab.put s.store.granTag g' t },
    kv := { s.kv with
      frames := s.kv.frames.map (fun e => (e.1, { e.2 with gmap := { e.2.gmap with grans := sub e.2.gmap.grans } })),
      ghosts := s.kv.ghosts.map (fun e => (e.1, { e.2 with gmap := { e.2.gmap with grans := sub e.2.gmap.grans } })),
      seals := s.kv.seals.map (fun e => { e with grans := sub e.grans }),
      old := s.kv.old.map (fun e => { e with grans := sub e.grans }) } }

/-- Grant n units for a use and an owner (R121, R265): the units and the state; none where the headroom is short, and where
pinned columns keep the KV store from shrinking the grant waits, and what is not pinned has been dropped meanwhile. -/
inductive Grant where
  | short
  | waits (s : State)
  | got (units : List Nat) (s : State)

/-- R265: take units from the headroom; the KV store shrinks, so columns are dropped, ghosts reclaimed and the granules in
the units moved; what another owner left is zeroed. Which units are taken is free (log 18). -/
def grantUnits (use : UnitUse) (owner : Tag) (n : Nat) (s : State) : Grant :=
  if s.headroom < n then .short
  else
    let m := s.topUnit
    let us := scan (fun u => decide (s.store.schUnits ≤ u) && !Tab.has s.store.units u) m (freeNumber s) m n
    let t := updStore (fun x => { x with units := us.foldl (fun tab u => Tab.put tab u use) x.units }) (tookFree s)
    let (fits, t) := roomFor 0 [] t
    if !fits then .waits (updStore (fun x => { x with units := s.store.units }) t)
    else
      let t := trimGhosts (t.framesTotal + 1) (t.kv.ghosts.length + 1) (ensureGrans 0 (t.kv.ghosts.length + 1) t)
      let inside := t.kv.used.filter (fun g => us.contains (g / 1024))
      let t := forEach inside (fun g t =>
        match takeGrans 1 {} false t with
        | ([], t) => t
        | (g' :: _, t) => moveGran g g' t) t
      let clear := t.mem.filter (fun c => !us.contains (c.1 / unitBytes4M) || sameOwner (t.granOwner (c.1 / 4096)) owner)
      .got us { t with
        mem := clear,
        store := { t.store with
          unitTag := us.foldl (fun tab u => Tab.put tab u owner) t.store.unitTag,
          granTag := Tab.keep t.store.granTag (fun g _ => !us.contains (g / 1024)) } }

/-- Units return to the KV store. -/
def releaseUnits (us : List Nat) (s : State) : State :=
  updStore (fun x => { x with units := us.foldl Tab.erase x.units }) s

end Sys2Proof.Machine
end

