-- ==== Sys2Proof/Machine/OpsPower.lean ====
section
/-! DEFINITION. Operations of power delivery, caps and thermal control (19, 20): limits of the two sources, ALERT_CAUSE,
phases, changes of operating point, thermal events. -/

namespace Sys2Proof.Machine

/-- VDD_CORE of an operating point in 0.1 µV (R155). -/
def opVolt (p : Nat) : Nat := ([560, 580, 600, 620, 670, 720, 770, 820].getD p 820) * 10000

/-- Change the power state. -/
def updPower (g : Power → Power) (s : State) : State := { s with power := g s.power }

/-- Change the cap state. -/
def updCaps (g : Caps → Caps) (s : State) : State := { s with caps := g s.caps }

/-- Change the thermal state. -/
def updThermal (g : Thermal → Thermal) (s : State) : State := { s with thermal := g s.thermal }

/-- A phase. -/
def State.phase (s : State) (k : Nat) : Phase := Tab.get {} s.power.phases k

/-- Change a phase. -/
def updPhase (k : Nat) (g : Phase → Phase) (s : State) : State :=
  updPower (fun p => { p with phases := Tab.upd {} p.phases k g }) s

/-- d and u of R400. -/
def State.dropped (s : State) : Nat := ((List.range 24).filter (fun k => (s.phase k).st == 2)).length
def State.untrusted (s : State) : Nat := ((List.range 24).filter (fun k => (s.phase k).st != 0)).length

/-- The point R400 permits at most. -/
def State.phaseCeiling (s : State) : Nat := if 8 ≤ s.dropped then 0 else if 2 ≤ s.untrusted then 3 else 7

/-- Set bits of ALERT_CAUSE (R412). -/
def alert (bit : Nat) (s : State) : State := updPower (fun p => { p with alert := p.alert ||| BitVec.ofNat 8 (2 ^ bit) }) s

/-- The lower of two limits, where either holds a value (R9). -/
def lowest (a b : Option Nat) : Option Nat :=
  match a, b with
  | some x, some y => some (min x y)
  | some x, none => some x
  | none, y => y

/-- The slew limit in force in A/µs (R402). -/
def State.slew (s : State) : Nat := (lowest s.power.slewDrv s.power.slewBmc).getD 50

/-- The cap in force in mW (R400, R418). -/
def State.capMw (s : State) : Nat :=
  let two := (lowest s.caps.capDrv s.caps.capBmc).getD 2750 * 100
  let one := if s.power.pwrbrk then min two (s.settings.pwrbrkCap * 1000) else two
  min one 275000 * (24 - s.dropped) / 24

/-- The keep-warm temperature in force in °C; 0 is off and the most restrictive (R435). -/
def State.keepWarm (s : State) : Nat :=
  (lowest s.thermal.warmDrv s.thermal.warmBmc).getD ((s.prov.record.map (·.keepWarm)).getD 45)

/-- An upward change in progress is abandoned: the ramp stops where it is (R408). -/
def abandonUp (s : State) : State :=
  match s.power.change with
  | none => s
  | some _ => bumpPart cOpChangeAbandoned (updPower (fun p => { p with change := none, target := p.setpoint }) s)

/-- A droop response or a brownout warning holds a change of frequency back (R408). -/
def State.droops (s : State) : Bool := s.power.stretch.any (fun e => decide (0 < e.2)) || s.brown.asserted || s.power.held

/-- Set the operating point to p and move the islands to it as R395 and R408 state. An upward change in progress is capped at p; one
that PMC lowers past a voltage already reached goes on to its end, and the next update lowers the point (20, collisions), but a
limit of R400 caps it where it stands (19, collisions). -/
def setPoint (p : Nat) (s : State) : State :=
  match s.power.change with
  | some c =>
    if c.src ≤ p ∧ p < c.dst ∧ opVolt p < s.power.setpoint ∧ c.dst ≤ s.phaseCeiling then updPower (fun w => { w with op := p }) s
    else if c.src ≤ p then updPower (fun w => { w with op := p, change := some { c with dst := p }, target := opVolt p }) s
    else
      updPower (fun w => { w with op := p, freqOp := p, target := opVolt p }) (abandonUp s)
  | none =>
    let t := updPower (fun w => { w with op := p }) s
    if p = s.power.freqOp then updPower (fun w => if s.droops then w else { w with target := opVolt p }) t
    else if s.droops then updPower (fun w => { w with held := true }) t
    else if s.power.freqOp < p then
      updPower (fun w => { w with change := some { src := w.freqOp, dst := p }, target := opVolt p, slow := false }) t
    else updPower (fun w => { w with freqOp := p, target := opVolt p, slow := false }) t

/-- The hardware of AON forces OP0 (R103, R411). -/
def forceOp0 (s : State) : State :=
  updPower (fun w => { w with op := 0, freqOp := 0, target := opVolt 0, slow := false }) (abandonUp s)

/-- Note a phase failure: ALERT_CAUSE, FORCED where a limit of R400 begins, and event 0x0003 (R401). -/
def phaseEvent (k cause bit : Nat) (before s : State) : State :=
  let t := alert bit s
  let t := if t.phaseCeiling < before.phaseCeiling then alert 4 t else t
  postEvent evPhase stOk (k + cause * 2 ^ 5 + t.dropped * 2 ^ 8 + t.untrusted * 2 ^ 13) t

/-- Drop a phase (R397, R399, R401). -/
def dropPhase (k cause : Nat) (s : State) : State :=
  if (s.phase k).st = 2 then s
  else phaseEvent k cause 1 s
    (bumpPart cPhaseDrop (updPhase k (fun p => { p with st := 2, cause := cause, probing := false }) s))

/-- A phase's sense becomes untrusted (R398, R401). -/
def distrustPhase (k cause : Nat) (s : State) : State :=
  if (s.phase k).st ≠ 0 then s
  else phaseEvent k cause 2 s
    (bumpPart cPhaseSenseFail (updPhase k (fun p => { p with st := 1, cause := cause, probing := false }) s))

/-- Event 0x0001 for a source, a kind and a temperature in 0.125 °C (R432). -/
def thermalEvent (source kind : Nat) (temp : Int) (s : State) : State :=
  postEvent evThermal eThermal (source + kind * 2 ^ 8 + (temp / 8).toNat % 256 * 2 ^ 24) s

/-- The input monitor has failed (R427). -/
def meterFailed (s : State) : State :=
  if s.meter.degraded then s
  else pldmEvent cMeterFail 0 (bumpPart cMeterFail { s with meter := { s.meter with degraded := true } })

/-- Die sensors that are not excluded, with their readings. -/
def State.included (s : State) : List (Nat × Int) :=
  s.thermal.die.filter (fun e => !s.thermal.excluded.contains e.1)

/-- The stacks that R430 judges, with the temperature each counts as, in 0.125 °C: a silent stack counts as 95 °C. Before
training a stack that HBM_MASK does not exclude is judged. -/
def State.judged (s : State) : List (Nat × Int) :=
  (List.range 6).filterMap (fun h =>
    let x := Tab.get {} s.hbm h
    let use := if x.usable then true else !x.failed && !x.lost && !s.settings.hbmMask.getLsbD h
    if !use then none
    else if x.silent && x.usable then some (h, 760)
    else x.temp.map (fun t => (h, t)))

/-- The temperature that a stack reports, in 0.125 °C: none where it is silent or not judged (R430, R436). -/
def State.stackReading (s : State) (h : Nat) : Option Int :=
  if (Tab.get {} s.hbm h).silent then none else (s.judged.find? (fun e => e.1 == h)).map (·.2)

/-- Enter the critical state (R432, R433). -/
def enterCritical (source : Nat) (temp : Int) (s : State) : State :=
  if s.thermal.critical then s
  else
    let t := updThermal (fun x => { x with critical := true, critFor := 0, critEnded := false }) s
    thermalEvent source 2 temp (updCaps (fun c => { c with gate := 12 }) (setPoint 0 (bumpPart cThermalCritical t)))

/-- Judge the readings in hand against the critical threshold: a die sensor at 110 °C or a stack at 105 °C (R432). -/
def judgeCritical (s : State) : State :=
  match s.included.find? (fun e => decide (880 ≤ e.2)) with
  | some e => enterCritical e.1 e.2 s
  | none =>
    match s.judged.find? (fun e => decide (840 ≤ e.2)) with
    | some e => enterCritical (96 + e.1) e.2 s
    | none => s

/-- Set a limit of the driver or the management controller (R9, R402, R418, R435); none withdraws it. -/
def setLimit (bmc : Bool) (quantity : Nat) (v : Option Nat) (s : State) : State :=
  match quantity with
  | 0 => updCaps (fun c => if bmc then { c with capBmc := v } else { c with capDrv := v }) s
  | 1 => updPower (fun p => if bmc then { p with slewBmc := v } else { p with slewDrv := v }) s
  | _ => updThermal (fun x => if bmc then { x with warmBmc := v } else { x with warmDrv := v }) s

/-- Whether a value is in the range of its quantity (R402, R418, R435). -/
def limitOk (quantity v : Nat) : Bool :=
  match quantity with
  | 0 => decide (600 ≤ v) && decide (v ≤ 2750)
  | 1 => decide (10 ≤ v) && decide (v ≤ 200)
  | _ => v == 0 || (decide (30 ≤ v) && decide (v ≤ 60))

/-- The three values of R9 for a quantity: the driver's, the management controller's and the one in force. -/
def limitValues (quantity : Nat) (s : State) : Nat × Nat × Nat :=
  let none32 := 0xFFFFFFFF
  match quantity with
  | 0 => (s.caps.capDrv.getD none32, s.caps.capBmc.getD none32, s.capMw / 100)
  | 1 => (s.power.slewDrv.getD none32, s.power.slewBmc.getD none32, s.slew)
  | _ => (s.thermal.warmDrv.getD none32, s.thermal.warmBmc.getD none32, s.keepWarm)

end Sys2Proof.Machine
end

