-- ==== Sys2Proof/Machine/Thermal.lean ====
section
/-! DEFINITION. The commands of the operating point, the cap, the meter's checks and temperature (20), but for the division
of energy and the end of work in the critical state. -/

namespace Sys2Proof.Machine

/-- FT_NOW: the 64-bit count without its fraction (R15). -/
def State.ftNow (s : State) : BitVec 64 := BitVec.ofNat 64 (s.ft.count.toNat / 65536)

/-- The requested point (R416): the highest preferred point among the classes with a step running or a task placed. -/
def State.requested (s : State) : Nat :=
  let steps := match s.serve.step with
    | none => []
    | some t => [match t.kind with | .prefill => 0 | .decode => 1]
  let tasks := (Tab.vals s.tasks).filterMap (fun t => if t.place.isSome then some t.cls else none)
  match steps ++ tasks with
  | [] => s.caps.pref.getD 4 0
  | l => (l.map (fun c => s.caps.pref.getD c 0)).foldl max 0

/-- The highest point p of 0 to 7 that satisfies a test, 0 where none does. -/
def highestPoint (ok : Nat → Bool) : Nat := (List.range 8).foldl (fun a p => if ok p then p else a) 0

/-- The budgets of links, memory and compute (R419) from the cap, the uncore power and the demands, in mW. -/
def budgets (s : State) (m : PmcSample) : List Nat :=
  let a := min s.capMw 258000 - m.uncore
  let fl := [s.settings.floors.1 * 1000, s.settings.floors.2.1 * 1000, s.settings.floors.2.2 * 1000]
  let tot := fl.sum
  let fl := if a < tot then fl.map (fun x => x * a / tot) else fl
  let d := [m.demLinks, m.demMemory, m.demCompute]
  let ord := match s.settings.order with
    | 0 => [0, 1, 2] | 1 => [0, 2, 1] | 2 => [1, 0, 2] | 3 => [1, 2, 0] | 4 => [2, 0, 1] | _ => [2, 1, 0]
  let i := ord.getD 0 0
  let j := ord.getD 1 1
  let k := ord.getD 2 2
  let f := fun x => fl.getD x 0
  let bi := max (f i) (min (d.getD i 0) (a - f j - f k))
  let bj := max (f j) (min (d.getD j 0) (a - bi - f k))
  let bk := a - bi - bj
  (List.range 3).map (fun x => if x = i then bi else if x = j then bj else if x = k then bk else 0)

/-- The eight ceilings of R417 with their codes. -/
def ceilings (s : State) (m : PmcSample) (comp hot : Nat) : List (Nat × Nat) :=
  [(1, highestPoint (fun p => decide (m.points.getD p 0 ≤ comp))),
   (2, highestPoint (fun p => decide (m.diePeak.getD p 0 < 840))),
   (3, hot),
   (4, if s.thermal.critical then 0 else 7),
   (5, s.phaseCeiling),
   (6, if 0 < s.caps.pmcLeft then min 3 s.caps.pmcPoint else 7),
   (7, if s.power.pwrbrk then 0 else 7),
   (8, if 8 < s.thermal.excluded.length then 3 else 7)]

/-- The next g of issue gating (R421, R432, R433), given the point set, the compute budget and whether a die sensor is at
105 °C or above. -/
def nextGate (s : State) (m : PmcSample) (p comp : Nat) (anyHot : Bool) : Nat :=
  let g := s.caps.gate
  if s.thermal.critical then 12
  else if p = 0 ∧ s.power.op = 0 ∧ (anyHot ∨ comp < m.gated.getD (g / 2) 0) then min 12 (g + 2)
  else if 0 < g ∧ !s.thermal.throttle ∧ m.gated.getD ((g - 2) / 2) 0 ≤ comp then g - 2
  else g

/-- The mean of the included die sensors in 0.125 °C, none without a reading. -/
def State.dieMean (s : State) : Option Int :=
  let l := s.included.map (·.2)
  if l = [] then none else some (l.sum / l.length)

/-- PMC's update (R417, R419, R421, R431, R435). -/
def execPmcUpdate (m : PmcSample) (s : State) : Host.Outcome State Fault Refusal :=
  if !s.isReady rPmc then done s s
  else
    let b := budgets s m
    let comp := b.getD 2 0
    let anyHot := s.included.any (fun e => decide (840 ≤ e.2))
    let cool := s.included.all (fun e => decide (e.2 ≤ 816))
    let hot := if s.thermal.throttle && anyHot then min s.caps.hotCeil (s.power.op - 1) else s.caps.hotCeil
    let wait := if !s.thermal.throttle && s.caps.gate == 0 && cool && decide (hot < 7) then s.caps.ceilWait + 1 else 0
    let hot' := if 10 ≤ wait then hot + 1 else hot
    let wait' := if 10 ≤ wait then 0 else wait
    let cs := ceilings s m comp hot'
    let req := s.requested
    let p := (cs.map (·.2)).foldl min req
    let lim := if p = req then 0 else ((cs.find? (fun c => c.2 == p)).map (·.1)).getD 0
    let others := ((cs.filter (fun c => c.1 != 2)).map (·.2)).foldl min req
    let byPoint := decide (p < others)
    let cutUp := decide (760 ≤ m.hbmPeak) && decide (s.caps.memCut < 10)
    let cut := if 760 ≤ m.hbmPeak then min 10 (s.caps.memCut + 1) else if m.hbmPeak < 736 then s.caps.memCut - 1 else s.caps.memCut
    let g := nextGate s m p comp anyHot
    let warmAt := s.keepWarm
    let warming := match s.dieMean with
      | none => false
      | some mean =>
        if warmAt = 0 then false
        else if mean < 8 * (warmAt : Int) then true
        else if 8 * (warmAt : Int) + 16 ≤ mean then false else s.thermal.warming
    let t := setPoint p s
    let t := updCaps (fun c => { c with
      limiter := lim, gate := g, hotCeil := hot', ceilWait := wait', pmcLeft := c.pmcLeft - 1, memCut := cut,
      budLinks := b.getD 0 0, budMem := b.getD 1 0 * (10 - cut) / 10, budComp := comp, powLinks := m.links,
      powMem := m.memory, powComp := m.compute, powUncore := m.uncore, inputMw := m.input }) t
    let t := updThermal (fun x => { x with
      peakDie := m.diePeak.getD p 0, peakHbm := m.hbmPeak, predict := byPoint || decide (0 < cut), warming := warming,
      seq := x.seq + 2#32, tUpdate := s.ftNow }) t
    done s (if byPoint || cutUp then bumpPart cThermalPredict t else t)

/-- PMC refits the coefficients of the activity model (R428), unless the monitor has failed. -/
def execModelRefit (s : State) : Host.Outcome State Fault Refusal :=
  if s.isReady rPmc && !s.meter.degraded then
    done s { s with meter := { s.meter with refits := s.meter.refits + 1 } }
  else done s s

/-- The input monitor's self-check (R423, R427). -/
def execMeterSelfCheck (ok : Bool) (s : State) : Host.Outcome State Fault Refusal :=
  if ok then done s s else done s (meterFailed s)

/-- The input reading has been unchanged for 10 ms while the core current changed (R427). -/
def execMeterStuck (s : State) : Host.Outcome State Fault Refusal :=
  done s (meterFailed s)

/-- Exclude a die sensor (R429). -/
def excludeSensor (k : Nat) (s : State) : State :=
  if s.thermal.excluded.contains k then s
  else bumpPart cSensorFail (updThermal (fun x => { x with excluded := k :: x.excluded }) s)

/-- The die sensors are sampled (R429, R432); readings in 0.125 °C, sensor 0 first. -/
def execThermalSensorSample (readings : List Int) (s : State) : Host.Outcome State Fault Refusal :=
  let l := (readings.take 96).zipIdx
  let t := forEach l (fun e t => updThermal (fun x => { x with die := Tab.put x.die e.2 e.1 }) t) s
  let t := forEach l (fun e t => if e.1 < -320 ∨ 1200 < e.1 then excludeSensor e.2 t else t) t
  let inc := t.included
  let cool := inc.all (fun e => decide (e.2 ≤ 816))
  let leave := inc.all (fun e => decide (e.2 ≤ 840)) && t.judged.all (fun e => decide (e.2 ≤ 800))
  let t := updThermal (fun x => { x with coolFor := if cool then x.coolFor + 1 else 0,
                                         critFor := if leave then x.critFor + 1 else 0 }) t
  let t := match inc.find? (fun e => decide (840 ≤ e.2)) with
    | some e => if t.thermal.throttle then t
        else thermalEvent e.1 0 e.2 (bumpPart cThermalThrottle (updThermal (fun x => { x with throttle := true }) t))
    | none => if t.thermal.throttle && decide (51 ≤ t.thermal.coolFor) then updThermal (fun x => { x with throttle := false }) t else t
  let t := if t.thermal.critical && decide (501 ≤ t.thermal.critFor) then updThermal (fun x => { x with critical := false }) t else t
  done s (judgeCritical t)

/-- A sensor has differed from its nearest four by more than 15 °C for 1 ms (R429). -/
def execSensorExclusion (k : SensorId) (s : State) : Host.Outcome State Fault Refusal :=
  done s (excludeSensor k s)

/-- A trip temperature has held for 10 µs (R434): THERMTRIP#, clocks stopped, phases at mid-level. -/
def execThermtrip (s : State) : Host.Outcome State Fault Refusal :=
  done s (updPower (fun p => { p with amps := 0 })
    { s with pins := { s.pins with thermtrip := true, clocksStopped := true, phasesMid := true } })

end Sys2Proof.Machine
end

