-- ==== Sys2Proof/Machine/OpsServe.lean ====
section
/-! DEFINITION. How requests, tasks and runs end, how a lease policy acts, and how a fence is set and lifted
(03, 09, 13, 16). -/

namespace Sys2Proof.Machine

/-! ## Requests -/

/-- A context. -/
def State.ctx (s : State) (idx : Nat) : Option Ctx := Tab.find s.serve.ctxs idx

/-- The contexts of live requests for which this part is the home part, of a function. -/
def State.homeOf (s : State) (f : Nat) : List (Nat × Ctx) :=
  s.serve.ctxs.filter (fun e => e.2.home && e.2.fn == f && e.2.state != .ended)

/-- Bit 6 of MODE: SEED_PER_REQUEST (R303). -/
def Prof.seedPerRequest (p : Prof) : Bool := p.mode.getLsbD 6

/-- RESULT of a final completion and of REQ_QUERY (R72, R285, R315). -/
def requestResult (c : Ctx) (end1 : Bool) (tEnd : BitVec 64) : BitVec 320 :=
  result [(0, 4, c.written.length), (4, 4, c.prompt.length), (8, 8, c.meter + c.homeMeter), (0x10, 1, end1.toNat),
    (0x11, 1, c.state.code), (0x12, 2, c.workAddr.getD 0xFFFF),
    (0x14, 4, if c.prof.seedPerRequest then c.nonce.toNat else 0), (0x18, 8, c.tFirst.toNat), (0x20, 8, tEnd.toNat)]

/-- Shipments of a request are abandoned without retry (R298); the other side is told the reason. -/
def dropShips (idx reason : Nat) (s : State) : State :=
  let mine := s.serve.ships.filter (·.idx == idx)
  let t := updServe (fun x => { x with ships := x.ships.filter (·.idx != idx) }) s
  match s.ctx idx with
  | none => t
  | some c => forEach mine (fun m t =>
      if m.st = .refusedAll then t
      else onlyIf m.out (bump c.fn cShipAbandoned) <| sendMsg m.peer 2 7 c.tag.word (toLe 8 c.handle ++ toLe 4 m.id ++ toLe 2 reason ++ [0#8, 0#8]) t) t

/-- The working part gives a request up: at once, or at the end of the running step when its rows are in it (R298). -/
def dropWork (idx : Nat) (st : Status) (s : State) : State :=
  let t := dropShips idx (if st = eLease then 5 else if st = eCancelled then 4 else 6) s
  if t.running.contains idx then
    updCtx idx (fun c => { c with endWith := some st, samples := [], nodes := [] })
      (updServe (fun x => { x with step := x.step.map (fun p =>
        { p with reqs := p.reqs.map (fun r => if r.idx = idx then { r with masked := true } else r) }) }) t)
  else
    let t := freePages idx t
    match t.ctx idx with
    | none => t
    | some c =>
      if c.home && c.state != .ended then updCtx idx (fun c => { c with work := false }) t
      else updServe (fun x => { x with ctxs := Tab.erase x.ctxs idx }) t

/-- Everything of function f that its policy ends has its final completion: no live request, no task, and no run that is over and
waits for SCH (R79, R341). -/
def State.allEnded (s : State) (f : Nat) : Bool :=
  (s.homeOf f).isEmpty && s.tasks.all (fun e => e.2.fn != f) && s.flint.runs.all (fun r => r.fn != f || r.ended.isNone)

/-- SETTLED is set once the policy action is complete (R79): FABRIC_ONLY at once, the others when every live request and task of
the function has its final completion. -/
def checkSettled (f : Nat) (s : State) : State :=
  let x := s.fn f
  if x.policyOn && !x.settled && (x.policy == 2#2 || s.allEnded f) then updFn f (fun y => { y with settled := true }) s
  else s

/-- The home part ends a request (R71, R294, R297): the one final completion, and ENDED. -/
def finishHome (idx : Nat) (st : Status) (end1 : Bool) (s : State) : State :=
  match s.ctx idx with
  | none => s
  | some c =>
    if !c.home || c.state = .ended then s
    else
      let e : Cqe := { kind := 0, final := true, status := st, tag := c.ctag, handle := BitVec.ofNat 64 c.handle,
                       result := requestResult c end1 s.ftNow, opcode := opReqSubmit }
      let t := post c.fn c.q e s
      let t := if st = eEvicted then bump c.fn cKvEvicted t else t
      checkSettled c.fn (updCtx idx (fun c => { c with state := .ended, late := true }) t)

/-- A CANCEL message (R380). -/
def sendCancel (c : Ctx) (dest : Nat) (st : Status) (s : State) : State :=
  sendMsg dest 1 8 c.tag.word (toLe 8 c.handle ++ toLe 2 st.toNat ++ List.replicate 6 0#8) s

/-- The home part tells the other parts that hold a request: its working part, and the other side of its shipment (R297). -/
def tellHolders (idx : Nat) (c : Ctx) (st : Status) (s : State) : State :=
  let work := if c.work then [] else c.workAddr.toList
  let peers := (s.serve.ships.filter (fun m => m.idx == idx && m.st != .refusedAll)).map (·.peer)
  forEach (work ++ peers).dedup (fun a t => sendCancel c a st t) s

/-- A TOKENS message (R380). -/
def sendTokens (c : Ctx) (pos : Nat) (ts : List Nat) (final end1 : Bool) (st : Status) (at_ : BitVec 64) (s : State) : State :=
  sendMsg c.homeAddr 1 7 c.tag.word
    (toLe 8 c.handle ++ toLe 4 pos ++ toLe 1 ts.length ++ toLe 1 (final.toNat + 2 * end1.toNat) ++ toLe 2 st.toNat ++
     toLe 8 c.meter ++ toLe 8 at_.toNat ++ ((List.range 9).map (fun i => toLe 4 (ts.getD i 0))).flatten) s

/-- End a request with a status, wherever its parts are: the home part writes the final completion and tells the working
part; a part that only works on it tells the home part (R285, R297, R298). -/
def endRequest (idx : Nat) (st : Status) (s : State) : State :=
  match s.ctx idx with
  | none => s
  | some c =>
    if c.state = .ended then s
    else if c.home then
      dropWork idx st (tellHolders idx c (if st = eLease then eLease else eCancelled) (finishHome idx st false s))
    else
      let t := sendTokens c c.position [] true false st s.ftNow s
      let t := if st = eEvicted then bump c.fn cKvEvicted t else t
      dropWork idx st (updCtx idx (fun c => { c with state := .ended }) t)

/-- The function's held store is full and CQ q is in the held state (R63). -/
def Func.heldFull (x : Func) (q : Nat) : Bool :=
  decide (65536 ≤ x.held.length) && (x.held.any (·.q == q) || (Tab.get {} x.rings q).full)

/-- A request must pause at its next step boundary (R286): it completes into a CQ whose held store is full, the policy of its
function is FABRIC_ONLY, SCH restarts or is FAULTED, or the part is in the critical state (R433). A function here has no say in
the work that the part does for another part (R48). -/
def State.mustPause (s : State) (c : Ctx) : Bool :=
  let x := s.fn c.fn
  (c.home && (x.heldFull c.q || (x.policyOn && x.policy == 2#2))) ||
    (s.proc agSch).state == .restarting || (s.proc agSch).state == .faulted || s.thermal.critical

/-- A request pauses, or goes on with what it did before (R285, R286). -/
def Ctx.pause (c : Ctx) (stop : Bool) : Ctx :=
  if c.state = .ended then c
  else if stop then (if c.state = .paused then c else { c with before := c.state, state := .paused })
  else if c.state = .paused then { c with state := c.before }
  else c

/-- Pauses and resumptions at a step boundary (R286). -/
def pauseBoundary (s : State) : State :=
  updServe (fun x => { x with ctxs := x.ctxs.map (fun e => (e.1, e.2.pause (s.mustPause e.2))) }) s

/-- The requests of the running step pause while a cluster that works on it is being restored, and then go on (R91, R286): the
interruption of the step is their boundary. -/
def pauseStep (stop : Bool) (s : State) : State :=
  forEach s.running (fun i => updCtx i (fun c => c.pause stop)) s

/-- The boundary is now when no step runs. -/
def pauseNow (s : State) : State := if s.serve.step.isNone then pauseBoundary s else s

/-! ## Tasks and runs -/

/-- A core. -/
def State.core (s : State) (k : Nat) : Core := Tab.get {} s.cores k

/-- Change a core. -/
def updCore (k : Nat) (g : Core → Core) (s : State) : State := { s with cores := Tab.upd {} s.cores k g }

/-- A core is left by its task: nothing more dispatches or issues; what has issued completes (R91). -/
def Core.leave (c : Core) : Core :=
  { c with task := none, halted := true, stream := [], qs := [], qv := [], qx := [], loops := [], starved := [] }

/-- The resources of a placement are freed (R96, R217). What an engine still has queued is discarded as it comes up (R97). -/
def freePlace (p : Place) (s : State) : State :=
  let t := forEach p.cores (fun k => updCore k Core.leave) s
  let t := { t with
    ctrs := p.counters.foldl (fun c h => Tab.upd {} c h (fun x => { x with tag := { x.tag with agent := 15 } })) t.ctrs,
    engines := (Tab.vals p.engines).foldl (fun e h => Tab.upd {} e h (fun x => { x with tag := { x.tag with agent := 15 } })) t.engines }
  updStore (fun x => { x with basalt := (List.range p.basaltN).foldl (fun b i => Tab.erase b (p.basalt + i)) x.basalt }) t

/-- RESULT of a task's final completion (R322): the vision program's counts; 0 for other programs. -/
def taskResult (s : State) (t : Task) : BitVec 320 :=
  if ((Tab.find s.progs t.prog).map (·.builtin)).getD false then
    result [(0, 4, t.visDone), (4, 4, t.visSkipped), (8, 4, t.visFirst)]
  else 0

/-- A task ends: its resources are freed and, unless its function was reset, its final completion is written. -/
def endTask (n : Nat) (st : Status) (silent : Bool) (s : State) : State :=
  match Tab.find s.tasks n with
  | none => s
  | some t =>
    let u := match t.place with
      | none => s
      | some p => freePlace p s
    let u := { u with tasks := Tab.erase u.tasks n }
    if silent then u
    else checkSettled t.fn (post t.fn t.q
      { kind := 0, final := true, status := st, tag := t.tag, handle := BitVec.ofNat 64 t.prog,
        result := taskResult s t, opcode := opTaskRun } u)

/-- RESULT of a run's final completion (R341). -/
def runResult (r : Run) : BitVec 320 :=
  result [(0, 4, r.step), (4, 4, r.inEvents), (8, 4, r.spikes), (0xC, 4, r.drops), (0x10, 8, r.synEvents),
    (0x18, 8, r.energy), (0x20, 8, r.tStart.toNat)]

/-- The run of a network that is in progress. -/
def State.activeRun (s : State) (net : Nat) : Option Run :=
  s.flint.runs.find? (fun r => r.net == net && r.started && r.ended.isNone)

/-- The first element of a list that equals x is replaced. -/
def replaceFirst {α : Type} [DecidableEq α] (x y : α) : List α → List α
  | [] => []
  | a :: l => if a = x then y :: l else a :: replaceFirst x y l

/-- A run ends (R341); pending events are discarded. While SCH is down the completion waits. -/
def endRun (r : Run) (st : Status) (silent : Bool) (s : State) : State :=
  let t := { s with flint := { s.flint with runs := s.flint.runs.erase r } }
  if silent then t
  else if (s.proc agSch).state ≠ .running then
    { s with flint := { s.flint with runs := replaceFirst r { r with ended := some (r.ended.getD st), wheel := [], inputs := [] } s.flint.runs } }
  else checkSettled r.fn (post r.fn r.q { kind := 0, final := true, status := st, tag := r.tag, handle := BitVec.ofNat 64 r.net,
                                          result := runResult r, opcode := opFlintRun } t)

/-! ## Fences and lease policies (R47, R79 to R81) -/

/-- The tasks of a function pause, or go on (R79, R81). -/
def pauseTasks (f : Nat) (stop : Bool) (s : State) : State :=
  { s with tasks := s.tasks.map (fun e => if e.2.fn = f then (e.1, { e.2 with paused := stop }) else e) }

/-- POLICY is DRAIN, or 0b11, which is treated as DRAIN (R78). -/
def Func.drains (x : Func) : Bool := x.policy == 0#2 || x.policy == 3#2

/-- Apply the lease policy to a function's live work (R79); work that FABRIC_ONLY had paused in an earlier fence goes on under
DRAIN. -/
def applyPolicy (f : Nat) (s : State) : State :=
  let x := s.fn f
  let t := updFn f (fun y => { y with policyOn := true, settled := false }) s
  let t :=
    if x.policy = 1#2 then
      let t := forEach ((s.homeOf f).map (·.1)) (fun i => endRequest i eLease) t
      let t := forEach (Tab.keys (s.tasks.filter (fun e => e.2.fn = f))) (fun n => endTask n eLease false) t
      forEach (s.flint.runs.filter (·.fn == f)) (fun r => endRun r eLease false) t
    else pauseNow (pauseTasks f (x.policy == 2#2) t)
  checkSettled f t

/-- Fence a function for a cause (R47): 1 lease, 2 Bus Master Enable cleared, 3 D3hot. An earlier cause of 2 or 3 is kept
against the other of the two, and gives way to a lease expiry, which applies POLICY again (R79). The change raises the function's
vector 0. -/
def fence (f cause : Nat) (s : State) : State :=
  let x := s.fn f
  if x.fenced then
    if cause = 1 then applyPolicy f (raiseVec f 0 (updFn f (fun y => { y with fenceCause := 1 }) s)) else s
  else
    applyPolicy f (raiseVec f 0 (updFn f (fun y => { y with fenced := true, fenceDone := false,
                                                             fenceCause := BitVec.ofNat 2 cause }) s))

/-- Lift a function's fence (R80, R81): held entries, pending interrupts and paused work go on. -/
def liftFence (f : Nat) (s : State) : State :=
  let t := updFn f (fun y => { y with fenced := false, fenceDone := false, fenceCause := 0, settled := false, policyOn := false }) s
  let t := forEach (List.range 32) (flushHeld f) (pauseNow (pauseTasks f false t))
  raiseVec f 0 (sendPending f t)

/-- A function has work active (R47): requests, tasks, runs or loads. -/
def State.busyFn (s : State) (f : Nat) : Bool :=
  !(s.homeOf f).isEmpty || s.tasks.any (fun e => e.2.fn == f) || s.flint.runs.any (·.fn == f) ||
    s.serve.loads.any (·.fn == f) || (s.upd.map (·.fn)) == some f

/-! ## Ring pairs (R58, R59) -/

/-- A ring pair starts as a fresh ring; what is held for it flows in (R58, R63, R80). -/
def startRing (f q : Nat) (g : Ring → Ring) (s : State) : State :=
  flushHeld f q (updRing f q (fun r => { g r with
    enable := true, sqHead := 0, sqTail := 0, cqHead := 0, cqTail := 0, phase := true, unsig := 0, full := false,
    tag := s.tagOf agSch f }) s)

/-- A ring pair is disabled; its ring is free (R96). -/
def stopRing (f q : Nat) (s : State) : State :=
  updRing f q (fun r => { r with enable := false, tag := { r.tag with agent := 15 } }) s

/-- Live requests, tasks, runs and loads of a function that complete into CQ q. -/
def State.usesRing (s : State) (f q : Nat) : Bool :=
  (s.homeOf f).any (fun e => e.2.q == q) || s.tasks.any (fun e => e.2.fn == f && e.2.q == q) ||
    s.flint.runs.any (fun r => r.fn == f && r.q == q)

/-- An earlier command of the SQ has not written its final completion (R60). -/
def State.unfinished (s : State) (f q : Nat) : Bool :=
  s.usesRing f q || s.serve.loads.any (fun l => l.fn == f && l.q == some q) ||
    (match s.upd with | none => false | some u => u.fn == f && u.q == some q) ||
    (match s.prov.stage with | none => false | some x => x.2.1 == f && x.2.2.1 == some q)

/-! ## Fetching a command (R28, R60, R65, R67, R75, R79, R88, R91, R103) -/

/-- SCH is down after having run: nothing is fetched (R91). Before it first runs, commands are answered E_NOTREADY (R28). -/
def State.schDown (s : State) : Bool := (s.proc agSch).state == .restarting || (s.proc agSch).state == .handoff

/-- An entry of SQ q is there to be fetched, and nothing keeps the part from fetching it (R55, R59, R63, R79, R91). -/
def State.hasEntry (s : State) (f q : Nat) : Bool :=
  let x := s.fn f
  let r := s.ring f q
  s.present f && !x.flr && r.enable && r.sqHead != r.sqTail && !x.fenced && !x.expired && !x.heldFull q && !s.schDown

/-- The entry of SQ q can be fetched whatever its FLAGS are (R60). -/
def State.mustFetch (s : State) (f q : Nat) : Bool := s.hasEntry f q && !s.unfinished f q

/-- The I/O rings of the part that have an entry which can be fetched, as 32 × function + q. -/
def State.ioWaiting (s : State) : List Nat :=
  s.funcs.flatMap (fun e => ((Tab.keys e.2.rings).filter (fun q => q != 0 && s.mustFetch e.1 q)).map (32 * e.1 + ·))

/-- How many I/O rings come between ring `cur` and ring k as the part goes round them. -/
def ringGap (cur k : Nat) : Nat := (k + 1023 - cur) % 1024

/-- The turn is I/O ring x's (R60, log 59): its own has entries left, or it is the next that has an entry. -/
def State.ioTurn (s : State) (x : Nat) : Bool :=
  let l := s.ioWaiting.filter (· != x)
  (x == s.turn.1 && decide (0 < s.turn.2)) ||
    (!(l.contains s.turn.1 && decide (0 < s.turn.2)) && l.all (fun k => decide (ringGap s.turn.1 x ≤ ringGap s.turn.1 k)))

/-- The part fetches the entry of SQ q now (R60): the admin ring goes first, and I/O rings have their turns; an ORDERED entry
waits for the earlier commands of its SQ. -/
def State.fetches (s : State) (f q : Nat) (ordered : Bool) : Bool :=
  s.hasEntry f q && !(ordered && s.unfinished f q) && (q == 0 || (!s.mustFetch f 0 && s.ioTurn (32 * f + q)))

/-- An entry of SQ q has been fetched: SQ_HEAD passes it, and a turn of an I/O ring has WEIGHT entries (R57, R60). -/
def fetched (f q : Nat) (s : State) : State :=
  let t := updRing f q (fun r => { r with sqHead := (r.sqHead + 1) % r.sqSize }) s
  let t := useCache t
  let x := 32 * f + q
  if q = 0 then t
  else { t with turn := if s.turn.1 = x ∧ 0 < s.turn.2 then (x, s.turn.2 - 1) else (x, (s.ring f q).weight.toNat) }

/-- A command reads host memory, which it cannot while its function is fenced (R47, R69). -/
def readsHost (op : Nat) (e : Sqe) : Bool :=
  [opKeyLoad, opModelLoad, opAdapterLoad, opProgLoad, opFlintLoad, opProfileSet, opFwUpdate].contains op ||
    (op == opProvStage && bits e.args 0 8 == 0)

/-- The answer to a command while SCH does not serve (R28, R88, R103): E_NOTREADY; the hint is 0 in the refused state and
while SCH is FAULTED. -/
def notServed (c : Cmd) (s : State) : State :=
  if s.boot.state == .refused || (s.proc agSch).state == .faulted then c.endRetry eNotReady 0 s else c.end eNotReady s

/-- The opcodes that the part serves (R68, R76): the catalogue's, and further ones of SCH's image where IAREK_CAP.EXT_CMDS is 1;
each with its flags in the IDENTIFY page. -/
def State.opcodes (s : State) : List Nat :=
  if !s.boot.cap.getLsbD capExt then catalogue
  else ((Config.extOpcodes s.boot.schImage).take 960).foldl (fun l w =>
    if w < 2 ^ 19 ∧ !l.any (fun c => c % 65536 == w % 65536) then insertBy (fun a b => decide (a % 65536 < b % 65536)) w l else l) catalogue

/-- Run a command: take its entry from the SQ or from DIRECT_CMD, turn it away where SCH does not serve it or the entry breaks
a rule of rings and privilege, and otherwise run its meaning. An entry whose OPCODE the part does not serve is dropped (R67); the
direct slot drops one at its doorbell. A command of a fenced function that reads host memory waits in the direct slot (log 60). -/
def command (f op : Nat) (src : Src) (fields : List (Nat × Nat)) (noHandle : Bool) (run : Cmd → State → State) (s : State) :
    Host.Outcome State Fault Refusal :=
  let admin := isAdminOp op
  let pfOp := isPfOp op
  let go := fun (c : Cmd) (t : State) =>
    if pfOp && f != 0 then c.drop cViolIarekPriv t
    else if !c.reservedOk fields || (noHandle && decide (c.e.handle ≠ 0)) then c.drop cViolIarekField t
    else run c t
  match src with
  | .ring q e =>
    if !s.fetches f q.val (e.flags.getLsbD 0) then done s s
    else
      let t := fetched f q.val s
      let c : Cmd := { f := f, src := src, op := op, e := e }
      if admin != (q.val == 0) || op == opAdopt then live s (c.drop cViolIarekOpcode t)
      else if !s.isReady rSch then live s (notServed c t)
      else live s (go c t)
  | .alien q e op' =>
    if !s.fetches f q.val (e.flags.getLsbD 0) || s.opcodes.any (fun w => w % 65536 == op'.toNat) then done s s
    else live s (bump f cViolIarekOpcode (fetched f q.val s))
  | .direct =>
    let x := s.fn f
    if !x.busy || bits x.directCmd 0 16 != op || !s.present f || x.flr then done s s
    else if !admin then done s s
    else
      let c : Cmd := { f := f, src := .direct, op := op, e := sqeOf x.directCmd }
      if !s.isReady rSch then live s (notServed c s)
      else if (s.proc agSch).state == .handoff then done s s
      else if x.expired && op != opIdentify && op != opAdopt then live s (c.end eLease s)
      else if x.fenced && readsHost op c.e then done s s
      else live s (go c s)

end Sys2Proof.Machine
end

