-- ==== Sys2Proof/Machine/OpsProv.lean ====
section
/-! DEFINITION. The provisioning record and the marker journal: layouts, validity, the choice at boot and the settings
(R123 to R131, and the owners of the settings items). -/

namespace Sys2Proof.Machine

/-! ## The record (R124 to R126) -/

/-- Ports that a SPLIT code configures (R346). -/
def splitPorts (code : Nat) : Nat := [0, 1, 2, 3, 4].getD code 0

/-- The items of SETTINGS from an offset up to an end, none where one is malformed (R125). -/
def settingItems (b : Bytes) (fin : Nat) : Nat → Nat → Option (List (Nat × Bytes))
  | 0, _ => none
  | fuel + 1, off =>
    if off = fin then some []
    else if fin < off + 4 then none
    else
      let ty := rd b off 2
      let len := rd b (off + 2) 2
      let pad := (len + 3) / 4 * 4
      if ty = 0 then (if allZero (slice b off (fin - off)) then some [] else none)
      else if len = 0 ∨ 1024 < len ∨ fin < off + 4 + pad then none
      else if !allZero (slice b (off + 4 + len) (pad - len)) then none
      else (settingItems b fin fuel (off + 4 + pad)).map (fun r => (ty, slice b (off + 4) len) :: r)

/-- The SETTINGS items of a record. -/
def recordItems (b : Bytes) : Option (List (Nat × Bytes)) :=
  let len := rd b 0x14 4
  settingItems b (len - 96) (len / 4) 0x100

/-- The fields of a record, whether or not it is valid. -/
def recordFields (b : Bytes) : ProvRec :=
  { flags := rdBV 16 b 6, seq := rdBV 32 b 8, provSvn := rd b 0xC 4, fwFloor := rd b 0x10 4, cxlWindow := rd b 0x18 1,
    revoke := BitVec.ofNat 4 (rd b 0x19 1), keepWarm := rd b 0x1A 1, split := (slice b 0x1C 12).map (·.toNat),
    newOwner := rdBV 384 b 0x28, digest := Config.sha384 (b.take (rd b 0x14 4)) }

/-- RAISE_FW, RAISE_PROV and SET_OWNER. -/
def ProvRec.raiseFw (r : ProvRec) : Bool := r.flags.getLsbD 0
def ProvRec.raiseProv (r : ProvRec) : Bool := r.flags.getLsbD 1
def ProvRec.setOwner (r : ProvRec) : Bool := r.flags.getLsbD 2

/-- The signer is accepted (R126); the last case holds at a boot only. -/
def signerOk (f : Fuses) (atBoot : Bool) (b : Bytes) : Bool :=
  let signer := slice b 0x58 97
  let r := recordFields b
  (f.ownerHash != 0 && Config.sha384 signer == f.ownerHash) || (f.ownerHash == 0 && signer == Config.provKey) ||
    (atBoot && f.ownerHash != 0 && signer == Config.provKey && r.setOwner && r.newOwner == f.ownerHash)

/-- A valid record (R126). -/
def recordOk (f : Fuses) (atBoot : Bool) (b : Bytes) : Bool :=
  let len := rd b 0x14 4
  let r := recordFields b
  decide (1024 ≤ b.length) && rd b 0 4 == 0x52505646 && rd b 4 2 == 1 &&
    decide (1024 ≤ len ∧ len ≤ 131072 ∧ len % 4 = 0 ∧ len ≤ b.length) &&
    decide (r.flags.toNat < 8) && decide (rd b 0x19 1 < 16) && rd b 0x1B 1 == 0 && allZero (slice b 0xB9 (0x100 - 0xB9)) &&
    signerOk f atBoot b && Config.verify (slice b 0x58 97) (b.take (len - 96)) (slice b (len - 96) 96) &&
    decide (f.provSvn ≤ r.provSvn) && decide (r.cxlWindow ≤ 64) &&
    (r.keepWarm == 0 || decide (30 ≤ r.keepWarm ∧ r.keepWarm ≤ 60)) && r.split.all (fun c => decide (c ≤ 4)) &&
    decide ((r.split.map splitPorts).sum ≤ 24) && (recordItems b).isSome

/-- The bytes of a record slot: 0 A, 1 B. -/
def State.slot (s : State) (y : Nat) : Bytes := if y = 0 then s.nor.slotA else s.nor.slotB

/-- Program a record slot. -/
def putSlot (y : Nat) (b : Bytes) (s : State) : State :=
  { s with nor := if y = 0 then { s.nor with slotA := b } else { s.nor with slotB := b } }

/-- A slot holds a valid record at a boot. -/
def State.slotOk (s : State) (y : Nat) : Bool := y < 2 && recordOk s.fuses true (s.slot y)

/-! ## The marker journal (R127) -/

/-- The state that a code names. -/
def jstateOf (c : Nat) : Option JState :=
  [JState.idle, .downloading, .downloaded, .verifying, .verified, .activating, .trial, .confirming, .invalid][c]?

/-- The 32 bytes of an entry. -/
def JEntry.bytes (e : JEntry) : Bytes :=
  let b := toLe 4 e.jseq.toNat ++ toLe 1 e.state.code ++ toLe 1 e.slot ++ toLe 1 e.tries ++ toLe 1 e.xslot ++
    toLe 4 e.recSeq.toNat ++ toLe 16 e.digest.toNat
  b ++ toLe 4 (crc32 b)

/-- SLOT and XSLOT stand as R127 states. -/
def JEntry.slotsOk (e : JEntry) : Bool :=
  if e.state = .idle then e.slot == e.xslot && (decide (e.slot < 2) || e.slot == 0xFF)
  else decide (e.slot < 2) && (e.xslot == 0xFF || (decide (e.xslot < 2) && e.xslot != e.slot))

/-- The entry that 32 bytes hold, none where it counts as torn (R127). -/
def entryOf (b : Bytes) : Option JEntry :=
  if b.length ≠ 32 ∨ rd b 28 4 ≠ crc32 (b.take 28) then none
  else match jstateOf (rd b 4 1) with
    | none => none
    | some st =>
      let e : JEntry := { jseq := rdBV 32 b 0, state := st, slot := rd b 5 1, tries := rd b 6 1, xslot := rd b 7 1,
                          recSeq := rdBV 32 b 8, digest := rdBV 128 b 12 }
      if e.slotsOk && (if st = .trial then decide (e.tries ≤ 3) else e.tries == 0) then some e else none

/-- The entry in force: the highest JSEQ among those that qualify (R127). -/
def State.inForce (s : State) : Option JEntry :=
  (s.nor.other ++ s.nor.journal).foldl (fun a b =>
    match entryOf b, a with
    | none, _ => a
    | some e, none => some e
    | some e, some x => if x.jseq < e.jseq then some e else a) none

/-- Entries of 32 bytes in a 4 KiB sector. -/
abbrev sectorEntries : Nat := 128

/-- Append an entry; a full sector makes SEC erase the other and go on there (R127). -/
def appendEntry (e : JEntry) (s : State) : State :=
  let j := match s.inForce with
    | none => 0#32
    | some x => x.jseq + 1
  let b := ({ e with jseq := j } : JEntry).bytes
  if s.nor.journal.length < sectorEntries then { s with nor := { s.nor with journal := s.nor.journal ++ [b] } }
  else { s with nor := { s.nor with other := s.nor.journal, journal := [b] } }

/-- An entry for slot y with an XSLOT: RECORD_SEQ and the digest are the slot's record's, 0 for no record. -/
def jEntry (st : JState) (y x tries : Nat) (s : State) : JEntry :=
  let b := s.slot y
  let none_ := y == 0xFF
  { jseq := 0, state := st, slot := y, tries := tries, xslot := x, recSeq := if none_ then 0 else rdBV 32 b 8,
    digest := if none_ then 0 else BitVec.ofNat 128 (Config.sha384 (b.take (rd b 0x14 4))).toNat }

/-- Append an entry of a state. -/
def journal (st : JState) (y x tries : Nat) (s : State) : State := appendEntry (jEntry st y x tries s) s

/-- Program the fuses that a confirmed record asks for (R131). -/
def programFuses (b : Bytes) (s : State) : State :=
  if !recordOk s.fuses true b then s
  else
    let r := recordFields b
    let f := s.fuses
    let owner := r.setOwner && f.ownerHash == 0 && slice b 0x58 97 == Config.provKey
    { s with fuses := { f with
      fwSvn := if r.raiseFw then max f.fwSvn (min r.fwFloor 64) else f.fwSvn,
      provSvn := if r.raiseProv then max f.provSvn (min r.provSvn 64) else f.provSvn,
      keyRevoke := f.keyRevoke ||| r.revoke,
      ownerHash := if owner then r.newOwner else f.ownerHash } }

/-! ## The choice at boot (R129, R130) -/

/-- What the entry in force asks for: the slot to run (0xFF none) and the steps that write entries and fuses. -/
def bootChoice (e : JEntry) (s : State) : Nat × (State → State) :=
  let y := e.slot
  let x := e.xslot
  match e.state with
  | .idle => (y, id)
  | .downloaded | .verified | .invalid => (x, id)
  | .downloading => (x, fun t => journal .idle x x 0 (putSlot y [] t))
  | .verifying => (x, journal .invalid y x 0)
  | .activating => if s.slotOk y then (y, journal .trial y x 1) else (x, journal .invalid y x 0)
  | .trial => if e.tries < 3 then (y, journal .trial y x (e.tries + 1)) else (x, journal .invalid y x 0)
  | .confirming =>
    if s.slotOk y then (y, fun t => journal .idle y y 0 (programFuses (t.slot y) t)) else (x, journal .invalid y x 0)

/-- IDLE with no record, unless that entry is in force already (R130). -/
def idleNone (s : State) : State :=
  match s.inForce with
  | some e => if e.state = .idle ∧ e.slot = 0xFF then s else journal .idle 0xFF 0xFF 0 s
  | none => journal .idle 0xFF 0xFF 0 s

/-- The record that runs, with the journal and the fuses as the boot leaves them (R129, R130). -/
def chooseRecord (s : State) : Nat × State :=
  match s.inForce with
  | none =>
    let a := s.slotOk 0
    let b := s.slotOk 1
    if a && (!b || decide ((rdBV 32 (s.slot 1) 8) ≤ rdBV 32 (s.slot 0) 8)) then (0, journal .idle 0 0 0 s)
    else if b then (1, journal .idle 1 1 0 s)
    else (0xFF, idleNone s)
  | some e =>
    let (c, act) := bootChoice e s
    if c = 0xFF then (0xFF, if s.slotOk 0 || s.slotOk 1 then act s else idleNone (act s))
    else if s.slotOk c then (c, act s)
    else if s.slotOk (1 - c) && e.state != .downloading then (1 - c, journal .idle (1 - c) (1 - c) 0 (bumpPart cProvFallback s))
    else (0xFF, idleNone s)

/-! ## Settings (R125; 22) -/

/-- Apply one item by its type; none where its length or value is refused. -/
def applySetting (ty : Nat) (v : Bytes) (x : Settings) : Option Settings :=
  let n := leNat v
  let size := v.length
  match ty with
  | 0x0101 => if size = 1 ∧ n ≤ 4 then some { x with hbmRate := n } else none
  | 0x0102 => if size = 1 then some { x with hbmMask := BitVec.ofNat 6 n } else none
  | 0x0201 => if size = 1 ∧ n ≤ 1 then some { x with micaGhost := n == 1 } else none
  | 0x0301 => if size = 2 ∧ n ≤ 128 then some { x with kvFloor := n } else none
  | 0x0401 => if size = 1 ∧ n ≤ 1 then some { x with linkNrz := n == 1 } else none
  | 0x0402 =>
    if size = 6 ∧ (List.range 24).all (fun p => n / 4 ^ p % 4 ≠ 3) then some { x with fabricPorts := some (BitVec.ofNat 48 n) }
    else none
  | 0x0403 => if size = 1 ∧ n ≤ 15 then some { x with furlong := n } else none
  | 0x0501 => if size = 2 ∧ 60 ≤ n ∧ n ≤ 240 then some { x with pwrbrkCap := n } else none
  | 0x0502 =>
    if size = 4 ∧ rd v 0 1 ≤ 5 ∧ rd v 1 1 ≤ 60 ∧ rd v 2 1 ≤ 60 ∧ rd v 3 1 ≤ 60 then
      some { x with order := rd v 0 1, floors := (rd v 1 1, rd v 2 1, rd v 3 1) } else none
  | 0x0503 => if size = 4 ∧ 100000 ≤ n ∧ n ≤ 2000000 then some { x with meterShunt := n } else none
  | _ => none

/-- The types of 22. -/
def knownSettings : List Nat := [0x0101, 0x0102, 0x0201, 0x0301, 0x0401, 0x0402, 0x0403, 0x0501, 0x0502, 0x0503]

/-- Settings from items in order, with the types met so far and how many items have been ignored (R125). -/
def applyItems (l : List (Nat × Bytes)) (x : Settings) : Settings × Nat :=
  let r := l.foldl (fun (a : Settings × List Nat × Nat) e =>
    let (x, seen, n) := a
    if !knownSettings.contains e.1 then a
    else if seen.contains e.1 then (x, seen, n + 1)
    else match applySetting e.1 e.2 x with
      | none => (x, e.1 :: seen, n + 1)
      | some y => (y, e.1 :: seen, n)) (x, [], 0)
  (r.1, r.2.2)

/-- The firmware floor in force (R106). -/
def State.fwFloor (s : State) : Nat := max s.fuses.fwSvn ((s.prov.record.map (·.fwFloor)).getD 0)

end Sys2Proof.Machine
end

