-- ==== Sys2Proof/Machine/OpsReset.lean ====
section
/-! DEFINITION. What resets and revocations take away: copies and handles, a Function Level Reset (R54, R55), the revocation
of an agent (R97 to R101), a brownout reset (R32) and a reset of the whole part (R54). -/

namespace Sys2Proof.Machine

/-! ## Copies and handles of models (R270 to R272, R280) -/

/-- A copy ends: its handles, its tiered key use and its regions (R272, R280). -/
def dropCopy (k : Nat) (s : State) : State :=
  match s.copy k with
  | none => s
  | some c =>
    updServe (fun x => { x with copies := Tab.erase x.copies k, models := Tab.keep x.models (fun _ h => h.copy != k),
                                repairs := x.repairs.filter (·.copy != k) })
      (updStore (fun x => { x with lent := Tab.keep x.lent (fun g _ => !c.units.contains (g / 1024)) })
        (releaseUnits c.units s))

/-- The copies that a step reads: the targets and drafts of its requests. -/
def State.stepCopies (s : State) (st : Step) : List Nat :=
  st.copy :: (st.reqs.map (fun r => match s.ctx r.idx with
    | none => []
    | some c => c.copy.toList ++ c.draft.toList)).flatten

/-- The running step reads a copy. -/
def State.copyInStep (s : State) (k : Nat) : Bool :=
  match s.serve.step with
  | none => false
  | some st => (s.stepCopies st).contains k

/-- A copy ends; while the running step reads it, it is UNLOADING (R278, R298; log 44). -/
def endCopy (k : Nat) (s : State) : State :=
  if s.copyInStep k then
    updServe (fun x => match Tab.find x.copies k with
      | none => x
      | some c => { x with copies := Tab.put x.copies k { c with state := .unloading } }) s
  else dropCopy k s

/-- A copy ends with the release of one of its handles, of function f (R270): a SHARE = 0 copy with its last handle, which this one is;
a SHARE = 1 copy when the PF of the part that loaded it unloads it. -/
def Copy.endsWith (c : Copy) (f : Nat) (unload last : Bool) : Bool :=
  if c.share then unload && f == 0 && !c.member else last

/-- A handle is released (R270, R272, R280), by MODEL_UNLOAD (`unload`) or by an FLR. -/
def releaseModel (h : Nat) (unload : Bool) (s : State) : State :=
  match Tab.find s.serve.models h with
  | none => s
  | some m =>
    let t := updServe (fun x => { x with models := Tab.erase x.models h }) s
    match t.copy m.copy with
    | none => t
    | some c => if c.endsWith m.fn unload (!t.serve.models.any (fun e => e.2.copy == m.copy)) then endCopy m.copy t else t

/-- An adapter is unloaded: its units return to the KV store. -/
def dropAdapter (h : Nat) (s : State) : State :=
  match Tab.find s.serve.adapters h with
  | none => s
  | some a => releaseUnits a.units (updServe (fun x => { x with adapters := Tab.erase x.adapters h }) s)

/-- A buffer is freed. -/
def dropBuf (h : Nat) (s : State) : State :=
  match Tab.find s.bufs h with
  | none => s
  | some b => releaseUnits b.units { s with bufs := Tab.erase s.bufs h }

/-- A chip-level engine is assigned to an owner, the lowest that is free; it is freed when its work ends (R96, R200). -/
def State.freeDma (s : State) : Option Nat := (List.range 8).find? (fun i => decide ((Tab.get {} s.chipDma i).agent = 15))
def takeDma (i : Nat) (owner : Tag) (s : State) : State := { s with chipDma := Tab.put s.chipDma i owner }
def freeDma (i : Nat) (s : State) : State :=
  { s with chipDma := Tab.upd {} s.chipDma i (fun t => { t with agent := 15 }) }

/-- A load in progress is given up: what it was granted returns, the members of a Rod-wide one discard their shares (R277), and a copy that was loading ends (R118, R262). -/
def dropLoad (l : Load) (s : State) : State :=
  let t := freeDma l.dma (updServe (fun x => { x with loads := x.loads.erase l }) s)
  let t := match l.rod with
    | none => t
    | some r => forEach r.2.1 (fun m t => sendMsg m.1 3 4 (t.tagOf agSch l.fn).word (toLe 4 r.1 ++ toLe 4 0) t) t
  match l.kind with
  | .adapter _ => releaseUnits l.units t
  | .model => if ((t.copy l.copy).map (·.state)) == some .loading then dropCopy l.copy t else releaseUnits l.units t

/-- Networks of a function are unloaded and their tiles freed (R336). -/
def dropNets (f : Nat) (s : State) : State :=
  let mine := s.flint.nets.filter (fun e => e.2.fn == f)
  { s with flint := { s.flint with
      nets := Tab.keep s.flint.nets (fun _ n => n.fn != f),
      tiles := mine.foldl (fun t e => e.2.granted.foldl Tab.erase t) s.flint.tiles } }

/-! ## Function Level Reset (R54, R55) -/

/-- The requests of a function end without completion; a working part elsewhere is told. -/
def silenceRequests (f : Nat) (s : State) : State :=
  forEach (s.homeOf f) (fun e t =>
    let c := e.2
    dropWork e.1 eCancelled (tellHolders e.1 c eCancelled (updCtx e.1 (fun c => { c with state := .ended }) t))) s

/-- What an FLR clears of one function (R54, R55): its work ends silently, its objects go, its rings, held store, fence,
lease and interrupt table return to their reset values, and FEPOCH advances. Nothing else changes: its configuration registers, MSI-X
Enable and Bus Master Enable among them, belong to the host and stay. -/
def functionReset (f : Nat) (s : State) : State :=
  let t := silenceRequests f s
  let t := forEach (Tab.keys (t.tasks.filter (fun e => e.2.fn == f))) (fun n => endTask n eCancelled true) t
  let t := forEach (t.flint.runs.filter (·.fn == f)) (fun r => endRun r eCancelled true) t
  let t := forEach (t.serve.loads.filter (·.fn == f)) dropLoad t
  let t := forEach (Tab.keys (t.serve.models.filter (fun e => e.2.fn == f))) (fun h => releaseModel h false) t
  let t := forEach (Tab.keys (t.serve.adapters.filter (fun e => e.2.fn == f))) dropAdapter t
  let t := forEach (Tab.keys (t.bufs.filter (fun e => e.2.fn == f))) dropBuf t
  let t := dropNets f t
  let t := updServe (fun x => { x with profs := Tab.keep x.profs (fun _ p => p.fn != f),
                                       ctxs := Tab.keep x.ctxs (fun i c => !(c.home && c.fn == f) || s.running.contains i) }) t
  let t := { t with
    progs := Tab.keep t.progs (fun _ p => p.fn != f || p.builtin),
    sec := { t.sec with keys := Tab.keep t.sec.keys (fun _ k => k.owner.fn != f) },
    upd := t.upd.map (fun u => if u.fn = f then { u with orphan := true } else u),
    prov := { t.prov with stage := t.prov.stage.map (fun x => if x.2.1 = f then (x.1, 32, x.2.2) else x) } }
  updFn f (fun x => { ({} : Func) with
    bme := x.bme, d3 := x.d3, msixEn := x.msixEn, msixMask := x.msixMask, devCtl := x.devCtl, aspm := x.aspm, ats := x.ats,
    pasid := x.pasid, aerMask := x.aerMask, fepoch := x.fepoch + 1 }) t

/-! ## Processors -/

/-- Ticks of 1.6 ns in 1 ms and in 1 s. -/
abbrev ticksMs : Nat := 625000
abbrev ticksS : Nat := 625000000

/-- Ticks of 1.6 ns in 1 µs, rounded up. -/
abbrev ticksUs : Nat := 625

/-- The READY_MAP bit of a processor (R90). -/
def procReady (p : Nat) : Nat :=
  match p with
  | 0 => rSecRom
  | 1 => rPmc
  | 2 => rSch
  | n + 3 => rCl n

/-- SEC runs: its image or, before any bundle, its ROM. -/
def State.secRuns (s : State) : Bool := (s.proc agSec).state == .running || (s.proc agSec).state == .rom

/-- SCH serves and runs. -/
def State.schRuns (s : State) : Bool := s.isReady rSch && (s.proc agSch).state == .running

/-- Event 0x0006 (R104), written when SCH runs; else it waits. -/
def procEvent (p cause : Nat) (s : State) : State :=
  let d := p + cause * 16 + (s.proc p).aepoch.toNat * 2 ^ 20
  if s.schRuns then postEvent evFw stOk d s else { s with boot := { s.boot with late := s.boot.late ++ [d] } }

/-- Seals of an engine are abandoned and queued again, and its page fetches end (R249). -/
def requeueSeals (n : Nat) (s : State) : State :=
  forEach (s.kv.seals.filter (fun x => x.eng == n && x.running)) (fun x t =>
    bump (t.ctxFn (keyIdx x.key)) cMicaSealAbandoned t)
    (updKv (fun k => { k with
      seals := k.seals.map (fun x => if x.eng = n then { x with running := false, grans := [], urgent := false } else x),
      fetches := k.fetches.filter (·.eng != n),
      old := (k.fetches.filter (·.eng == n)).foldl (fun l x => fetchOver x l) k.old }) s)

/-- The pages that the running step opened and lost with its interruption are granted again as it is reissued (R225, R100); a request
for whose pages there is no room ends E_EVICTED. -/
def reopenStep (s : State) : State :=
  forEach (match s.serve.step with | none => [] | some st => st.reqs) (fun r t =>
    if r.masked then t
    else
      let (fits, t) := roomFor (t.newPages r) t.running t
      if fits then forEach r.columns (openColumn r.idx) t else endRequest r.idx eEvicted t) s

/-- The running step loses cluster n: it commits nothing, and the cluster's share is to be reissued (R226, R100). Its requests pause
until then (R91, R286). -/
def stepLoses (n : Nat) (s : State) : State :=
  match s.serve.step with
  | none => s
  | some st =>
    if st.lost.contains n then s
    else
      let fns := (st.reqs.map (fun r => s.ctxFn r.idx)).dedup
      let t := if st.lost = [] then forEach fns (fun f => bump f cKvInterrupted) (forEach st.reqs closeUnused s) else s
      pauseStep true (updServe (fun x => { x with step := some { st with lost := n :: st.lost } }) t)

/-- The clusters whose CL bit is set. -/
def State.clustersUp (s : State) : List Nat := (List.range 8).filter (fun n => s.isReady (rCl n))

/-- Cluster n's share of the running step is reissued (R100), on a cluster that is up (R32): its requests go on once no share is
missing. -/
def stepRegains (n : Nat) (s : State) : State :=
  match s.serve.step with
  | none => s
  | some st =>
    if !st.lost.contains n || s.clustersUp.isEmpty then s
    else
      let t := updServe (fun x => { x with step := some { st with lost := st.lost.erase n } }) s
      if st.lost.erase n = [] then pauseStep false (reopenStep t) else t

/-- Tasks with a core in cluster n lose their place and wait again (R100). -/
def displace (n : Nat) (s : State) : State :=
  forEach (Tab.keys s.tasks) (fun k t =>
    match Tab.find t.tasks k with
    | none => t
    | some x => match x.place with
      | none => t
      | some p =>
        if p.cores.any (fun c => c / 8 == n) then
          freePlace p { t with tasks := Tab.put t.tasks k { x with place := none } }
        else t) s

/-- The 512 sync counters of cluster n, free and with undefined contents (R97). -/
def freeCounters (n : Nat) (s : State) : Tab SyncCtr :=
  (List.range 512).map (fun i =>
    (512 * n + i, { value := Config.freeBits 32 (s.free + i), tag := { (Tab.get {} s.ctrs (512 * n + i)).tag with agent := 15 } }))

/-- The 512 sync counters and 16 descriptor engines of cluster n are freed; their contents are undefined (R97, R100).
Descriptors that are still queued are discarded as they come up. -/
def freeCluster (n : Nat) (s : State) : State :=
  { s with
    ctrs := Tab.keep s.ctrs (fun k _ => decide (k / 512 < n)) ++ freeCounters n s ++ Tab.keep s.ctrs (fun k _ => decide (n < k / 512)),
    engines := Tab.mapVals s.engines (fun k x => if k / 16 = n then { x with tag := { x.tag with agent := 15 } } else x),
    free := s.free + 512 }

/-- What the part's work in a cluster loses with its CCC (R90, R91, R100, R249): tasks their place, the step its share, and Mica its
seals. -/
def clusterStops (n : Nat) (s : State) : State := requeueSeals n (stepLoses n (displace n s))

/-- What SCH takes back from a cluster after a fault of its CCC or a reset of its islands (R32, R100). -/
def clusterLost (n : Nat) (s : State) : State := freeCluster n (clusterStops n s)

/-- The chip-level engines that SCH holds are free (R101). -/
def freeChipDma (s : State) : State :=
  { s with chipDma := Tab.mapVals s.chipDma (fun _ t => if t.agent = agSch then { t with agent := 15 } else t) }

/-- Revoke agent p now (R97 to R101): its epoch advances and its resources are freed. A restart by FW_UPDATE, cause 0, leaves a
cluster its counters and its queued descriptors (R90). A step does not wait for a cluster whose CCC is FAULTED (R103). -/
def revokeNow (p cause : Nat) (s : State) : State :=
  let t := updProc p (fun x => { x with aepoch := x.aepoch + 1, lastAdv := some s.time, deferred := none, revoked := true }) s
  let t : State := match p with
    | 2 => freeChipDma t
    | n + 3 =>
      let t := if cause = 0 then clusterStops n t else clusterLost n t
      if (t.proc p).state = .faulted then stepRegains n t else t
    | _ => t
  if (t.proc p).state = .faulted then procEvent p cause t else t

/-- Revoke agent p, or put it off until 1 ms after the last advance (R98). -/
def revoke (p cause : Nat) (s : State) : State :=
  let x := s.proc p
  let soon := match x.lastAdv with
    | none => false
    | some a => decide (s.time < a + ticksMs)
  if soon then updProc p (fun x => { x with deferred := some cause, revoked := false }) s else revokeNow p cause s

/-- Whether the supervisor of p can revoke it now (R99): SCH or, when SCH is down too, SEC for a CCC; SEC for SCH and PMC;
hardware alone for SEC, at SEC_RESET. -/
def State.supervised (s : State) (p : Nat) : Bool :=
  if p = 0 then false else if p < 3 then s.secRuns else s.schRuns || s.secRuns

/-- Loads in progress end E_NOTREADY with RETRY_AFTER = 10 and no state changed (R90). -/
def abortLoads (s : State) : State :=
  forEach s.serve.loads (fun l t =>
    let e : Cqe := { kind := 0, status := eNotReady, tag := l.tag, retry := 10,
                     opcode := match l.kind with | .model => opModelLoad | .adapter _ => opAdapterLoad }
    complete l.fn l.q e (dropLoad l t)) s

/-- TRIES of the last TRIAL entry in the journal. -/
def State.trialBoots (s : State) : Nat :=
  ((s.nor.other ++ s.nor.journal).filterMap entryOf).foldl (fun n e => if e.state = .trial then e.tries else n) 0

/-- A stage of PROV_STAGE in progress ends E_NOTREADY with RETRY_AFTER = 10 as SCH stops (R90), and what it has written to the journal
is undone by one entry more (log 28). -/
def abortStage (s : State) : State :=
  match s.prov.stage, s.inForce with
  | some (_, f, q, tag, _), some e =>
    let t := { s with prov := { s.prov with stage := none } }
    let t := match e.state with
      | .downloading => journal .idle e.xslot e.xslot 0 t
      | .verifying => journal .downloaded e.slot e.xslot 0 t
      | .activating => journal .verified e.slot e.xslot 0 t
      | .confirming => journal .trial e.slot e.xslot t.trialBoots t
      | _ => t
    if f < 32 then complete f q { kind := 0, status := eNotReady, tag := tag, retry := 10, opcode := opProvStage } t else t
  | _, _ => s

/-- What a processor loses at the moment it stops (R90, R91, R102), a handoff excepted. -/
def stopped (p : Nat) (s : State) : State :=
  let t := setReady (procReady p) false s
  match p with
  | 0 => { t with sec := { t.sec with sessions := [], phaseDoe := .start, phaseMctp := .start, verDoe := 0, verMctp := 0 },
                  side := { t.side with up := false } }
  | 1 => updThermal (fun x => { x with peakDie := 0, peakHbm := 0 }) t
  | 2 => pauseNow (abortStage (abortLoads t))
  | n + 3 => stepLoses n t

/-- Finish an FW_UPDATE with a status (R94). -/
def finishUpdate (st : Status) (s : State) : State :=
  match s.upd with
  | none => s
  | some u =>
    let t := { s with upd := none, boot := { s.boot with state := .running, result := st } }
    if u.orphan then t
    else complete u.fn u.q { kind := 0, status := st, tag := u.tag, opcode := opFwUpdate, retry := retryOf st s } (tookFree t)

/-- A stage of PROV_STAGE in progress ends E_BUSY, because SEC stops (R102). -/
def stageBusy (s : State) : State :=
  match s.prov.stage with
  | none => s
  | some (_, f, q, tag, _) =>
    let t := { s with prov := { s.prov with stage := none } }
    if f < 32 then complete f q { kind := 0, status := eBusy, tag := tag, opcode := opProvStage } t else t

/-- The faults that count towards R103 when a processor faults now. -/
def State.faultsNow (s : State) (p : Nat) : List Nat :=
  s.time :: (s.proc p).faults.filter (fun a => decide (s.time < a + ticksS))

/-- A processor faults (R99, R103): it is halted, and the image it runs next is the one it ran before FW_UPDATE. A third fault within
1 s, or one of a processor that FW_UPDATE was to recover, leaves it FAULTED. -/
def haltProc (p cause : Nat) (s : State) : State :=
  let recent := s.faultsNow p
  let third := decide (3 ≤ recent.length)
  let t := updProc p (fun x => { x with
    state := if third || x.halted then .faulted else .restarting, faults := recent, lastCause := cause, revoked := false,
    slotB := if x.fresh.isSome then x.oldSlotB else x.slotB, fresh := none, halted := third || x.halted }) s
  let t := stopped p t
  let t := if p = 0 then alert 7 t else t
  if p = 1 ∧ (t.proc 1).halted then forceOp0 t else t

/-- Who revokes a processor that has faulted (R99, R102): its supervisor, at once or once SEC runs again; SEC at SEC_RESET. -/
def revokeFaulty (p cause : Nat) (s : State) : State :=
  if s.supervised p then revoke p cause s
  else if p = 0 then s
  else updProc p (fun x => { x with waitingSec := true }) s

/-- The handoff area is closed to processor p (R92). -/
def closeHandoff (p : Nat) (s : State) : State := { s with hand := if (s.hand.map (·.agent)) = some p then none else s.hand }

/-- A processor faults with a cause of 2 to 4 (R99 to R103). -/
def procFault (p cause : Nat) (s : State) : State :=
  let t := closeHandoff p (haltProc p cause s)
  let t := if ((t.upd.bind (·.cur))) = some p then finishUpdate eBusy t else t
  let t := if p = 0 then stageBusy (procEvent 0 cause t) else t
  revokeFaulty p cause t

/-- A processor has the image it ran before FW_UPDATE loaded again, with cause 6 (R93): its new image has faulted, or has not set
RUNNING in time. In handoff mode the block stays in the area for the old image. -/
def rollBack (p : Nat) (fault : Bool) (s : State) : State :=
  let hand := (s.proc p).fresh == some true
  let t :=
    if fault then
      let t := haltProc p 6 s
      if p = 0 then revoke 0 6 t else revokeFaulty p 6 t
    else
      let t := updProc p (fun x => { x with
        slotB := x.oldSlotB, fresh := none, lastCause := 6,
        state := if hand then .handoff else if x.halted then .faulted else .restarting }) s
      if hand then t else revoke p 6 (stopped p t)
  finishUpdate eLevel t

/-! ## Brownout reset (R32) -/


/-- A core after a reset of its island: registers and queues as at reset, memories of a new undefined generation. -/
def Core.wiped (c : Core) (gen : Nat) : Core :=
  { ({} : Core) with junk := gen, junkP := gen, nextId := c.nextId, owner := {} }

/-- CCCn is reset with its island (R32): it is revoked, and an FW_UPDATE that was replacing it ends (R94). -/
def cccReset (n : Nat) (s : State) : State :=
  let p := agCcc n
  if !(s.proc p).imaged then s
  else
    let t := updProc p (fun x => { x with
      state := if x.state = .faulted || x.halted then .faulted else .restarting,
      lastCause := if x.state = .faulted then x.lastCause else 7,
      slotB := if x.fresh.isSome then x.oldSlotB else x.slotB, fresh := none }) (closeHandoff p s)
    let t := if (t.upd.bind (·.cur)) = some p then finishUpdate eBusy t else t
    revoke p 7 t

/-- The 24 VDD_CORE islands are reset (R32): the CL bits clear, cores, counters and engines take undefined contents at once, and
every CCC is revoked. -/
def islandReset (s : State) : State :=
  let t := forEach (List.range 8) (fun n t => clusterLost n (setReady (rCl n) false t)) s
  let t := { t with cores := (List.range 64).map (fun k => (k, (t.core k).wiped (t.free + 1))), free := t.free + 2,
                    engines := Tab.mapVals t.engines (fun _ x => { x with queue := [] }) }
  let t := forEach (List.range 8) cccReset t
  pauseNow { t with power := { t.power with stretch := [] } }

/-! ## Reset of the whole part (R54, R447, R462) -/

/-- Everything a reset of the whole part resets; fuses, the NOR, the identity area, the straps, the pins of the rails and
the test port stay. -/
def wholeReset (s : State) : State :=
  { ({} : State) with
    time := s.time, fuses := s.fuses, nor := s.nor, sec := { ({} : Sec) with identityOk := s.sec.identityOk },
    pins := { s.pins with spiCs := true, loopsHeld := false },
    power := { ({} : Power) with setpoint := s.power.setpoint, target := s.power.target, slow := s.power.slow },
    side := { ({} : Side) with ir := s.side.ir, pins := s.side.pins, boundary := s.side.boundary },
    out := s.out, free := s.free, pending := s.pending }

end Sys2Proof.Machine
end

