-- ==== Sys2Proof/Machine/OpsTrain.lean ====
section
/-! DEFINITION. Training of fabric ports (R347, R353 to R364): the allotment, the hold pattern and the slots of the first
second, the choice of a mode, and what becomes of a port at UP and at link-down. -/

namespace Sys2Proof.Machine

/-! ## Modes (R347, R355) -/

/-- The lanes and the use of PAM4 of a mode code. -/
def modeWidth (m : Nat) : Nat := [0, 2, 4, 2, 8, 4, 8].getD m 0
def modePam4 (m : Nat) : Bool := m == 6 || m == 5 || m == 3

/-- The lanes that a mode of n lanes uses among those that passed, none where it cannot run (R355). -/
def lanesFor (n : Nat) (ok : BitVec 8) : Option (BitVec 8) :=
  let has := fun (m : BitVec 8) => ok &&& m == m
  if n = 8 then (if has 0xFF then some 0xFF else none)
  else if n = 4 then (if has 0x0F then some 0x0F else if has 0xF0 then some 0xF0 else none)
  else [0x03#8, 0x0C, 0x30, 0xC0].find? has

/-- The first mode of R347 that R355 allows, with its lanes. -/
def chooseMode (width : Nat) (ok : BitVec 8) (pam4 : Bool) : Option (Nat × BitVec 8) :=
  [6, 5, 4, 3, 2, 1].findSome? (fun m =>
    if modeWidth m ≤ width ∧ (!modePam4 m ∨ pam4) then (lanesFor (modeWidth m) ok).map (fun l => (m, l)) else none)

/-- The mode that a port's allotment gives (R360). -/
def Port.allotted (x : Port) (nrz : Bool) : Nat :=
  ((chooseMode (min x.width x.partnerWidth) 0xFF (!nrz && x.partnerPam4)).map (·.1)).getD 0

/-- Lane order reversed over the port's width. -/
def Port.unreverse (x : Port) (m : BitVec 8) : BitVec 8 :=
  if x.reversed then BitVec.ofNat 8 (((List.range x.width).filter (fun k => m.getLsbD (x.width - 1 - k))).map (2 ^ ·)).sum else m

/-- Lanes that have passed at both ends. -/
def Port.bothOk (x : Port) : BitVec 8 := x.laneOk &&& x.unreverse x.partnerOk

/-! ## The allotment (R346, R368) -/

/-- First lane and width of each port that a SPLIT code gives. -/
def splitLanes (code : Nat) : List (Nat × Nat) :=
  match code with
  | 1 => [(0, 8)]
  | 2 => [(0, 4), (4, 4)]
  | 3 => [(0, 4), (4, 2), (6, 2)]
  | 4 => [(0, 2), (2, 2), (4, 2), (6, 2)]
  | _ => []

/-- The ports of an allotment, with their levels, waiting for their turn to train. -/
def allotment (split : List Nat) (levels : Option (BitVec 48)) : Tab Port :=
  let l := ((split.zipIdx.map (fun (c, b) => (splitLanes c).map (fun w => (b, w)))).flatten).zipIdx
  l.map (fun ((b, w), p) => (p, { ({} : Port) with
    st := .hold, bundle := b, firstLane := 8 * b + w.1, width := w.2,
    level := match levels with
      | none => if b = 11 then 1 else 0
      | some v => bits v (2 * p) 2 }))

/-! ## Ordered sets (R353) -/

/-- WIDTH code of a width. -/
def widthCode (n : Nat) : BitVec 2 := if n = 8 then 3 else if n = 4 then 2 else 1

/-- An ordered set of a type, as a lane of the port sends it now. -/
def State.ordSet (s : State) (p lane : Nat) (type : BitVec 4) (request target : Nat) : OrdSet :=
  let x := s.port p
  { type := type, lane := BitVec.ofNat 3 lane, port := BitVec.ofNat 5 p, width := widthCode x.width, pam4 := !s.settings.linkNrz,
    addrValid := s.fab.valid, addr := BitVec.ofNat 12 s.fab.addr, nonce := x.nonce, laneOk := x.laneOk,
    request := BitVec.ofNat 3 request, target := BitVec.ofNat 3 target }

/-- Send an ordered set, on each lane of the port. -/
def sendSet (p : Nat) (type : BitVec 4) (request target : Nat) (s : State) : State :=
  forEach (List.range (s.port p).width) (fun k t => emit (.ordSet p (s.ordSet p k type request target)) t) s

/-! ## Slots (R29, R358, R359) -/

/-- A slot for one more port to train is free. -/
def State.slotFree (s : State) : Bool :=
  s.fab.freePacing || decide ((s.fab.ports.filter (fun e => e.2.st = .training)).length < 4)

/-- Start a full training with a fresh nonce. -/
def startAttempt (p : Nat) (s : State) : State :=
  let t := updPort p (fun x => { x with
    st := .training, attempt := 1, stage := .detect, nonce := freeWord 64 s, partnerNonce := 0, laneOk := 0, partnerOk := 0,
    accepted := false, listens := false, request := 0 }) (tookFree s)
  sendSet p 1 0 0 t

/-- Give free slots to waiting ports: listening ones first, then in ascending order (R29, R358); `skip` has just given its
slot up. -/
def startPorts (skip : Option Nat) (s : State) : State :=
  let wait := s.fab.ports.filter (fun e => e.2.st = .hold ∧ some e.1 ≠ skip)
  forEach (Tab.keys (wait.filter (·.2.listens)) ++ Tab.keys (wait.filter (fun e => !e.2.listens))) (fun p t =>
    if t.slotFree && t.pins.refFab then startAttempt p t else sendSet p 3 0 0 t) s

/-- FABRIC_ANY and FABRIC_ALL after a change of a port (R24), and the record that shows the change (R370). -/
def fabricBits (s : State) : State :=
  let t := if s.fab.ports.any (fun e => e.2.wasUp) then setReady rFabricAny true s else s
  renew (if t.prov.decided && t.fab.ports.all (fun e => e.2.wasUp || e.2.givenUp) then setReady rFabricAll true t else t)

/-- Event 0x0002 of a port (R364). -/
def portEvent (p mode cause : Nat) (s : State) : State :=
  let a := match (s.port p).partner with
    | none => 0xFFF
    | some a => a
  postEvent evFabric eFabric (p + mode * 2 ^ 5 + cause * 2 ^ 8 + a * 2 ^ 16) s

/-- An attempt of full training fails (R359). -/
def failAttempt (p : Nat) (s : State) : State :=
  let t := updPort p (fun x =>
    let n := min 65535 (x.attempts + 1)
    { x with st := .down, attempt := 0, attempts := n, givenUp := x.givenUp || decide (3 ≤ n), accepted := false }) s
  startPorts none (fabricBits t)

/-! ## Keys (R119, R352) -/

/-- KEY_PROOF, once both shares are known and SEC runs (R102, R352): the AK signature over both shares and both training nonces. -/
def sendProof (p : Nat) (s : State) : State :=
  let x := s.port p
  match x.partnerPub with
  | none => s
  | some pub =>
    if x.ephNo = 0 ∨ x.proofSent ∨ !s.secRuns then s
    else sendLink p 5 (Config.akSign s.sec.ak (Config.ephPub x.ephNo ++ pub ++ toLe 8 x.nonce.toNat ++ toLe 8 x.partnerNonce.toNat))
      (updPort p (fun x => { x with proofSent := true }) s)

/-- Send the fragments of the AK certificate chain and then the part's share, where the part holds an AK (R107, R352). -/
def sendCerts (p : Nat) (s : State) : State :=
  if !s.sec.akReady || !s.isReady rFw || !s.secRuns || (s.port p).st != .up || (s.port p).keyed || (s.port p).ephNo != 0 then s
  else
    let l := chunks 984 16 s.chain
    let t := forEach l.zipIdx (fun e t => sendLink p 3 (toLe 1 e.2 ++ toLe 1 l.length ++ toLe 2 e.1.length ++ e.1) t) s
    let t := updPort p (fun x => { x with ephNo := t.free + 1 }) (tookFree t)
    sendProof p (sendLink p 4 (fit 100 (Config.ephPub (t.port p).ephNo)) t)

/-! ## UP and link-down (R354, R362) -/

/-- A port becomes UP. After link-down of less than 5 ms it resumes with its credits and keys, and resends what is not
acknowledged; otherwise sequence numbers, credits and keys start afresh. -/
def portUp (p : Nat) (s : State) : State :=
  let x := s.port p
  let resume := x.linkDown
  let was := x.oldMode
  let kind := x.attempt
  let y : Port := { x with
    st := .up, attempt := 0, wasUp := true, givenUp := false, request := 0, reqCause := 0, deferred := none, linkDown := false,
    retrains := if kind = 1 then x.retrains else min (2 ^ 32 - 1) (x.retrains + 1) }
  let y := if resume then { y with
      replays := min (2 ^ 32 - 1) (y.replays + y.replay.length), replay := y.replay.map (fun e => (e.1, 1)) }
    else { y with
      seqTx := 0, wrapsTx := 0, seqRx := 0xFFFF#16, ackedTx := 0xFFFF#16, replay := [], used := [], owed := [], partial_ := [], txLeft := [],
      keyed := false, levelBad := false, rejected := false, certs := [], certsDone := false, partnerPub := none, ephNo := 0, proofSent := false, proofIn := none,
      accept := false, doneSeen := false, phaseTx := 0, phaseRx := 0, keyRxOld := none, rekeying := false, framesTx := 0 }
  let t := updPort p (fun _ => y) s
  let t := if kind = 3 then bumpPart cLinkWidthChange t else t
  let t := if resume then forEach y.replay (fun e t => emit (.frame p e.1) t) t else sendCerts p t
  let t := if resume && decide (y.mode < was) then portEvent p y.mode y.cause t else t
  startPorts none (fabricBits (flushPort p t))

/-- The port stops carrying frames for an action: 1 full training, 2 fast retrain, 3 width change (R354, R362). A full training for which
no slot is free waits for one (R29). -/
def leaveTraffic (p action mode : Nat) (lanes : BitVec 8) (cause : Nat) (s : State) : State :=
  let wait := action == 1 && !s.slotFree
  updPort p (fun x => { x with
    linkDown := true, oldMode := if x.linkDown then x.oldMode else x.mode, attempt := if wait then 0 else action, cause := cause,
    st := if wait then .hold else if action = 1 then .training else .retrain,
    stage := if action = 1 then .detect else if action = 2 then .equalize else .deskew,
    mode := if action = 1 then x.mode else mode, lanes := if action = 1 then x.lanes else lanes,
    accepted := action != 1, laneOk := if action = 1 then 0 else x.laneOk }) s

/-- The port leaves its traffic for a full training: TS1 with a fresh nonce, or HOLD while it waits for a slot (R29, R358). -/
def trainAgain (p cause : Nat) (s : State) : State :=
  let t := leaveTraffic p 1 0 0 cause s
  if (t.port p).st = .hold then sendSet p 3 0 0 t
  else sendSet p 1 0 0 (updPort p (fun x => { x with nonce := freeWord 64 t }) (tookFree t))

/-- Request a retrain or width change (R360): LINK_REQ on VC0, REQ ordered sets, and the action. -/
def requestAction (p action mode : Nat) (lanes : BitVec 8) (cause : Nat) (s : State) : State :=
  let t := if (s.port p).st = .up then
      sendLink p 9 [BitVec.ofNat 8 action, BitVec.ofNat 8 mode, BitVec.ofNat 8 cause, 0#8] s else s
  let t := sendSet p 4 action mode t
  let t := updPort p (fun x => { x with request := action }) t
  if action = 1 then trainAgain p cause t else leaveTraffic p action mode lanes cause t

end Sys2Proof.Machine
end

