-- ==== Sys2Proof/Machine/OpsTopo.lean ====
section
/-! DEFINITION. The topology (18): the graph that the link-state records give, addresses, routes and a settle; frames handed back
to routing (R386). -/

namespace Sys2Proof.Machine

/-! ## The graph (R370, R383) -/

/-- A link of the database, seen from one end: the two parts, the port at the first, and the level. -/
structure Link where
  a : BitVec 64
  b : BitVec 64
  port : Nat
  level : Nat
  deriving DecidableEq, Repr

/-- Records in route computation. -/
def State.liveDb (s : State) : List LsRecord := s.fab.db.filter (fun r => !r.aged)

/-- Links that both ends list with matching ports and one level. -/
def linksOf (db : List LsRecord) : List Link :=
  (db.map (fun r => r.ports.filterMap (fun e =>
    match db.find? (fun y => y.id = e.partnerId) with
    | none => none
    | some y =>
      if y.ports.any (fun f => f.port == e.partnerPort && f.partnerPort == e.port && f.partnerId == r.id && f.level == e.level)
      then some { a := r.id, b := y.id, port := e.port, level := e.level } else none))).flatten

/-- Parts reached from a set over links of a level at most, in at most n steps. -/
def spread (links : List Link) (lv : Nat) : Nat → List (BitVec 64) → List (BitVec 64)
  | 0, l => l
  | n + 1, l => spread links lv n ((l ++ (links.filter (fun e => e.level ≤ lv && l.contains e.a)).map (·.b)).dedup)

/-- The component of a part over links of a level at most: 0 its Rod, 1 its Chain, 2 what it is connected to. -/
def component (db : List LsRecord) (lv : Nat) (id : BitVec 64) : List (BitVec 64) := spread (linksOf db) lv db.length [id]

/-- The lowest of a list. -/
def lowestOf (l : List Nat) : Nat :=
  match l with
  | [] => 0
  | a :: r => r.foldl min a

/-- The lowest PART_ID of a list. -/
def lowestId (l : List (BitVec 64)) : Nat := lowestOf (l.map (·.toNat))

/-- The Furlong number of the Chain of a part: the value of the member with the lowest PART_ID (R369). -/
def chainFurlong (db : List LsRecord) (id : BitVec 64) : Nat :=
  let c := component db 1 id
  ((db.find? (fun r => c.contains r.id && r.id.toNat == lowestId c)).map (·.furlong)).getD 0

/-! ## Addresses (R373, R374) -/

/-- The address that R373 derives for a part, none where a rank is 16 or more. -/
def deriveAddr (db : List LsRecord) (id : BitVec 64) : Option Nat :=
  let rod := component db 0 id
  let chain := component db 1 id
  let c := (rod.filter (fun x => x.toNat < id.toNat)).length
  let rods := (chain.map (fun x => lowestId (component db 0 x))).dedup
  let b := (rods.filter (fun x => x < lowestId rod)).length
  let chains := (db.map (fun r => (chainFurlong db r.id, lowestId (component db 1 r.id)))).dedup
  let me := (chainFurlong db id, lowestId chain)
  let a := (chains.filter (fun x => x.1 < me.1 || (x.1 == me.1 && x.2 < me.2))).length
  if 16 ≤ a ∨ 16 ≤ b ∨ 16 ≤ c then none else some (256 * a + 16 * b + c)

/-- The first number below 16 that satisfies a test. -/
def first16 (ok : Nat → Bool) : Option Nat := (List.range 16).find? ok

/-- The address that R374 gives a part without one: the addresses given so far, those held, and the part. -/
def allotTo (db : List LsRecord) (holds : Tab (BitVec 64)) (given : List (BitVec 64 × Nat)) (id : BitVec 64) : Option Nat :=
  let taken := fun (a : Nat) => given.any (fun e => e.2 == a) || Tab.has holds a
  match (holds.find? (fun e => e.2 = id && !given.any (fun g => g.2 == e.1))) with
  | some e => some e.1
  | none =>
    let inRod := given.filter (fun g => (component db 0 id).contains g.1)
    let inChain := given.filter (fun g => (component db 1 id).contains g.1)
    if inRod ≠ [] then
      let ab := lowestOf (inRod.map (·.2)) / 16
      (first16 (fun c => !taken (16 * ab + c))).map (16 * ab + ·)
    else if inChain ≠ [] then
      let a := lowestOf (inChain.map (·.2)) / 256
      (first16 (fun b => (List.range 16).all (fun c => !taken (256 * a + 16 * b + c)))).map (fun b => 256 * a + 16 * b)
    else (first16 (fun a => (List.range 256).all (fun r => !taken (256 * a + r)))).map (256 * ·)

/-- Insert in ascending PART_ID. -/
def insertId (x : BitVec 64) : List (BitVec 64) → List (BitVec 64)
  | [] => [x]
  | y :: r => if x.toNat ≤ y.toNat then x :: y :: r else y :: insertId x r

/-- The addresses of a database: those held, each by its lowest claimant, and those that the others are given. -/
def addresses (db : List LsRecord) (holds : Tab (BitVec 64)) : List (BitVec 64 × Nat) :=
  let ids := (db.map (·.id)).foldr insertId []
  if db.all (fun r => r.addr.isNone) then ids.filterMap (fun i => (deriveAddr db i).map (fun a => (i, a)))
  else
    let kept := db.filterMap (fun r => r.addr.bind (fun a =>
      if db.any (fun y => y.addr == some a && decide (y.id.toNat < r.id.toNat)) then none else some (r.id, a)))
    ids.foldl (fun g i => if g.any (fun e => e.1 = i) then g else
      match allotTo db holds g i with
      | none => g
      | some a => g ++ [(i, a)]) kept

/-! ## Ranks and routes (R383, R384) -/

/-- Distance in hops from a part, for parts within n hops. -/
def distances (links : List Link) : Nat → Nat → List (BitVec 64 × Nat) → List (BitVec 64 × Nat)
  | 0, _, d => d
  | n + 1, k, d =>
    let new := ((links.filter (fun e => d.any (fun x => x.1 = e.a) && !d.any (fun x => x.1 = e.b))).map (·.b)).dedup
    distances links n (k + 1) (d ++ new.map (fun i => (i, k + 1)))

/-- What routing needs of a database: links between addressed parts, addresses, and hops from the root. -/
structure Graph where
  links : List Link
  addrs : List (BitVec 64 × Nat)
  rank : List (BitVec 64 × Nat)
  deriving DecidableEq, Repr

/-- The address of a part. -/
def Graph.addr (g : Graph) (id : BitVec 64) : Option Nat := (g.addrs.find? (fun e => e.1 = id)).map (·.2)

/-- The part at an address. -/
def Graph.part (g : Graph) (a : Nat) : Option (BitVec 64) := (g.addrs.find? (fun e => e.2 == a)).map (·.1)

/-- The rank key of a part. -/
def Graph.key (g : Graph) (id : BitVec 64) : Nat :=
  (((g.rank.find? (fun e => e.1 = id)).map (·.2)).getD 0) * 4096 + (g.addr id).getD 0

/-- A hop goes towards a smaller rank key. -/
def Graph.up (g : Graph) (a b : BitVec 64) : Bool := decide (g.key b < g.key a)

/-- Addressed parts connected to a part. -/
def Graph.reach (g : Graph) (id : BitVec 64) : List (BitVec 64) := spread g.links 2 g.addrs.length [id]

/-- The graph of a database and the addresses, seen from a part. -/
def graphOf (db : List LsRecord) (addrs : List (BitVec 64 × Nat)) (id : BitVec 64) : Graph :=
  let has := fun (i : BitVec 64) => addrs.any (fun e => e.1 = i)
  let links := (linksOf db).filter (fun e => has e.a && has e.b)
  let comp := spread links 2 addrs.length [id]
  let root := (addrs.filter (fun e => comp.contains e.1)).foldl (fun (a : Option (BitVec 64 × Nat)) e =>
    match a with
    | none => some e
    | some x => if e.2 < x.2 then some e else some x) none
  { links := links, addrs := addrs,
    rank := match root with
      | none => []
      | some r => distances links addrs.length 0 [(r.1, 0)] }

/-- A partial route: where it is, its phase (0 lower up, 1 lower down, 2 upper up, 3 upper down), upper hops, and its hops in
reverse. -/
structure Walk where
  node : BitVec 64
  phase : Nat
  upper : Nat
  hops : List (Bool × Nat)
  deriving DecidableEq, Repr

/-- The phase after a hop, none where the shape of R383 ends; the lower VC is kept as long as it can be. -/
def nextPhase (p : Nat) (up : Bool) : Option Nat :=
  match p, up with
  | 0, true => some 0
  | 0, false => some 1
  | 1, false => some 1
  | 1, true => some 2
  | 2, true => some 2
  | 2, false => some 3
  | 3, false => some 3
  | _, _ => none

/-- Ports compared hop by hop. -/
def portsLess : List (Bool × Nat) → List (Bool × Nat) → Bool
  | (_, a) :: r, (_, b) :: q => if a = b then portsLess r q else decide (a < b)
  | _, _ => false

/-- The tie-break of R384. -/
def Walk.better (a b : Walk) : Bool :=
  if a.upper = b.upper then portsLess a.hops.reverse b.hops.reverse else decide (a.upper < b.upper)

/-- Keep the better of two walks to one place. -/
def addWalk (l : List Walk) (w : Walk) : List Walk :=
  match l with
  | [] => [w]
  | v :: r => if v.node = w.node ∧ v.phase = w.phase then (if w.better v then w else v) :: r else v :: addWalk r w

/-- One hop further from each walk. -/
def stepWalks (g : Graph) (l : List Walk) : List Walk :=
  (l.map (fun w => (g.links.filter (fun e => e.a = w.node)).filterMap (fun e =>
    (nextPhase w.phase (g.up e.a e.b)).map (fun p =>
      { node := e.b, phase := p, upper := w.upper + (decide (2 ≤ p)).toNat, hops := (decide (2 ≤ p), e.port) :: w.hops })))).flatten

/-- Walks of rising length from a frontier; each place is kept with the best of its shortest walks. -/
def walks (g : Graph) : Nat → List Walk → List Walk → List Walk
  | 0, _, seen => seen
  | n + 1, front, seen =>
    let new := ((stepWalks g front).filter (fun w => !seen.any (fun v => v.node = w.node && v.phase == w.phase))).foldl addWalk []
    walks g n new (seen ++ new)

/-- The best route of at most n hops among walks to a part. -/
def bestWalk (l : List Walk) (id : BitVec 64) : Option Walk :=
  (l.filter (fun w => w.node = id)).foldl (fun (a : Option Walk) w => match a with
    | none => some w
    | some b => if w.hops.length < b.hops.length ∨ (w.hops.length = b.hops.length ∧ w.better b) then some w else some b) none

/-- The route from a part in a phase to another, in at most n hops. -/
def Graph.route (g : Graph) (id : BitVec 64) (phase n : Nat) (dest : BitVec 64) : Option (List (Bool × Nat)) :=
  (bestWalk (walks g n [⟨id, phase, 0, []⟩] [⟨id, phase, 0, []⟩]) dest).map (fun w => w.hops.reverse)

/-! ## A settle (R16 to R18, R369, R372 to R375, R384) -/

/-- The neighbour on the shortest path to a part, the lower address on a tie: its port. -/
def towards (g : Graph) (me dest : BitVec 64) : Option Nat :=
  let d := distances g.links g.addrs.length 0 [(dest, 0)]
  let dist := fun (i : BitVec 64) => ((d.find? (fun e => e.1 = i)).map (·.2)).getD 5000
  let near := (g.links.filter (fun e => e.a = me && decide (dist e.b + 1 = dist me)))
  (near.foldl (fun (a : Option Link) e => match a with
    | none => some e
    | some x =>
      let u := (g.addr e.b).getD 0
      let v := (g.addr x.b).getD 0
      if u < v ∨ (u = v ∧ e.port < x.port) then some e else some x) none).map (·.port)

/-- The addressed part with the lowest address of a list. -/
def lowestAddr (g : Graph) (l : List (BitVec 64)) : Option (BitVec 64) :=
  ((g.addrs.filter (fun e => l.contains e.1)).foldl (fun (a : Option (BitVec 64 × Nat)) e => match a with
    | none => some e
    | some x => if e.2 < x.2 then some e else some x) none).map (·.1)

/-- Place in the time tree (R15 to R18). -/
def settleTime (db : List LsRecord) (g : Graph) (s : State) : State :=
  let me := Config.partId
  let comp := g.reach me
  let mine := chainFurlong db me
  let master := lowestAddr g (comp.filter (fun i => chainFurlong db i == mine))
  let low := lowestOf (comp.map (chainFurlong db))
  let ref := lowestAddr g (comp.filter (fun i => chainFurlong db i == low))
  let isMaster := master == some me
  let t := { s with ft := { s.ft with
    master := isMaster, parent := if isMaster then none else master.bind (towards g me),
    rootParent := if ref == some me then none else ref.bind (towards g me),
    rootOfs := if ref == some me then 0 else s.ft.rootOfs } }
  if isMaster then
    setReady rFtLock true { t with ft := { t.ft with locked := true, holdover := false, everLocked := true, hops := 0, missed := 0 } }
  else t

/-- One settle: addresses, then routes. -/
def settle (s : State) : State :=
  let db := s.liveDb
  let me := Config.partId
  let addrs := addresses db s.fab.holds
  let mine := (addrs.find? (fun e => e.1 = me)).map (·.2)
  let g := graphOf db addrs me
  let lost := s.fab.valid && mine != some s.fab.addr &&
    db.any (fun r => r.addr == some s.fab.addr && decide (r.id.toNat < me.toNat))
  let f := chainFurlong db me
  let gen := (s.fab.gen + 1) % 1024
  let all := walks g 16 [⟨me, 0, 0, []⟩] [⟨me, 0, 0, []⟩]
  let others := if mine.isNone then [] else (g.reach me).filter (fun i => i ≠ me)
  let routes := others.foldl (fun (t : Tab Route) i =>
    match g.addr i, bestWalk all i with
    | some a, some w => Tab.put t a { hops := w.hops.reverse, gen := gen }
    | _, _ => t) []
  let t := if lost then bumpPart cViolFabAddr s else s
  let t := if mine.isNone then bumpPart cViolFabScale t else t
  let t := if f ≠ s.settings.furlong ∧ (s.fab.furlong = s.settings.furlong ∨ !s.fab.everSettled) then bumpPart cViolProvSetting t else t
  let t := bumpPartBy cFabUnreachable (others.length - routes.length) t
  let t := updFab (fun x => { x with
    addr := mine.getD 0, valid := mine.isSome, settled := true, everSettled := true, parts := routes.length + 1, furlong := f,
    routes := routes, gen := gen,
    holds := addrs.foldl (fun h e => Tab.put h e.2 e.1) x.holds }) t
  if mine.isSome then settleTime db g t else t

/-! ## Frames handed back to routing (R362, R386) -/

/-- The message header that bytes spell (R378). -/
def msgHdr (b : Bytes) : MsgHdr :=
  { dest := rd b 0 2, src := rd b 2 2, cls := rd b 4 1, hop := rd b 5 1, hops := rd b 6 1, rerouted := rd b 7 1 % 2 == 1,
    mseq := rdBV 16 b 8, length := rd b 10 2, tag := rdBV 32 b 12, route := rdBV 96 b 16, mtype := rd b 0x1C 2 }

/-- A header that breaks R378. -/
def hdrBad (b : Bytes) : Bool :=
  let h := msgHdr b
  decide (4096 ≤ h.dest ∨ 4096 ≤ h.src ∨ h.cls = 0 ∨ 3 < h.cls ∨ 16 < h.hop ∨ h.hops = 0 ∨ 16 < h.hops ∨ 1 < rd b 7 1 ∨
    h.length < 32 ∨ 8192 < h.length ∨ rd b 0x1E 2 ≠ 0)

/-- The message of a block whose header is good. -/
def msgOf (b : Bytes) : Msg := { hdr := msgHdr b, body := slice b 32 ((msgHdr b).length - 32) }

/-- Follow hops from a part over the links of the database. -/
def follow (g : Graph) : List (Bool × Nat) → BitVec 64 → Option (BitVec 64 × BitVec 64) → Option (BitVec 64 × BitVec 64)
  | [], _, last => last
  | h :: r, i, _ =>
    match g.links.find? (fun e => e.a = i && e.port == h.2) with
    | none => none
    | some e => follow g r e.b (some (e.a, e.b))

/-- The hops of a message's route. -/
def MsgHdr.hopList (h : MsgHdr) : List (Bool × Nat) := (List.range h.hops).map (routeHop h.route)

/-- The part's graph of the last settle's database. -/
def State.graph (s : State) : Graph :=
  graphOf s.liveDb (addresses s.liveDb s.fab.holds) Config.partId

/-- Route a message again from here (R386): `gone` of its hops have been made. The hops made stay in ROUTE; the new ones follow
them (log 32). -/
def reroute (m : Msg) (gone : Nat) (s : State) : State :=
  let g := s.graph
  let made := m.hdr.hopList.take gone
  let me := Config.partId
  match g.part m.hdr.dest with
  | none => bumpPart cFabNoDest s
  | some d =>
    let last := (g.part m.hdr.src).bind (fun i => follow g made i none)
    let down := match made, last with
      | [], _ => false
      | _, none => true
      | _, some (a, b) => !g.up a b
    let upper := match made.getLast? with
      | none => false
      | some h => h.1
    match g.route me (2 * upper.toNat + down.toNat) (16 - gone) d with
    | none => bumpPart cFabUnreachable s
    | some new =>
      let hops := made ++ new
      sendHop { m with hdr := { m.hdr with
        rerouted := true, hop := gone, hops := hops.length, route := BitVec.ofNat 96 (routeBits hops) } } s

/-- Cut the frames that wait on a VC into messages; frames of a message whose head has gone are left out. -/
def messagesIn : Nat → List Bytes → List Msg
  | 0, _ => []
  | _, [] => []
  | n + 1, b :: r =>
    let k := (rd b 10 2 + 991) / 992
    msgOf (b :: r.take (k - 1)).flatten :: messagesIn n (r.drop (k - 1))

/-- Hand what waits on VC1 to VC6 of a port back to routing; link messages and records are dropped. -/
def handBack (p : Nat) (s : State) : State :=
  let x := s.port p
  let ms := ((List.range 6).map (fun k =>
    let q := Tab.get [] x.queues (k + 1)
    messagesIn q.length (q.drop (Tab.get 0 x.txLeft (k + 1))))).flatten
  forEach ms (fun m t => reroute m (m.hdr.hop - 1) t) (updPort p (fun x => { x with queues := [], txLeft := [] }) s)

end Sys2Proof.Machine
end

