-- ==== Sys2Proof/Machine/Bringup.lean ====
section
/-! DEFINITION. The commands of bring-up, resets, fabric time and brownout (01; 19 R393; 21 R441, R446, R447). -/

namespace Sys2Proof.Machine

/-! ## Resets and bring-up -/

/-- PERST# is deasserted (R15, R22, R447, R452): straps are sampled, fabric time counts from 0, and pins that a test
instruction held return with IDCODE loaded. -/
def execPerstDeassert (addrSel : BitVec 2) (s : State) : Host.Outcome State Fault Refusal :=
  if !s.pins.perst then done s s
  else done s { s with
    pins := { s.pins with perst := false, addrSel := addrSel }, ft := {},
    side := if s.side.pins then { s.side with pins := false, ir := .idcode } else s.side }

/-- PERST# is asserted (R447): the whole part is reset. -/
def execPerstAssert (s : State) : Host.Outcome State Fault Refusal :=
  if s.pins.perst then done s s
  else
    let t := wholeReset s
    done s { t with pins := { t.pins with perst := true } }

/-- Hot reset or link-down (R54): the whole part as at power-up; PERST# stays deasserted and bring-up begins again. -/
def execHostLinkDown (s : State) : Host.Outcome State Fault Refusal :=
  if s.pins.perst then done s s else done s (wholeReset s)

/-- VDD_AUX is lost (R441, R434): AON is reset, THERMTRIP# is released, and nothing of the part keeps running (log 30). -/
def execVddAuxLoss (s : State) : Host.Outcome State Fault Refusal :=
  let t := wholeReset s
  done s { t with pins := { ({} : Pins) with refSys := s.pins.refSys, refFab := s.pins.refFab }, power := {}, side := {} }

/-- PMC's ROM regulates VDD_CORE at OP0 with its protection armed (R22). -/
def execAonReady (s : State) : Host.Outcome State Fault Refusal := live s (setReady rAon true s)

/-- FT_STATUS.RUNNING becomes 1 (R20). -/
def execFtRunning (s : State) : Host.Outcome State Fault Refusal :=
  live s { s with ft := { s.ft with running := true } }

/-- SEC's ROM is up (R27, R107): its own integrity check has passed, the identity area has been checked and the IDK derived; the I3C
target acknowledges and the boot channel is open. -/
def execSecRomReady (s : State) : Host.Outcome State Fault Refusal :=
  live s (setReady rSecRom true { s with
    side := { s.side with up := true },
    sec := { s.sec with identityOk := Config.identityValid s.fuses.deviceSeed s.nor.identity } })

/-- The record, the settings and the allotment take effect (R50, R125, R129, R346, R368, R369). -/
def installRecord (y : Nat) (s : State) : State :=
  let b := s.slot y
  let r := recordFields b
  let (x, bad) := applyItems ((recordItems b).getD []) {}
  let t := bumpPartBy cViolProvSetting bad { s with
    prov := { s.prov with decided := true, record := some r, slot := y }, settings := x,
    link := { s.link with winUnits := r.cxlWindow },
    fab := { s.fab with ports := allotment r.split x.fabricPorts, furlong := x.furlong } }
  setReady rProv true (linkChange (fun l => { l with cxlMem := decide (2 ≤ l.rate.toNat) && !l.cxlOff && decide (0 < l.winUnits) }) t)

/-- SEC's ROM has finished with the provisioning record (R23, R129, R130, R450). A poll that has timed out leaves the NOR busy until the
next reset, so that PROV_STAGE answers E_BUSY for this boot (DESIGN CHOICE, log 28). -/
def execProvReadDone (quad : Bool) (pollTimedOut : Bool) (s : State) : Host.Outcome State Fault Refusal :=
  if s.prov.decided then done s s
  else
    let s1 := { s with nor := { s.nor with quad := quad, busy := pollTimedOut } }
    let s2 := if quad then s1 else bumpPart cSpiSlow s1
    let none_ := fun (t : State) => { t with prov := { t.prov with decided := true, record := none, slot := 0xFF } }
    let t := if pollTimedOut then none_ s2
      else
        let (y, u) := chooseRecord s2
        if y = 0xFF then none_ u else installRecord y u
    live s (startPorts none (fabricBits t))

/-- Training of a stack ends (R201 to R203, R205). -/
def execHbmTrainingDone (h : StackId) (okAtRate : Bool) (okAtBase : Bool) (s : State) : Host.Outcome State Fault Refusal :=
  let x := Tab.get {} s.hbm h.val
  if !s.prov.decided || s.settings.hbmMask.getLsbD h.val || x.usable || x.failed then done s s
  else
    let rate := s.settings.hbmRate
    let t := if !okAtRate && rate != 0 then bumpPart cHbmRateFallback s else s
    let ok := okAtRate || (rate != 0 && okAtBase)
    if ok then
      let t := { t with hbm := Tab.put t.hbm h.val { x with usable := true, rate := if okAtRate then rate else 0 } }
      let t := if t.store.schUnits = 0 then
          let l := (List.range 6).filter (fun k => (Tab.get {} t.hbm k).usable)
          { t with store := { t.store with order := l, nStacks := l.length } }
        else t
      live s (setReady (rHbm h.val) true t)
    else
      let t := pldmEvent evHbm h.val { t with hbm := Tab.put t.hbm h.val { x with failed := true } }
      live s (if t.schRuns then postEvent evHbm stOk h.val t
              else { t with boot := { t.boot with lateHbm := t.boot.lateHbm ++ [h.val] } })

/-- The Basalt self-test and repair are over (R198). -/
def execBasaltSelftestDone (ok : Bool) (s : State) : Host.Outcome State Fault Refusal :=
  live s (if ok then setReady rBasalt true s else pldmEvent rBasalt 0 s)

/-- Configuration space is ready (R22, R23, R26). -/
def execCfgReady (s : State) : Host.Outcome State Fault Refusal :=
  if s.prov.decided then live s (setReady rCfg true s) else done s s

/-! ## Access to BAR0 and BAR4 (R40, R55) -/

/-- A read of FT_NOW (R20); a read of the high half with nothing latched returns the live half. -/
def execFtNowRead (f : Fn) (part : ReadPart) (s : State) : Host.Outcome State Fault Refusal :=
  live s (barAccess f.val (fun s =>
    let now := s.ftNow
    match part with
    | .full => emit (.read f.val now) s
    | .low => emit (.read f.val (BitVec.ofNat 64 (now.toNat % 2 ^ 32)))
        (updFn f.val (fun x => { x with ftLatch := some (BitVec.ofNat 32 (now.toNat / 2 ^ 32)) }) s)
    | .high =>
      let v := match (s.fn f.val).ftLatch with
        | some h => h
        | none => BitVec.ofNat 32 (now.toNat / 2 ^ 32)
      emit (.read f.val (v.zeroExtend 64)) (updFn f.val (fun x => { x with ftLatch := none }) s)) s)

/-! ## Sync beats (R15 to R19, R352) -/

/-- Units of 1/1024 ns in 10 µs. -/
abbrev tenUs : Int := 10240000

/-- The nominal rate word, and the widest change of ±500 ppm (R15). -/
abbrev rateNominal : Nat := 0x06666666
abbrev rateSpan : Nat := 53687

/-- The part's view of its master's epoch. -/
def State.epochView (s : State) : BitVec 16 := if s.ft.master then s.ft.epoch else s.ft.masterEpoch

/-- An epoch is older than another, modulo 2^16. -/
def epochOlder (a b : BitVec 16) : Bool := decide (0 < (b - a).toInt)

/-- Change fabric time. -/
def updFt (g : FabricTime → FabricTime) (s : State) : State := { s with ft := g s.ft }

/-- A neighbour over a port belongs to another Furlong, by its record (R369). -/
def State.foreign (s : State) (p : Nat) : Bool :=
  (s.recordOf (s.port p).partnerId).any (fun r => chainFurlong s.liveDb r.id != chainFurlong s.liveDb Config.partId)

/-- A beat on a port carries an epoch older than the part's view of the master that the epoch belongs to: its own Furlong's, or for a
neighbour in another Furlong the one that this neighbour's last beat carried (R17, R19; log 55). -/
def State.staleBeat (s : State) (p : Nat) (epoch : BitVec 16) : Bool :=
  if s.foreign p then (Tab.find s.ft.peerEpoch p).any (epochOlder epoch) else epochOlder epoch s.epochView

/-- A beat of a neighbour in another Furlong has been taken. -/
def notePeer (p : Nat) (epoch : BitVec 16) (s : State) : State :=
  if s.foreign p then updFt (fun x => { x with peerEpoch := Tab.put x.peerEpoch p epoch }) s else s

/-- ±1 ns in units (R16). -/
abbrev oneNs : Int := 1024

/-- The span of rate words that following an offset allows (R15, R16): all within ±500 ppm of nominal while the offset is within 1 ns;
else no slower than now where the parent is ahead, and no faster where it is behind. -/
def rateRange (off : Int) (rate : Nat) : Nat × Nat :=
  let lo := rateNominal - rateSpan
  let hi := rateNominal + rateSpan
  let r := max lo (min hi rate)
  if oneNs < off then (r, hi) else if off < -oneNs then (lo, r) else (lo, hi)

/-- FT_RATE is steered by an offset: a free value of the span (R15, R16; logs 5 and 55). -/
def steer (off : Int) (s : State) : State :=
  let r := rateRange off s.ft.rate.toNat
  tookFree (updFt (fun x => { x with rate := BitVec.ofNat 32 (r.1 + freeNumber s % (r.2 - r.1 + 1)) }) s)

/-- Step the counter by an offset in units (R18). -/
def stepTime (off : Int) (s : State) : State :=
  bumpPart cFtStep (updFt (fun x => { x with
    count := x.count + BitVec.ofInt 80 (off * 65536), epoch := x.epoch + 1 }) s)

/-- Set LOCKED and its mirror in READY_MAP (R24). -/
def setLocked (v : Bool) (s : State) : State := setReady rFtLock v (updFt (fun x => { x with locked := v }) s)

/-- SYNC_REQ to one parent. On a port that is not UP nothing can be sent and the beat will be missed (R18). -/
def sendBeat (p : Nat) (s : State) : State :=
  let q := s.ft.seq + 1
  let t := updFt (fun x => { x with seq := q, waiting := Tab.put x.waiting p (q, s.ftNow) }) s
  if (s.port p).st ≠ .up then t
  else sendLink p 1 (toLe 2 s.epochView.toNat ++ toLe 2 q.toNat ++ toLe 8 s.ftNow.toNat ++ toLe 8 (Tab.get 0#64 s.ft.t4 p).toNat) t

/-- The 1 ms beat (R17): to the time-tree parent and, when it is another neighbour, to the root parent. -/
def execSyncBeatDue (s : State) : Host.Outcome State Fault Refusal :=
  if !s.fab.everSettled then done s s
  else live s (forEach ((s.ft.parent.toList ++ s.ft.rootParent.toList).dedup) sendBeat s)

/-- A parent answers SYNC_REQ (R19, R352); before its first settle a part sends no beat (R18). -/
def rxSyncReq (p : Nat) (epoch seq : BitVec 16) (s : State) : State :=
  if (s.port p).st ≠ .up then s
  else if s.staleBeat p epoch then bumpPart cViolFtStale s
  else if !s.fab.everSettled then s
  else
    let s := notePeer p epoch s
    let flags := s.ft.locked.toNat + 2 * s.ft.holdover.toNat + 4 * s.ft.master.toNat
    let m := if s.ft.master then s.fab.addr else s.ft.masterAddr.toNat
    sendLink p 2 (toLe 2 s.epochView.toNat ++ toLe 2 seq.toNat ++ toLe 2 m ++ toLe 1 s.ft.hops.toNat ++
      toLe 1 flags ++ toLe 8 s.ftNow.toNat ++ toLe 8 s.ftNow.toNat ++ toLe 8 s.ft.rootOfs.toNat) s

/-- SYNC_REQ (R19, R352); T1 and T4_PREV serve the receiver alone to check the link, and change nothing here. -/
def execSyncReq (p : PortId) (epoch : BitVec 16) (seq : BitVec 16) (_t1 : BitVec 64) (_t4prev : BitVec 64) (s : State) :
    Host.Outcome State Fault Refusal := live s (rxSyncReq p.val epoch seq s)

/-- What a beat with the time-tree parent does (R18), given the parent's offset and whether it is locked. A part that is LOCKED is
only steered, a former time master with a new parent too; after holdover the first beat clears HOLDOVER, and LOCKED returns at
the step, or at the first beat within 1 ns, which is what LOCKED says (R20; DESIGN CHOICE, log 55). -/
def followParent (off : Int) (parentLocked : Bool) (s : State) : State :=
  let within := fun (d : Int) => decide (-d ≤ off) && decide (off ≤ d)
  let t := updFt (fun x => { x with missed := 0 }) s
  if !s.ft.everLocked then
    if parentLocked then setLocked true (updFt (fun x => { x with everLocked := true }) (stepTime off t)) else t
  else if s.ft.locked then steer off t
  else
    let t := updFt (fun x => { x with holdover := false }) t
    if within oneNs then setLocked true (updFt (fun x => { x with slewing := false }) (steer off t))
    else if within tenUs then updFt (fun x => { x with slewing := true }) (steer off t)
    else setLocked true (updFt (fun x => { x with slewing := false }) (stepTime off t))

/-- What a beat with the root parent does (R17): ROOT_OFS, which a Furlong's time master keeps at 0. -/
def followRoot (ofs : Int) (s : State) : State :=
  let t := updFt (fun x => { x with rootOfs := BitVec.ofInt 64 ofs }) s
  if !s.ft.master then t
  else if ofs < -tenUs ∨ tenUs < ofs then updFt (fun x => { x with rootOfs := 0 }) (stepTime ofs t)
  else steer ofs t

/-- The link delay of a beat (01, time tree): half the round trip, corrected by the skew that training has measured. -/
def State.beatDelay (s : State) (p : Nat) (t1 t2 t3 : BitVec 64) : Int :=
  ((s.ftNow - t1).toInt - (t3 - t2).toInt) / 2 - Config.skewOf (s.port p).pathDelay

/-- SYNC_RESP (R15, R17 to R19, R352): a stale one is counted whether or not a request waits for it. -/
def rxSyncResp (p : Nat) (epoch seq master : BitVec 16) (hops flags : BitVec 8) (t2 t3 rootOfs : BitVec 64) (s : State) : State :=
  if s.staleBeat p epoch then bumpPart cViolFtStale s
  else match Tab.find s.ft.waiting p with
  | none => s
  | some w =>
    if w.1 ≠ seq then s
    else
      let now := s.ftNow
      let delay := s.beatDelay p w.2 t2 t3
      let off := (t2 - w.2).toInt - delay
      let t := updFt (fun x => { x with
        waiting := Tab.erase x.waiting p, t4 := Tab.put x.t4 p now, delay := Tab.put x.delay p delay }) (notePeer p epoch s)
      let t := if s.ft.parent = some p then
          followParent off (flags.getLsbD 0) (updFt (fun x => { x with
            masterEpoch := epoch, masterAddr := BitVec.ofNat 12 master.toNat, hops := BitVec.ofNat 4 (hops.toNat + 1) }) t)
        else t
      if s.ft.rootParent = some p then followRoot (rootOfs.toInt + off) t else t

/-- SYNC_RESP (R15, R17 to R19, R352). -/
def execSyncResp (p : PortId) (epoch : BitVec 16) (seq : BitVec 16) (master : BitVec 16) (hops : BitVec 8) (flags : BitVec 8)
    (t2 : BitVec 64) (t3 : BitVec 64) (rootOfs : BitVec 64) (s : State) : Host.Outcome State Fault Refusal :=
  live s (rxSyncResp p.val epoch seq master hops flags t2 t3 rootOfs s)

/-- No SYNC_RESP within 100 µs (R18, R352): after 8 in a row from the parent, holdover. -/
def execSyncBeatMissed (p : PortId) (s : State) : Host.Outcome State Fault Refusal :=
  if !Tab.has s.ft.waiting p.val then done s s
  else
    let t := updFt (fun x => { x with waiting := Tab.erase x.waiting p.val }) s
    if s.ft.parent ≠ some p.val then live s t
    else
      let t := updFt (fun x => { x with missed := x.missed + 1 }) t
      live s (if 8 ≤ t.ft.missed ∧ t.ft.locked then setLocked false (updFt (fun x => { x with holdover := true }) t) else t)

/-! ## Brownout (R30 to R33, R410) -/

/-- Change the brownout state. -/
def updBrown (g : Brown → Brown) (s : State) : State := { s with brown := g s.brown }

/-- VDD_CORE falls more than 6 % below its setpoint, the depth in 0.25 % (R30, R33). -/
def execVddCoreDip (depth : Nat) (s : State) : Host.Outcome State Fault Refusal :=
  live s (updBrown (fun b => { b with
    dip := true, recovered := false, depth := if b.dip then max b.depth depth else depth }) s)

/-- The dip has held for 200 ns (R30, R31, R408): BROWN# is asserted and compute is gated to OP0 beneath the point in force;
an upward change is abandoned. -/
def execBrownoutWarning (depth : Nat) (s : State) : Host.Outcome State Fault Refusal :=
  if !s.brown.dip || s.brown.warned || s.brown.reset then done s s
  else
    let t := updBrown (fun b => { b with
      warned := true, asserted := true, since := if b.asserted then b.since else s.time, depth := max b.depth depth }) s
    let up := match s.power.change with
      | none => false
      | some c => decide (c.src < c.dst)
    let t := if up then updPower (fun p => { p with held := true }) (abandonUp t) else t
    live s (alert 0 (bumpPart cBrownWarn t))

/-- A brownout reset of the islands with its own bookkeeping (R32, R393). -/
def brownReset (depth : Nat) (s : State) : State :=
  let t := updBrown (fun b => { b with
    dip := true, recovered := false, reset := true, asserted := true, since := if b.asserted then b.since else s.time,
    depth := if b.dip then max b.depth depth else depth, awaited := (s.clustersUp ++ b.awaited).dedup,
    faulted := false, fwWas0 := !s.isReady rFw }) s
  islandReset (alert 0 (bumpPart cBrownReset t))

/-- The dip has held 12 % low for 50 ns (R30, R32). -/
def execBrownoutReset (depth : Nat) (s : State) : Host.Outcome State Fault Refusal :=
  if !s.brown.dip || s.brown.reset then done s s else live s (brownReset depth s)

/-- KIND of a dip's event (R33). -/
def BrownDue.kind (d : BrownDue) : Nat := if !d.reset then 0 else if d.fw0 then 3 else if d.faulted then 2 else 1

/-- Event 0x0004 of a dip, BROWN# having been asserted for so many ticks: posted or, while SCH is not running, kept, at most 16
(R33). -/
def brownEvent (ticks : Nat) (d : BrownDue) (s : State) : State :=
  let ev : BrownEvent := { kind := d.kind, depth := min 255 d.depth, dur := min 65535 (ticks / ticksUs) }
  if s.schRuns then postEvent evBrown stOk (ev.kind + ev.depth * 2 ^ 8 + ev.dur * 2 ^ 16) s
  else if s.brown.kept.length < 16 then updBrown (fun b => { b with kept := b.kept ++ [ev] }) s
  else s

/-- BROWN# is released, and the event of each dip since its assertion is posted (R32, R33). -/
def brownRelease (s : State) : State :=
  forEach s.brown.due (brownEvent (s.time - s.brown.since)) (updBrown (fun b => { b with asserted := false, due := [] }) s)

/-- BROWN# is released once the rail has recovered and no cluster is awaited (R30, R32). -/
def brownCheck (s : State) : State :=
  if s.brown.asserted && s.brown.recovered && s.brown.awaited.isEmpty then brownRelease s else s

/-- The dip in progress is over; its event waits for the release of BROWN# (R33). -/
def dipOver (s : State) : State :=
  updBrown (fun b => { b with
    dip := false, recovered := true, warned := false, reset := false, faulted := false, fwWas0 := false, depth := 0,
    due := b.due ++ [{ reset := b.reset, fw0 := b.fwWas0, faulted := b.faulted, depth := b.depth }] }) s

/-- VDD_CORE has stayed within 4 % for 50 µs (R30 to R32): the dip ends; a dip that met neither condition was a short one. -/
def execBrownoutRecovery (s : State) : Host.Outcome State Fault Refusal :=
  let b := s.brown
  if !b.dip || !s.pins.coreEn then done s s
  else
    let t := if b.reset || b.warned then brownCheck (dipOver s)
      else bumpPart cBrownShort (updBrown (fun b => { b with dip := false, recovered := true, depth := 0 }) s)
    live s (if t.brown.asserted then t else setPoint t.power.op (updPower (fun p => { p with held := false }) t))

/-- CORE_EN is deasserted (R393): VDD_CORE ramps down; with PERST# deasserted the loss is handled as a brownout reset. -/
def execCoreEnDeassert (s : State) : Host.Outcome State Fault Refusal :=
  if !s.pins.coreEn then done s s
  else
    let t := updPower (fun p => { p with target := 0, slow := true, change := none }) { s with pins := { s.pins with coreEn := false } }
    done s (if s.pins.perst || s.pins.clocksStopped then t else brownReset 255 t)

end Sys2Proof.Machine
end

