-- ==== Sys2Proof/Machine/Fp.lean ====
section
/-! DEFINITION. The number formats of R141: values as exact dyadic numbers, decoding, rounding to nearest even and encoding
(06 R141 to R149). -/

namespace Sys2Proof.Machine

/-- A value: NaN, an infinity, or ± m × 2^e. -/
inductive Num where
  | nan
  | inf (neg : Bool)
  | fin (neg : Bool) (m : Nat) (e : Int)
  deriving DecidableEq, Repr

/-- The layout of a binary float format: exponent and fraction bits, the code of its largest finite magnitude, and whether the
codes above it are an infinity and NaNs. -/
structure FloatFmt where
  eb : Nat
  mb : Nat
  maxCode : Nat
  hasInf : Bool
  hasNan : Bool
  deriving DecidableEq, Repr

/-- The float formats of R141. -/
def f32 : FloatFmt := ⟨8, 23, 0x7F7FFFFF, true, true⟩
def fB16 : FloatFmt := ⟨8, 7, 0x7F7F, true, true⟩
def fF16 : FloatFmt := ⟨5, 10, 0x7BFF, true, true⟩
def fE4m3 : FloatFmt := ⟨4, 3, 0x7E, false, true⟩
def fE5m2 : FloatFmt := ⟨5, 2, 0x7B, true, true⟩
def fE3m2 : FloatFmt := ⟨3, 2, 0x1F, false, false⟩
def fE2m1 : FloatFmt := ⟨2, 1, 0x07, false, false⟩

/-- Bias of the exponent. -/
def FloatFmt.bias (f : FloatFmt) : Int := (2 ^ (f.eb - 1) : Nat) - 1

/-- The value of a code. -/
def FloatFmt.value (f : FloatFmt) (c : Nat) : Num :=
  let neg := c / 2 ^ (f.eb + f.mb) % 2 == 1
  let a := c % 2 ^ (f.eb + f.mb)
  if f.maxCode < a then (if f.hasInf && a == f.maxCode + 1 then .inf neg else .nan)
  else
    let x := a / 2 ^ f.mb
    let m := a % 2 ^ f.mb
    if x = 0 then .fin neg m (1 - f.bias - f.mb) else .fin neg (2 ^ f.mb + m) ((x : Int) - f.bias - f.mb)

/-- m × 2^e as a multiple of 2^q, rounded to nearest even. -/
def roundTo (m : Nat) (e q : Int) : Nat :=
  if q ≤ e then m * 2 ^ (e - q).toNat
  else
    let k := (q - e).toNat
    let d := m / 2 ^ k
    let r := m % 2 ^ k
    let half := 2 ^ (k - 1)
    if r < half then d else if half < r then d + 1 else if d % 2 = 1 then d + 1 else d

/-- The code of m × 2^e rounded to nearest even, without regard to the largest finite magnitude. -/
def FloatFmt.round (f : FloatFmt) (m : Nat) (e : Int) : Nat :=
  if m = 0 then 0
  else
    let q := max ((Nat.log2 m : Int) + e - f.mb) (1 - f.bias - f.mb)
    let r := roundTo m e q
    if r < 2 ^ f.mb then r
    else
      let up := Nat.log2 r - f.mb
      (q + up + f.mb + f.bias).toNat * 2 ^ f.mb + (r / 2 ^ up - 2 ^ f.mb)

/-- The sign bit of a code. -/
def FloatFmt.sign (f : FloatFmt) (neg : Bool) : Nat := if neg then 2 ^ (f.eb + f.mb) else 0

/-- The code of the canonical NaN, of an infinity, and of what an overflow gives under SAT (R146, R147): a format without
infinity saturates. -/
def FloatFmt.nan (f : FloatFmt) : Nat := if f.hasInf then f.maxCode + 1 + 2 ^ (f.mb - 1) else f.maxCode + 1
def FloatFmt.over (f : FloatFmt) (sat : Bool) : Nat := if sat || !f.hasInf then f.maxCode else f.maxCode + 1

/-- Encode a value: the code, and whether a finite value overflowed. -/
def FloatFmt.encode (f : FloatFmt) (sat : Bool) (v : Num) : Nat × Bool :=
  match v with
  | .nan => (f.nan, false)
  | .inf n => (f.sign n + (if f.hasInf then f.maxCode + 1 else f.maxCode), false)
  | .fin n m e =>
    let c := f.round m e
    if f.maxCode < c then (f.sign n + f.over sat, true) else (f.sign n + c, false)

/-- Encode a value saturated to the largest finite magnitude, infinities with it (R147); a NaN keeps its code. -/
def FloatFmt.saturate (f : FloatFmt) (v : Num) : Nat :=
  match v with
  | .inf n => f.sign n + f.maxCode
  | _ => (f.encode true v).1

/-! ## Exact arithmetic -/

/-- The product. -/
def Num.mul : Num → Num → Num
  | .fin s m e, .fin t n f => .fin (xor s t) (m * n) (e + f)
  | .inf s, .inf t => .inf (xor s t)
  | .inf s, .fin t n _ => if n = 0 then .nan else .inf (xor s t)
  | .fin s m _, .inf t => if m = 0 then .nan else .inf (xor s t)
  | _, _ => .nan

/-- Times 2^k. -/
def Num.scale (k : Int) : Num → Num
  | .fin s m e => .fin s m (e + k)
  | v => v

/-- Negated. -/
def Num.neg : Num → Num
  | .fin s m e => .fin (!s) m e
  | .inf s => .inf (!s)
  | .nan => .nan

def Num.isNan (v : Num) : Bool := v == .nan
def Num.isInf : Num → Bool
  | .inf _ => true
  | _ => false
def Num.isZero : Num → Bool
  | .fin _ m _ => m == 0
  | _ => false

/-- A finite value as a multiple of 2^q, for q at most its exponent. -/
def Num.at (q : Int) : Num → Int
  | .fin s m e => let v : Int := ((m * 2 ^ (e - q).toNat : Nat) : Int); if s then -v else v
  | _ => 0

/-- The lowest exponent of the finite values of a list. -/
def lowExp (l : List Num) : Int :=
  l.foldl (fun a v => match v with | .fin _ _ e => min a e | _ => a) 0

/-- The exact sum of the finite values of a list; an exact zero is +0. -/
def finSum (l : List Num) : Num :=
  let q := lowExp l
  let t : Int := (l.map (Num.at q)).sum
  .fin (decide (t < 0)) t.natAbs q

/-- The exact sum (R144, R146): NaN with a NaN or with both infinities. -/
def exactSum (l : List Num) : Num :=
  if l.any Num.isNan then .nan
  else if l.contains (.inf false) then (if l.contains (.inf true) then .nan else .inf false)
  else if l.contains (.inf true) then .inf true
  else finSum l

/-- The IEEE sum of two values: an exact zero is +0 but for two negative zeros. -/
def Num.add (a b : Num) : Num :=
  match a, b with
  | .fin true 0 e, .fin true 0 _ => .fin true 0 e
  | _, _ => exactSum [a, b]

/-- a < b, false with a NaN. -/
def Num.lt (a b : Num) : Bool :=
  match a, b with
  | .nan, _ => false
  | _, .nan => false
  | .inf s, .inf t => s && !t
  | .inf s, _ => s
  | _, .inf t => !t
  | a, b => decide (Num.at (lowExp [a, b]) a < Num.at (lowExp [a, b]) b)

/-- a = b, false with a NaN. -/
def Num.eq (a b : Num) : Bool := !a.isNan && !b.isNan && !a.lt b && !b.lt a

/-! ## Elements of the formats (R141, R165) -/

/-- The code of a format (R165). -/
def Fmt.code : Fmt → Nat
  | .int8 => 0 | .int4 => 1 | .mxint8 => 2 | .e4m3 => 3 | .e5m2 => 4 | .e3m2 => 5 | .e2m1 => 6 | .bf16 => 7 | .fp16 => 8
  | .fp32 => 9 | .int32 => 10

/-- The format of a code, none for 0xB to 0xF. -/
def Fmt.ofCode (c : Nat) : Option Fmt :=
  [Fmt.int8, .int4, .mxint8, .e4m3, .e5m2, .e3m2, .e2m1, .bf16, .fp16, .fp32, .int32][c]?

/-- Bits of an element. -/
def Fmt.bits : Fmt → Nat
  | .int4 | .e2m1 => 4
  | .e3m2 => 6
  | .bf16 | .fp16 => 16
  | .fp32 | .int32 => 32
  | _ => 8

/-- An MX format, with a scale per block of 32. -/
def Fmt.isMx : Fmt → Bool
  | .mxint8 | .e4m3 | .e5m2 | .e3m2 | .e2m1 => true
  | _ => false

/-- An integer format. -/
def Fmt.isInt : Fmt → Bool
  | .int8 | .int4 | .int32 => true
  | _ => false

/-- The float layout, none for integers and MXINT8. -/
def Fmt.float : Fmt → Option FloatFmt
  | .e4m3 => some fE4m3 | .e5m2 => some fE5m2 | .e3m2 => some fE3m2 | .e2m1 => some fE2m1
  | .bf16 => some fB16 | .fp16 => some fF16 | .fp32 => some f32
  | _ => none

/-- The number of an integer. -/
def ofInt (i : Int) (e : Int) : Num := .fin (decide (i < 0)) i.natAbs e

/-- The value of an element's bits, without its block scale. -/
def Fmt.value (f : Fmt) (c : Nat) : Num :=
  match f.float with
  | some x => x.value c
  | none => if f = .mxint8 then ofInt (sgn 8 c) (-6) else ofInt (sgn f.bits c) 0

/-- emax of R147. -/
def Fmt.emax : Fmt → Int
  | .e4m3 => 8 | .e5m2 => 15 | .e3m2 => 4 | .e2m1 => 2
  | _ => 0

/-- Element i of a packed row (low bits first). -/
def Fmt.elem (f : Fmt) (row : Nat) (i : Nat) : Nat := row / 2 ^ (f.bits * i) % 2 ^ f.bits

/-- A packed row of element codes. -/
def Fmt.pack (f : Fmt) (l : List Nat) : Nat := l.foldr (fun c a => c % 2 ^ f.bits + 2 ^ f.bits * a) 0

/-- Whole units of a row of 64 elements (R166, R169). -/
def Fmt.rowUnits (f : Fmt) : Nat := (f.bits * 64 + 511) / 512

/-- The scale factor of an E8M0 byte, none for NaN (R141). -/
def e8m0 (b : Nat) : Option Int := if b = 255 then none else some ((b : Int) - 127)

/-- A value with its block scale. -/
def scaled (v : Num) (scale : Nat) : Num :=
  match e8m0 scale with
  | none => .nan
  | some k => v.scale k

/-- ⌊log₂ |v|⌋ of a value that is neither 0 nor NaN; an infinity counts as more than any exponent. -/
def Num.top : Num → Int
  | .fin _ m e => (Nat.log2 m : Int) + e
  | _ => 1000

/-- A block of 32 values in an MX format (R147): the scale byte and the codes. Codes beside a NaN scale are not stated: they
are free (log 35). -/
def mxBlock (f : Fmt) (l : List Num) : Nat × List Nat :=
  if l.any Num.isNan then (255, (List.range l.length).map (fun i =>
      Config.mxNan f.code (l.map (fun v => (f32.encode false v).1)) i % 2 ^ f.bits))
  else
    let nz := l.filter (fun v => !v.isZero)
    let x : Int := match nz with
      | [] => -127
      | _ => clampI (-127) 127 ((nz.map Num.top).foldl max (-1000) - f.emax)
    ((x + 127).toNat, l.map (fun v =>
      match f.float with
      | some g => g.saturate (v.scale (-x))
      | none =>
        match v.scale (-x) with
        | .fin s m e => let r : Int := ((roundTo m e (-6) : Nat) : Int); unsgn 8 (clampI (-127) 127 (if s then -r else r))
        | .inf s => unsgn 8 (if s then -127 else 127)
        | .nan => 0))

/-- An INT32 value shifted right by n, rounded to nearest even and saturated (R147). -/
def intShift (f : Fmt) (n : Nat) (v : Int) : Nat :=
  let r : Int := ((roundTo v.natAbs 0 n : Nat) : Int)
  unsgn f.bits (clampI (-(2 ^ (f.bits - 1) : Nat)) ((2 ^ (f.bits - 1) : Nat) - 1) (if v < 0 then -r else r))

/-- FP32 operations on codes: the code of the result and whether it overflowed. -/
def num32 (c : BitVec 32) : Num := f32.value c.toNat
def code32 (sat : Bool) (v : Num) : BitVec 32 × Bool := let r := f32.encode sat v; (BitVec.ofNat 32 r.1, r.2)
def add32 (a b : BitVec 32) : BitVec 32 := (code32 false ((num32 a).add (num32 b))).1
def mul32 (a b : BitVec 32) : BitVec 32 := (code32 false ((num32 a).mul (num32 b))).1

end Sys2Proof.Machine
end

