-- ==== Sys2Proof/Machine/TileDecode.lean ====
section
/-! DEFINITION. The 64-bit instruction words of tile programs (07 R164 to R172, R177): decoding, total and refusing what R157
refuses, and the encoder. -/

namespace Sys2Proof.Machine

/-- Bits hi:lo of a word, as a word of n bits. -/
def fld (w : BitVec 64) (lo n : Nat) : BitVec n := (w >>> lo).truncate n

/-- Bit k of a word. -/
def bit (w : BitVec 64) (k : Nat) : Bool := w.getLsbD k

/-- Bits lo to lo + n − 1 are 0 (reserved). -/
def clear (w : BitVec 64) (lo n : Nat) : Bool := fld w lo n == 0

/-- A format field. -/
def fmtAt (w : BitVec 64) (lo : Nat) : Option Fmt := Fmt.ofCode (fld w lo 4).toNat

/-- Vector operations by OP (R171). -/
def vecOps : List (Nat × VecOp) :=
  [(0x01, .vadd), (0x02, .vsub), (0x03, .vmul), (0x04, .vfma), (0x05, .vmin), (0x06, .vmax), (0x07, .vcmp), (0x08, .vsel),
   (0x09, .vcvt), (0x0A, .vexp), (0x0B, .vrcp)] ++
  [(0x0C, .vrsq), (0x0D, .vsin), (0x0E, .vcos), (0x10, .vmaxr), (0x11, .vexps), (0x12, .vresc), (0x13, .vtopk), (0x14, .vrot),
   (0x18, .vrel), (0x1B, .vfclr)]

/-- OP of a vector operation. -/
def VecOp.code : VecOp → Nat
  | .vadd => 0x01 | .vsub => 0x02 | .vmul => 0x03 | .vfma => 0x04 | .vmin => 0x05 | .vmax => 0x06 | .vcmp => 0x07
  | .vsel => 0x08 | .vcvt => 0x09 | .vexp => 0x0A | .vrcp => 0x0B | .vrsq => 0x0C | .vsin => 0x0D | .vcos => 0x0E
  | .vmaxr => 0x10 | .vexps => 0x11 | .vresc => 0x12 | .vtopk => 0x13 | .vrot => 0x14 | .vrel => 0x18 | .vfclr => 0x1B

/-- Stated ranges of MOD and COUNT (R171): VCMP has four comparisons, and a lanewise VRESC has COUNT 1. -/
def vecOk (op : VecOp) (x : VecFields) : Bool :=
  match op with
  | .vcmp => decide (x.mod.toNat < 4)
  | .vresc => !x.mod.getLsbD 0 || x.countM1 == 0
  | _ => true

/-- The operand fields of a vector instruction (R170). -/
def vecFields (w : BitVec 64) : VecFields :=
  { dst := fld w 42 4, sa := fld w 38 4, sb := fld w 34 4, sc := fld w 30 4, scal := fld w 26 4, countM1 := fld w 20 6,
    mod := fld w 12 8, shift := fld w 7 5 }

/-- An operation of the Span class (R167). -/
def decodeSpan (w : BitVec 64) : Option TileOp :=
  match (fld w 56 6).toNat with
  | 0x00 => if clear w 0 46 then some (.nop .span) else none
  | 0x01 => if clear w 8 38 && clear w 0 3 then some (.loadb (bit w 7) (bit w 6) (bit w 5) (fld w 3 2)) else none
  | 0x02 =>
    match fmtAt w 15, fmtAt w 11 with
    | some a, some b =>
      if clear w 0 7 then
        some (.mm { ix := fld w 42 4, aslot := fld w 34 8, abuf := bit w 33, set := bit w 32, p := bit w 31,
                    rowsM1 := fld w 25 6, d0 := fld w 19 6, fmtA := a, fmtB := b, first := bit w 10, last := bit w 9,
                    release := bit w 8, sat := bit w 7 })
      else none
    | _, _ => none
  | 0x03 =>
    match fmtAt w 15 with
    | some f =>
      if clear w 0 6 && !clear w 19 8 then
        some (.drain { ix := fld w 42 4, dst := fld w 27 15, pitch := fld w 19 8, fmt := f, p := bit w 14, sat := bit w 13,
                       acc := bit w 12, shift := fld w 7 5, sc := bit w 6 })
      else none
    | none => none
  | _ => none

/-- An operation of the vector class (R170, R171). -/
def decodeVec (w : BitVec 64) : Option TileOp :=
  match (fld w 56 6).toNat with
  | 0x00 => if clear w 0 46 then some (.nop .vec) else none
  | 0x19 => if clear w 36 10 then some (.vsets (fld w 32 4) (fld w 0 32)) else none
  | 0x1A => if clear w 36 10 && clear w 8 24 && decide ((fld w 0 8).toNat < 5) then some (.vmovr (fld w 32 4) (fld w 0 8)) else none
  | k =>
    match vecOps.find? (fun e => e.1 == k) with
    | none => none
    | some (_, op) => if clear w 0 7 && vecOk op (vecFields w) then some (.vec op (vecFields w)) else none

/-- An operation of the transfer class (R172). -/
def decodeXfer (w : BitVec 64) : Option TileOp :=
  match (fld w 56 6).toNat with
  | 0x00 => if clear w 0 46 then some (.nop .xfer) else none
  | 0x01 =>
    if clear w 0 1 && !clear w 19 8 && (!bit w 18 || clear w 11 6) then
      some (.sld { ix := fld w 42 4, src := fld w 27 15, pitch := fld w 19 8, sideB := bit w 18, buf := bit w 17,
                   dslot := fld w 9 8, rowsM1 := fld w 3 6, tr := bit w 2, sc := bit w 1 })
    else none
  | 0x02 =>
    if clear w 0 4 then
      some (.dmaGo { ix := fld w 42 4, engine := fld w 38 4, desc := fld w 23 15, countM1 := fld w 17 6, counter := fld w 5 12,
                     sig := bit w 4 })
    else none
  | 0x03 => if clear w 45 1 then some (.syncWait (bit w 44) (fld w 32 12) (fld w 0 32)) else none
  | 0x04 => if clear w 44 2 then some (.syncAdd (fld w 32 12) (fld w 0 32)) else none
  | 0x05 => if clear w 44 2 && clear w 0 32 then some (.syncTas (fld w 32 12)) else none
  | _ => none

/-- An operation of the control class (R169, R177); bits 55:46 are 0 (R164). -/
def decodeCtl (w : BitVec 64) : Option TileOp :=
  if !clear w 46 10 then none
  else match (fld w 56 6).toNat with
  | 0x00 => if clear w 0 46 then some .ctlNop else none
  | 0x01 => if clear w 28 18 && !clear w 0 12 then some (.loop (fld w 12 16) (fld w 0 12)) else none
  | 0x02 => if clear w 36 10 && !clear w 32 4 then some (.seti (fld w 32 4) (fld w 0 32)) else none
  | 0x03 => if clear w 36 10 && !clear w 32 4 then some (.inc (fld w 32 4) (fld w 0 32)) else none
  | 0x04 =>
    match fmtAt w 36 with
    | some f =>
      if clear w 0 4 then
        some (.setd { vd := fld w 42 4, kind := fld w 40 2, fmt := f, base := fld w 21 15, stride := fld w 9 12, auto := bit w 8,
                      ix := fld w 4 4 })
      else none
    | none => none
  | 0x05 => if clear w 0 46 then some .halt else none
  | _ => none

/-- Decode a stream word (R164); none where R157 refuses it. -/
def decodeTile (w : BitVec 64) : Option TileInstr :=
  let op := match (fld w 62 2).toNat with
    | 0 => decodeSpan w
    | 1 => decodeVec w
    | 2 => decodeXfer w
    | _ => decodeCtl w
  op.map (fun o => { wt := bit w 55, wev := fld w 51 4, st := bit w 50, sev := fld w 46 4, op := o })

/-! ## The encoder -/

/-- A field at a place. -/
def at_ (n lo : Nat) (v : BitVec n) : BitVec 64 := v.zeroExtend 64 <<< lo

/-- A flag at a place. -/
def flagAt (lo : Nat) (b : Bool) : BitVec 64 := (BitVec.ofBool b).zeroExtend 64 <<< lo

/-- A format at a place. -/
def fmtBits (lo : Nat) (f : Fmt) : BitVec 64 := at_ 4 lo (BitVec.ofNat 4 f.code)

/-- CLASS and OP. -/
def opBits (cls op : Nat) : BitVec 64 := at_ 2 62 (BitVec.ofNat 2 cls) ||| at_ 6 56 (BitVec.ofNat 6 op)

/-- The bits of a vector instruction's fields. -/
def vecBits (x : VecFields) : BitVec 64 :=
  at_ 4 42 x.dst ||| at_ 4 38 x.sa ||| at_ 4 34 x.sb ||| at_ 4 30 x.sc ||| at_ 4 26 x.scal ||| at_ 6 20 x.countM1 |||
    at_ 8 12 x.mod ||| at_ 5 7 x.shift

/-- CLASS, OP and operand bits of an operation (R167, R169 to R172, R177). -/
def encodeOp (o : TileOp) : BitVec 64 :=
  match o with
  | .nop .span => opBits 0 0
  | .nop .vec => opBits 1 0
  | .nop .xfer => opBits 2 0
  | .loadb r st b sl => opBits 0 1 ||| flagAt 7 r ||| flagAt 6 st ||| flagAt 5 b ||| at_ 2 3 sl
  | .mm x => opBits 0 2 ||| at_ 4 42 x.ix ||| at_ 8 34 x.aslot ||| flagAt 33 x.abuf ||| flagAt 32 x.set ||| flagAt 31 x.p |||
      at_ 6 25 x.rowsM1 ||| at_ 6 19 x.d0 ||| fmtBits 15 x.fmtA ||| fmtBits 11 x.fmtB ||| flagAt 10 x.first |||
      flagAt 9 x.last ||| flagAt 8 x.release ||| flagAt 7 x.sat
  | .drain x => opBits 0 3 ||| at_ 4 42 x.ix ||| at_ 15 27 x.dst ||| at_ 8 19 x.pitch ||| fmtBits 15 x.fmt ||| flagAt 14 x.p |||
      flagAt 13 x.sat ||| flagAt 12 x.acc ||| at_ 5 7 x.shift ||| flagAt 6 x.sc
  | .vec op x => opBits 1 op.code ||| vecBits x
  | .vsets r v => opBits 1 0x19 ||| at_ 4 32 r ||| at_ 32 0 v
  | .vmovr r v => opBits 1 0x1A ||| at_ 4 32 r ||| at_ 8 0 v
  | .sld x => opBits 2 1 ||| at_ 4 42 x.ix ||| at_ 15 27 x.src ||| at_ 8 19 x.pitch ||| flagAt 18 x.sideB ||| flagAt 17 x.buf |||
      at_ 8 9 x.dslot ||| at_ 6 3 x.rowsM1 ||| flagAt 2 x.tr ||| flagAt 1 x.sc
  | .dmaGo x => opBits 2 2 ||| at_ 4 42 x.ix ||| at_ 4 38 x.engine ||| at_ 15 23 x.desc ||| at_ 6 17 x.countM1 |||
      at_ 12 5 x.counter ||| flagAt 4 x.sig
  | .syncWait eq c v => opBits 2 3 ||| flagAt 44 eq ||| at_ 12 32 c ||| at_ 32 0 v
  | .syncAdd c v => opBits 2 4 ||| at_ 12 32 c ||| at_ 32 0 v
  | .syncTas c => opBits 2 5 ||| at_ 12 32 c
  | .ctlNop => opBits 3 0
  | .loop n b => opBits 3 1 ||| at_ 16 12 n ||| at_ 12 0 b
  | .seti r v => opBits 3 2 ||| at_ 4 32 r ||| at_ 32 0 v
  | .inc r v => opBits 3 3 ||| at_ 4 32 r ||| at_ 32 0 v
  | .setd x => opBits 3 4 ||| at_ 4 42 x.vd ||| at_ 2 40 x.kind ||| fmtBits 36 x.fmt ||| at_ 15 21 x.base |||
      at_ 12 9 x.stride ||| flagAt 8 x.auto ||| at_ 4 4 x.ix
  | .halt => opBits 3 5

/-- The word of an instruction. -/
def encodeTile (x : TileInstr) : BitVec 64 :=
  encodeOp x.op ||| flagAt 55 x.wt ||| at_ 4 51 x.wev ||| flagAt 50 x.st ||| at_ 4 46 x.sev

/-- A control operation. -/
def TileOp.isCtl : TileOp → Bool
  | .ctlNop | .loop _ _ | .seti _ _ | .inc _ _ | .setd _ | .halt => true
  | _ => false

/-- A well-formed instruction: what R157, R164 and the field tables ask of it beyond its widths. -/
def TileInstr.wf (x : TileInstr) : Bool :=
  (match x.op with
   | .drain d => d.pitch != 0
   | .vec op v => vecOk op v
   | .vmovr _ v => decide (v.toNat < 5)
   | .sld d => d.pitch != 0 && (!d.sideB || d.dslot.toNat / 4 == 0)
   | .loop _ b => b != 0
   | .seti r _ => r != 0
   | .inc r _ => r != 0
   | _ => true) &&
  (!x.op.isCtl || (!x.wt && x.wev == 0 && !x.st && x.sev == 0))

end Sys2Proof.Machine
end

