-- ==== Sys2Proof/Machine/OpsTile.lean ====
section
/-! DEFINITION. A core as its instructions see it: memories, planes, presence, events, what an issue does, and how results are
written (06 R133 to R140, 07 R158 to R163, 08 R182 to R193). -/

namespace Sys2Proof.Machine

/-! ## Contents -/

/-- What an entry that is not listed reads as: 0, or a free value where the contents have become undefined. -/
def Core.blank (c : Core) (w kind i : Nat) : BitVec w :=
  let g := if kind < 6 then c.junk else c.junkP
  if g = 0 then 0 else Config.freeBits w ((g * 16 + kind) * 2 ^ 20 + i)

def Core.unit (c : Core) (u : Nat) : Unit64 := (Tab.find c.slate u).getD (c.blank 512 0 u)
def Core.shadowOf (c : Core) (u : Nat) : BitVec 32 := (Tab.find c.shadow u).getD (c.blank 32 1 u)
/-- Row r of an A-side buffer, or of the 256 rows of a B-side buffer, and the sideband. -/
def Core.aRow (c : Core) (buf r : Nat) : Unit64 := (Tab.find c.aRows (256 * buf + r)).getD (c.blank 512 2 (256 * buf + r))
def Core.bRow (c : Core) (buf r : Nat) : Unit64 := (Tab.find c.bRows (256 * buf + r)).getD (c.blank 512 3 (256 * buf + r))
def Core.aSide (c : Core) (buf r : Nat) : BitVec 32 := (Tab.find c.aScale (256 * buf + r)).getD (c.blank 32 4 (256 * buf + r))
def Core.bSide (c : Core) (buf r : Nat) : BitVec 32 := (Tab.find c.bScale (256 * buf + r)).getD (c.blank 32 5 (256 * buf + r))
def Core.planeRow (c : Core) (p r : Nat) : BitVec 2048 := (Tab.find c.plane (64 * p + r)).getD (c.blank 2048 6 (64 * p + r))
def Core.setRow (c : Core) (k r : Nat) : Unit64 := (Tab.find c.setRows (64 * k + r)).getD (c.blank 512 7 (64 * k + r))
def Core.setSide (c : Core) (k n : Nat) : BitVec 32 := (Tab.find c.setScale (64 * k + n)).getD (c.blank 32 8 (64 * k + n))

/-- Presence of a segment, or of a tile slot (R138, R182). -/
def Core.hasA (c : Core) (buf seg : Nat) : Bool := c.aPres.getLsbD (16 * buf + seg)
def Core.hasB (c : Core) (buf tile : Nat) : Bool := c.bPres.getLsbD (4 * buf + tile)
def setBit {w : Nat} (v : BitVec w) (k : Nat) (b : Bool) : BitVec w :=
  if b then v ||| BitVec.ofNat w (2 ^ k) else v &&& ~~~ BitVec.ofNat w (2 ^ k)
def Core.presA (c : Core) (buf seg : Nat) (b : Bool) : Core := { c with aPres := setBit c.aPres (16 * buf + seg) b }
def Core.presB (c : Core) (buf tile : Nat) (b : Bool) : Core := { c with bPres := setBit c.bPres (4 * buf + tile) b }

/-- State of a plane (R137). -/
def Core.planeSt (c : Core) (p : Nat) : PlaneState := if p = 0 then c.plane0 else c.plane1
def Core.setPlane (c : Core) (p : Nat) (st : PlaneState) : Core := if p = 0 then { c with plane0 := st } else { c with plane1 := st }
def Core.isInt (c : Core) (p : Nat) : Bool := if p = 0 then c.int0 else c.int1

/-- The 32-bit words of a wide value, and back. -/
def wordsOf (n : Nat) {w : Nat} (v : BitVec w) : List (BitVec 32) := (List.range n).map (fun i => BitVec.ofNat 32 (v.toNat / 2 ^ (32 * i)))
def ofWords (w : Nat) (l : List (BitVec 32)) : BitVec w := BitVec.ofNat w (l.foldr (fun c a => c.toNat + 2 ^ 32 * a) 0)

/-- Unit i of a wide value. -/
def unitOf (v i : Nat) : Unit64 := BitVec.ofNat 512 (v / 2 ^ (512 * i))

/-! ## Who runs on a core -/

/-- The task on a core. -/
def State.coreTask (s : State) (k : Nat) : Option Task := (s.core k).task.bind (Tab.find s.tasks)

/-- Count a violation of the function whose task the core runs. -/
def tileViol (k v : Nat) (s : State) : State :=
  match s.coreTask k with
  | none => s
  | some t => bump t.fn v s

/-! ## Queues and events (R158, R161) -/

def Core.queue (c : Core) : SlotKind → List Queued
  | .span => c.qs
  | .vec => c.qv
  | .xfer => c.qx
def Core.setQueue (c : Core) (k : SlotKind) (l : List Queued) : Core :=
  match k with
  | .span => { c with qs := l }
  | .vec => { c with qv := l }
  | .xfer => { c with qx := l }

/-- Increment a local event; an increment beyond 15 is lost and counted. -/
def raiseEvent (k e : Nat) (s : State) : State :=
  if 15 ≤ Tab.get 0 (s.core k).ev e then tileViol k cViolTileEvent s
  else updCore k (fun c => { c with ev := Tab.upd 0 c.ev e (· + 1) }) s

/-- The front instruction of a slot leaves its queue and takes its event. -/
def popIssued (k : Nat) (slot : SlotKind) (q : Queued) (s : State) : State :=
  updCore k (fun c =>
    let d := c.setQueue slot (c.queue slot).tail
    if q.instr.wt then { d with ev := Tab.upd 0 d.ev q.instr.wev.toNat (· - 1) } else d) s

/-! ## Banks (R184, R187, R188) -/

/-- The bank of a Slate unit. -/
def bankOf (u : Nat) : Nat := (u % 32 + u / 32) % 32

/-- The conflict degree of a group access: the most cycles that one bank serves. -/
def conflict (l : List Nat) : Nat := ((List.range 32).map (fun b => (l.filter (fun u => bankOf u == b)).length)).foldl max 0

/-- Cycles that the group accesses of an instruction add. -/
def conflictCycles (groups : List (List Nat)) : Nat := (groups.map (fun l => conflict l - 1)).sum

/-! ## Issue (R139, R160 to R162) -/

/-- What an issue leads to: it waits; it retires without effect, perhaps counted; it is done at once; or it goes on with
results that are still to be written. -/
inductive Issue where
  | waits
  | retires (viol : Nat)
  | instant (s : State)
  | goes (s : State) (writes : List Write) (descs : Nat) (groups : List (List Nat))

/-- An instruction has no more to do: its ST event. -/
def finishInstr (k : Nat) (x : TileInstr) (s : State) : State := if x.st then raiseEvent k x.sev.toNat s else s

/-- A core runs its task: dispatch and issue go on, which they do not while its CCC is down (R91). -/
def State.coreRuns (s : State) (k : Nat) : Bool :=
  match s.coreTask k with
  | none => false
  | some t => !t.paused && s.isReady (rCl (k / 8))

/-- An issue that goes on (R161, R187): the instruction leaves its queue with its event, its conflicts are counted, and its results
are still to be written. -/
def goesOn (k : Nat) (slot : SlotKind) (q : Queued) (writes : List Write) (descs : Nat) (groups : List (List Nat)) (s t : State) :
    State :=
  let n := conflictCycles groups
  let u := if n = 0 then t else match s.coreTask k with
    | none => t
    | some x => bumpBy x.fn cSlateConflict n t
  updCore k (fun c => { c with
    inflight := c.inflight ++ [{ id := q.word + 16384 * (s.core k).nextId, slot := slot, st := q.instr.st, sev := q.instr.sev.toNat,
                                 writes := writes, descs := descs }],
    nextId := c.nextId + 1 }) (popIssued k slot q u)

/-- Issue the instruction at the front of a slot when it is the one wanted and its event is there. Where its bank cycle was
withheld (R188) it issues one cycle later. -/
def issueFront (k : CoreId) (slot : SlotKind) (want : TileOp → Bool) (run : Queued → State → Issue) (s : State) :
    Host.Outcome State Fault Refusal :=
  let c := s.core k.val
  match c.queue slot with
  | [] => done s s
  | q :: _ =>
    if !s.coreRuns k.val || !want q.instr.op || (q.instr.wt && Tab.get 0 c.ev q.instr.wev.toNat == 0) then done s s
    else match run q s with
      | .waits => done s s
      | .retires v => live s (finishInstr k.val q.instr (tileViol k.val v (popIssued k.val slot q s)))
      | .instant t => live s (finishInstr k.val q.instr (popIssued k.val slot q t))
      | .goes t writes descs groups =>
        if groups.any (fun l => l.any (fun u => c.starved.contains (bankOf u))) then
          live s (updCore k.val (fun c => { c with starved := [] }) s)
        else live s (goesOn k.val slot q writes descs groups s t)

/-! ## Writing results -/

/-- Bits of CORE_FLAGS (R148). -/
abbrev flSpanSat : BitVec 5 := 1
abbrev flSpanOvf : BitVec 5 := 2
abbrev flSpanNan : BitVec 5 := 4
abbrev flVecOvf : BitVec 5 := 8
abbrev flVecNan : BitVec 5 := 16

/-- A flag where a condition holds. -/
def flagIf (c : Bool) (f : BitVec 5) : BitVec 5 := if c then f else 0

/-- The value that accumulate-on-write leaves in a unit (R192). -/
def accUnit (fmt : Fmt) (sat : Bool) (old new : Unit64) : Unit64 :=
  let n := 512 / fmt.bits
  BitVec.ofNat 512 (fmt.pack ((List.range n).map (fun i =>
    let a := fmt.elem old.toNat i
    let b := fmt.elem new.toNat i
    match fmt.float with
    | none => unsgn 32 (clampI (-2147483648) 2147483647 (sgn 32 a + sgn 32 b))
    | some g =>
      let r := f32.encode sat ((g.value a).add (g.value b))
      if fmt = .fp32 then r.1 else (g.encode sat (f32.value r.1)).1)))

/-- SPAN_SAT where an INT32 sum of accumulate-on-write saturates (R192, R145). -/
def accFlags (fmt : Fmt) (old new : Unit64) : BitVec 5 :=
  flagIf (fmt.float.isNone && (List.range (512 / fmt.bits)).any (fun i =>
    let t := sgn 32 (fmt.elem old.toNat i) + sgn 32 (fmt.elem new.toNat i)
    decide (clampI (-2147483648) 2147483647 t ≠ t))) flSpanSat

/-- Accumulate-on-write to a Slate unit (R192): where its old value is uncorrectable, the addend alone is written (R207). -/
def Core.accumulate (c : Core) (u : Nat) (fmt : Fmt) (sat : Bool) (v : Unit64) : Core :=
  if c.bad.contains u then c.putUnit u v
  else { c.putUnit u (accUnit fmt sat (c.unit u) v) with flags := c.flags ||| accFlags fmt (c.unit u) v }

/-- Write to a Grains row, dropped and counted where its segment or tile slot is present (R138). -/
def grainsWrite (k : Nat) (sideB : Bool) (buf row : Nat) (g : Core → Core) (s : State) : State :=
  let c := s.core k
  if (if sideB then c.hasB buf (row / 64) else c.hasA buf (row / 16)) then tileViol k cViolGrainsOverwrite s
  else updCore k g s

/-- Write one result. -/
def applyWrite (k : Nat) (w : Write) (s : State) : State :=
  match w with
  | .slate u v => updCore k (fun c => c.putUnit u v) s
  | .shadow u v => updCore k (fun c => { c with shadow := Tab.put c.shadow u v }) s
  | .planeRow p r v => updCore k (fun c => { c with plane := Tab.put c.plane (64 * p + r) v }) s
  | .aRow b r v => grainsWrite k false b r (fun c => { c with aRows := Tab.put c.aRows (256 * b + r) v }) s
  | .aScale b r v =>
    if (s.core k).hasA b (r / 16) then s else updCore k (fun c => { c with aScale := Tab.put c.aScale (256 * b + r) v }) s
  | .bRow b t r v => grainsWrite k true b (64 * t + r) (fun c => { c with bRows := Tab.put c.bRows (256 * b + 64 * t + r) v }) s
  | .bScale b t n v =>
    if (s.core k).hasB b t then s else updCore k (fun c => { c with bScale := Tab.put c.bScale (256 * b + 64 * t + n) v }) s
  | .scalar r v => updCore k (fun c => { c with sr := Tab.put c.sr r v }) s
  | .flag f => updCore k (fun c => { c with flags := c.flags ||| f }) s
  | .acc u fmt sat v => updCore k (fun c => c.accumulate u fmt sat v) s
  | .presA b seg => updCore k (fun c => c.presA b seg true) s
  | .presB b t => updCore k (fun c => c.presB b t true) s
  | .planeTo p st => updCore k (fun c => c.setPlane p st) s

end Sys2Proof.Machine
end

