-- ==== Sys2Proof/Machine/Control.lean ====
section
/-! DEFINITION. Dispatch and the control instructions (07 R158, R164, R169, R177). -/

namespace Sys2Proof.Machine

/-- An index register; I0 reads 0. -/
def Core.index (c : Core) (i : Nat) : Nat := if i = 0 then 0 else (Tab.get 0#32 c.ix i).toNat

/-- An address field offset by an index register, modulo 2^32. -/
def Core.effective (c : Core) (base ix : Nat) : Nat := (base + c.index ix) % 2 ^ 32

/-- Loops whose body has just been passed go round again or end (R177). -/
def loopBack (pc : Nat) : List LoopFrame → Nat × List LoopFrame
  | [] => (pc, [])
  | f :: r =>
    if pc = f.last then (if 0 < f.left then (f.first, { f with left := f.left - 1 } :: r) else loopBack pc r)
    else (pc, f :: r)

/-- Dispatch goes on with the next word. -/
def Core.advance (c : Core) : Core :=
  let r := loopBack (c.pc + 1) c.loops
  { c with pc := r.1, loops := r.2 }

/-- The instruction that dispatch is at. -/
def Core.next (c : Core) : Option TileInstr := if c.halted then none else (c.stream[c.pc]?).bind decodeTile

/-- The descriptors that a vector operation names: DST, SA, SB and SC as far as it uses them. -/
def VecOp.uses : VecOp → Nat
  | .vadd | .vsub | .vmul | .vmin | .vmax | .vcmp | .vmaxr | .vrot => 3
  | .vfma | .vsel | .vexps | .vresc => 4
  | .vcvt | .vexp | .vrcp | .vrsq | .vsin | .vcos | .vtopk => 2
  | .vrel | .vfclr => 0

/-- The slot that an operation goes to, none for control. -/
def TileOp.slot : TileOp → Option SlotKind
  | .nop k => some k
  | .loadb _ _ _ _ | .mm _ | .drain _ => some .span
  | .vec _ _ | .vsets _ _ | .vmovr _ _ => some .vec
  | .sld _ | .dmaGo _ | .syncWait _ _ _ | .syncAdd _ _ | .syncTas _ => some .xfer
  | _ => none

/-- An instruction with its effective addresses (R158, R167, R169, R172). -/
def Core.resolve (c : Core) (x : TileInstr) : Queued :=
  let vd := fun (i : BitVec 4) => Tab.get {} c.vd i.toNat
  match x.op with
  | .mm f => { word := c.pc, instr := x, addr := c.effective f.aslot.toNat f.ix.toNat }
  | .drain f => { word := c.pc, instr := x, addr := c.effective f.dst.toNat f.ix.toNat }
  | .sld f => { word := c.pc, instr := x, addr := c.effective f.src.toNat f.ix.toNat }
  | .dmaGo f => { word := c.pc, instr := x, addr := c.effective f.desc.toNat f.ix.toNat }
  | .vec _ f => { word := c.pc, instr := x, d := vd f.dst, a := vd f.sa, b := vd f.sb, c := vd f.sc }
  | _ => { word := c.pc, instr := x }

/-- AUTO (R169): each descriptor that the instruction names advances once by COUNT × STRIDE. -/
def Core.autoAdvance (c : Core) (x : TileOp) : Core :=
  match x with
  | .vec op f =>
    let named := ([f.dst.toNat, f.sa.toNat, f.sb.toNat, f.sc.toNat].take op.uses).dedup
    { c with vd := named.foldl (fun t i =>
        let d := Tab.get {} t i
        if d.auto then Tab.put t i { d with base := d.base + (f.countM1.toNat + 1 : Nat) * d.stride } else t) c.vd }
  | _ => c

/-- Entries of a slot queue (R158). -/
abbrev slotDepth : Nat := 32

/-- The next word, no control word, enters the queue of its slot while there is room (R158). -/
def execInstructionDispatch (k : CoreId) (s : State) : Host.Outcome State Fault Refusal :=
  let c := s.core k.val
  match c.next with
  | none => done s s
  | some x => match x.op.slot with
    | none => done s s
    | some slot =>
      if !s.coreRuns k.val || decide (slotDepth ≤ (c.queue slot).length) then done s s
      else live s (updCore k.val (fun c =>
        ((c.setQueue slot (c.queue slot ++ [c.resolve x])).autoAdvance x.op).advance) s)

/-- The effect of a control word on its core (R164, R169, R177), none for any other word: index registers wrap modulo 2^32, and
BASE of SETD takes I[IX] as it is now. -/
def Core.runControl (c : Core) (o : TileOp) : Option Core :=
  match o with
  | .ctlNop => some c.advance
  | .loop n b =>
    some { c with pc := c.pc + 1,
                  loops := { first := c.pc + 1, last := c.pc + 1 + b.toNat, left := n.toNat } :: c.loops }
  | .seti r v => some ({ c with ix := Tab.put c.ix r.toNat v }).advance
  | .inc r v => some ({ c with ix := Tab.put c.ix r.toNat (Tab.get 0#32 c.ix r.toNat + v) }).advance
  | .setd x =>
    some ({ c with vd := Tab.put c.vd x.vd.toNat {
      kind := x.kind, fmt := x.fmt, base := sgn 32 (c.effective x.base.toNat x.ix.toNat), stride := x.stride.toInt,
      auto := x.auto } }).advance
  | .halt => some { c with halted := true }
  | _ => none

/-- Dispatch of a control word of a kind: its effect on the core, and dispatch goes on (R158). -/
def control (k : CoreId) (want : TileOp → Bool) (s : State) : Host.Outcome State Fault Refusal :=
  match (s.core k.val).next with
  | none => done s s
  | some x =>
    if !s.coreRuns k.val || !want x.op then done s s
    else match (s.core k.val).runControl x.op with
      | none => done s s
      | some c => live s (updCore k.val (fun _ => c) s)

/-- NOP (R164): at the front of a slot it issues and does nothing; a control NOP is passed at dispatch. -/
def execNop (k : CoreId) (slot : Option SlotKind) (s : State) : Host.Outcome State Fault Refusal :=
  match slot with
  | none => control k (fun o => o == .ctlNop) s
  | some sl => issueFront k sl (fun o => match o with | .nop _ => true | _ => false) (fun _ s => .instant s) s

/-- LOOP (R177): the words that follow run COUNT times. -/
def execLoop (k : CoreId) (s : State) : Host.Outcome State Fault Refusal :=
  control k (fun o => match o with | .loop _ _ => true | _ => false) s

/-- SETI (R177). -/
def execSeti (k : CoreId) (s : State) : Host.Outcome State Fault Refusal :=
  control k (fun o => match o with | .seti _ _ => true | _ => false) s

/-- INC (R177). -/
def execInc (k : CoreId) (s : State) : Host.Outcome State Fault Refusal :=
  control k (fun o => match o with | .inc _ _ => true | _ => false) s

/-- SETD (R169). -/
def execSetd (k : CoreId) (s : State) : Host.Outcome State Fault Refusal :=
  control k (fun o => match o with | .setd _ => true | _ => false) s

/-- HALT (R163, R177): dispatch ends. -/
def execHalt (k : CoreId) (s : State) : Host.Outcome State Fault Refusal :=
  control k (fun o => o == .halt) s

end Sys2Proof.Machine
end

