-- ==== Sys2Proof/Machine/Energy.lean ====
section
/-! DEFINITION. The division of input energy among owners and buckets (20 R424 to R427, 13 R295, R296, R298, 16 R341, 19 R403; log
13). Energies are in 2⁻²⁰ J. -/

namespace Sys2Proof.Machine

/-! Buckets in the order of R426. -/

abbrev bInput : Nat := 0
abbrev bRequests : Nat := 1
abbrev bLate : Nat := 2
abbrev bTasks : Nat := 3
abbrev bFlint : Nat := 4
abbrev bSystem : Nat := 5
abbrev bKeepWarm : Nat := 6
abbrev bBallast : Nat := 7
abbrev bIdle : Nat := 8

/-- Add to a bucket. -/
def addBucket (b n : Nat) (s : State) : State :=
  { s with meter := { s.meter with buckets := Tab.upd 0 s.meter.buckets b (fun v => (v + n) % 2 ^ 64) } }

/-- Add to a bucket what belongs to a function: its share of the bucket and its FUNC_ENERGY grow with it. -/
def addFunc (f b n : Nat) (s : State) : State :=
  addBucket b n { s with meter := { s.meter with
    funcs := Tab.upd 0 s.meter.funcs f (fun v => (v + n) % 2 ^ 64),
    funcBuckets := Tab.upd 0 s.meter.funcBuckets (16 * f + b) (fun v => (v + n) % 2 ^ 64) } }

/-- Split a total in proportion to weights, so that the parts sum to it exactly: the part of an entry is the difference of two
roundings of the running sum, with an offset below the sum of the weights. `done` is the sum of the weights before. -/
def split (total sum off : Nat) : Nat → List Nat → List Nat
  | _, [] => []
  | before, w :: r => (((before + w) * total + off) / sum - (before * total + off) / sum) :: split total sum off (before + w) r

/-- The parts of a total, rounded from a free offset; nothing is divided where no weight is positive. -/
def shareOut (total : Nat) (l : List Nat) (s : State) : List Nat :=
  if l.sum = 0 then l.map (fun _ => 0) else split total l.sum (freeNumber s % l.sum) 0 l

/-- Charge a request (R425, R426, R295, R298): its meter, or SERVE_ENERGY_LATE once it has been marked. -/
def chargeCtx (idx : Nat) (home : Bool) (n : Nat) (s : State) : State :=
  match s.ctx idx with
  | none => addBucket bSystem n s
  | some c =>
    if c.late || c.state = .ended || c.endWith.isSome then addFunc c.fn bLate n (bumpBy c.fn cServeEnergyLate n s)
    else
      let t := updCtx idx (fun c => if home then { c with homeMeter := c.homeMeter + n } else { c with meter := c.meter + n }) s
      addFunc c.fn bRequests n t

/-- Charge the running step: its energy is divided among its requests by rows (R425). -/
def chargeStep (n : Nat) (s : State) : State :=
  match s.serve.step with
  | none => addBucket bSystem n s
  | some st =>
    let parts := shareOut n (st.reqs.map (fun r => r.rows + ((s.ctx r.idx).map (·.draftRows)).getD 0)) s
    if parts.sum ≠ n then addBucket bSystem n s
    else forEach ((st.reqs.map (·.idx)).zip parts) (fun e t => chargeCtx e.1 false e.2 t) (tookFree s)

/-- Charge an owner (R425, R426). -/
def chargeOwner (o : EnergyOwner) (n : Nat) (s : State) : State :=
  match o with
  | .step => chargeStep n s
  | .fetch i | .seal i | .shipment i | .revival i => chargeCtx i false n s
  | .home i => chargeCtx i true n s
  | .task k =>
    match Tab.find s.tasks k with
    | none => addBucket bSystem n s
    | some t => addFunc t.fn bTasks n { s with tasks := Tab.put s.tasks k { t with energy := t.energy + n } }
  | .run net =>
    match s.activeRun net with
    | none => addBucket bSystem n s
    | some r => addFunc r.fn bFlint n
        { s with flint := { s.flint with runs := replaceFirst r { r with energy := r.energy + n } s.flint.runs } }
  | .flintStatic => addBucket bFlint n s
  | .system f =>
    match f with
    | none => addBucket bSystem n s
    | some f => addFunc f.val bSystem n s
  | .keepWarm => addBucket bKeepWarm n s
  | .ballast => addBucket bBallast n (bumpPartBy cSlewBallast n s)

/-- ENERGY_WINDOW (R424, R426, R427): the measured energy of the window, none where the reading is out of range, and the
activity model's estimate for each owner. All of it is charged: scaled to the measured sum, or as estimated once the monitor has
failed; a window without an owner is idle. -/
def execEnergyWindow (input : Option Nat) (shares : List (EnergyOwner × Nat)) (s : State) : Host.Outcome State Fault Refusal :=
  let t := if input.isNone then meterFailed s else s
  let est := shares.map (·.2)
  let total := if t.meter.degraded then est.sum else input.getD 0
  let t := addBucket bInput total t
  if est.sum = 0 then live s (addBucket bIdle total t)
  else
    let parts := shareOut total est t
    live s (forEach ((shares.map (·.1)).zip parts) (fun e t => chargeOwner e.1 e.2 t) (tookFree t))

end Sys2Proof.Machine
end

