-- ==== Sys2Proof/Machine/Keys.lean ====
section
/-! DEFINITION. Link keys and rekeying (05 R119, R120, 17 R352). -/

namespace Sys2Proof.Machine

/-- The info string of a link key: sender's nonce, then receiver's (R352). -/
def linkInfo (a b : BitVec 64) : Bytes :=
  ([0x46, 0x56, 0x53, 0x2D, 0x36, 0x34, 0x30, 0x30, 0x20, 0x4C, 0x49, 0x4E, 0x4B] : Bytes) ++ toLe 8 a.toNat ++ toLe 8 b.toNat

/-- The key after a rekey (R352). -/
def nextKey (k : BitVec 256) (phase : BitVec 32) : BitVec 256 :=
  Config.hkdf (toLe 32 k.toNat)
    (([0x46, 0x56, 0x53, 0x2D, 0x36, 0x34, 0x30, 0x30, 0x20, 0x52, 0x45, 0x4B, 0x45, 0x59] : Bytes) ++ toLe 4 phase.toNat)

/-- The port exchanges keys: it is UP and has none in force. -/
def State.exchanges (s : State) (p : Nat) : Bool := (s.port p).st == .up && !(s.port p).keyed

/-- Both ends have accepted: link keys are in force, what waits on VC1 to VC7 goes (R119, R351), and each end sends its record (R370). -/
def keysInForce (p : Nat) (s : State) : State :=
  if (s.port p).accept && (s.port p).doneSeen then renew (flushPort p (updPort p (fun x => { x with keyed := true }) s)) else s

/-- A fragment of the partner's chain. -/
def rxKeyCert (p frag frags : Nat) (data : Bytes) (s : State) : State :=
  let x := s.port p
  if frags = 0 ∨ 16 < frags ∨ frags ≤ frag ∨ data = [] ∨ 984 < data.length then bumpPart cViolFabMsg s
  else if !s.exchanges p || frag != x.certs.length || x.certsDone then s
  else updPort p (fun x => { x with certs := x.certs ++ [data], certsDone := frag + 1 == frags }) s

/-- KEY_CERT (R352). -/
def execKeyCert (p : PortId) (frag : Nat) (frags : Nat) (data : Bytes) (s : State) : Host.Outcome State Fault Refusal :=
  live s (rxKeyCert p.val frag frags data s)

/-- The partner's ephemeral key; the part answers with its proof. -/
def rxKeyShare (p : Nat) (pub : Bytes) (s : State) : State :=
  if !s.exchanges p || (s.port p).partnerPub.isSome then s
  else sendProof p (updPort p (fun x => { x with partnerPub := some (fit 97 pub) }) s)

/-- KEY_SHARE (R352). -/
def execKeyShare (p : PortId) (pub : Bytes) (s : State) : Host.Outcome State Fault Refusal := live s (rxKeyShare p.val pub s)

/-- SEC judges the partner's proof (R119): with a chain that ends at the Esornir root, an SVN at or above the floor and a good
signature the partner is accepted, and the keys of both directions are derived; otherwise it is rejected. -/
def judgeProof (p : Nat) (sig : Bytes) (s : State) : State :=
  let x := s.port p
  let chain := x.certs.flatten
  let own := Config.ephPub x.ephNo
  let pub := x.partnerPub.getD []
  let svnOk := match Config.chainSvn chain with
    | none => false
    | some v => decide (s.fwFloor ≤ v)
  let good := x.certsDone && x.partnerPub.isSome && svnOk &&
    Config.verify (Config.chainKey chain) (pub ++ own ++ toLe 8 x.partnerNonce.toNat ++ toLe 8 x.nonce.toNat) (fit 96 sig)
  if good then
    let secret := Config.ecdh x.ephNo pub
    keysInForce p (sendLink p 6 (toLe 4 0) (updPort p (fun x => { x with
      accept := true, partnerId := Config.chainPart chain,
      keyTx := Config.hkdf secret (linkInfo x.nonce x.partnerNonce), keyRx := Config.hkdf secret (linkInfo x.partnerNonce x.nonce) }) s))
  else
    portEvent p x.mode 4 (bumpPart cLinkAuthFail (updPort p (fun x => { x with rejected := true }) s))

/-- The partner's proof, which waits while SEC does not run (R102). -/
def rxKeyProof (p : Nat) (sig : Bytes) (s : State) : State :=
  let x := s.port p
  if !s.exchanges p || x.accept || x.rejected || x.ephNo == 0 then s
  else if !s.secRuns then updPort p (fun x => { x with proofIn := some sig }) s
  else judgeProof p sig s

/-- What a port does about its keys once SEC runs: its certificates and share, its proof, and the partner's that waits (R102). -/
def keyWork (p : Nat) (s : State) : State :=
  let t := sendCerts p s
  let t := if t.exchanges p then sendProof p t else t
  match (t.port p).proofIn with
  | none => t
  | some sig => rxKeyProof p sig (updPort p (fun x => { x with proofIn := none }) t)

/-- KEY_PROOF (R119, R352). -/
def execKeyProof (p : PortId) (sig : Bytes) (s : State) : Host.Outcome State Fault Refusal := live s (rxKeyProof p.val sig s)

/-- The partner has accepted the part. -/
def rxKeyDone (p : Nat) (phase : BitVec 32) (s : State) : State :=
  if !s.exchanges p || phase ≠ 0 then s else keysInForce p (updPort p (fun x => { x with doneSeen := true }) s)

/-- KEY_DONE (R352). -/
def execKeyDone (p : PortId) (phase : BitVec 32) (s : State) : Host.Outcome State Fault Refusal := live s (rxKeyDone p.val phase s)

/-- A direction is due for a new key (R120). -/
def execRekeyDue (p : PortId) (s : State) : Host.Outcome State Fault Refusal :=
  let x := s.port p.val
  if x.st != .up || !x.keyed || x.rekeying || !s.secRuns then done s s
  else live s (sendLink p.val 7 (toLe 4 (x.phaseTx + 1).toNat) (updPort p.val (fun x => { x with rekeying := true }) s))

/-- The partner changes the key of its direction (R120, R352): the new one is taken, the old one kept for frames of its
phase. -/
def rxRekey (p : Nat) (phase : BitVec 32) (s : State) : State :=
  let x := s.port p
  if x.st != .up || !x.keyed || phase != x.phaseRx + 1 then s
  else sendLink p 8 (toLe 4 phase.toNat) (updPort p (fun x => { x with
    keyRxOld := some x.keyRx, keyRx := nextKey x.keyRx phase, phaseRx := phase }) s)

/-- REKEY (R120, R352). -/
def execRekey (p : PortId) (phase : BitVec 32) (s : State) : Host.Outcome State Fault Refusal := live s (rxRekey p.val phase s)

/-- The partner has the new key: the old one is retired (R120), and wraps count afresh under the new one (R352). -/
def rxRekeyAck (p : Nat) (phase : BitVec 32) (s : State) : State :=
  let x := s.port p
  if x.st != .up || !x.rekeying || phase != x.phaseTx + 1 then s
  else updPort p (fun x => { x with
    rekeying := false, keyTx := nextKey x.keyTx phase, phaseTx := phase, framesTx := 0, wrapsTx := 0 }) s

/-- REKEY_ACK (R120, R352). -/
def execRekeyAck (p : PortId) (phase : BitVec 32) (s : State) : Host.Outcome State Fault Refusal := live s (rxRekeyAck p.val phase s)

end Sys2Proof.Machine
end

