-- ==== Sys2Proof/Machine/OpsFirm.lean ====
section
/-! DEFINITION. Bundles and their checks (R83, R86, R106), the store's slots (R95), the steps of FW_UPDATE (R94) and what
follows when a processor runs (R22, R90, R102 to R104). -/

namespace Sys2Proof.Machine

/-! ## Bundles -/

/-- Instruction and data memory of an agent, in bytes (R82). -/
def procMem (p : Nat) : Nat × Nat :=
  match p with
  | 0 => (196608, 65536)
  | 1 => (131072, 65536)
  | 2 => (1048576, 2097152)
  | _ => (196608, 131072)

/-- An image table entry (R83). -/
def imageAt (b : Bytes) (i : Nat) : Image :=
  let o := 0x40 + 64 * i
  { target := rd b o 1, fmt := rd b (o + 2) 2, off := rd b (o + 4) 4, codeLen := rd b (o + 8) 4, dataLen := rd b (o + 12) 4,
    digest := rdBV 384 b (o + 16) }

/-- The fields of a bundle. -/
def bundleOf (b : Bytes) : Bundle :=
  { level := rdBV 16 b 4, abi := rdBV 16 b 6, build := rdBV 32 b 8, svn := rd b 12 4, keyIdx := rd b 0x360 4,
    images := (List.range 11).map (imageAt b), bytes := b }

/-- An image lies inside the bundle and within its processor's memories (R83, check 1 of R86). -/
def Image.fits (x : Image) (len : Nat) : Bool :=
  decide (x.target < 11 ∧ x.off % 4096 = 0 ∧ 4096 ≤ x.off ∧ x.off + x.codeLen + x.dataLen ≤ len ∧
    x.codeLen ≤ (procMem x.target).1 ∧ x.dataLen ≤ (procMem x.target).2)

/-- The checks of R86 in their order, given the length that the driver stated and the floor in force: the code of the first
that fails, or the bundle. A fetch that cannot complete fails the first. -/
def checkBundle (revoked : BitVec 4) (floor len : Nat) (b : Option Bytes) : Except Status Bundle :=
  match b with
  | none => .error eSig
  | some b =>
    let x := bundleOf b
    if !(rd b 0 4 == 0x4E425646 && rd b 0x10 4 == len && rd b 0x14 1 == 11 && decide (len ≤ b.length) && decide (len ≤ 4194304) &&
        (List.range 11).all (fun p => (x.images.filter (·.target == p)).length == 1) && x.images.all (·.fits len)) then .error eSig
    else if !(decide (x.keyIdx < 4) && !revoked.getLsbD x.keyIdx &&
        Config.verify (Config.fwKey x.keyIdx) (b.take 0x300) (slice b 0x300 96)) then .error eSig
    else if x.level.toNat / 256 ≠ 3 then .error eLevel
    else if x.svn < floor then .error eSig
    else if !x.images.all (fun i => Config.sha384 (slice b i.off (i.codeLen + i.dataLen)) == i.digest) then .error eSig
    else .ok x

/-- The image of an agent in a bundle. -/
def Bundle.image (x : Bundle) (p : Nat) : Option Image := x.images.find? (·.target == p)

/-- The bundle a processor's image comes from. -/
def State.bundleOf (s : State) (p : Nat) : Option Bundle := if (s.proc p).slotB then s.boot.slotB else s.boot.slotA

/-- Some running image comes from slot A, or B (R95). -/
def State.slotUsed (s : State) (b : Bool) : Bool :=
  (List.range 11).any (fun p => (s.proc p).imaged && (s.proc p).slotB == b)

/-- The boot channel turns the bundle down (R86, R88). -/
def bootRefuse (st : Status) (s : State) : State :=
  { s with boot := { s.boot with state := .refused, result := st, fetching := false } }

/-- RUN_LEVEL, RUN_BUILD and the capabilities of the SCH image that runs: the latter are the image's own (R57, R84, R95). -/
def runsImage (b : Bundle) (s : State) : State :=
  let id := ((b.image agSch).map (·.digest)).getD 0
  { s with boot := { s.boot with
      runLevel := b.level, runAbi := b.abi, runBuild := b.build, cap := Config.imageCaps id, schImage := id } }

/-- SEC writes a processor's image into its memories from a bundle (R82, R83), or from its slot of the store (R89). -/
def loadFrom (b : Bundle) (p : Nat) (s : State) : State :=
  match b.image p with
  | none => s
  | some i => updProc p (fun x => { x with
      imem := slice b.bytes i.off i.codeLen, dmem := slice b.bytes (i.off + i.codeLen) i.dataLen }) s
def loadImage (p : Nat) (s : State) : State :=
  match s.bundleOf p with
  | none => s
  | some b => loadFrom b p s

/-- The checks of a reload (R89): no place of the slot's header and signature, or of the image, has been hit by an uncorrectable error
since SEC wrote the slot. -/
def State.imageGood (s : State) (p : Nat) : Bool :=
  match (s.bundleOf p).bind (·.image p) with
  | none => !(s.proc p).imaged
  | some i => s.boot.bad.all (fun e => e.1 != (s.proc p).slotB ||
      (decide (1024 ≤ e.2) && (decide (e.2 + 64 ≤ i.off) || decide (i.off + i.codeLen + i.dataLen ≤ e.2))))

/-! ## FW_UPDATE (R94) -/

/-- Start on the next target, or finish. -/
def nextTarget (s : State) : State :=
  match s.upd with
  | none => s
  | some u =>
    match u.todo with
    | [] => finishUpdate stOk s
    | p :: r =>
      let t := { s with upd := some { u with todo := r, cur := some p } }
      if u.handoff && (t.proc p).state != .faulted then updProc p (fun x => { x with state := .handoff, oldSlotB := x.slotB }) t
      else
        revoke p 0 (stopped p (updProc p (fun x => { x with
          state := .restarting, oldSlotB := x.slotB, slotB := u.toB, fresh := some false, halted := x.state == .faulted }) t))

/-- SEC takes commands: it runs, or only pauses for a handoff (R92, R102). -/
def State.secTakes (s : State) : Bool := (s.proc agSec).state == .running || (s.proc agSec).state == .handoff

/-- Target p, which runs its new image, counts as replaced (R94, R103, R104): the event, the block of a handoff is done with, and a
processor that was FAULTED starts its count of faults afresh. -/
def replaced (p : Nat) (handoff : Bool) (s : State) : State :=
  procEvent p handoff.toNat (updProc p (fun x => { x with
    fresh := none, lastCause := handoff.toNat, halted := false, faults := if x.halted then [] else x.faults }) (closeHandoff p s))

/-! ## What follows when a processor runs -/

/-- The journal's interrupted stage is completed or undone when SEC runs again; the running record stays (05). -/
def mendJournal (s : State) : State :=
  if s.nor.busy then s
  else match s.inForce with
    | none => s
    | some e =>
      let y := e.slot
      let x := e.xslot
      let ok := y < 2 && recordOk s.fuses false (s.slot y)
      match e.state with
      | .downloading => journal .idle x x 0 s
      | .verifying => journal .invalid y x 0 s
      | .activating => if ok then journal .trial y x 0 s else journal .invalid y x 0 s
      | .confirming => journal .idle y y 0 (programFuses (s.slot y) s)
      | _ => s

/-- The handle of the vision program of a function (R320). -/
def visionHandle (f : Nat) : Nat := mkHandle f kProgram 0 0xFFFFFFF0

/-- The vision program (R320): placement 0; its cores come from the list header. -/
def visionProgram (f : Nat) : Program :=
  { fn := f, cores := 0, placement := 0, engines := 0, buffers := 0, basalt := 0, coreRecs := [], ctrRecs := [], streams := [],
    imageLen := 0, builtin := true }

/-- Every function is issued the vision program (R320). -/
def issueVision (s : State) : State :=
  forEach (List.range 32) (fun f t => { t with
    progs := Tab.put t.progs (visionHandle f) (visionProgram f), issued := visionHandle f :: t.issued }) s

/-- SCH takes units for its own tables when it first runs (R223, R265); how many is its own, at least one (log 18). -/
def takeTables (s : State) : State :=
  if s.store.schUnits ≠ 0 then s
  else tookFree { s with store := { s.store with schUnits := 1 + freeNumber s % 64 } }

/-- Runs that ended while SCH was down complete (R341). -/
def finishRuns (s : State) : State :=
  forEach (s.flint.runs.filter (·.ended.isSome)) (fun r => endRun r (r.ended.getD stOk) false) s

/-- A cluster is back: its CL bit once SCH serves, BROWN# where it was awaited, and its share of the step with those of the clusters
whose CCC is FAULTED (R22, R32, R100, R103). -/
def clusterUp (n : Nat) (s : State) : State :=
  if !s.isReady rSch then s
  else
    let back := (List.range 8).filter (fun k => k == n || ((s.proc (agCcc k)).state == .faulted && (s.proc (agCcc k)).revoked))
    brownCheck (updBrown (fun b => { b with awaited := b.awaited.erase n }) (forEach back stepRegains (setReady (rCl n) true s)))

/-- SCH takes mailbox rings and KV page frames over under its new epoch (R101). -/
def takeOver (s : State) : State :=
  let e := (s.proc agSch).aepoch
  let own := fun (t : Tag) => if t.agent = agSch then { t with aepoch := e } else t
  { s with
    funcs := Tab.mapVals s.funcs (fun _ x => { x with rings := Tab.mapVals x.rings (fun _ r => { r with tag := own r.tag }) }),
    kv := { s.kv with frames := Tab.mapVals s.kv.frames (fun _ r => { r with tag := own r.tag }) } }

/-- SCH serves: bits that waited for it are set, and events that waited are posted in order (R22, R33, R104, R205). -/
def schUp (s : State) : State :=
  let t := takeOver (issueVision (takeTables (setReady rSch true s)))
  let t := forEach (List.range 8) (fun n t => if (t.proc (agCcc n)).state == .running then clusterUp n t else t) t
  let t := setReady rFlint true t
  let late := t.boot.late
  let hbm := t.boot.lateHbm
  let kept := t.brown.kept
  let t := updBrown (fun b => { b with kept := [] }) { t with boot := { t.boot with late := [], lateHbm := [] } }
  let t := forEach kept (fun ev t => postEvent evBrown stOk (ev.kind + ev.depth * 2 ^ 8 + ev.dur * 2 ^ 16) t) t
  let t := forEach hbm (fun h t => postEvent evHbm stOk h t) t
  finishRuns (forEach late (fun d t => postEvent evFw stOk d t) t)

/-- SEC runs (R102): the endpoint answers, the interrupted stage is settled, and faults that waited are handled. -/
def secUp (reset : Bool) (s : State) : State :=
  let t := setReady rSecRom true { s with
    side := { s.side with up := true }, link := { s.link with secResetBusy := false } }
  let t := updPower (fun p => { p with alert := p.alert &&& 0x7F#8 }) t
  let t := if reset then procEvent 0 5 (mendJournal t) else t
  let t := forEach (Tab.keys t.fab.ports) keyWork t
  forEach ((List.range 11).filter (fun p => (t.proc p).waitingSec)) (fun p t =>
    revoke p (t.proc p).lastCause (updProc p (fun x => { x with waitingSec := false }) t)) t

/-- A cluster is left FAULTED: it is no longer awaited, and the resets that awaited it know (R32, R33). -/
def clusterFaulted (n : Nat) (s : State) : State :=
  if s.brown.awaited.contains n then
    brownCheck (updBrown (fun b => { b with
      awaited := b.awaited.erase n, faulted := b.faulted || b.reset, due := b.due.map (fun d => { d with faulted := d.reset }) }) s)
  else s

/-- A processor may set RUNNING now (R32, R82, R89, R90, R92, R98, R99): it is loading or reloading and its revocation is done. A
reload is SEC's work, or for SEC its ROM's, and finds its image good; a CCC waits for the rail, and to restart one is SCH's work. -/
def State.mayRun (s : State) (p : Nat) : Bool :=
  let x := s.proc p
  (x.state == .loading || (x.state == .restarting && x.revoked && x.deferred.isNone) ||
    (x.state == .handoff && (s.hand.map (·.agent)) == some p)) &&
    (x.state == .loading || ((p == 0 || s.secRuns) && (s.imageGood p || x.pushed))) &&
    (p < 3 || (!s.brown.dip && (x.state != .restarting || (s.proc agSch).state == .running))) &&
    !(p == 0 && s.boot.secOnly)

end Sys2Proof.Machine
end

