-- ==== Sys2Proof/Machine/OpsMail.lean ====
section
/-! DEFINITION. Registers as the host writes them (R40, R57 to R59, R65, R74, R78, R84), counters as the host reads them
(R242, R259, R460), and what mailbox commands do with their handle (R66). -/

namespace Sys2Proof.Machine

/-! ## Counters (R459 to R461) -/

/-- Granules held by the ghosts of a function, or by all (R259). -/
def State.ghostGrans (s : State) (f : Option Nat) : Nat :=
  ((s.kv.ghosts.filter (fun e => match f with | none => true | some f => s.ctxFn e.2.req == f)).map
    (fun e => e.2.gmap.grans.length)).sum

/-- What function f reads of counter k: the PF the whole-part value, a VF its own, and 0 for a Part counter. -/
def State.counter (s : State) (f k : Nat) : Nat :=
  if counterCount ≤ k then 0
  else if k = cKvFramesFree then s.framesFree
  else if k = cKvGranulesGhost then s.ghostGrans (if f = 0 then none else some f)
  else if f = 0 then Tab.get 0 s.cnt k
  else if isTenant k then Tab.get 0 s.fcnt (4096 * f + k)
  else 0

/-- Clear the counters that a function reads (R461); levels and other functions' values stay. -/
def clearCounters (f : Nat) (s : State) : State :=
  if f = 0 then { s with cnt := [] } else { s with fcnt := Tab.keep s.fcnt (fun k _ => k / 4096 != f) }

/-! ## Ring registers and doorbells (R58, R59) -/

/-- A vector in the range a CQ may use: 1 to 63 in the PF, 1 to 15 in a VF (R57). -/
def vectorOk (f v : Nat) : Bool := decide (0 < v) && decide (v < vectorsOf f)

/-- A configuration that R58 accepts. -/
def ringOk (f : Nat) (r : Ring) : Bool :=
  r.sqBase.toNat % 4096 == 0 && r.cqBase.toNat % 4096 == 0 && decide (4 ≤ r.sqLog.toNat ∧ r.sqLog.toNat ≤ 16) &&
    decide (4 ≤ r.cqLog.toNat ∧ r.cqLog.toNat ≤ 16) && vectorOk f r.vector.toNat

/-- A write of RING_CFG of ring pair 0 (R57, R58). -/
def wrRingCfg (f : Nat) (v : BitVec 32) (s : State) : State :=
  let r := s.ring f 0
  if r.enable then (if v.getLsbD 31 then bump f cViolIarekRing s else stopRing f 0 s)
  else
    let r' := { r with vector := BitVec.ofNat 6 (bits v 25 6), weight := BitVec.ofNat 4 (bits v 21 4),
                       sqLog := BitVec.ofNat 5 (bits v 16 5), cqLog := BitVec.ofNat 5 (bits v 11 5) }
    if !v.getLsbD 31 then updRing f 0 (fun _ => r') s
    else if ringOk f r' then startRing f 0 (fun _ => r') s
    else bump f cViolIarekRing (updRing f 0 (fun _ => r') s)

/-- A write of a half of SQ_BASE or CQ_BASE of ring pair 0 (R58). -/
def wrRingBase (f : Nat) (cq high : Bool) (v : BitVec 32) (s : State) : State :=
  if (s.ring f 0).enable then bump f cViolIarekRing s
  else
    let put := fun (x : BitVec 64) => setBits x (if high then 32 else 0) 32 v.toNat
    updRing f 0 (fun r => if cq then { r with cqBase := put r.cqBase } else { r with sqBase := put r.sqBase }) s

/-- A write of RING_COAL (R57, R58, R64). -/
def wrRingCoal (f q : Nat) (v : BitVec 32) (s : State) : State :=
  updRing f q (fun r => { r with coalUs := BitVec.ofNat 8 (bits v 8 8), coalN := BitVec.ofNat 8 (bits v 0 8) }) s

/-- A write of SQ_TAIL_DB (R59, R78, R79). -/
def wrSqTail (f q : Nat) (v : BitVec 32) (s : State) : State :=
  let x := s.fn f
  let r := s.ring f q
  let n := r.sqSize
  if x.expired then bump f cViolLeaseLate s
  else if !r.enable || decide (n ≤ v.toNat) then bump f cViolIarekDoorbell s
  else if n ≤ (v.toNat + n - r.sqTail) % n + (r.sqTail + n - r.sqHead) % n then bump f cViolIarekDoorbell s
  else
    updFn f (fun x => { x with armed := x.armed || q == 0 }) (updRing f q (fun r => { r with sqTail := v.toNat }) s)

/-- A write of CQ_HEAD_DB (R59, R63, R79). -/
def wrCqHead (f q : Nat) (v : BitVec 32) (s : State) : State :=
  let x := s.fn f
  let r := s.ring f q
  let n := r.cqSize
  if x.expired then bump f cViolLeaseLate s
  else if !r.enable || decide (n ≤ v.toNat) then bump f cViolIarekDoorbell s
  else if (r.cqTail + n - r.cqHead) % n < (v.toNat + n - r.cqHead) % n then bump f cViolIarekDoorbell s
  else pauseNow (flushHeld f q (updRing f q (fun r => { r with cqHead := v.toNat }) s))

/-! ## Direct slot, cancellation, lease (R65, R74, R78, R79) -/

/-- A write of 32 bits of DIRECT_CMD (R65). -/
def wrDirectCmd (f off : Nat) (v : BitVec 32) (s : State) : State :=
  if (s.fn f).busy then bump f cViolIarekDoorbell s
  else updFn f (fun x => { x with directCmd := setBits x.directCmd (8 * off) 32 v.toNat }) s

/-- A write of DIRECT_DB (R65): BUSY is set; an opcode that the slot does not serve is dropped at once (R67), and a value other than 1 is
ignored (DESIGN CHOICE, log 62). -/
def wrDirectDb (f : Nat) (v : BitVec 32) (s : State) : State :=
  let x := s.fn f
  if x.busy then bump f cViolIarekDoorbell s
  else if v ≠ 1#32 then s
  else if !isAdminOp (bits x.directCmd 0 16) then bump f cViolIarekOpcode s
  else updFn f (fun x => { x with directCpl := x.directCpl ||| BitVec.ofNat 512 (2 ^ 505) }) s

/-- The context of a live request of a function by its handle. -/
def State.liveRequest (s : State) (f h : Nat) : Option Nat :=
  ((s.homeOf f).find? (fun e => e.2.handle == h)).map (·.1)

/-- A handle reaches CANCEL_DB (R66, R74). -/
def cancelHandle (f : Nat) (h : BitVec 64) (s : State) : State :=
  match s.liveRequest f h.toNat with
  | some i => endRequest i eCancelled s
  | none =>
    match handleIs s f kRequest h.toNat false with
    | .bad => bump f cViolIarekHandle s
    | _ => s

/-- The low half of CANCEL_DB is held (R74). -/
def wrCancelLow (f : Nat) (v : BitVec 32) (s : State) : State := updFn f (fun x => { x with cancelLow := some v }) s

/-- The high half of CANCEL_DB (R74). -/
def wrCancelHigh (f : Nat) (v : BitVec 32) (s : State) : State :=
  match (s.fn f).cancelLow with
  | none => bump f cViolBarAccess s
  | some l => cancelHandle f (v ++ l) (updFn f (fun x => { x with cancelLow := none }) s)

/-- A write of LEASE_CTRL (R78). -/
def wrLeaseCtrl (f : Nat) (v : BitVec 32) (s : State) : State :=
  if (s.fn f).expired then bump f cViolBarWrite s
  else
    let p := bits v 0 14
    let t := updFn f (fun x => { x with policy := BitVec.ofNat 2 (bits v 30 2) }) s
    if 10 ≤ p ∧ p ≤ 10000 then updFn f (fun x => { x with period := BitVec.ofNat 14 p }) t else bump f cViolBarWrite t

/-- A write of LEASE_HEARTBEAT (R78, R79). -/
def wrHeartbeat (f : Nat) (s : State) : State := if (s.fn f).expired then bump f cViolLeaseLate s else s

/-! ## Any register (R39, R40, R57, R84, R458) -/

/-- A write of an MSI-X table word (R43): unmasking sends what was pending. -/
def wrMsix (f off : Nat) (v : BitVec 32) (s : State) : State :=
  let k := off / 16
  let g := fun (m : MsixVec) =>
    match off % 16 / 4 with
    | 0 => { m with addr := setBits m.addr 0 32 v.toNat }
    | 1 => { m with addr := setBits m.addr 32 32 v.toNat }
    | 2 => { m with data := v }
    | _ => { m with mask := v.getLsbD 0 }
  sendPending f (updFn f (fun x => { x with msix := Tab.upd {} x.msix k g }) s)

/-- What a write of BOOT_CTRL does, in the PF (R85). -/
def bootCtrl (v : BitVec 32) (s : State) : State :=
  if !v.getLsbD 0 then s
  else
    let b := s.boot
    if (b.state == .wait || b.state == .refused) && b.src.toNat % 4096 == 0 &&
        decide (1024 ≤ b.len.toNat ∧ b.len.toNat ≤ 4194304) && (s.fn 0).bme then
      { s with boot := { b with state := .fetch, fetching := true } }
    else bumpPart cViolBootChannel s

/-- What a 32-bit write at an offset of BAR4 or BAR0 does, none where the function has no writable field there. -/
def regWriter (f : Nat) (bar4 : Bool) (off : Nat) : Option (BitVec 32 → State → State) :=
  if bar4 then (if off < 16 * vectorsOf f then some (wrMsix f off) else none)
  else if off = 0x34 then
    (if f = 0 then some (fun v => updPower (fun p => { p with alert := p.alert &&& ~~~ (BitVec.ofNat 8 v.toNat &&& 0x7F#8) })) else none)
  else if off = 0x108 then some (wrLeaseCtrl f)
  else if off = 0x110 then some (fun _ => wrHeartbeat f)
  else if off = 0x118 then some (wrCancelLow f)
  else if off = 0x11C then some (wrCancelHigh f)
  else if off = 0x120 then some (wrDirectDb f)
  else if 0x180 ≤ off ∧ off < 0x1C0 then some (wrDirectCmd f (off - 0x180))
  else if 0x200 ≤ off ∧ off < 0xA00 then
    let q := (off - 0x200) / 0x40
    match (off - 0x200) % 0x40 with
    | 0x14 => some (wrRingCoal f q)
    | 0x00 => if q = 0 then some (wrRingBase f false false) else none
    | 0x04 => if q = 0 then some (wrRingBase f false true) else none
    | 0x08 => if q = 0 then some (wrRingBase f true false) else none
    | 0x0C => if q = 0 then some (wrRingBase f true true) else none
    | 0x10 => if q = 0 then some (wrRingCfg f) else none
    | _ => none
  else if 0x1000 ≤ off ∧ off < 0x1100 then
    let q := (off - 0x1000) / 8
    if off % 8 = 0 then some (wrSqTail f q) else some (wrCqHead f q)
  else if f = 0 ∧ off = 0x8000 then some bootCtrl
  else if f = 0 ∧ off = 0x8008 then some (fun v s => { s with boot := { s.boot with src := setBits s.boot.src 0 32 v.toNat } })
  else if f = 0 ∧ off = 0x800C then some (fun v s => { s with boot := { s.boot with src := setBits s.boot.src 32 32 v.toNat } })
  else if f = 0 ∧ off = 0x8010 then some (fun v s => { s with boot := { s.boot with len := v } })
  else none

/-! ## Handles of commands (R66, R67) -/

/-- Run a command on its handle: a violation is dropped; a stale handle completes OK on an unload or free command (`free`)
and is a violation on any other. -/
def Cmd.withHandle (c : Cmd) (kind : Nat) (live free : Bool) (run : State → State) (s : State) : State :=
  match handleIs s c.f kind c.e.handle.toNat live with
  | .live => run s
  | .stale => if free then c.end stOk s else c.drop cViolIarekHandle s
  | .bad => c.drop cViolIarekHandle s

/-- A stack has been lost: what needs HBM is answered E_NOTREADY with RETRY_AFTER 0 until the next reset (R205). -/
def State.hbmLost (s : State) : Bool := s.hbm.any (fun e => e.2.lost)

/-- No stack is usable yet (R75). -/
def State.hbmNone (s : State) : Bool := s.store.nStacks == 0

/-- Run a command that needs HBM (R75, R205). -/
def Cmd.needsHbm (c : Cmd) (run : State → State) (s : State) : State :=
  if s.hbmLost then c.endRetry eNotReady 0 s else if s.hbmNone then c.end eNotReady s else run s

end Sys2Proof.Machine
end

