-- ==== Sys2Proof/Machine/Spdm.lean ====
section
/-! DEFINITION. The SPDM responder of SEC (05 R109 to R112). Its request and response codes are SPDM's (PRESUMED, log 34). -/

namespace Sys2Proof.Machine

/-- Change SEC's state. -/
def updSec (g : Sec → Sec) (s : State) : State := { s with sec := g s.sec }

/-- SEC answers on a transport: it runs, and the PF's configuration space or the sideband's address is there. -/
def State.answers (s : State) (mctp : Bool) : Bool :=
  s.secRuns && s.isReady rSecRom && (if mctp then s.side.up && s.side.dyn.isSome else s.isReady rCfg)

/-- How far the connection of a transport has got. -/
def Sec.phase (x : Sec) (mctp : Bool) : SpdmPhase := if mctp then x.phaseMctp else x.phaseDoe

/-- ERROR with a code (SPDM response 0x7F). -/
def spdmError (mctp : Bool) (code : Nat) (s : State) : State := emit (.spdm mctp 0x7F [BitVec.ofNat 8 code]) s

/-- A malformed or out-of-sequence request: the ERROR that SPDM prescribes, no change of state, one count (R110). -/
def spdmBad (mctp : Bool) (code : Nat) (s : State) : State := spdmError mctp code (bumpPart cViolSpdm s)

/-- ERROR codes of SPDM. -/
abbrev errInvalid : Nat := 0x01
abbrev errUnexpected : Nat := 0x04
abbrev errUnspecified : Nat := 0x05
abbrev errDecrypt : Nat := 0x06
abbrev errSessions : Nat := 0x0A
abbrev errVersion : Nat := 0x41

/-- Answer a request of a transport: it must be well formed and in sequence. -/
def spdm (mctp wellFormed inSeq : Bool) (run : State → State) (s : State) : Host.Outcome State Fault Refusal :=
  if !s.answers mctp then done s s
  else live s (if !wellFormed then spdmBad mctp errInvalid s else if !inSeq then spdmBad mctp errUnexpected s else run s)

/-- GET_VERSION (R109): it starts a connection anew with the highest version of 1.2 and 1.3 that both ends support. -/
def execGetVersion (mctp : Bool) (v12 : Bool) (v13 : Bool) (wellFormed : Bool) (s : State) : Host.Outcome State Fault Refusal :=
  spdm mctp wellFormed true (fun s =>
    if !v12 && !v13 then spdmBad mctp errVersion s
    else
      let v := if v13 then 0x13 else 0x12
      emit (.spdm mctp 0x04 [0x12, 0x13]) (updSec (fun x => { x with
        phaseMctp := if mctp then .version else x.phaseMctp, phaseDoe := if mctp then x.phaseDoe else .version,
        verMctp := if mctp then v else x.verMctp, verDoe := if mctp then x.verDoe else v }) s)) s

/-- GET_CAPABILITIES (R110): CERT, CHAL, MEAS with signature, MEAS_FRESH, ENCRYPT, MAC, KEY_EX, HBEAT, KEY_UPD and CHUNK. -/
def execGetCapabilities (mctp : Bool) (wellFormed : Bool) (s : State) : Host.Outcome State Fault Refusal :=
  spdm mctp wellFormed (s.sec.phase mctp == .version) (fun s =>
    emit (.spdm mctp 0x61 (toLe 4 (0x02 + 0x04 + 0x10 + 0x20 + 0x40 + 0x80 + 0x200 + 0x2000 + 0x4000 + 0x20000)))
      (updSec (fun x => { x with
        phaseMctp := if mctp then .capabilities else x.phaseMctp, phaseDoe := if mctp then x.phaseDoe else .capabilities }) s)) s

/-- NEGOTIATE_ALGORITHMS (R109): `offers` where the requester offers every algorithm that the responder uses. -/
def execNegotiateAlgorithms (mctp : Bool) (offers : Bool) (wellFormed : Bool) (s : State) : Host.Outcome State Fault Refusal :=
  spdm mctp wellFormed (s.sec.phase mctp == .capabilities) (fun s =>
    if !offers then spdmBad mctp errInvalid s
    else emit (.spdm mctp 0x63 (toLe 4 0x80 ++ toLe 4 0x02 ++ toLe 2 0x10 ++ toLe 2 0x02)) (updSec (fun x => { x with
      phaseMctp := if mctp then .algorithms else x.phaseMctp, phaseDoe := if mctp then x.phaseDoe else .algorithms }) s)) s

/-- A request that needs the certificate chain: ERROR Unspecified where the identity area has failed (R110), or where no AK
has been derived yet (log 34). -/
def withChain (mctp : Bool) (slot : Nat) (run : State → State) (s : State) : State :=
  if !s.sec.identityOk || !s.sec.akReady then spdmError mctp errUnspecified s
  else if slot ≠ 0 then spdmBad mctp errInvalid s
  else run s

/-- GET_CERTIFICATE (R110). -/
def execGetCertificate (mctp : Bool) (slot : Nat) (off : Nat) (len : Nat) (wellFormed : Bool) (s : State) :
    Host.Outcome State Fault Refusal :=
  spdm mctp wellFormed (s.sec.phase mctp == .algorithms) (withChain mctp slot (fun s =>
    let chain := s.chain
    if chain.length < off then spdmBad mctp errInvalid s else emit (.spdm mctp 0x02 (slice chain off len)) s)) s

/-- CHALLENGE (R110): the AK signs the requester's nonce. -/
def execChallenge (mctp : Bool) (slot : Nat) (nonce : BitVec 256) (wellFormed : Bool) (s : State) :
    Host.Outcome State Fault Refusal :=
  spdm mctp wellFormed (s.sec.phase mctp == .algorithms) (withChain mctp slot (fun s =>
    emit (.spdm mctp 0x03 (Config.akSign s.sec.ak (toLe 32 nonce.toNat ++ toLe 48 (Config.sha384 s.chain).toNat))) s)) s

/-- The lowest session number that is free. -/
def Sec.newSession (x : Sec) : Nat := ((List.range 5).find? (fun i => !x.sessions.any (·.id == i + 1))).getD 0 + 1

/-- KEY_EXCHANGE (R109): at most 4 sessions over both transports. -/
def execKeyExchange (mctp : Bool) (slot : Nat) (share : Bytes) (wellFormed : Bool) (s : State) : Host.Outcome State Fault Refusal :=
  spdm mctp wellFormed (s.sec.phase mctp == .algorithms) (withChain mctp slot (fun s =>
    if 4 ≤ s.sec.sessions.length then spdmError mctp errSessions s
    else
      let id := s.sec.newSession
      emit (.spdm mctp 0x64 (toLe 2 id ++ Config.akSign s.sec.ak share)) (updSec (fun x => { x with
        sessions := x.sessions ++ [{ id := id, via := if mctp then .mctp else .doe, established := false, updates := 0 }] }) s))) s

/-- A session by its number. -/
def Sec.session (x : Sec) (id : Nat) : Option Session := x.sessions.find? (·.id == id)

/-- A request inside a session: it must exist and be as far as the request needs. -/
def inSession (id : Nat) (established wellFormed : Bool) (run : Session → State → State) (s : State) :
    Host.Outcome State Fault Refusal :=
  match s.sec.session id with
  | none => spdm false wellFormed false (fun s => s) s
  | some x => spdm (x.via == .mctp) wellFormed (x.established == established) (run x) s

/-- FINISH (R109): the handshake that KEY_EXCHANGE began is complete. -/
def execFinish (session : Nat) (macOk : Bool) (wellFormed : Bool) (s : State) : Host.Outcome State Fault Refusal :=
  inSession session false wellFormed (fun x s =>
    if !macOk then spdmBad (x.via == .mctp) errDecrypt s
    else emit (.spdm (x.via == .mctp) 0x65 []) (updSec (fun y => { y with
      sessions := y.sessions.map (fun z => if z.id = session then { z with established := true } else z) }) s)) s

/-- END_SESSION (R109). -/
def execEndSession (session : Nat) (wellFormed : Bool) (s : State) : Host.Outcome State Fault Refusal :=
  inSession session true wellFormed (fun x s =>
    emit (.spdm (x.via == .mctp) 0x6C []) (updSec (fun y => { y with sessions := y.sessions.filter (·.id != session) }) s)) s

/-- KEY_UPDATE (R110). -/
def execKeyUpdate (session : Nat) (wellFormed : Bool) (s : State) : Host.Outcome State Fault Refusal :=
  inSession session true wellFormed (fun x s =>
    emit (.spdm (x.via == .mctp) 0x69 []) (updSec (fun y => { y with
      sessions := y.sessions.map (fun z => if z.id = session then { z with updates := z.updates + 1 } else z) }) s)) s

/-- HEARTBEAT (R110). -/
def execHeartbeat (session : Nat) (wellFormed : Bool) (s : State) : Host.Outcome State Fault Refusal :=
  inSession session true wellFormed (fun x s => emit (.spdm (x.via == .mctp) 0x68 []) s) s

/-- A thermometer code of n bits blown (R105). -/
def thermometer (n : Nat) : Nat := 2 ^ n - 1

/-- The content of a measurement block (R111); the form of raw blocks is log 34. -/
def measurement (k : Nat) (s : State) : Bytes :=
  match k with
  | 1 => toLe 48 Config.romDigest.toNat
  | 2 =>
    let r := s.prov.record
    let tries := ((s.inForce).map (·.tries)).getD 0
    toLe 48 ((r.map (·.digest.toNat)).getD 0) ++ toLe 1 s.prov.slot ++ toLe 4 ((r.map (·.seq.toNat)).getD 0) ++ toLe 1 tries
  | 3 => toLe 8 (thermometer s.fuses.fwSvn) ++ toLe 8 (thermometer s.fuses.provSvn) ++ toLe 1 s.fuses.keyRevoke.toNat ++
      toLe 48 s.fuses.ownerHash.toNat ++ toLe 1 s.fuses.debugLock.toNat
  | 4 => ((s.boot.slotA.toList ++ (if s.slotUsed true then s.boot.slotB.toList else [])).map (fun b => toLe 48 (Config.sha384 (b.bytes.take 0x360)).toNat)).flatten
  | 16 => Config.kwkPub s.fuses.deviceSeed s.fwFloor
  | 17 => toLe 4 s.link.winUnits ++ (((s.prov.record.map (·.split)).getD []).map (toLe 1)).flatten ++
      (s.sec.ide.map (fun e => toLe 1 e.1 ++ toLe 1 (if e.2.1 = .active then 2 else 1))).flatten
  | _ =>
    let p := k - 5
    let x := s.proc p
    let b := if x.slotB then s.boot.slotB else s.boot.slotA
    if x.imaged then ((b.bind (fun b => b.images.find? (·.target == p))).map (fun i => toLe 48 i.digest.toNat)).getD [] else []

/-- DMTFSpecMeasurementValueType of a block: bit 7 raw, bits 6 to 0 ROM, firmware, hardware or firmware configuration (R111;
PRESUMED from DSP0274, log 34). -/
def measurementType (k : Nat) : Nat :=
  if k = 1 then 0 else if k = 3 ∨ k = 17 then 0x82 else if k = 2 ∨ k = 16 then 0x83 else 1

/-- A block in the DMTF measurement format (R111): index, specification, size, value type, value size and value (PRESUMED from
DSP0274, log 34). -/
def measurementBlock (k : Nat) (s : State) : Bytes :=
  let v := measurement k s
  toLe 1 k ++ toLe 1 1 ++ toLe 2 (v.length + 3) ++ toLe 1 (measurementType k) ++ toLe 2 v.length ++ v

/-- The digest of measurement blocks 1 to 4, from which the AK derives (R108). -/
def State.akDigest (s : State) : BitVec 384 := Config.sha384 (([1, 2, 3, 4].map (fun k => measurement k s)).flatten)

/-- The AK is derived and certified, when READY_MAP.FW is set (R107, R108). -/
def deriveAk (svn : Nat) (s : State) : State :=
  updSec (fun x => { x with akReady := true, akSvn := svn, ak := Config.akKey s.fuses.deviceSeed s.akDigest }) s

/-- GET_MEASUREMENTS (R111): operation 0 asks how many blocks there are, 1 to 17 for one, 0xFF for all; the AK signs. -/
def execGetMeasurements (mctp : Bool) (op : Nat) (nonce : BitVec 256) (wellFormed : Bool) (s : State) :
    Host.Outcome State Fault Refusal :=
  spdm mctp wellFormed (s.sec.phase mctp == .algorithms) (fun s =>
    if 17 < op ∧ op ≠ 0xFF then spdmBad mctp errInvalid s
    else if !s.sec.akReady then spdmError mctp errUnspecified s
    else
      let l := if op = 0 then [17#8] else if op = 0xFF then ((List.range 17).map (fun k => measurementBlock (k + 1) s)).flatten
        else measurementBlock op s
      emit (.spdm mctp 0x60 (l ++ toLe 32 nonce.toNat ++ Config.akSign s.sec.ak (l ++ toLe 32 nonce.toNat))) s) s

/-- IDE_KM (R112): keys of stream 0, the link stream, or of a selective stream 1 to 32 are programmed, and then set going. -/
def execIdeKm (session : Nat) (stream : Nat) (go : Bool) (wellFormed : Bool) (s : State) : Host.Outcome State Fault Refusal :=
  inSession session true wellFormed (fun x s =>
    let mctp := x.via == .mctp
    if mctp then spdmBad mctp errUnexpected s
    else if 32 < stream then spdmBad mctp errInvalid s
    else if go then
      match Tab.find s.sec.ide stream with
      | none => spdmBad mctp errUnexpected s
      | some e => emit (.spdm mctp 0x7E [1, BitVec.ofNat 8 stream]) (updSec (fun y => { y with ide := Tab.put y.ide stream (.active, e.2) }) s)
    else
      emit (.spdm mctp 0x7E [0, BitVec.ofNat 8 stream])
        (tookFree (updSec (fun y => { y with ide := Tab.put y.ide stream (.programmed, s.free) }) s))) s

end Sys2Proof.Machine
end

