-- ==== Sys2Proof/Machine/Firmware.lean ====
section
/-! DEFINITION. The commands of the firmware processors: the boot channel, restarts, faults and FW_UPDATE (04). -/

namespace Sys2Proof.Machine

/-- A write of BOOT_CTRL (R84, R85): GO starts the fetch, or is ignored and counted. In a VF the range takes no write. -/
def execBootGo (f : Fn) (v : BitVec 32) (s : State) : Host.Outcome State Fault Refusal :=
  live s (barAccess f.val (fun s =>
    if f.val ≠ 0 then bump f.val cViolBarWrite s else bootCtrl v s) s)

/-- The fetch is over (R86, R87, R88, R102): the bundle is checked, copied to slot A and loaded, or refused. -/
def execBundleFetchComplete (bundle : Option Bytes) (s : State) : Host.Outcome State Fault Refusal :=
  if !s.boot.fetching || !s.isReady rBasalt then done s s
  else
    match checkBundle s.fuses.keyRevoke s.fwFloor s.boot.len.toNat bundle with
    | .error st => live s (bootRefuse st s)
    | .ok b =>
      if s.boot.secOnly then
        if b.abi ≠ s.boot.runAbi then live s (bootRefuse eLevel s)
        else live s (loadFrom b agSec (updProc agSec (fun x => { x with pushed := true })
          { s with boot := { s.boot with state := .running, result := stOk, fetching := false, secOnly := false } }))
      else
        let t := runsImage b { s with
          boot := { s.boot with slotA := some b, state := .running, result := stOk, fetching := false, bad := s.boot.bad.filter (·.1) } }
        let t := deriveAk b.svn t
        let t := forEach (List.range 11) (fun p t => loadImage p
          (updProc p (fun x => { x with state := .loading, imaged := true, slotB := false }) t)) t
        let t := setReady rFw true t
        live s (renew (forEach (Tab.keys (t.fab.ports.filter (fun e => e.2.st = .up))) sendCerts t))

/-- An image sets STATE = RUNNING (R22, R90, R93, R102, R104). -/
def execProcessorRunning (p : AgentId) (s : State) : Host.Outcome State Fault Refusal :=
  if !s.mayRun p.val then done s s
  else
    let x := s.proc p.val
    let again := x.state == .restarting
    let t := updProc p.val (fun y => { y with
      state := if y.imaged then .running else .rom, waitingSec := false,
      restarts := if again then min 255 (y.restarts + 1) else y.restarts, pushed := false })
      (if x.state == .loading || x.pushed then s else loadImage p.val s)
    let t := if x.fresh.isNone then closeHandoff p.val t else t
    let t := match p.val with
      | 0 => secUp (again && x.lastCause == 5) t
      | 1 =>
        let t := if again then updCaps (fun c => { c with pmcLeft := 100, pmcPoint := min 3 t.power.op }) t else t
        if x.imaged then setReady rPmc true t else t
      | 2 =>
        let t := match t.bundleOf 2 with | none => t | some b => runsImage b t
        if t.isReady rSch then t else schUp t
      | n + 3 => clusterUp n t
    let t := if x.fresh.isNone && ((again && p.val != 0 && [2, 3, 4, 7].contains x.lastCause) ||
        (x.state != .loading && x.lastCause == 6)) then procEvent p.val x.lastCause t else t
    live s (pauseNow t)

/-- Whether a processor can fault now (R99): it is neither in reset nor already halted. SEC and PMC run their ROM before any bundle. -/
def State.mayFault (s : State) (p : Nat) : Bool :=
  let x := s.proc p
  (x.state == .rom && decide (p < 2)) || (x.imaged && (x.state == .running || x.state == .loading || x.state == .handoff ||
    (x.state == .restarting && x.revoked && x.deferred.isNone)))

/-- A fault (R93, R99): of a new image that already runs, the image is rolled back; of any other, the fault path. -/
def faultOf (p cause : Nat) (s : State) : State :=
  let x := s.proc p
  let t := if x.fresh.isSome && x.state == .running && (s.upd.bind (·.cur)) == some p then rollBack p true s else procFault p cause s
  if 3 ≤ p ∧ (t.proc p).state = .faulted then clusterFaulted (p - 3) t else t

/-- A watchdog expires (R99). -/
def execWatchdogExpiry (p : AgentId) (s : State) : Host.Outcome State Fault Refusal :=
  if s.mayFault p.val then live s (faultOf p.val 2 s) else done s s

/-- An uncorrectable error in a processor's memory (R99). -/
def execProcessorMemoryUe (p : AgentId) (s : State) : Host.Outcome State Fault Refusal :=
  if s.mayFault p.val then live s (faultOf p.val 3 s) else done s s

/-- A trap inside the trap handler (R99). -/
def execTrapInTrapHandler (p : AgentId) (s : State) : Host.Outcome State Fault Refusal :=
  if s.mayFault p.val then live s (faultOf p.val 4 s) else done s s

/-- A deferred revocation runs once 1 ms has passed since the last advance (R98). -/
def execRevocationDeferred (p : AgentId) (s : State) : Host.Outcome State Fault Refusal :=
  match (s.proc p.val).deferred, (s.proc p.val).lastAdv with
  | some c, some a => if s.time < a + ticksMs then done s s else live s (revokeNow p.val c s)
  | _, _ => done s s

/-- A new image has not set RUNNING in time, or faulted early (R93). -/
def execPauseLimitExpiry (p : AgentId) (s : State) : Host.Outcome State Fault Refusal :=
  if (s.proc p.val).fresh.isSome && (s.proc p.val).state != .running && (s.upd.bind (·.cur)) == some p.val then
    live s (rollBack p.val false s)
  else done s s

/-- The old image writes its handoff block, and the new one is loaded (R92). -/
def execHandoffSafePoint (p : AgentId) (block : Bytes) (s : State) : Host.Outcome State Fault Refusal :=
  match s.upd with
  | none => done s s
  | some u =>
    let x := s.proc p.val
    if u.cur ≠ some p.val ∨ x.state ≠ .handoff ∨ x.fresh.isSome ∨ (procMem p.val).2 < block.length then done s s
    else
      let fmt := (((s.bundleOf p.val).bind (·.image p.val)).map (·.fmt)).getD 0
      live s (updProc p.val (fun x => { x with slotB := u.toB, fresh := some true })
        { s with hand := some { agent := p.val, fmt := fmt, block := block } })

/-- A target has run its new image for long enough (R93, R94, R104): the event, and the next target. SEC does this, so it waits while
SEC is down. -/
def execFwTargetReplaced (p : AgentId) (s : State) : Host.Outcome State Fault Refusal :=
  let x := s.proc p.val
  match x.fresh with
  | none => done s s
  | some h =>
    if (s.upd.bind (·.cur)) ≠ some p.val ∨ x.state ≠ .running ∨ s.secRuns = false then done s s
    else live s (nextTarget (replaced p.val h s))

/-- FW_UPDATE (R94, R95): the checks, and the first target. -/
def execFwUpdate (f : Fn) (src : Src) (bundle : Option Bytes) (s : State) : Host.Outcome State Fault Refusal :=
  command f.val opFwUpdate src [(0x10, 8), (0x18, 4), (0x1C, 2), (0x1E, 1)] true (fun c t =>
    let targets := c.arg 0x1C 2
    let mode := c.arg 0x1E 1
    if targets = 0 ∨ 2048 ≤ targets ∨ 1 < mode ∨ (mode = 1 ∧ !t.boot.cap.getLsbD capHandoff) then c.drop cViolIarekField t
    else if !t.secTakes then c.endRetry eBusy 0 t
    else if t.upd.isSome || (List.range 11).any (fun p => (t.proc p).state == .restarting) || t.prov.stage.isSome then c.end eBusy t
    else if mode = 1 ∧ !(List.range 6).any (fun h => (Tab.get {} t.hbm h).usable) then c.end eBusy t
    else if t.slotUsed false && t.slotUsed true then c.end eLevel t
    else
      match checkBundle t.fuses.keyRevoke t.fwFloor (c.arg 0x18 4) bundle with
      | .error st => c.end st t
      | .ok b =>
        let list := ([3, 4, 5, 6, 7, 8, 9, 10, 2, 1, 0] : List Nat).filter (fun p => targets.testBit p)
        let sameFmt := fun p =>
          let new := ((b.image p).map (·.fmt)).getD 0
          new != 0 && some new == ((t.bundleOf p).bind (·.image p)).map (·.fmt)
        if b.abi ≠ t.boot.runAbi ∨ (mode = 1 ∧ !list.all sameFmt) then c.end eLevel t
        else
          let toB := t.slotUsed false
          nextTarget { t with
            upd := some { fn := f.val, q := srcQ c.src, tag := c.e.tag, todo := list, cur := none, handoff := mode == 1, toB := toB,
                          orphan := false },
            boot := { t.boot with
              state := .updating, slotA := if toB then t.boot.slotA else some b, slotB := if toB then some b else t.boot.slotB,
              bad := t.boot.bad.filter (·.1 != toB) } }) s

/-- A write of 1 to SEC_RESET of the PF's DVSEC (R44, R94, R102), and whether SEC's image in the store passes its checks when
the ROM reloads it. -/
def execSecReset (imageOk : Bool) (s : State) : Host.Outcome State Fault Refusal :=
  if !s.isReady rCfg || (s.fn 0).flr then live s (emit (.cfgRetry 0) s)
  else if s.link.secResetBusy then live s (bump 0 cViolCfgWrite s)
  else
    let cur := s.upd.bind (·.cur)
    let t := stageBusy s
    let t := match cur with
      | none => t
      | some p => match (t.proc p).state, (t.proc p).fresh with
        | .running, some h => replaced p h t
        | _, _ => updProc p (fun x => { x with
            slotB := x.oldSlotB, fresh := none,
            state := if x.halted then .faulted else if x.state = .handoff ∧ t.hand.isNone then .running else x.state }) t
    let t := if t.upd.isSome then finishUpdate eBusy t else t
    let t := updProc 0 (fun x => { x with
      state := .restarting, lastCause := 5, faults := if x.state = .faulted then [] else x.faults, halted := false,
      waitingSec := false, revoked := false }) t
    let t := revoke 0 5 (stopped 0 { t with link := { t.link with secResetBusy := true } })
    let boot := if (t.proc 0).imaged && !(imageOk && t.imageGood 0) then { t.boot with state := .wait, secOnly := true }
      else if t.boot.fetching then { t.boot with state := .wait, fetching := false }
      else t.boot
    live s { t with boot := boot }

/-! ## PROV_STAGE (R128, R130, R131) -/

/-- The free record slot: the one the running record does not occupy (R128, R130). -/
def State.freeSlot (s : State) : Nat := if s.prov.slot = 0 then 1 else 0

/-- RESULT of PROV_STAGE: SLOT. -/
def slotResult (y : Nat) : BitVec 320 := result [(0, 1, y)]

/-- PROV_STAGE: the first entry of the stage is written; its end comes with the NOR's (R128). -/
def execProvStage (f : Fn) (src : Src) (data : Bytes) (s : State) : Host.Outcome State Fault Refusal :=
  command f.val opProvStage src [(0x10, 1), (0x18, 8), (0x20, 4)] true (fun c t =>
    let stage := c.arg 0x10 1
    let len := c.arg 0x20 4
    let data := fit len data
    if 3 < stage ∨ (stage = 0 ∧ (len = 0 ∨ 131072 < len)) then c.drop cViolIarekField t
    else if !t.secTakes then c.endRetry eBusy 0 t
    else if t.prov.stage.isSome || t.upd.isSome || t.nor.busy then c.end eBusy t
    else
      let y := t.freeSlot
      let go := fun (u : State) => { u with prov := { u.prov with stage := some (stage, f.val, srcQ c.src, c.e.tag, data) } }
      match t.inForce with
      | none => c.drop cViolProvOrder t
      | some e =>
        match stage, e.state with
        | 0, .idle | 0, .downloaded | 0, .verified | 0, .invalid =>
          let u := journal .downloading y t.prov.slot 0 (putSlot y data t)
          go (putSlot y [] u)
        | 1, .downloaded => go (journal .verifying e.slot e.xslot 0 t)
        | 2, .verified => go (journal .activating e.slot e.xslot 0 t)
        | 3, .trial => if e.slot = t.prov.slot then go (journal .confirming e.slot e.xslot 0 t) else c.drop cViolProvOrder t
        | _, _ => c.drop cViolProvOrder t) s

/-- The NOR or the fuses have finished a stage (R128, R131). After a boot that polled for the NOR in vain no stage is in progress, and
none begins before the next reset of the whole part (R23, log 28). -/
def execNorOperationDone (s : State) : Host.Outcome State Fault Refusal :=
  match s.prov.stage, s.inForce with
  | some (stage, f, q, tag, data), some e =>
    if (s.proc agSec).state ≠ .running then done s s
    else
      let y := e.slot
      let seq := (s.prov.record.map (·.seq)).getD 0
      let ok := recordOk s.fuses false (s.slot y)
      let (st, t) := match stage with
        | 0 => (stOk, journal .downloaded y e.xslot 0 (putSlot y data s))
        | 1 => if ok && decide (seq < rdBV 32 (s.slot y) 8) then (stOk, journal .verified y e.xslot 0 s)
            else (eSig, journal .invalid y e.xslot 0 s)
        | 2 => if ok then (stOk, journal .trial y e.xslot 0 s) else (eSig, journal .invalid y e.xslot 0 s)
        | _ => (stOk, journal .idle y y 0 (programFuses (s.slot y) s))
      let t := { t with prov := { t.prov with stage := none } }
      live s (if f < 32 then
          complete f q { kind := 0, status := st, tag := tag, result := slotResult y, opcode := opProvStage } t
        else t)
  | _, _ => done s s

end Sys2Proof.Machine
end

