-- ==== Sys2Proof/Machine/Operands.lean ====
section
/-! DEFINITION. The operand forms of vector instructions (07 R169): Slate, plane rows, Grains and scalars, with the scales of
MX rows, and how a result row is written. -/

namespace Sys2Proof.Machine

/-- Where a part of an operand row lies. -/
inductive Loc where
  | slate (u : Nat)
  | plane (p r : Nat)
  | grains (sideB : Bool) (buf r : Nat)
  | scalar (r : Nat)
  deriving DecidableEq, Repr

/-- Where an operand stands with a core. -/
inductive OpState where
  | ready | waits | bounds | field
  deriving DecidableEq, Repr

/-- Side, buffer and row that a Grains descriptor's BASE names (R169). -/
def VDesc.sideB (d : VDesc) : Bool := d.base / 16384 % 2 == 1
def VDesc.buf (d : VDesc) : Nat := (d.base / 8192 % 2).toNat
def VDesc.row (d : VDesc) : Int := d.base % 256

/-- The places of row j of an operand, none where it leaves its plane or buffer, or lies below 0. -/
def VDesc.locs (d : VDesc) (j : Nat) : Option (List Loc) :=
  let n := d.fmt.rowUnits
  match d.kind with
  | 0#2 =>
    let b := d.base + j * d.stride
    if b < 0 then none else some ((List.range n).map (fun i => .slate (b.toNat + i)))
  | 1#2 =>
    let r := d.base % 64 + j * d.stride
    if r < 0 ∨ 63 < r then none else some [.plane (d.base / 64 % 2).toNat r.toNat]
  | 2#2 =>
    let r := d.row + j * d.stride
    if r < 0 ∨ 256 < r + n then none else some ((List.range n).map (fun i => .grains d.sideB d.buf (r.toNat + i)))
  | _ => some [.scalar (d.base % 16).toNat]

/-- How row j of a source stands: inside the data region, its plane FULL, its Grains present. -/
def Core.source (c : Core) (d : VDesc) (j : Nat) : OpState :=
  match d.locs j with
  | none => if d.kind = 0#2 then .bounds else .field
  | some l =>
    if l.any (fun x => match x with | .slate u => decide (c.dataUnits ≤ u) | _ => false) then .bounds
    else if l.any (fun x => match x with
      | .plane p _ => c.planeSt p != .full
      | .grains b k r => if b then !c.hasB k (r / 64) else !c.hasA k (r / 16)
      | _ => false) then .waits
    else .ready

/-- How row j of a destination stands; a scalar is no destination of a row, and a plane is written while it is FULL. -/
def Core.dest (c : Core) (d : VDesc) (j : Nat) : OpState :=
  match d.locs j with
  | none => if d.kind = 0#2 then .bounds else .field
  | some l =>
    if d.kind = 3#2 then .field
    else if l.any (fun x => match x with | .slate u => decide (c.dataUnits ≤ u) | _ => false) then .bounds
    else if l.any (fun x => match x with | .plane p _ => c.planeSt p != .full | _ => false) then .waits
    else .ready

/-- The worst of several operand rows. -/
def OpState.all (l : List OpState) : OpState :=
  if l.contains .bounds then .bounds else if l.contains .field then .field else if l.contains .waits then .waits else .ready

/-- Contents and scale bytes of one place. -/
def Core.read (c : Core) (x : Loc) : Nat × Nat :=
  match x with
  | .slate u => ((c.unit u).toNat, (c.shadowOf u).toNat)
  | .plane p r => ((c.planeRow p r).toNat, 0)
  | .grains b k r => if b then ((c.bRow k r).toNat, (c.bSide k r).toNat) else ((c.aRow k r).toNat, (c.aSide k r).toNat)
  | .scalar r => ((Tab.get 0#32 c.sr r).toNat, 0)

/-- The bits of a row, and the scale bytes of its first unit. -/
def Core.rowBits (c : Core) (d : VDesc) (j : Nat) : Nat × Nat :=
  match d.locs j with
  | none => (0, 0)
  | some l =>
    (l.foldr (fun x a => (c.read x).1 + 2 ^ 512 * a) 0, match l with | [] => 0 | x :: _ => (c.read x).2)

/-- The codes of a row's 64 elements; a scalar is presented to every lane. -/
def Core.codes (c : Core) (d : VDesc) (j : Nat) : List Nat :=
  let b := (c.rowBits d j).1
  (List.range 64).map (fun i => if d.kind = 3#2 then b else d.fmt.elem b i)

/-- The values of a row's 64 elements, block scales included (R141). -/
def Core.values (c : Core) (d : VDesc) (j : Nat) : List Num :=
  let sc := (c.rowBits d j).2
  (c.codes d j).zipIdx.map (fun (x, i) =>
    if d.kind = 3#2 then f32.value x
    else if d.fmt.isMx then scaled (d.fmt.value x) (sc / 2 ^ (8 * (i / 32)) % 256) else d.fmt.value x)

/-- A row of FP32 codes, for an FP32 or BF16 operand or a scalar: BF16 widens exactly. -/
def Core.row32 (c : Core) (d : VDesc) (j : Nat) : List (BitVec 32) :=
  (c.codes d j).map (fun x => BitVec.ofNat 32 (if d.kind ≠ 3#2 ∧ d.fmt = .bf16 then x * 65536 else x))

/-- FP32 or BF16, which alone the vector unit computes with (R141). -/
def VDesc.computes (d : VDesc) : Bool := d.kind == 3#2 || d.fmt == .fp32 || d.fmt == .bf16

/-- Write row j of a result, its element codes and, for an MX format, its two scale bytes. A 4-bit row takes the low half of
its unit; a 6-bit row its first 48 bytes. -/
def Core.rowWrites (c : Core) (d : VDesc) (j : Nat) (codes : List Nat) (scales : List Nat) : List Write :=
  let v := d.fmt.pack codes
  match d.locs j with
  | none => []
  | some l => (l.zipIdx.map (fun (x, i) =>
      let old := (c.read x).1
      let u : Unit64 :=
        if d.fmt.bits = 4 then BitVec.ofNat 512 (v + old / 2 ^ 256 * 2 ^ 256)
        else if d.fmt.bits = 6 then BitVec.ofNat 512 (v + (Config.pad6 v).toNat * 2 ^ 384)
        else unitOf v i
      let sc := BitVec.ofNat 32 ((c.read x).2 / 65536 * 65536 + scales.getD 0 0 + 256 * scales.getD 1 0)
      match x with
      | .slate n => if d.fmt.isMx && c.hasShadow then [.slate n u, .shadow n sc] else [.slate n u]
      | .plane p r => [.planeRow p r (BitVec.ofNat 2048 v)]
      | .grains false b r => if d.fmt.isMx then [.aRow b r u, .aScale b r sc] else [.aRow b r u]
      | .grains true b r =>
        if d.fmt.isMx then [.bRow b (r / 64) (r % 64) u, .bScale b (r / 64) (r % 64) sc] else [.bRow b (r / 64) (r % 64) u]
      | .scalar _ => [])).flatten

/-- The presence that the final write of an instruction sets (R138, R169). -/
def presenceOf (ws : List Write) : List Write :=
  (ws.filterMap (fun w => match w with
    | .aRow b r _ => some (.presA b (r / 16))
    | .bRow b t _ _ => some (.presB b t)
    | _ => none)).dedup

/-- The place that a write reaches, for the order of R160. -/
def Write.loc : Write → Option Loc
  | .slate u _ => some (.slate u)
  | .planeRow p r _ => some (.plane p r)
  | .aRow b r _ => some (.grains false b r)
  | .bRow b t r _ => some (.grains true b (64 * t + r))
  | .scalar r _ => some (.scalar r)
  | _ => none

/-- An earlier vector instruction has an unwritten result at one of these places (R160). -/
def Core.hazard (c : Core) (l : List Loc) : Bool :=
  c.inflight.any (fun f => f.slot = .vec && f.writes.any (fun w => match w.loc with | none => false | some x => l.contains x))

/-- Slate units among places. -/
def slateUnits (l : List Loc) : List Nat := l.filterMap (fun x => match x with | .slate u => some u | _ => none)

end Sys2Proof.Machine
end

