-- ==== Sys2Proof/Machine/Flags.lean ====
section
/-! DEFINITION. CORE_FLAGS (06 R144 to R149) and the arithmetic that sets them: an accumulator update of the Span and a lane of
the vector unit. -/

namespace Sys2Proof.Machine

/-- The canonical NaN (R146). -/
abbrev nan32 : BitVec 32 := 0x7FC00000#32

/-- An integer update (R145): the exact row sum is added and saturates. -/
def intUpdate (first : Bool) (acc : BitVec 32) (sum : Int) : BitVec 32 × BitVec 5 :=
  let t := (if first then 0 else acc.toInt) + sum
  let r := clampI (-2147483648) 2147483647 t
  (BitVec.ofInt 32 r, flagIf (decide (r ≠ t)) flSpanSat)

/-- A float update (R144, R146): one exact sum of the scaled products and the accumulator, rounded once. -/
def floatUpdate (first sat : Bool) (acc : BitVec 32) (terms : List Num) : BitVec 32 × BitVec 5 :=
  let a : Num := if first then .fin false 0 0 else num32 acc
  let all := a :: terms
  let total := exactSum all
  let newNan := terms.any Num.isNan || (!a.isNan && total.isNan)
  let ovf := !(all.any Num.isInf) && decide (f32.maxCode < (match finSum all with | .fin _ m e => f32.round m e | _ => 0))
  let fl := flagIf newNan flSpanNan ||| flagIf ovf flSpanOvf
  match total with
  | .nan => (nan32, fl)
  | v => ((code32 sat v).1, fl)

/-- A lane of the vector unit (R149): the result rounded for its destination, and the flags it sets. BF16 is computed in FP32
and rounded; an overflow gives an infinity. -/
def vecLane (fmt : Fmt) (nanIn : Bool) (r : BitVec 32) (ovf : Bool) : Nat × BitVec 5 :=
  let isNan := (num32 r).isNan
  let fl := flagIf (isNan && !nanIn) flVecNan
  if fmt = .bf16 then
    let x := fB16.encode false (num32 r)
    (x.1, fl ||| flagIf (ovf || x.2) flVecOvf)
  else (r.toNat, fl ||| flagIf ovf flVecOvf)

/-- All flags of a list of lanes. -/
def orFlags (l : List (BitVec 5)) : BitVec 5 := l.foldl (· ||| ·) 0

end Sys2Proof.Machine
end

