-- ==== Sys2Proof/Machine/Span.lean ====
section
/-! DEFINITION. The Span (06 R134 to R147, 07 R159, R166 to R168, 08 R192). -/

namespace Sys2Proof.Machine

/-- SPAN.LOADB (R134): a present tile slot is copied into a stationary set. -/
def execSpanLoadb (k : CoreId) (s : State) : Host.Outcome State Fault Refusal :=
  issueFront k .span (fun o => match o with | .loadb _ _ _ _ => true | _ => false) (fun q s =>
    match q.instr.op with
    | .loadb release set buf slot =>
      let c := s.core k.val
      let b := buf.toNat
      let n := set.toNat
      if !c.hasB b slot.toNat then .waits
      else
        let put := fun {α : Type} (g : Nat → α) (t : Tab α) => (List.range 64).foldl (fun t r => Tab.put t (64 * n + r) (g r)) t
        .goes (updCore k.val (fun c =>
          let d := { c with
            setRows := put (fun r => c.bRow b (64 * slot.toNat + r)) c.setRows,
            setScale := put (fun r => c.bSide b (64 * slot.toNat + r)) c.setScale }
          if release then d.presB b slot.toNat false else d) s) [] 0 []
    | _ => .waits) s

/-! ## SPAN.MM -/

/-- The pairs of R142. -/
def pairOk (a b : Fmt) : Bool :=
  let mx := fun (f : Fmt) => f == .mxint8 || f == .e4m3 || f == .e5m2 || f == .e3m2
  let h := fun (f : Fmt) => f == .bf16 || f == .fp16
  (a == .int8 && b == .int8) || (a == .int4 && b == .int4) || (mx a && mx b) || (a == .e2m1 && b == .e2m1) || (h a && h b)

/-- K per row and N columns (R136). -/
def geometry (a : Fmt) : Nat × Nat := if a.bits = 4 then (128, 64) else if a.bits = 16 then (32, 32) else (64, 64)

/-- Element i of a row of a pair: a 6-bit operand beside an 8-bit one takes a byte per element (R142). -/
def pairElem (f : Fmt) (packed : Bool) (row i : Nat) : Nat :=
  if f.bits = 6 ∧ !packed then row / 2 ^ (8 * i) % 64 else f.elem row i

/-- Element (k, n) of the stationary tile: a 4-bit byte holds k = 2r in its low half and 2r + 1 in its high half (log 36). -/
def Core.bElem (c : Core) (set : Nat) (f : Fmt) (packed : Bool) (k n : Nat) : Nat :=
  if f.bits = 4 then (c.setRow set (k / 2)).toNat / 2 ^ (8 * n + 4 * (k % 2)) % 16
  else pairElem f packed (c.setRow set k).toNat n

/-- The scaled products of one row and one column (R143). -/
def Core.products (c : Core) (x : MmFields) (row n : Nat) : List Num :=
  let packed := x.fmtA.bits == x.fmtB.bits
  let a := (c.aRow x.abuf.toNat row).toNat
  let sa := (c.aSide x.abuf.toNat row).toNat
  let sb := (c.setSide x.set.toNat n).toNat
  (List.range (geometry x.fmtA).1).map (fun k =>
    let v := (x.fmtA.value (pairElem x.fmtA packed a k)).mul (x.fmtB.value (c.bElem x.set.toNat x.fmtB packed k n))
    if x.fmtA.isMx then
      match e8m0 (sa / 2 ^ (8 * (k / 32)) % 256), e8m0 (sb / 2 ^ (8 * (k / 32)) % 256) with
      | some i, some j => v.scale (i + j)
      | _, _ => .nan
    else v)

/-- One accumulator update: the new accumulator row and the flags (R135, R144 to R146). Columns beyond N stay. -/
def Core.mmRow (c : Core) (x : MmFields) (row acc : Nat) : BitVec 2048 × BitVec 5 :=
  let old := wordsOf 64 (c.planeRow x.p.toNat acc)
  let n := (geometry x.fmtA).2
  let r := old.zipIdx.map (fun (w, j) =>
    if n ≤ j then (w, 0#5)
    else if x.fmtA.isInt then intUpdate x.first w ((c.products x row j).map (Num.at 0)).sum
    else floatUpdate x.first x.sat w (c.products x row j))
  (ofWords 2048 (r.map (·.1)), orFlags (r.map (·.2)))

/-- The run of a SPAN.MM from an A slot: rows are taken in order. -/
def Core.mmRun (c : Core) (x : MmFields) (a : Nat) : Nat → Core
  | 0 => c
  | n + 1 =>
    let d := Core.mmRun c x a n
    let r := d.mmRow x (a + n) (x.d0.toNat + n)
    { d with plane := Tab.put d.plane (64 * x.p.toNat + x.d0.toNat + n) r.1, flags := d.flags ||| r.2 }

/-- SPAN.MM (R135, R137, R139, R142, R168). -/
def execSpanMm (k : CoreId) (s : State) : Host.Outcome State Fault Refusal :=
  issueFront k .span (fun o => match o with | .mm _ => true | _ => false) (fun q s =>
    match q.instr.op with
    | .mm x =>
      let c := s.core k.val
      let p := x.p.toNat
      let rows := x.rowsM1.toNat + 1
      let segs := (List.range 16).filter (fun g => decide (q.addr < 16 * g + 16 ∧ 16 * g < q.addr + rows))
      if !pairOk x.fmtA x.fmtB then .retires cViolSpanFormat
      else if 256 < q.addr + rows ∨ 64 < x.d0.toNat + rows then .retires cViolTileField
      else if c.planeSt p = .full ∨ c.planeSt p = .draining ∨ c.inflight.any (fun f => f.writes.contains (.planeTo p .full)) then
        .waits
      else if segs.any (fun g => !c.hasA x.abuf.toNat g) then .waits
      else if !x.first ∧ c.planeSt p = .free then .retires cViolSpanPlane
      else
        .goes (updCore k.val (fun c =>
          let d := (c.mmRun x q.addr rows).setPlane p .accumulating
          let d := if p = 0 then { d with int0 := x.fmtA.isInt } else { d with int1 := x.fmtA.isInt }
          if x.release then segs.foldl (fun d g => d.presA x.abuf.toNat g false) d else d) s)
          (if x.last then [.planeTo p .full] else []) 0 []
    | _ => .waits) s

/-! ## SPAN.DRAIN -/

/-- Formats that R147 and R192 allow a plane to be drained to. -/
def drainOk (int : Bool) (f : Fmt) (acc : Bool) : Bool :=
  if int then (f == .int32 || (!acc && f.isInt))
  else if acc then f == .fp32 || f == .bf16
  else !f.isInt

/-- The codes and the scale bytes of a drained row (R147). -/
def drainRow (int : Bool) (x : DrainFields) (v : BitVec 2048) : List Nat × List Nat :=
  let w := wordsOf 64 v
  if int then (w.map (fun a => if x.fmt = .int32 then a.toNat else intShift x.fmt x.shift.toNat a.toInt), [])
  else if x.fmt.isMx then
    let b := fun (i : Nat) => mxBlock x.fmt (((w.drop (32 * i)).take 32).map num32)
    ((b 0).2 ++ (b 1).2, [(b 0).1, (b 1).1])
  else (w.map (fun a => match x.fmt.float with | none => a.toNat | some g => (g.encode x.sat (num32 a)).1), [])

/-- The first unit of a drained row (R167): row 2i + 1 of 4 bits lies in the unit of row 2i (R166). -/
def drainUnit (x : DrainFields) (a j : Nat) : Nat := a + (if x.fmt.bits = 4 then j - j % 2 else j) * x.pitch.toNat

/-- A drained row lies inside the data region (R168). -/
def Core.drainInside (c : Core) (x : DrainFields) (a j : Nat) : Bool := decide (drainUnit x a j + x.fmt.rowUnits ≤ c.dataUnits)

/-- What a drain writes for row j, rows in pairs for a 4-bit format; nothing outside the data region. -/
def Core.drainWrites (c : Core) (x : DrainFields) (a j : Nat) : List Write :=
  let p := x.p.toNat
  let u := drainUnit x a j
  let r := drainRow (c.isInt p) x (c.planeRow p j)
  let units := x.fmt.rowUnits
  if !c.drainInside x a j then []
  else if x.fmt.bits = 4 then
    if j % 2 = 1 then []
    else
      let r2 := drainRow (c.isInt p) x (c.planeRow p (j + 1))
      let v := BitVec.ofNat 512 (x.fmt.pack r.1 + x.fmt.pack r2.1 * 2 ^ 256)
      let sc := BitVec.ofNat 32 (r.2.getD 0 0 + 256 * r.2.getD 1 0 + 65536 * r2.2.getD 0 0 + 16777216 * r2.2.getD 1 0)
      .slate u v :: (if x.sc ∧ x.fmt.isMx ∧ c.hasShadow then [.shadow u sc] else [])
  else
    let v := x.fmt.pack r.1
    let v := if x.fmt.bits = 6 then v + (Config.pad6 v).toNat * 2 ^ 384 else v
    let sc := BitVec.ofNat 32 ((c.shadowOf u).toNat / 65536 * 65536 + r.2.getD 0 0 + 256 * r.2.getD 1 0)
    (List.range units).map (fun i =>
      if x.acc then .acc (u + i) x.fmt x.sat (unitOf v i) else .slate (u + i) (unitOf v i)) ++
      (if x.sc ∧ x.fmt.isMx ∧ c.hasShadow then [.shadow u sc] else [])

/-- SPAN.DRAIN (R137, R147, R167, R168, R178, R187, R192): it waits for a LAST in flight, and a plane that is not FULL then
retires it. -/
def execSpanDrain (k : CoreId) (s : State) : Host.Outcome State Fault Refusal :=
  issueFront k .span (fun o => match o with | .drain _ => true | _ => false) (fun q s =>
    match q.instr.op with
    | .drain x =>
      let c := s.core k.val
      let p := x.p.toNat
      if c.inflight.any (fun f => f.writes.contains (.planeTo p .full)) then .waits
      else if c.planeSt p ≠ .full then .retires cViolSpanPlane
      else if x.pitch.toNat < x.fmt.rowUnits ∨ !drainOk (c.isInt p) x.fmt x.acc then .retires cViolTileField
      else
        let rows := List.range 64
        let outside := rows.any (fun j => !c.drainInside x q.addr j)
        let t := updCore k.val (fun c => c.setPlane p .draining) s
        let group := fun (j : Nat) =>
          let l := (List.range x.fmt.rowUnits).map (fun i => drainUnit x q.addr j + i)
          if x.acc then l ++ l else l
        .goes (if outside then tileViol k.val cViolTileBounds t else t)
          ((rows.map (c.drainWrites x q.addr)).flatten ++ [.planeTo p .free]) 0 ((rows.filter (c.drainInside x q.addr)).map group)
    | _ => .waits) s

end Sys2Proof.Machine
end

