-- ==== Sys2Proof/Machine/OpsDma.lean ====
section
/-! DEFINITION. Descriptor DMA: the spaces, the checks and the transfer of a descriptor (07 R174 to R176, 08 R192, R193, 09
R208, R211, R216). -/

namespace Sys2Proof.Machine

/-! ## Counters (R208) -/

/-- The tag of an operation of function f on hardware counter h: that of the counter's grants to f, under the current epochs
(R96, R212). -/
def State.counterTag (s : State) (f h : Nat) : Tag := s.tagOf (agCcc (h / 512)) f

/-- The counter takes an operation under a tag (R97, R212). -/
def State.counterTakes (s : State) (i : Tag) (h : Nat) : Bool := s.accepts (Tab.get {} s.ctrs h).tag i

/-- Add to a hardware counter, saturating at both ends; a saturation is counted for the function. An item that the counter's tag
does not take is discarded and counted (R97). -/
def addCounter (i : Tag) (h : Nat) (n : Int) (s : State) : State :=
  if !s.counterTakes i h then bumpPart cViolEpochStale s
  else
    let v : Int := ((Tab.get {} s.ctrs h).value.toNat : Int) + n
    let t := if v < 0 ∨ 4294967295 < v then bump i.fn cViolSyncRange s else s
    { t with ctrs := Tab.upd {} t.ctrs h (fun c => { c with value := BitVec.ofInt 32 (clampI 0 4294967295 v) }) }

/-! ## Descriptors -/

/-- The fields of a descriptor (R175). -/
structure Desc where
  src : Nat
  dst : Nat
  scales : Bool
  acc : Bool
  rows : Nat
  rowBytes : Nat
  srcOff : Nat
  dstOff : Nat
  srcPitch : Nat
  dstPitch : Nat
  scaleOff : Nat
  deriving DecidableEq, Repr

/-- The descriptor of 64 bytes. -/
def descOf (v : BitVec 512) : Desc :=
  { src := bits v 0 8, dst := bits v 8 8, scales := v.getLsbD 16, acc := v.getLsbD 17, rows := bits v 32 32,
    rowBytes := bits v 64 32, srcOff := bits v 128 64, dstOff := bits v 192 64, srcPitch := bits v 256 64,
    dstPitch := bits v 320 64, scaleOff := bits v 384 64 }

/-- The form that R175 and R176 ask for. -/
def descOk (v : BitVec 512) : Bool :=
  let d := descOf v
  bits v 18 14 == 0 && bits v 96 32 == 0 && bits v 448 64 == 0 && decide (d.src < 6 ∧ d.dst < 6) &&
    decide (1 ≤ d.rows ∧ d.rows ≤ 65536 ∧ 64 ≤ d.rowBytes ∧ d.rowBytes ≤ 1048576) &&
    [d.rowBytes, d.srcOff, d.dstOff, d.srcPitch, d.dstPitch, d.scaleOff].all (fun x => x % 64 == 0) &&
    (!d.acc || d.dst == 3 || d.dst == 4)

/-- Whether BUFFERS of a program lets space b be read or written (R213, R216). -/
def accessOk (p : Program) (space : Nat) (write : Bool) : Bool :=
  if 2 < space then true else (p.buffers / 4 ^ space / (if write then 2 else 1)) % 2 == 1

/-- What a descriptor of a core reaches: the task's buffers and Basalt, and the core. -/
structure Spaces where
  core : Nat
  bufs : List (List Nat)
  basalt : Nat
  basaltN : Nat
  deriving DecidableEq, Repr

/-- The spaces of the task on a core. -/
def State.spaces (s : State) (k : Nat) : Option (Spaces × Task × Program) :=
  match s.coreTask k with
  | none => none
  | some t => match t.place, Tab.find s.progs t.prog with
    | some p, some g =>
      let units := fun (h : Nat) => ((Tab.find s.bufs h).map (·.units)).getD []
      some ({ core := k, bufs := [units t.buf0, units t.buf1, units t.buf2], basalt := p.basalt, basaltN := p.basaltN }, t, g)
    | _, _ => none

/-- Device address of Basalt (R181). -/
abbrev basaltBase : Nat := 0x4000000000

/-- The device address of an offset in spaces 0 to 3, none outside the space's extent. -/
def Spaces.addr (x : Spaces) (space off : Nat) : Option Nat :=
  if space = 3 then (if off < x.basaltN * 1048576 then some (basaltBase + x.basalt * 1048576 + off) else none)
  else ((x.bufs.getD space [])[off / unitBytes4M]?).map (fun u => u * unitBytes4M + off % unitBytes4M)

/-- Side, buffer and row of an offset in space 5 (R175). -/
def grainsAt (off : Nat) : Bool × Nat × Nat := (decide (0x8000 ≤ off), off / 0x4000 % 2, off % 0x4000 / 64)

/-- The unit and the scale bytes at an offset of a space, none outside its extent. -/
def readUnit (x : Spaces) (space off : Nat) (s : State) : Option (Unit64 × BitVec 32) :=
  let c := s.core x.core
  if space = 4 then (if off / 64 < c.dataUnits then some (c.unit (off / 64), c.shadowOf (off / 64)) else none)
  else if space = 5 then
    if off < 0x10000 then
      let g := grainsAt off
      some (if g.1 then (c.bRow g.2.1 g.2.2, c.bSide g.2.1 g.2.2) else (c.aRow g.2.1 g.2.2, c.aSide g.2.1 g.2.2))
    else none
  else (x.addr space off).map (fun a => (bytesUnit (memRead s.mem a 64), 0))

/-- Write a unit, and scale bytes where the space keeps them, at an offset of a space. Where an accumulate-on-write finds the old value in
Basalt uncorrectable, the addend alone is written (R207). -/
def writeUnit (x : Spaces) (space off : Nat) (acc : Bool) (v : Unit64) (sc : Option (BitVec 32)) (s : State) : State :=
  let k := x.core
  if space = 4 then
    let t := applyWrite k (if acc then .acc (off / 64) .fp32 false v else .slate (off / 64) v) s
    match sc with
    | some w => if (s.core k).hasShadow then applyWrite k (.shadow (off / 64) w) t else t
    | none => t
  else if space = 5 then
    let g := grainsAt off
    let b := g.2.1
    let r := g.2.2
    if g.1 then
      let t := match sc with | some w => applyWrite k (.bScale b (r / 64) (r % 64) w) s | none => s
      applyWrite k (.bRow b (r / 64) (r % 64) v) t
    else
      let t := match sc with | some w => applyWrite k (.aScale b r w) s | none => s
      applyWrite k (.aRow b r v) t
  else match x.addr space off with
    | none => s
    | some a =>
      let b := (a - basaltBase) / 64
      let fresh := space == 3 && s.store.basaltBad.contains b
      store a (unitBytes (if acc && !fresh then accUnit .fp32 false (bytesUnit (memRead s.mem a 64)) v else v))
        (if fresh then updStore (fun x => { x with basaltBad := x.basaltBad.filter (· != b) }) s else s)

/-- Whether an offset lies in a space's extent. -/
def inSpace (x : Spaces) (space off : Nat) (s : State) : Bool :=
  if space = 4 then decide (off / 64 < (s.core x.core).dataUnits)
  else if space = 5 then decide (off < 0x10000)
  else (x.addr space off).isSome

/-- Move unit n of a descriptor: what lies outside an extent reads 0 and is not written (R176). -/
def moveUnit (x : Spaces) (d : Desc) (n : Nat) (s : State) : State :=
  let per := d.rowBytes / 64
  let r := n / per
  let so := d.srcOff + r * d.srcPitch + 64 * (n % per)
  let dof := d.dstOff + r * d.dstPitch + 64 * (n % per)
  if !inSpace x d.dst dof s then s
  else
    let v := (readUnit x d.src so s).getD (0, 0)
    let sc := if !d.scales then none
      else if 4 ≤ d.src then some v.2
      else some (match x.addr d.src (d.scaleOff + 4 * n) with
        | some a => BitVec.ofNat 32 (leNat (memRead s.mem a 4))
        | none => 0)
    let t := writeUnit x d.dst dof d.acc v.1 sc s
    if d.scales ∧ 4 ≤ d.src ∧ d.dst < 4 then
      match x.addr d.dst (d.scaleOff + 4 * n) with
      | some a => store a (toLe 4 v.2.toNat) t
      | none => t
    else t

/-- Whether a unit of a descriptor, or its scales, lies outside an extent. -/
def unitOutside (x : Spaces) (d : Desc) (s : State) (n : Nat) : Bool :=
  let per := d.rowBytes / 64
  let r := n / per
  !inSpace x d.src (d.srcOff + r * d.srcPitch + 64 * (n % per)) s || !inSpace x d.dst (d.dstOff + r * d.dstPitch + 64 * (n % per)) s ||
    (d.scales && d.src < 4 && (x.addr d.src (d.scaleOff + 4 * n)).isNone) ||
    (d.scales && 4 ≤ d.src && d.dst < 4 && (x.addr d.dst (d.scaleOff + 4 * n)).isNone)

/-- The presence that a descriptor's final write sets (R138, R175). -/
def setPresence (x : Spaces) (d : Desc) (s : State) : State :=
  if d.dst ≠ 5 then s
  else
    let per := d.rowBytes / 64
    let rows := ((List.range (d.rows * per)).map (fun n => d.dstOff + n / per * d.dstPitch + 64 * (n % per))).filter (· < 0x10000)
    forEach ((rows.map (fun o => let g := grainsAt o; (g.1, g.2.1, if g.1 then g.2.2 / 64 else g.2.2 / 16))).dedup)
      (fun (b, k, i) t => updCore x.core (fun c => if b then c.presB k i true else c.presA k i true) t) s

/-- A descriptor's transfer: one that breaks R175, R176 or R216 moves nothing. -/
def transfer (k : Nat) (v : BitVec 512) (s : State) : State :=
  match s.spaces k with
  | none => s
  | some (x, t, g) =>
    let d := descOf v
    if !descOk v || !accessOk g d.src false || !accessOk g d.dst true then bump t.fn cViolTileDesc s
    else
      let n := d.rows * (d.rowBytes / 64)
      let s1 := if (List.range n).any (unitOutside x d s) then bump t.fn cViolTileBounds s else s
      setPresence x d (forEach (List.range n) (moveUnit x d) s1)

end Sys2Proof.Machine
end

