-- ==== Sys2Proof/Machine/Transfer.lean ====
section
/-! DEFINITION. Transfers and sync (07 R172 to R176, 09 R208 to R211), what completes (07 R161), and bank starvation
(08 R188). -/

namespace Sys2Proof.Machine

/-! ## SLD -/

/-- Byte i of a unit. -/
def byteOf (u : Unit64) (i : Nat) : Nat := u.toNat / 2 ^ (8 * i) % 256

/-- Row r of the transpose of 64 units. -/
def transposed (l : List Unit64) (r : Nat) : Unit64 :=
  BitVec.ofNat 512 (l.foldr (fun u a => byteOf u r + 256 * a) 0)

/-- What an SLD writes (R173): rows, scales where SC asks for them, and presence last. -/
def Core.sldWrites (c : Core) (x : SldFields) (addr : Nat) : List Write :=
  let n := x.rowsM1.toNat + 1
  let b := x.buf.toNat
  let us := (List.range n).map (fun r => addr + r * x.pitch.toNat)
  let src := us.map c.unit
  let out := if x.tr then (List.range n).map (transposed src) else src
  let slot := x.dslot.toNat
  let rows := out.zipIdx.map (fun (v, r) => if x.sideB then Write.bRow b (slot % 4) r v else .aRow b (slot + r) v)
  let side := if x.sc then us.zipIdx.map (fun (u, r) =>
      if x.sideB then Write.bScale b (slot % 4) r (c.shadowOf u) else .aScale b (slot + r) (c.shadowOf u)) else []
  side ++ rows ++ presenceOf rows

/-- SLD (R173, R178, R187). -/
def execSld (k : CoreId) (s : State) : Host.Outcome State Fault Refusal :=
  issueFront k .xfer (fun o => match o with | .sld _ => true | _ => false) (fun q s =>
    match q.instr.op with
    | .sld x =>
      let c := s.core k.val
      let n := x.rowsM1.toNat + 1
      let us := (List.range n).map (fun r => q.addr + r * x.pitch.toNat)
      if (x.sideB ∧ n ≠ 64) ∨ (x.tr ∧ n ≠ 64) ∨ (!x.sideB ∧ 256 < x.dslot.toNat + n) then .retires cViolTileField
      else if us.any (fun u => decide (c.dataUnits ≤ u)) then .retires cViolTileBounds
      else .goes s (c.sldWrites x q.addr) 0 [us.take 32, us.drop 32]
    | _ => .waits) s

/-! ## DMA.GO and its descriptors -/

/-- Descriptors of DMA.GO on their way to an engine. -/
def queueDescs (e : Nat) (l : List QDesc) (s : State) : State :=
  { s with engines := Tab.upd {} s.engines e (fun x => { x with queue := x.queue ++ l }) }

/-- The hardware counter bound to a program-local one, and the engine bound in the core's cluster (R172, R217). -/
def Place.counter (p : Place) (i : Nat) : Option Nat := p.counters[i]?
def Place.engine (p : Place) (k e : Nat) : Option Nat := Tab.find p.engines (16 * (k / 8) + e)

/-- DMA.GO (R174): its descriptors are copied and queued, or it waits for room. -/
def execDmaGo (k : CoreId) (s : State) : Host.Outcome State Fault Refusal :=
  issueFront k .xfer (fun o => match o with | .dmaGo _ => true | _ => false) (fun q s =>
    match q.instr.op with
    | .dmaGo x =>
      let c := s.core k.val
      let n := x.countM1.toNat + 1
      match s.coreTask k.val with
      | none => .waits
      | some t => match t.place.bind (fun p => p.engine k.val x.engine.toNat) with
        | none => .waits
        | some e =>
          let eng := Tab.get {} s.engines e
          if c.dataUnits < q.addr + n then .retires cViolTileBounds
          else if 64 < eng.queue.length + n then .waits
          else
            let sig := if x.sig then
                (t.place.bind (fun p => p.counter x.counter.toNat)).map (fun h => (h, s.counterTag t.fn h)) else none
            let us := (List.range n).map (q.addr + ·)
            .goes (queueDescs e (us.map (fun u =>
              { core := k.val, go := q.word + 16384 * c.nextId, desc := c.unit u, sig := sig,
                tag := s.tagOf (agCcc (k.val / 8)) t.fn, grant := eng.grant })) s) [] n (us.map (fun u => [u]))
    | _ => .waits) s

/-- One descriptor of a DMA.GO is done; the last one completes it. -/
def descDone (k go : Nat) (s : State) : State :=
  let c := s.core k
  match c.inflight.find? (fun f => f.id == go && decide (0 < f.descs)) with
  | none => s
  | some f =>
    if f.descs = 1 then
      let t := updCore k (fun c => { c with inflight := c.inflight.filter (·.id != go) }) s
      if f.st then raiseEvent k f.sev t else t
    else updCore k (fun c => { c with inflight := c.inflight.map (fun g => if g.id = go then { g with descs := g.descs - 1 } else g) }) s

/-- The engine takes a queued descriptor (R97): their tags match, both epochs are current, and it is still granted as it was when
the descriptor was queued (R212, log 58). -/
def State.engineTakes (s : State) (x : Engine) (d : QDesc) : Bool := s.accepts x.tag d.tag && x.grant == d.grant

/-- The oldest descriptor of an engine completes (R174 to R176, R211): its transfer, then its signal; one that its engine does not
take any more is discarded (R97). -/
def execDmaDescriptorComplete (e : EngineId) (s : State) : Host.Outcome State Fault Refusal :=
  let x := Tab.get {} s.engines e.val
  match x.queue with
  | [] => done s s
  | d :: _ =>
    let t := { s with engines := Tab.upd {} s.engines e.val (fun x => { x with queue := x.queue.tail }) }
    let t := if !s.engineTakes x d then bumpPart cViolEpochStale t
      else
        let t := transfer d.core d.desc t
        match d.sig with
        | some (h, i) => addCounter i h 1 t
        | none => t
    live s (descDone d.core d.go t)

/-- A DMA write or a fetch has waited 64 cycles for a bank (R188). -/
def execBankStarvation (k : CoreId) (bank : Fin 32) (s : State) : Host.Outcome State Fault Refusal :=
  live s (updCore k.val (fun c => { c with starved := if c.starved.contains bank.val then c.starved else c.starved ++ [bank.val] }) s)

/-! ## Sync (R174, R208 to R211) -/

/-- The hardware counter that a core's instruction names. -/
def State.boundCounter (s : State) (k i : Nat) : Option Nat := (s.coreTask k).bind (fun t => t.place.bind (fun p => p.counter i))

/-- SYNC.WAIT: it issues once the value satisfies COND, compared as unsigned numbers. -/
def execSyncWait (k : CoreId) (s : State) : Host.Outcome State Fault Refusal :=
  issueFront k .xfer (fun o => match o with | .syncWait _ _ _ => true | _ => false) (fun q s =>
    match q.instr.op with
    | .syncWait eq i v =>
      match s.boundCounter k.val i.toNat with
      | none => .waits
      | some h =>
        let x := (Tab.get {} s.ctrs h).value
        if (if eq then x == v else decide (v.toNat ≤ x.toNat)) then .instant s else .waits
    | _ => .waits) s

/-- SYNC.ADD. -/
def execSyncAdd (k : CoreId) (s : State) : Host.Outcome State Fault Refusal :=
  issueFront k .xfer (fun o => match o with | .syncAdd _ _ => true | _ => false) (fun q s =>
    match q.instr.op with
    | .syncAdd i v =>
      match s.boundCounter k.val i.toNat, s.coreTask k.val with
      | some h, some t => .instant (addCounter (s.counterTag t.fn h) h v.toInt s)
      | _, _ => .waits
    | _ => .waits) s

/-- SYNC.TAS: it issues when it changes the counter from 0 to 1. -/
def execSyncTas (k : CoreId) (s : State) : Host.Outcome State Fault Refusal :=
  issueFront k .xfer (fun o => match o with | .syncTas _ => true | _ => false) (fun q s =>
    match q.instr.op with
    | .syncTas i =>
      match s.boundCounter k.val i.toNat, s.coreTask k.val with
      | some h, some t =>
        if (Tab.get {} s.ctrs h).value = 0 ∧ s.counterTakes (s.counterTag t.fn h) h then
          .instant { s with ctrs := Tab.upd {} s.ctrs h (fun c => { c with value := 1 }) }
        else .waits
      | _, _ => .waits
    | _ => .waits) s

/-! ## Completion (R161) -/

/-- An instruction accumulates into Slate units. -/
def InFlight.accumulates (f : InFlight) : Bool := f.writes.any (fun w => match w with | .acc _ _ _ _ => true | _ => false)

/-- An issued instruction writes its last result: `n` is its place among those that have not completed. A DMA.GO completes with
its last descriptor, and drains that accumulate do so in the order of their reservations (R193). -/
def execInstructionComplete (k : CoreId) (n : Nat) (s : State) : Host.Outcome State Fault Refusal :=
  match (s.core k.val).inflight[n]? with
  | none => done s s
  | some f =>
    if 0 < f.descs ∨ (f.accumulates ∧ ((s.core k.val).inflight.take n).any InFlight.accumulates) then done s s
    else
      let t := updCore k.val (fun c => { c with inflight := c.inflight.eraseIdx n }) s
      let t := forEach f.writes (applyWrite k.val) t
      live s (if f.st then raiseEvent k.val f.sev t else t)

end Sys2Proof.Machine
end

