-- ==== Sys2Proof/Machine/Trans.lean ====
section
/-! DEFINITION. The functions of the vector unit in fixed point: the FP32 value nearest to the exact result, and a result within the
error bound of R150 (06 R150). Jasper's logarithm (14 R314) uses the same series. -/

namespace Sys2Proof.Machine

/-! ## The natural logarithm -/

/-- Fraction bits of the fixed-point logarithm. -/
abbrev lnBits : Nat := 192

/-- Σ z^(2i+1) ÷ (2i+1) from term i on, in fixed point. -/
def atanhFrom (z2 : Nat) : Nat → Nat → Nat → Nat
  | 0, _, _ => 0
  | n + 1, i, term => term / (2 * i + 1) + atanhFrom z2 n (i + 1) (term * z2 / 2 ^ lnBits)

/-- ln (a ÷ b) for b ≤ a ≤ 2b, in fixed point. -/
def lnRatio (a b : Nat) : Nat :=
  let z := (a - b) * 2 ^ lnBits / (a + b)
  2 * atanhFrom (z * z / 2 ^ lnBits) 100 0 z

/-! ## exp, sin and cos -/

/-- The terms r^k ÷ k! from k on, of a fraction r of b bits. -/
def powerTerms (b r : Nat) : Nat → Nat → Nat → List Nat
  | 0, _, _ => []
  | n + 1, k, t => t :: powerTerms b r n (k + 1) (t * r / 2 ^ b / (k + 1))

/-- m × 2^e as a fraction of b bits. -/
def fixedOf (b m : Nat) (e : Int) : Nat :=
  let k := e + (b : Int)
  if 0 ≤ k then m * 2 ^ k.toNat else m / 2 ^ (-k).toNat

/-- exp of a finite value: 2^k × exp(r) with r below ln 2. Beyond ±128 the result overflows, or rounds to 0. -/
def expNum (neg : Bool) (m : Nat) (e : Int) : Num :=
  if m ≠ 0 ∧ 7 ≤ (Nat.log2 m : Int) + e then .fin false 1 (if neg then -200 else 200)
  else
    let x : Int := fixedOf lnBits m e
    let ln2 : Int := lnRatio 2 1
    let x := if neg then -x else x
    let k := x / ln2
    .fin false (powerTerms lnBits (x - k * ln2).toNat 60 0 (2 ^ lnBits)).sum (k - lnBits)

/-- π as a fraction of 256 bits. -/
def pi256 : Nat := 0x3243F6A8885A308D313198A2E03707344A4093822299F31D0082EFA98EC4E6C89

/-- The terms at even places (from 0) or odd places (from 1), added with alternating signs. -/
def alternate : List Nat → Nat → Bool → Int → Int
  | [], _, _, a => a
  | t :: l, 0, neg, a => alternate l 1 (!neg) (if neg then a - t else a + t)
  | _ :: l, n + 1, neg, a => alternate l n neg a

/-- sin (or cos, a quarter turn on) of a finite value, its argument reduced exactly. -/
def sinNum (quarter : Nat) (neg : Bool) (m : Nat) (e : Int) : Num :=
  let x := 2 * fixedOf 256 m e
  let n := x / pi256
  let t := powerTerms 256 (x % pi256 / 2) 80 0 (2 ^ 256)
  let i := (n + quarter) % 4
  let v := alternate t ((i + 1) % 2) false 0
  ofInt (if (neg && quarter == 0) != decide (2 ≤ i) then -v else v) (-256)

/-! ## Reciprocals -/

/-- 1 ÷ m × 2^(−e). -/
def rcpNum (neg : Bool) (m : Nat) (e : Int) : Num := .fin neg (2 ^ 128 / m) (-e - 128)

/-- The square root of n, rounded down, by its bits from place b down. -/
def rootFrom (n : Nat) : Nat → Nat → Nat
  | 0, r => r
  | b + 1, r => if (r + 2 ^ b) * (r + 2 ^ b) ≤ n then rootFrom n b (r + 2 ^ b) else rootFrom n b r

/-- 1 ÷ √(m × 2^e). -/
def rsqNum (m : Nat) (e : Int) : Num :=
  let odd := e % 2 = 1
  let m := if odd then 2 * m else m
  let e := if odd then e - 1 else e
  .fin false (rootFrom (2 ^ 240 / m) 121 0) (-120 - e / 2)

/-! ## The result: within the error bound -/

/-- The code that stands d places above a code in the order of the values, and keeps its sign at zero. -/
def nearCode (c : BitVec 32) (d : Int) : BitVec 32 :=
  let mag : Int := (c.toNat % 2 ^ 31 : Nat)
  let i := (if c.getLsbD 31 then -mag else mag) + d
  if i = 0 then c &&& 0x80000000#32
  else BitVec.ofNat 32 ((if i < 0 then 2 ^ 31 else 0) + min i.natAbs 0x7F800000)

/-- The exponent of the spacing of FP32 values about m × 2^e. -/
def ulpExp (m : Nat) (e : Int) : Int := max ((Nat.log2 m : Int) + e - 23) (-149)

/-- A value stands at most n ulp from the exact value m × 2^e of a sign. -/
def withinUlp (n : Nat) (neg : Bool) (m : Nat) (e : Int) (w : Num) : Bool :=
  match w with
  | .fin _ _ _ =>
    let q := ulpExp m e
    let lo := lowExp [.fin neg m e, w, .fin false 1 q]
    decide ((Num.at lo (.fin neg m e) - Num.at lo w).natAbs ≤ n * 2 ^ (q - lo).toNat)
  | _ => false

/-- The FP32 result of a function whose exact value is v, at most n ulp away (R150). Where several values are, `err` says which one it
is: a free number of the function and its operands, so that equal operands give equal bits (log 35). An exact 0 is given as it is, and
what overflows as an infinity. -/
def nearResult (n err : Nat) (v : Num) : BitVec 32 :=
  let best := (code32 false v).1
  match v with
  | .fin s m e =>
    let c := nearCode best (((err % (2 * n + 1) : Nat) : Int) - n)
    if m ≠ 0 ∧ !(code32 false v).2 ∧ withinUlp n s m e (num32 c) then c else best
  | _ => best

/-- exp of a value within 2 ulp: exp(−∞) = +0, and an overflow gives +∞ (R150). -/
def expNear (err : Nat) (v : Num) : BitVec 32 :=
  match v with
  | .nan => (code32 false .nan).1
  | .inf true => 0
  | .inf false => 0x7F800000#32
  | .fin s m e => nearResult 2 err (expNum s m e)

/-- exp as the function numbered `fn`. -/
def expAt (fn : Nat) (a : BitVec 32) : BitVec 32 := expNear (Config.vecError fn a) (num32 a)

/-- exp(a − b) for softmax (R151), within the bound of R150; whether the difference is rounded to FP32 first is free (log 35). -/
def expDiff (a b : BitVec 32) : BitVec 32 :=
  let d := (num32 a).add (num32 b).neg
  expNear (Config.expDiffError a b) (if Config.expDiffRounds then num32 (code32 false d).1 else d)

/-! ## The rotary unit (R153) -/

/-- cos (quarter 1) or sin (quarter 0) of θ = position × frequency, within 2 ulp; of an infinite θ it is free (log 35). -/
def rotaryOf (quarter pos : Nat) (f : BitVec 32) : Num :=
  match (num32 f).mul (.fin false pos 0) with
  | .fin s m e => num32 (nearResult 2 (Config.rotError quarter pos f) (sinNum quarter s m e))
  | .nan => .nan
  | .inf _ => num32 (Config.vecOpen (5 + quarter) f)

/-- A product, rounded to FP32 or kept exact, and whether the rounding overflowed. -/
def productOf (exact : Bool) (a b : Num) : Num × Bool :=
  let r := code32 false (a.mul b)
  if exact then (a.mul b, false) else (num32 r.1, r.2)

/-- a × c + b × d in FP32, and whether it overflowed; whether both products, neither or one of them is rounded before the sum is free
(log 35). -/
def mulAddMul (a c b d : Num) : BitVec 32 × Bool :=
  let x := productOf (Config.rotRounding % 2 == 0) a c
  let y := productOf (Config.rotRounding / 2 % 2 == 0) b d
  let r := code32 false (x.1.add y.1)
  (r.1, r.2 || ((x.2 || y.2) && (num32 r.1).isInf))

/-- One element of a rotated pair (R153): x₀ cos θ − x₁ sin θ (low), or x₀ sin θ + x₁ cos θ; and whether it overflowed. -/
def rotateElem (low : Bool) (x0 x1 : BitVec 32) (pos : Nat) (f : BitVec 32) : BitVec 32 × Bool :=
  let c := rotaryOf 1 pos f
  let s := rotaryOf 0 pos f
  if low then mulAddMul (num32 x0) c (num32 x1).neg s else mulAddMul (num32 x0) s (num32 x1) c

end Sys2Proof.Machine
end

