-- ==== Sys2Proof/Machine/Vector.lean ====
section
/-! DEFINITION. The vector unit (06 R149 to R153, 07 R160, R169 to R171). -/

namespace Sys2Proof.Machine

/-- Operand and result rows of a vector instruction: descriptor and row. -/
abbrev Rows := List (VDesc × Nat)

/-- Rows 0 to n − 1 of an operand. -/
def rowsOf (d : VDesc) (n : Nat) : Rows := (List.range n).map (fun j => (d, j))

/-- The scalar register that an operation reads beside its rows (R171). -/
def VecOp.scalars (op : VecOp) (x : VecFields) : List Loc :=
  match op with
  | .vtopk | .vrot => [.scalar x.scal.toNat]
  | _ => []

/-- Issue a vector operation that reads and writes rows (R139, R160, R178): out of the data region it retires counted in
VIOL_TILE_BOUNDS, against a stated form in VIOL_TILE_FIELD. `compute` gives the writes and the flags. Cycle j touches row j of every
operand, and the last cycle what an operand has beyond (R187). -/
def vecIssue (k : CoreId) (op : VecOp) (srcs dsts : VecFields → Queued → Rows) (formOk : VecFields → Queued → Bool)
    (compute : Core → VecFields → Queued → List Write × BitVec 5) (s : State) : Host.Outcome State Fault Refusal :=
  issueFront k .vec (fun o => match o with | .vec p _ => p == op | _ => false) (fun q s =>
    match q.instr.op with
    | .vec _ x =>
      let c := s.core k.val
      let rs := srcs x q
      let ws := dsts x q
      if !formOk x q then .retires cViolTileField
      else match OpState.all (rs.map (fun e => c.source e.1 e.2) ++ ws.map (fun e => c.dest e.1 e.2)) with
        | .bounds => .retires cViolTileBounds
        | .field => .retires cViolTileField
        | .waits => .waits
        | .ready =>
          let places := op.scalars x ++ ((rs ++ ws).map (fun e => (e.1.locs e.2).getD [])).flatten
          if c.hazard places then .waits
          else
            let r := compute c x q
            let n := x.countM1.toNat + 1
            let cycle := fun (j : Nat) => slateUnits (((rs ++ ws).filter (fun e => min e.2 (n - 1) == j)).map (fun e => (e.1.locs e.2).getD [])).flatten
            .goes s (r.1 ++ (if r.2 = 0 then [] else [.flag r.2]) ++ presenceOf r.1) 0 ((List.range n).map cycle)
    | _ => .waits) s

/-- COUNT. -/
def VecFields.count (x : VecFields) : Nat := x.countM1.toNat + 1

/-- The sources of an elementwise operation of 1 to 3 operands, and its results. -/
def elemSrcs (n : Nat) (x : VecFields) (q : Queued) : Rows :=
  rowsOf q.a x.count ++ (if 2 ≤ n then rowsOf q.b x.count else []) ++ (if 3 ≤ n then rowsOf q.c x.count else [])
def elemDsts (x : VecFields) (q : Queued) : Rows := rowsOf q.d x.count

/-- Every operand of an elementwise operation is FP32, BF16 or a scalar (R141, R149). -/
def elemForm (n : Nat) (_x : VecFields) (q : Queued) : Bool :=
  q.d.computes && q.a.computes && (decide (n < 2) || q.b.computes) && (decide (n < 3) || q.c.computes)

/-- The results of an elementwise operation, lane by lane, row by row. -/
def elemCompute (n : Nat) (f : VecFields → BitVec 32 → BitVec 32 → BitVec 32 → BitVec 32 × Bool) (c : Core) (x : VecFields)
    (q : Queued) : List Write × BitVec 5 :=
  let rows := (List.range x.count).map (fun j =>
    let a := c.row32 q.a j
    let b := if 2 ≤ n then c.row32 q.b j else []
    let d := if 3 ≤ n then c.row32 q.c j else []
    let lanes := (List.range 64).map (fun i =>
      let u := a.getD i 0
      let v := b.getD i 0
      let w := d.getD i 0
      let r := f x u v w
      vecLane q.d.fmt ((num32 u).isNan || (num32 v).isNan || (num32 w).isNan) r.1 r.2)
    (c.rowWrites q.d j (lanes.map (·.1)) [], orFlags (lanes.map (·.2))))
  ((rows.map (·.1)).flatten, orFlags (rows.map (·.2)))

/-- An elementwise operation. -/
def vecElem (k : CoreId) (op : VecOp) (n : Nat) (f : VecFields → BitVec 32 → BitVec 32 → BitVec 32 → BitVec 32 × Bool)
    (s : State) : Host.Outcome State Fault Refusal :=
  vecIssue k op (elemSrcs n) elemDsts (elemForm n) (elemCompute n f) s

/-! ## Arithmetic (R149, R171) -/

/-- VADD: d = a + b. -/
def execVadd (k : CoreId) (s : State) : Host.Outcome State Fault Refusal :=
  vecElem k .vadd 2 (fun _ a b _ => code32 false ((num32 a).add (num32 b))) s

/-- VSUB: d = a − b. -/
def execVsub (k : CoreId) (s : State) : Host.Outcome State Fault Refusal :=
  vecElem k .vsub 2 (fun _ a b _ => code32 false ((num32 a).add (num32 b).neg)) s

/-- VMUL: d = a × b. -/
def execVmul (k : CoreId) (s : State) : Host.Outcome State Fault Refusal :=
  vecElem k .vmul 2 (fun _ a b _ => code32 false ((num32 a).mul (num32 b))) s

/-- VFMA: d = a × b + c, rounded once. -/
def execVfma (k : CoreId) (s : State) : Host.Outcome State Fault Refusal :=
  vecElem k .vfma 3 (fun _ a b c => code32 false (((num32 a).mul (num32 b)).add (num32 c))) s

/-- IEEE 754 leaves more than one minimum and maximum where an operand is NaN, or the zeros differ in sign (log 35). -/
def openCase (a b : BitVec 32) : Bool :=
  (num32 a).isNan || (num32 b).isNan || ((num32 a).isZero && (num32 b).isZero && a != b)

/-- A result that IEEE 754 allows in such a case: an operand or, with a NaN, the canonical NaN. -/
def openPick (n : Nat) (a b : BitVec 32) : BitVec 32 :=
  if (num32 a).isNan || (num32 b).isNan then [a, b, nan32].getD (n % 3) nan32 else [a, b].getD (n % 2) a

/-- The minimum and the maximum of two FP32 codes. -/
def minOf (a b : BitVec 32) : BitVec 32 :=
  if openCase a b then openPick (Config.min32 a b) a b else if (num32 b).lt (num32 a) then b else a
def maxOf (a b : BitVec 32) : BitVec 32 :=
  if openCase a b then openPick (Config.max32 a b) a b else if (num32 a).lt (num32 b) then b else a

/-- VMIN. -/
def execVmin (k : CoreId) (s : State) : Host.Outcome State Fault Refusal :=
  vecElem k .vmin 2 (fun _ a b _ => (minOf a b, false)) s

/-- VMAX. -/
def execVmax (k : CoreId) (s : State) : Host.Outcome State Fault Refusal :=
  vecElem k .vmax 2 (fun _ a b _ => (maxOf a b, false)) s

/-- VCMP: 1.0 where the comparison of MOD holds, else 0.0; with a NaN only ≠ holds. -/
def compareOf (mod : Nat) (a b : Num) : Bool :=
  match mod with
  | 0 => a.eq b
  | 1 => a.lt b
  | 2 => a.lt b || a.eq b
  | _ => !a.eq b

/-- VCMP. -/
def execVcmp (k : CoreId) (s : State) : Host.Outcome State Fault Refusal :=
  vecElem k .vcmp 2 (fun x a b _ => (if compareOf x.mod.toNat (num32 a) (num32 b) then 0x3F800000#32 else 0, false)) s

/-- VSEL: a where c ≠ 0, else b. -/
def execVsel (k : CoreId) (s : State) : Host.Outcome State Fault Refusal :=
  vecElem k .vsel 3 (fun _ a b c => (if (num32 c).isZero then b else a, false)) s

/-! ## Functions (R150) -/

/-- Whether a finite operand gave an infinity. -/
def overflowed (a r : BitVec 32) : Bool := !(num32 a).isInf && !(num32 a).isNan && (num32 r).isInf

/-- exp. -/
def expOf (a : BitVec 32) : BitVec 32 := expAt 0 a

/-- The reciprocal: 1/±0 = ±∞. -/
def rcpOf (a : BitVec 32) : BitVec 32 :=
  match num32 a with
  | .nan => nan32
  | .inf s => (code32 false (.fin s 0 0)).1
  | .fin s m e =>
    if m = 0 then (if s then 0xFF800000#32 else 0x7F800000#32) else nearResult 1 (Config.vecError 1 a) (rcpNum s m e)

/-- The reciprocal square root: rsqrt(+0) = +∞; a negative input gives NaN. -/
def rsqOf (a : BitVec 32) : BitVec 32 :=
  match num32 a with
  | .nan => nan32
  | .inf s => if s then nan32 else 0
  | .fin s m e =>
    if m = 0 then (if s then Config.vecOpen 2 a else 0x7F800000#32) else if s then nan32 else nearResult 1 (Config.vecError 2 a) (rsqNum m e)

/-- sin, and cos a quarter turn on. -/
def sinOf (quarter : Nat) (a : BitVec 32) : BitVec 32 :=
  match num32 a with
  | .nan => nan32
  | .inf _ => Config.vecOpen (3 + quarter) a
  | .fin s m e => nearResult 2 (Config.vecError (3 + quarter) a) (sinNum quarter s m e)

/-- VEXP. -/
def execVexp (k : CoreId) (s : State) : Host.Outcome State Fault Refusal :=
  vecElem k .vexp 1 (fun _ a _ _ => (expOf a, overflowed a (expOf a))) s

/-- VRCP: the infinity of 1/±0 is no overflow. -/
def execVrcp (k : CoreId) (s : State) : Host.Outcome State Fault Refusal :=
  vecElem k .vrcp 1 (fun _ a _ _ => (rcpOf a, !(num32 a).isZero && overflowed a (rcpOf a))) s

/-- VRSQ. -/
def execVrsq (k : CoreId) (s : State) : Host.Outcome State Fault Refusal :=
  vecElem k .vrsq 1 (fun _ a _ _ => (rsqOf a, false)) s

/-- VSIN. -/
def execVsin (k : CoreId) (s : State) : Host.Outcome State Fault Refusal :=
  vecElem k .vsin 1 (fun _ a _ _ => (sinOf 0 a, false)) s

/-- VCOS. -/
def execVcos (k : CoreId) (s : State) : Host.Outcome State Fault Refusal :=
  vecElem k .vcos 1 (fun _ a _ _ => (sinOf 1 a, false)) s

/-! ## VCVT (R147, R149, R171) -/

/-- A row converted: codes, scale bytes and flags. MX scales come from the row itself; integers shift, round and saturate; a
float overflow follows SAT. SHIFT is used from INT32 to an
integer; a float source is rounded to the integer, and a NaN gives a free value (log 35). -/
def convertRow (src dst : Fmt) (sat : Bool) (shift : Nat) (vs : List Num) : List Nat × List Nat × BitVec 5 :=
  if dst.isMx then
    let b0 := mxBlock dst (vs.take 32)
    let b1 := mxBlock dst (vs.drop 32)
    (b0.2 ++ b1.2, [b0.1, b1.1], 0)
  else match dst.float with
    | some g =>
      let r := vs.map (g.encode sat)
      (r.map (·.1), [], flagIf (r.any (·.2)) flVecOvf)
    | none =>
      (vs.map (fun v => match v with
        | .fin n m e =>
          let i : Int := ((roundTo m e (if src = .int32 then shift else 0 : Nat) : Nat) : Int)
          unsgn dst.bits (clampI (-(2 ^ (dst.bits - 1) : Nat)) ((2 ^ (dst.bits - 1) : Nat) - 1) (if n then -i else i))
        | .inf n => unsgn dst.bits (if n then -(2 ^ (dst.bits - 1) : Nat) else (2 ^ (dst.bits - 1) : Nat) - 1)
        | .nan => Config.nanToInt dst.bits % 2 ^ dst.bits), [], 0)

/-- What VCVT writes. -/
def cvtRows (c : Core) (x : VecFields) (q : Queued) : List Write × BitVec 5 :=
  let rows := (List.range x.count).map (fun j =>
    let r := convertRow q.a.fmt q.d.fmt (x.mod.getLsbD 0) x.shift.toNat (c.values q.a j)
    (c.rowWrites q.d j r.1 r.2.1, r.2.2))
  ((rows.map (·.1)).flatten, orFlags (rows.map (·.2)))

/-- VCVT: a converted to DST's format. -/
def execVcvt (k : CoreId) (s : State) : Host.Outcome State Fault Refusal :=
  vecIssue k .vcvt (fun x q => rowsOf q.a x.count) elemDsts (fun _ _ => true) cvtRows s

/-! ## Softmax (R151, R171) -/

/-- Row 0 of an operand. -/
def row0 (d : VDesc) : Rows := [(d, 0)]

/-- A running row with its first lanes replaced, in its own format. -/
def Core.runningRow (c : Core) (d : VDesc) (new : List (BitVec 32 × Bool)) (nanIn : Bool) : List Write × BitVec 5 :=
  let old := c.codes d 0
  let lanes := new.map (fun r => vecLane d.fmt nanIn r.1 r.2)
  (c.rowWrites d 0 (lanes.map (·.1) ++ old.drop new.length) [], orFlags (lanes.map (·.2)))

/-- What VMAXR writes. -/
def maxRow (c : Core) (x : VecFields) (q : Queued) : List Write × BitVec 5 :=
  let m := c.row32 q.b 0
  c.runningRow q.d ((List.range x.count).map (fun j => ((c.row32 q.a j).foldl maxOf (m.getD j 0), false))) true

/-- VMAXR: d[0][j] is the maximum of b[0][j] and the lanes of a[j]. -/
def execVmaxr (k : CoreId) (s : State) : Host.Outcome State Fault Refusal :=
  vecIssue k .vmaxr (fun x q => rowsOf q.a x.count ++ row0 q.b) (fun _ q => row0 q.d)
    (fun _ q => q.d.computes && q.a.computes && q.b.computes) maxRow s

/-- What VEXPS writes. -/
def expRows (c : Core) (x : VecFields) (q : Queued) : List Write × BitVec 5 :=
  let m := c.row32 q.b 0
  let run := c.row32 q.c 0
  let rows := (List.range x.count).map (fun j =>
    let a := c.row32 q.a j
    let mj := m.getD j 0
    let e := a.map (fun v => expDiff v mj)
    let lanes := (a.zip e).map (fun (v, r) => vecLane q.d.fmt ((num32 v).isNan || (num32 mj).isNan) r (overflowed v r && !(num32 mj).isInf))
    let nanIn := (num32 (run.getD j 0)).isNan || e.any (fun r => (num32 r).isNan)
    let sum := e.foldl (fun (acc : BitVec 32 × Bool) r =>
      let t := code32 false ((num32 acc.1).add (num32 r))
      (t.1, acc.2 || t.2)) (run.getD j 0, false)
    (c.rowWrites q.d j (lanes.map (·.1)) [], orFlags (lanes.map (·.2)), sum, nanIn))
  let r := c.runningRow q.c (rows.map (·.2.2.1)) (rows.any (·.2.2.2))
  ((rows.map (·.1)).flatten ++ r.1, orFlags (rows.map (·.2.1)) ||| r.2)

/-- VEXPS: d[j][i] = exp(a[j][i] − b[0][j]), and each row is added in ascending lane order into c[0][j]. -/
def execVexps (k : CoreId) (s : State) : Host.Outcome State Fault Refusal :=
  vecIssue k .vexps (fun x q => rowsOf q.a x.count ++ row0 q.b ++ row0 q.c) (fun x q => rowsOf q.d x.count ++ row0 q.c)
    (fun _ q => q.d.computes && q.a.computes && q.b.computes && q.c.computes) expRows s

/-- What VRESC writes. -/
def rescaleRows (c : Core) (x : VecFields) (q : Queued) : List Write × BitVec 5 :=
  let b := c.row32 q.b 0
  let m := c.row32 q.c 0
  let rows := (List.range x.count).map (fun j =>
    let lanes := (c.row32 q.a j).zipIdx.map (fun (v, i) =>
      let l := if x.mod.getLsbD 0 then i else j
      let u := b.getD l 0
      let w := m.getD l 0
      let r := code32 false ((num32 v).mul (num32 (expDiff u w)))
      vecLane q.d.fmt ((num32 v).isNan || (num32 u).isNan || (num32 w).isNan) r.1 r.2)
    (c.rowWrites q.d j (lanes.map (·.1)) [], orFlags (lanes.map (·.2))))
  ((rows.map (·.1)).flatten, orFlags (rows.map (·.2)))

/-- VRESC: d[j][i] = a[j][i] × exp(b[0][j] − c[0][j]), or lane by lane of row 0. -/
def execVresc (k : CoreId) (s : State) : Host.Outcome State Fault Refusal :=
  vecIssue k .vresc (fun x q => rowsOf q.a x.count ++ row0 q.b ++ row0 q.c) elemDsts
    (fun _ q => q.d.computes && q.a.computes && q.b.computes && q.c.computes) rescaleRows s

/-! ## Top-k and rotation (R152, R153, R171) -/

/-- x ranks before y: larger, and the lower index among equals; NaN ranks below −∞. -/
def ranksBefore (x y : BitVec 32 × Nat) : Bool :=
  let a := num32 x.1
  let b := num32 y.1
  if a.isNan then b.isNan && decide (x.2 < y.2)
  else if b.isNan then true
  else if b.lt a then true
  else if a.lt b then false
  else decide (x.2 < y.2)

/-- Insert by rank. -/
def insertRank (x : BitVec 32 × Nat) : List (BitVec 32 × Nat) → List (BitVec 32 × Nat)
  | [] => [x]
  | y :: r => if ranksBefore x y then x :: y :: r else y :: insertRank x r

/-- What VTOPK writes. -/
def topRows (c : Core) (x : VecFields) (q : Queued) : List Write × BitVec 5 :=
  let n := bits x.mod 0 6 + 1
  let all := ((List.range x.count).map (fun j => (c.row32 q.a j).zipIdx.map (fun (v, i) => (v, 64 * j + i)))).flatten
  let top := (all.foldr insertRank []).take n
  let base := (Tab.get 0#32 c.sr x.scal.toNat).toNat
  (c.rowWrites q.d 0 (top.map (·.1.toNat) ++ (c.codes q.d 0).drop n) [] ++
    c.rowWrites q.d 1 (top.map (fun e => (e.2 + base) % 2 ^ 32) ++ (c.codes q.d 1).drop n) [], 0)

/-- VTOPK: row 0 of d takes the k largest values in descending order, row 1 their indices; the other lanes stay. -/
def execVtopk (k : CoreId) (s : State) : Host.Outcome State Fault Refusal :=
  vecIssue k .vtopk (fun x q => rowsOf q.a x.count) (fun _ q => rowsOf q.d 2)
    (fun _ q => (q.a.fmt == .fp32) && (q.d.fmt == .fp32) && q.a.kind != 3#2) topRows s

/-- What VROT writes. -/
def rotRows (c : Core) (x : VecFields) (q : Queued) : List Write × BitVec 5 :=
  let per := bits x.mod 2 2 + 1
  let dim := 64 * per
  let halves := x.mod.getLsbD 0
  let freq := ((List.range ((per + 1) / 2)).map (fun j => c.row32 q.b j)).flatten
  let base := (Tab.get 0#32 c.sr x.scal.toNat).toNat
  let head := fun (h : Nat) => ((List.range per).map (fun r => c.row32 q.a (h * per + r))).flatten
  let rows := (List.range x.count).map (fun j =>
    let h := j / per
    let v := head h
    let pos := if x.mod.getLsbD 1 then base else base + h
    let lanes := (List.range 64).map (fun i =>
      let e := 64 * (j % per) + i
      let pair := if halves then e % (dim / 2) else e / 2
      let low := if halves then decide (e < dim / 2) else e % 2 == 0
      let x0 := v.getD (if halves then pair else 2 * pair) 0
      let x1 := v.getD (if halves then pair + dim / 2 else 2 * pair + 1) 0
      let f := freq.getD pair 0
      let r := rotateElem low x0 x1 pos f
      vecLane q.d.fmt ((num32 x0).isNan || (num32 x1).isNan || (num32 f).isNan) r.1 r.2)
    (c.rowWrites q.d j (lanes.map (·.1)) [], orFlags (lanes.map (·.2))))
  ((rows.map (·.1)).flatten, orFlags (rows.map (·.2)))

/-- VROT: pairs of elements rotated by position × frequency (R153). -/
def execVrot (k : CoreId) (s : State) : Host.Outcome State Fault Refusal :=
  vecIssue k .vrot (fun x q => rowsOf q.a x.count ++ rowsOf q.b ((bits x.mod 2 2 + 2) / 2)) elemDsts
    (fun x q => q.d.computes && q.a.computes && q.b.computes && x.count % (bits x.mod 2 2 + 1) == 0) rotRows s

/-! ## Planes, scalars and flags (R137, R171) -/

/-- VREL: a FULL plane returns to FREE; any other plane retires it, counted. A plane that a LAST in flight will fill is
waited for, and so is one with unwritten vector results. -/
def execVrel (k : CoreId) (s : State) : Host.Outcome State Fault Refusal :=
  issueFront k .vec (fun o => match o with | .vec .vrel _ => true | _ => false) (fun q s =>
    match q.instr.op with
    | .vec _ x =>
      let c := s.core k.val
      let p := bits x.mod 0 1
      if c.inflight.any (fun f => f.writes.contains (.planeTo p .full)) then .waits
      else if c.hazard ((List.range 64).map (fun r => .plane p r)) then .waits
      else if c.planeSt p ≠ .full then .retires cViolSpanPlane
      else .goes s [.planeTo p .free] 0 []
    | _ => .waits) s

/-- VSETS: a scalar takes IMM. -/
def execVsets (k : CoreId) (s : State) : Host.Outcome State Fault Refusal :=
  issueFront k .vec (fun o => match o with | .vsets _ _ => true | _ => false) (fun q s =>
    match q.instr.op with
    | .vsets r v => if (s.core k.val).hazard [.scalar r.toNat] then .waits else .goes s [.scalar r.toNat v] 0 []
    | _ => .waits) s

/-- VMOVR: CORE_FLAGS, the halves of fabric time latched as R20 states, the core number, or the stream's index. -/
def execVmovr (k : CoreId) (s : State) : Host.Outcome State Fault Refusal :=
  issueFront k .vec (fun o => match o with | .vmovr _ _ => true | _ => false) (fun q s =>
    match q.instr.op with
    | .vmovr r src =>
      let c := s.core k.val
      let now := s.ftNow.toNat
      let hi := BitVec.ofNat 32 (now / 2 ^ 32)
      if c.hazard [.scalar r.toNat] then .waits
      else match src.toNat with
        | 0 => .goes s [.scalar r.toNat (c.flags.zeroExtend 32)] 0 []
        | 1 => .goes (updCore k.val (fun c => { c with ftLatch := some hi }) s) [.scalar r.toNat (BitVec.ofNat 32 now)] 0 []
        | 2 => .goes (updCore k.val (fun c => { c with ftLatch := none }) s) [.scalar r.toNat (c.ftLatch.getD hi)] 0 []
        | 3 => .goes s [.scalar r.toNat (BitVec.ofNat 32 k.val)] 0 []
        | _ => .goes s [.scalar r.toNat (BitVec.ofNat 32 c.localIdx)] 0 []
    | _ => .waits) s

/-- VFCLR: the CORE_FLAGS bits set in MOD are cleared. -/
def execVfclr (k : CoreId) (s : State) : Host.Outcome State Fault Refusal :=
  issueFront k .vec (fun o => match o with | .vec .vfclr _ => true | _ => false) (fun q s =>
    match q.instr.op with
    | .vec _ x => .goes (updCore k.val (fun c => { c with flags := c.flags &&& ~~~ BitVec.ofNat 5 (bits x.mod 0 5) }) s) [] 0 []
    | _ => .waits) s

end Sys2Proof.Machine
end

