-- ==== Sys2Proof/Machine/OpsAdmit.lean ====
section
/-! DEFINITION. Admission of tile programs: the image (07 R156, R157), the manifest (09 R213), the checks of PROG_LOAD (09 R214,
R215) and the abstract execution (09 R218). -/

namespace Sys2Proof.Machine

/-- The first element a test gives an answer for. -/
def firstSome {α β : Type} (l : List α) (f : α → Option β) : Option β := l.findSome? f

/-! ## The image (R156) -/

/-- The words of stream k of an image, none where its table entry is wrong. -/
def streamAt (b : Bytes) (k : Nat) : Option (List (BitVec 64)) :=
  let off := rd b (0x80 + 8 * k) 4
  let w := rd b (0x84 + 8 * k) 4
  if off % 64 = 0 ∧ 1 ≤ w ∧ w ≤ 16384 ∧ off + 8 * w ≤ b.length then
    some ((chunks 8 w (b.drop off)).map (fun x => BitVec.ofNat 64 (leNat x)))
  else none

/-- The streams of an image, none where MAGIC, VERSION, STREAM_COUNT, the stream table or DIGEST is wrong. -/
def imageStreams (b : Bytes) : Option (List (List (BitVec 64))) :=
  let n := rd b 6 1
  if rd b 0 4 = 0x50545646 ∧ rd b 4 2 = 1 ∧ 1 ≤ n ∧ n ≤ 64 ∧ 0x80 + 8 * n ≤ b.length ∧
      (Config.sha384 (b.drop 0x80)).toNat = rd b 0x10 48 then
    (List.range n).mapM (streamAt b)
  else none

/-! ## The manifest (R213) -/

/-- Offset in the manifest of the first field that check 1 of R215 refuses. -/
def manifestFault (m : Bytes) : Option Nat :=
  let cores := rd m 6 1
  let ctrs := rd m 8 2
  let bad := fun (off n : Nat) (p : Nat → Bool) => if p (rd m off n) then none else some off
  let coreBad := fun (k : Nat) =>
    let o := 64 + 16 * k
    (bad o 1 (· < 2)).or ((bad (o + 1) 1 (· < 2)).or (firstNonZero m (o + 4) 12))
  let ctrBad := fun (k : Nat) =>
    let o := 64 + 16 * cores + 24 * k
    (bad o 1 (· < 3)).or (firstNonZero m (o + 1) 7)
  firstSome [bad 0 4 (· == 0x4D545646), bad 4 2 (· == 1), bad 6 1 (fun v => decide (1 ≤ v ∧ v ≤ 64)), bad 7 1 (· < 3),
    bad 8 2 (· < 4097), bad 0xA 1 (· < 17), bad 0xB 1 (· < 64), bad 0xC 1 (· < 121), firstNonZero m 0xD 3,
    bad 0x10 4 (· == 64 + 16 * cores + 24 * ctrs), firstNonZero m 0x14 44, firstSome (List.range cores) coreBad,
    firstSome (List.range ctrs) ctrBad] id

/-- The program that a manifest and the streams of its image make. -/
def programOf (f : Nat) (m image : Bytes) (streams : List (List (BitVec 64))) : Program :=
  let cores := rd m 6 1
  { fn := f, cores := cores, placement := rd m 7 1, engines := rd m 0xA 1, buffers := rd m 0xB 1, basalt := rd m 0xC 1,
    coreRecs := (List.range cores).map (fun k =>
      let o := 64 + 16 * k
      { spread := rd m o 1 == 1, shadow := rd m (o + 1) 1 == 1, dataKib := rd m (o + 2) 2 }),
    ctrRecs := (List.range (rd m 8 2)).map (fun k =>
      let o := 64 + 16 * cores + 24 * k
      { kind := rd m o 1, producers := rdBV 64 m (o + 8), consumers := rdBV 64 m (o + 16) }),
    streams := streams, imageLen := image.length, builtin := false }

/-! ## Words of a stream (R157) -/

/-- A stream decoded word by word. -/
abbrev Decoded := List (Option TileInstr)

/-- DETAIL of a stream and a word. -/
def wordDetail (st w : Nat) : Nat := st * 65536 + w

/-- The first word that check 5 refuses, from word w of a stream of n words on: one that does not decode, a loop that leaves
the stream or its enclosing body or nests too deep. `open_` holds the words after the bodies that are open. -/
def loopFault (n : Nat) : Nat → List Nat → Decoded → Option Nat
  | _, _, [] => none
  | w, _, none :: _ => some w
  | w, open_, some x :: r =>
    let o := open_.filter (w < ·)
    match x.op with
    | .loop _ body =>
      let last := w + 1 + body.toNat
      if n < last ∨ o.any (· < last) ∨ 4 ≤ o.length then some w else loopFault n (w + 1) (last :: o) r
    | _ => loopFault n (w + 1) o r

/-- HALT. -/
def isHalt : Option TileInstr → Bool
  | some x => x.op == .halt
  | none => false

/-- An operand in Slate that no index register moves lies outside the data region of so many units (R157). What descriptors hold is
checked at dispatch. -/
def TileOp.outside (units : Nat) (o : TileOp) : Bool :=
  match o with
  | .sld x => x.ix == 0 && decide (units ≤ x.src.toNat)
  | .drain x => x.ix == 0 && decide (units ≤ x.dst.toNat)
  | .dmaGo x => x.ix == 0 && decide (units ≤ x.desc.toNat)
  | _ => false

/-- The word of a stream that check 5 refuses, for a data region of so many units; a stream without HALT is refused at its last word. -/
def decodeFault (units : Nat) (d : Decoded) : Option Nat :=
  let place := d.findIdx? (fun x => match x with | some y => y.op.outside units | none => false)
  match loopFault d.length 0 [] d, place with
  | some a, some b => some (min a b)
  | some a, none => some a
  | none, some b => some b
  | none, none => if d.any isHalt then none else some (d.length - 1)

/-- The counter that an operation names, if any: a SYNC, or a DMA.GO with SIG. -/
def TileOp.counter : TileOp → Option Nat
  | .syncWait _ c _ | .syncAdd c _ | .syncTas c => some c.toNat
  | .dmaGo x => if x.sig then some x.counter.toNat else none
  | _ => none

/-- The engine that an operation names. -/
def TileOp.engine : TileOp → Option Nat
  | .dmaGo x => some x.engine.toNat
  | _ => none

/-- The first (stream, word) whose operation fails a test, as DETAIL. -/
def opFault (ds : List Decoded) (bad : Nat → TileOp → Bool) : Option Nat :=
  firstSome ds.zipIdx (fun (d, st) =>
    firstSome d.zipIdx (fun (x, w) => match x with
      | some y => if bad st y.op then some (wordDetail st w) else none
      | none => none))

/-! ## Uses of counters (R214) -/

/-- How often each word of a stream runs: the product of the counts of its loops. A stream ends at its first HALT, so a loop
that holds it runs once. `open_` holds word after the body and count. -/
def runsOf (halt : Nat) : Nat → List (Nat × Nat) → Decoded → List Nat
  | _, _, [] => []
  | w, open_, x :: r =>
    let o := open_.filter (fun e => w < e.1)
    let here := if halt < w then 0 else (o.map (·.2)).foldl (· * ·) 1
    let o' := match x with
      | some y => match y.op with
        | .loop c body =>
          let last := w + 1 + body.toNat
          (last, if w < halt ∧ halt < last then 1 else c.toNat + 1) :: o
        | _ => o
      | none => o
    here :: runsOf halt (w + 1) o' r

/-- What one run of an operation adds to a counter; an addend below 0 adds nothing here. -/
def TileOp.adds (c : Nat) : TileOp → Nat
  | .syncAdd k v => if k.toNat = c then v.toInt.toNat else 0
  | .dmaGo x => if x.sig ∧ x.counter.toNat = c then x.countM1.toNat + 1 else 0
  | _ => 0

/-- The total of all increments that a program makes to a counter (R214). -/
def totalAdds (ds : List Decoded) (c : Nat) : Nat :=
  (ds.map (fun d =>
    ((d.zip (runsOf ((d.findIdx? isHalt).getD d.length) 0 [] d)).map (fun (x, n) => match x with
      | some y => n * y.op.adds c
      | none => 0)).sum)).sum

/-- An operation adds to, or waits on, a counter (R213). -/
def TileOp.produces (o : TileOp) : Bool := match o with | .syncAdd _ _ | .syncTas _ | .dmaGo _ => true | _ => false
def TileOp.consumes (o : TileOp) : Bool := match o with | .syncWait _ _ _ | .syncTas _ => true | _ => false

/-- A use that does not match its counter's PRODUCERS, CONSUMERS and kind. -/
def useBad (ds : List Decoded) (recs : List CtrRec) (st : Nat) (o : TileOp) : Bool :=
  match o.counter.bind (fun c => (recs[c]?).map (fun r => (c, r))) with
  | none => false
  | some (c, r) =>
    (o.produces && !r.producers.getLsbD st) || (o.consumes && !r.consumers.getLsbD st) ||
      (match r.kind, o with
       | 0, .syncAdd _ v => v.toInt < 0
       | 0, .syncTas _ => true
       | 0, .syncWait eq _ v => eq && v.toNat != totalAdds ds c
       | 1, .syncAdd _ v => v.toInt != -1
       | 1, .syncTas _ => false
       | 1, _ => true
       | 2, .syncWait eq _ _ => eq
       | 2, _ => true
       | _, _ => false)

/-- The first word that breaks the pairing of locks: a lock taken and released in one loop body, with no wait, no second lock
and no WT before the release or on it. `held` is the lock, its loops and its word. -/
def lockFault (recs : List CtrRec) : Nat → List Nat → Option (Nat × List Nat × Nat) → Decoded → Option Nat
  | _, _, held, [] => held.map (·.2.2)
  | w, open_, held, x :: r =>
    let o := open_.filter (w < ·)
    match x with
    | none => lockFault recs (w + 1) o held r
    | some y =>
      let isLock := match y.op.counter.bind (fun c => recs[c]?) with | some q => q.kind == 1 | none => false
      match held, y.op with
      | none, .syncTas c => lockFault recs (w + 1) o (if isLock then some (c.toNat, o, w) else none) r
      | none, .syncAdd _ _ => if isLock then some w else lockFault recs (w + 1) o none r
      | none, .loop _ b => lockFault recs (w + 1) ((w + 1 + b.toNat) :: o) none r
      | none, _ => lockFault recs (w + 1) o none r
      | some h, op =>
        if y.wt then some w
        else match op with
          | .syncTas _ | .syncWait _ _ _ | .halt => some w
          | .syncAdd c _ =>
            if !isLock then lockFault recs (w + 1) o held r
            else if c.toNat = h.1 ∧ o = h.2.1 then lockFault recs (w + 1) o none r
            else some w
          | .loop _ b => lockFault recs (w + 1) ((w + 1 + b.toNat) :: o) held r
          | _ => lockFault recs (w + 1) o held r

/-- What check 9 refuses: PRODUCERS of an external counter that is not 0 names no word. -/
def graphFault (ds : List Decoded) (recs : List CtrRec) : Option Nat :=
  (opFault ds (useBad ds recs)).or
    ((firstSome ds.zipIdx (fun (d, st) => (lockFault recs 0 [] none d).map (wordDetail st))).or
      (if recs.any (fun r => r.kind == 2 && r.producers != 0) then some 0xFFFFFFFF else none))

/-! ## Abstract execution (R218) -/

/-- A stream as the abstract execution sees it: its core, and what is queued in order of dispatch, each with its slot. -/
structure AbsStream where
  core : Core
  queue : List (SlotKind × Queued)

/-- The abstract execution: the streams, the values of counters and how many instructions have issued. -/
structure Abs where
  streams : List AbsStream
  vals : Tab Nat
  issued : Nat

/-- The rows that a vector operation reads. -/
def vecReads (op : VecOp) (x : VecFields) (q : Queued) : Rows :=
  match op with
  | .vmaxr => rowsOf q.a x.count ++ row0 q.b
  | .vexps | .vresc => rowsOf q.a x.count ++ row0 q.b ++ row0 q.c
  | .vtopk | .vcvt => rowsOf q.a x.count
  | .vrot => rowsOf q.a x.count ++ rowsOf q.b ((bits x.mod 2 2 + 2) / 2)
  | .vrel | .vfclr => []
  | _ => elemSrcs (op.uses - 1) x q

/-- The rows that it writes. -/
def vecWrites (op : VecOp) (x : VecFields) (q : Queued) : Rows :=
  match op with
  | .vmaxr => row0 q.d
  | .vexps => rowsOf q.d x.count ++ row0 q.c
  | .vtopk => rowsOf q.d 2
  | .vrel | .vfclr => []
  | _ => elemDsts x q

/-- A plane that a row lies in. -/
def planeOf (e : VDesc × Nat) : Option Nat :=
  ((e.1.locs e.2).getD []).findSome? (fun x => match x with | .plane p _ => some p | _ => none)

/-- A row lies in Grains. -/
def inGrains (e : VDesc × Nat) : Bool := e.1.kind == 2#2

/-- An instruction that fills Grains: the presence conditions of later reads stand behind it (R218). -/
def fillsGrains (q : Queued) : Bool :=
  match q.instr.op with
  | .sld _ | .dmaGo _ => true
  | .vec _ _ => q.d.kind == 2#2
  | _ => false

/-- One instruction tried: what its issue leaves of the core and the counters, none where a condition does not hold.
`filling`: an earlier instruction of the stream that fills Grains has not completed. -/
def absIssue (recs : List CtrRec) (vals : Tab Nat) (filling : Bool) (c : Core) (q : Queued) : Option (Core × Tab Nat) :=
  match q.instr.op with
  | .loadb _ _ _ _ => if filling then none else some (c, vals)
  | .mm x =>
    let p := x.p.toNat
    let rows := x.rowsM1.toNat + 1
    if !pairOk x.fmtA x.fmtB ∨ 256 < q.addr + rows ∨ 64 < x.d0.toNat + rows then some (c, vals)
    else if c.planeSt p = .full ∨ filling then none
    else if !x.first ∧ c.planeSt p = .free then some (c, vals)
    else
      let d := c.setPlane p (if x.last then .full else .accumulating)
      some (if p = 0 then { d with int0 := x.fmtA.isInt } else { d with int1 := x.fmtA.isInt }, vals)
  | .drain x =>
    let p := x.p.toNat
    if c.planeSt p ≠ .full ∨ x.pitch.toNat < x.fmt.rowUnits ∨ !drainOk (c.isInt p) x.fmt x.acc then some (c, vals)
    else some (c.setPlane p .free, vals)
  | .vec .vrel x =>
    let p := bits x.mod 0 1
    some (if c.planeSt p = .full then c.setPlane p .free else c, vals)
  | .vec op x =>
    if (vecReads op x q ++ vecWrites op x q).any (fun e => match planeOf e with | some p => c.planeSt p != .full | none => false) then none
    else if filling && (vecReads op x q).any inGrains then none
    else some (c, vals)
  | .syncWait eq i v =>
    let n := Tab.get 0 vals i.toNat
    let ext := match recs[i.toNat]? with | some r => r.kind == 2 | none => false
    if ext || (if eq then n == v.toNat else decide (v.toNat ≤ n)) then some (c, vals) else none
  | .syncAdd i v =>
    some (c, Tab.upd 0 vals i.toNat (fun n => (clampI 0 4294967295 ((n : Int) + v.toInt)).toNat))
  | .syncTas i => if Tab.get 0 vals i.toNat = 0 then some (c, Tab.put vals i.toNat 1) else none
  | .dmaGo x =>
    some (c, if x.sig then Tab.upd 0 vals x.counter.toNat (fun n => min (n + x.countM1.toNat + 1) 4294967295) else vals)
  | _ => some (c, vals)

/-- The events of an issue that completes at once. -/
def absEvents (c : Core) (x : TileInstr) : Core :=
  let d := if x.wt then { c with ev := Tab.upd 0 c.ev x.wev.toNat (· - 1) } else c
  if x.st then { d with ev := Tab.upd 0 d.ev x.sev.toNat (fun n => min (n + 1) 15) } else d

/-- The first queued instruction that can issue: the front of its slot, its event there and its conditions met. -/
def absPick (recs : List CtrRec) (vals : Tab Nat) (c : Core) :
    List (SlotKind × Queued) → List (SlotKind × Queued) → Option (Core × Tab Nat × List (SlotKind × Queued))
  | _, [] => none
  | before, e :: r =>
    let front := !before.any (fun b => b.1 == e.1)
    let event := !e.2.instr.wt || Tab.get 0 c.ev e.2.instr.wev.toNat != 0
    match (if front && event then absIssue recs vals (before.any (fun b => fillsGrains b.2)) c e.2 else none) with
    | some (d, v) => some (absEvents d e.2.instr, v, before ++ r)
    | none => absPick recs vals c (before ++ [e]) r

/-- One action of a stream: the next word dispatches, or else a queued instruction issues. -/
def absAct (recs : List CtrRec) (vals : Tab Nat) (a : AbsStream) : Option (AbsStream × Tab Nat × Nat) :=
  let issue := (absPick recs vals a.core [] a.queue).map (fun (d, v, l) => ({ core := d, queue := l : AbsStream }, v, 1))
  match a.core.next with
  | none => issue
  | some x => match x.op.slot with
    | none => (a.core.runControl x.op).map (fun d => ({ a with core := d }, vals, 1))
    | some slot =>
      if slotDepth ≤ (a.queue.filter (fun e => e.1 == slot)).length then issue
      else some ({ core := (a.core.autoAdvance x.op).advance, queue := a.queue ++ [(slot, a.core.resolve x)] }, vals, 0)

/-- One action of the first stream that has one. -/
def absNext (recs : List CtrRec) (a : Abs) : Option (Abs × Nat) :=
  firstSome a.streams.zipIdx (fun (x, k) =>
    (absAct recs a.vals x).map (fun (y, v, n) => ({ streams := a.streams.set k y, vals := v, issued := a.issued + n }, k)))

/-- The most instructions that the abstract execution may issue (R215). -/
abbrev admitBudget : Nat := 67108864

/-- How the abstract execution ends: REASON and DETAIL of a refusal. -/
def absRun (recs : List CtrRec) : Nat → Abs → Option (Nat × Nat)
  | 0, a => if a.issued ≤ admitBudget then none else some (0xB, 0)
  | n + 1, a =>
    match absNext recs a with
    | none =>
      firstSome a.streams.zipIdx (fun (x, k) =>
        match x.queue with
        | e :: _ => some (0xA, wordDetail k e.2.word)
        | [] => if x.core.halted then none else some (0xA, wordDetail k x.core.pc))
    | some (b, k) => if admitBudget < b.issued then some (0xB, wordDetail k 0) else absRun recs n b

/-- The abstract execution of a program. Every instruction takes at most one dispatch and one issue. -/
def abstractRun (p : Program) : Option (Nat × Nat) :=
  absRun p.ctrRecs (3 * admitBudget)
    { streams := p.streams.map (fun w => { core := { ({} : Core) with stream := w, halted := false }, queue := [] }),
      vals := [], issued := 0 }

/-! ## The checks in order (R215) -/

/-- Usable clusters. -/
def State.usableClusters (s : State) : Nat := ((List.range 8).filter (fun n => s.isReady (rCl n))).length

/-- Check 4: the stream that does not fit its Slate. -/
def slateFault (p : Program) : Option Nat :=
  firstSome (p.coreRecs.zip p.streams).zipIdx (fun ((r, w), k) =>
    let ok := if r.spread then decide (16 * r.dataKib + (w.length + 7) / 8 + 1536 * r.shadow.toNat ≤ 24576)
      else decide (r.dataKib ≤ 256)
    if ok then none else some (wordDetail k 0))

/-- REASON and DETAIL of the first check that refuses a program. -/
def admission (m : Bytes) (p : Program) (s : State) : Option (Nat × Nat) :=
  let ds : List Decoded := p.streams.map (fun w => w.map decodeTile)
  let usable := s.usableClusters
  let most := if p.placement = 1 then 4 else 8
  let reason := fun (r : Nat) (o : Option Nat) => o.map (fun d => (r, d))
  (reason 1 (manifestFault m)).or <|
  (reason 2 (if p.cores = p.streams.length ∧ p.cores ≤ 8 * usable then none else some (8 * usable))).or <|
  (reason 3 (if p.placement = 0 ∨ p.cores ≤ most then none else some most)).or <|
  (reason 4 (slateFault p)).or <|
  (reason 5 (firstSome ds.zipIdx (fun (d, k) =>
    (decodeFault (16 * ((p.coreRecs[k]?).map (·.dataKib)).getD 0) d).map (wordDetail k)))).or <|
  (reason 6 ((opFault ds (fun _ o => match o.counter with | some c => decide (p.ctrRecs.length ≤ c) | none => false)).or
    (if p.ctrRecs.length ≤ 512 * (if p.placement = 0 then usable else 1) then none else some 0xFFFFFFFF))).or <|
  (reason 7 (opFault ds (fun _ o => match o.engine with | some e => decide (p.engines ≤ e) | none => false))).or <|
  (reason 8 (if p.basalt ≤ 120 then none else some 0)).or <|
  (reason 9 (graphFault ds p.ctrRecs)).or (abstractRun p)

end Sys2Proof.Machine
end

