-- ==== Sys2Proof/Machine/Tasks.lean ====
section
/-! DEFINITION. Programs and tasks: PROG_LOAD, PROG_UNLOAD, TASK_RUN, placement and the end of a task (07 R156, R157, R163,
09 R213 to R217, 15 R320, R321). -/

namespace Sys2Proof.Machine

/-- A program. -/
def State.prog (s : State) (h : Nat) : Option Program := Tab.find s.progs h

/-- PROG_LOAD (R156, R215): the manifest and the image come as the host's memory holds them. -/
def execProgLoad (f : Fn) (src : Src) (manifest image : Bytes) (s : State) : Host.Outcome State Fault Refusal :=
  command f.val opProgLoad src [(0x10, 8), (0x18, 8), (0x20, 4)] true (fun c t =>
    let img := image.take (c.arg 0x20 4)
    match imageStreams img with
    | none => c.end eSig t
    | some streams =>
      let p := programOf f.val manifest img streams
      match admission manifest p t with
      | some (r, d) => c.answer eNoFit 0 (result [(0, 2, r), (4, 4, d)]) t
      | none =>
        let (h, u) := issue f.val kProgram (Tab.keys t.progs) t
        c.answer stOk h 0 { u with progs := Tab.put u.progs h p }) s

/-- PROG_UNLOAD (R66, R69, R320). -/
def execProgUnload (f : Fn) (src : Src) (s : State) : Host.Outcome State Fault Refusal :=
  command f.val opProgUnload src [] false (fun c t =>
    let h := c.e.handle.toNat
    c.withHandle kProgram (Tab.has t.progs h) true (fun t =>
      if ((t.prog h).map (·.builtin)).getD false || t.tasks.any (fun e => e.2.prog == h) then c.end eBusy t
      else c.end stOk { t with progs := Tab.erase t.progs h }) t) s

/-! ## TASK_RUN -/

/-- What a buffer argument of TASK_RUN amounts to: fine, a missing buffer, or a handle that is not a live buffer. -/
inductive BufArg where
  | fine | missing | bad
  deriving DecidableEq, Repr

/-- A buffer argument (R66, R216, R320): 0 where the program declares no use of it. -/
def bufArg (f h : Nat) (used : Bool) (s : State) : BufArg :=
  if h = 0 then (if used then .missing else .fine)
  else match handleIs s f kBuffer h (Tab.has s.bufs h) with
    | .live => .fine
    | _ => .bad

/-- Whether a program declares a use of buffer b: the vision program takes all three (R320). -/
def Program.uses (p : Program) (b : Nat) : Bool := p.builtin || decide (p.buffers / 4 ^ b % 4 ≠ 0)

/-- TASK_RUN (R70, R205, R216, R217, R415, R433): the task waits to be placed. -/
def execTaskRun (f : Fn) (src : Src) (s : State) : Host.Outcome State Fault Refusal :=
  command f.val opTaskRun src [(0x10, 8), (0x18, 8), (0x20, 8), (0x28, 1)] false (fun c t =>
    let h := c.e.handle.toNat
    c.withHandle kProgram (Tab.has t.progs h) false (fun t =>
      match t.prog h with
      | none => t
      | some p =>
        let b := fun (k : Nat) => c.arg (0x10 + 8 * k) 8
        let args := (List.range 3).map (fun k => bufArg f.val (b k) (p.uses k) t)
        if 4 < c.arg 0x28 1 then c.drop cViolIarekField t
        else if args.contains .bad then c.drop cViolIarekHandle t
        else if args.contains .missing then c.drop cViolIarekField t
        else if t.hbmLost then c.endRetry eNotReady 0 t
        else if t.thermal.critical then c.end eThermal t
        else match srcQ c.src with
          | none => t
          | some q =>
            { t with
              nextTask := t.nextTask + 1,
              tasks := Tab.put t.tasks t.nextTask {
                fn := f.val, q := q, tag := c.e.tag, prog := h, buf0 := b 0, buf1 := b 1, buf2 := b 2,
                cls := c.arg 0x28 1, prio := c.prio, order := t.nextTask } }) t) s

/-! ## Placement (R217) -/

/-- Free cores of cluster n, ascending, in which nothing is still in progress; none while its READY bit is 0. -/
def State.freeCores (s : State) (n : Nat) : List Nat :=
  if s.isReady (rCl n) then
    ((List.range 8).map (8 * n + ·)).filter (fun k => (s.core k).task.isNone && (s.core k).inflight.isEmpty)
  else []

/-- The most free cores in m clusters of a list. -/
def mostIn : Nat → List (List Nat) → Nat
  | _, [] => 0
  | 0, _ => 0
  | m + 1, c :: r => max (c.length + mostIn m r) (mostIn (m + 1) r)

/-- The lowest m clusters of a list that together have n free cores: a cluster is passed over only where the ones that follow
would do without it and not with it. -/
def pickClusters : Nat → Nat → List (List Nat) → List Nat
  | _, _, [] => []
  | 0, _, _ => []
  | m + 1, n, c :: r =>
    if n ≤ c.length + mostIn m r then c ++ pickClusters m (n - c.length) r else pickClusters (m + 1) n r

/-- Cores for n streams of a placement (R217, step 1), in stream order. -/
def State.findCores (s : State) (placement n : Nat) : Option (List Nat) :=
  let clusters := (List.range 8).map s.freeCores
  if placement = 1 then
    firstSome (List.range 16) (fun i =>
      let l := (s.freeCores (i / 2)).filter (fun k => k / 4 == i)
      if n ≤ l.length then some (l.take n) else none)
  else if placement = 2 then
    firstSome clusters (fun l => if n ≤ l.length then some (l.take n) else none)
  else
    (firstSome (List.range 9) (fun m => if n ≤ mostIn m clusters then some m else none)).map (fun m =>
      (pickClusters m n clusters).take n)

/-- The lowest stream that a bit mask of a counter record names. -/
def lowestStream (v : BitVec 64) : Option Nat := (List.range 64).find? (fun k => v.getLsbD k)

/-- A hardware counter for a counter record (R217, step 2): in the cluster of its lowest consumer, else of its lowest producer,
else, going on in ascending order, in the next cluster of the placement. `taken` are those already bound. -/
def State.findCounter (s : State) (cores taken : List Nat) (r : CtrRec) : Option Nat :=
  let clusters := (cores.map (· / 8)).dedup
  let home := match (lowestStream r.consumers).or (lowestStream r.producers) with
    | some k => (cores.getD k (cores.headD 0)) / 8
    | none => cores.headD 0 / 8
  let order := clusters.filter (home ≤ ·) ++ clusters.filter (· < home)
  firstSome order (fun n =>
    ((List.range 512).map (512 * n + ·)).find? (fun h => (Tab.get {} s.ctrs h).tag.agent == 15 && !taken.contains h))

/-- Hardware counters for all counter records, in order. -/
def State.findCounters (s : State) (cores : List Nat) : List Nat → List CtrRec → Option (List Nat)
  | taken, [] => some taken
  | taken, r :: rest =>
    match s.findCounter cores taken r with
    | none => none
    | some h => s.findCounters cores (taken ++ [h]) rest

/-- Engines (R217, step 3): for each cluster of the placement the lowest free engines. -/
def State.findEngines (s : State) (cores : List Nat) (n : Nat) : Option (Tab Nat) :=
  let per := (cores.map (· / 8)).dedup.map (fun cl =>
    let free := ((List.range 16).map (16 * cl + ·)).filter (fun e => (Tab.get {} s.engines e).tag.agent == 15)
    if n ≤ free.length then some ((free.take n).zipIdx.map (fun (e, i) => (16 * cl + i, e))) else none)
  if per.any Option.isNone then none else some ((per.map (·.getD [])).flatten.foldl (fun t e => Tab.put t e.1 e.2) [])

/-- The first of n adjacent free Basalt regions (R197, R217, step 4). -/
def State.findBasalt (s : State) (n : Nat) : Option Nat :=
  (List.range 121).find? (fun b => decide (b + n ≤ 120) && (List.range n).all (fun i => !Tab.has s.store.basalt (b + i)))

/-- What a task of a program needs can be placed on an idle part with the clusters that are usable. -/
def State.couldPlace (s : State) (p : Program) (cores : Nat) : Bool :=
  let usable := s.usableClusters
  let room := if p.placement = 0 then usable else min usable 1
  decide (cores ≤ (if p.placement = 1 then 4 else 8) * room) && decide (p.ctrRecs.length ≤ 512 * room)

/-- A placement for a program on so many cores. -/
def State.findPlace (s : State) (p : Program) (cores : Nat) : Option Place :=
  match s.findCores p.placement cores with
  | none => none
  | some cs =>
    match s.findCounters cs [] p.ctrRecs, s.findEngines cs p.engines, s.findBasalt p.basalt with
    | some ctrs, some engines, some b => some { cores := cs, counters := ctrs, engines := engines, basalt := b, basaltN := p.basalt }
    | _, _, _ => none

/-! ## The start of a task (R121, R122, R148, R163, R191) -/

/-- The first unit of a core's stream in Slate: past the data region in spread mode, past the near window in near mode (R158, R179,
R189; log 37). -/
def CoreRec.streamAt (r : CoreRec) : Nat := if r.spread then 16 * r.dataKib else 4096

/-- A stream as units of Slate, eight words to a unit, the last one filled up with zeros (R158, R179). -/
def streamUnits : List (BitVec 64) → List Unit64
  | [] => []
  | a :: b :: c :: d :: e :: f :: g :: h :: r => bytesUnit ([a, b, c, d, e, f, g, h].flatMap (fun w => toLe 8 w.toNat)) :: streamUnits r
  | l => [bytesUnit (fit 64 (l.flatMap (fun w => toLe 8 w.toNat)))]

/-- A core at the start of stream i of task n: the loader has placed the stream in its Slate, and the CCC sets what R163 names. -/
def Core.started (c : Core) (n i : Nat) (stream : List (BitVec 64)) (r : CoreRec) : Core :=
  let d := (streamUnits stream).zipIdx.foldl (fun d (v, j) => d.putUnit (r.streamAt + j) v) c
  { d with
    streamBase := r.streamAt,
    aPres := 0, bPres := 0, plane0 := .free, plane1 := .free, int0 := false, int1 := false, flags := 0, ev := [], ix := [], sr := [],
    vd := [], spread := r.spread, stream := stream, pc := 0, loops := [], halted := stream.isEmpty, qs := [], qv := [], qx := [],
    inflight := [], starved := [], ftLatch := none, task := some n, localIdx := i, dataUnits := 16 * r.dataKib, hasShadow := r.shadow }

/-- The resources of a placement are granted and its cores start. -/
def startTask (n : Nat) (t : Task) (p : Program) (pl : Place) (s : State) : State :=
  let owner := fun (u : State) (cl : Nat) => u.tagOf (agCcc cl) t.fn
  let u := forEach pl.cores.zipIdx (fun (k, i) u =>
    updCore k (fun c => (c.granted (owner u (k / 8))).started n i (p.streams.getD i [])
      (p.coreRecs.getD i { spread := false, shadow := false, dataKib := 0 })) u) s
  let u := forEach pl.counters (fun h u => { u with ctrs := Tab.put u.ctrs h { value := 0, tag := owner u (h / 512) } }) u
  let u := forEach (Tab.vals pl.engines) (fun e u => { u with
    engines := Tab.upd {} u.engines e (fun x => { x with tag := owner u (e / 16), grant := x.grant + 1 }) }) u
  let cl := pl.cores.headD 0 / 8
  let u := forEach ((List.range pl.basaltN).map (pl.basalt + ·)) (fun b u =>
    let tag := owner u cl
    let v := if sameOwner (Tab.find u.store.basaltTag b) tag then u else zero (basaltBase + b * 1048576) 1048576 u
    updStore (fun x => { x with
      basalt := Tab.put x.basalt b n, basaltTag := Tab.put x.basaltTag b tag,
      basaltBad := x.basaltBad.filter (fun w => w / 16384 != b) }) v) u
  { u with tasks := Tab.put u.tasks n { t with place := some pl } }

/-- A task that blocks another (R217): waiting, not paused, of higher priority or of the same one and fetched earlier. -/
def Task.before (a b : Task) : Bool :=
  a.place.isNone && !a.paused && (decide (b.prio < a.prio) || (a.prio == b.prio && decide (a.order < b.order)))

/-! ## The vision program's list (R320, R321) -/

/-- Bytes of a buffer by its units. -/
def bufRead (units : List Nat) (off n : Nat) (s : State) : Bytes :=
  (List.range n).map (fun i => match units[(off + i) / unitBytes4M]? with
    | some u => memGet s.mem (u * unitBytes4M + (off + i) % unitBytes4M)
    | none => 0#8)

/-- The units of a buffer. -/
def State.bufUnits (s : State) (h : Nat) : List Nat := ((Tab.find s.bufs h).map (·.units)).getD []

/-- The list header in BUF2 is as R321 asks. -/
def listHeaderOk (b : Bytes) : Bool :=
  rd b 0 4 == 0x56565646 && rd b 4 2 == 1 && decide (1 ≤ rd b 6 1 ∧ rd b 6 1 ≤ 64) && rd b 7 1 == 0 &&
    decide (1 ≤ rd b 8 4 ∧ rd b 8 4 ≤ 4096) && rd b 0xC 4 == 0 && rd b 0x10 8 % 128 == 0 && allZero (slice b 0x18 40)

/-- Waiting task n is placed (R217, R288, R433): at a step boundary, when no other task blocks it. A task that the usable
clusters cannot hold ends E_NOTREADY; one whose operator list has a wrong header ends with every record skipped. -/
def execTaskPlaced (n : Nat) (s : State) : Host.Outcome State Fault Refusal :=
  match Tab.find s.tasks n with
  | none => done s s
  | some t => match s.prog t.prog with
    | none => done s s
    | some p =>
      if t.place.isSome || t.paused || !s.schRuns || s.thermal.critical || s.tasks.any (fun e => e.2.before t) then done s s
      else
        let hdr := bufRead (s.bufUnits t.buf2) 0 64 s
        let t := if p.builtin && t.visCount == 0 && listHeaderOk hdr then
            { t with visCores := rd hdr 6 1, visCount := rd hdr 8 4, visOff := rd hdr 0x10 8 } else t
        let cores := if p.builtin then t.visCores else p.cores
        if p.builtin && t.visCount == 0 then
          let k := rd hdr 8 4
          live s (endTask n stOk false (bumpBy t.fn cViolVisionParam k
            { s with tasks := Tab.put s.tasks n { t with visSkipped := k, visFirst := 0 } }))
        else if !s.couldPlace p cores then live s (endTask n eNotReady false s)
        else if s.serve.step.isSome then done s s
        else match s.findPlace p cores with
          | none => done s s
          | some pl => live s (startTask n t p pl s)

/-- Nothing is left for a core to do. -/
def Core.idle (c : Core) : Bool := c.halted && c.qs.isEmpty && c.qv.isEmpty && c.qx.isEmpty && c.inflight.isEmpty

/-- Task n ends (R163): every core has nothing left, and the vision program has come to the end of its list. -/
def execTaskEnd (n : Nat) (s : State) : Host.Outcome State Fault Refusal :=
  match Tab.find s.tasks n with
  | none => done s s
  | some t => match t.place with
    | none => done s s
    | some pl =>
      if pl.cores.all (fun k => (s.core k).idle) && decide (t.visCount ≤ t.visNext) then live s (endTask n stOk false s) else done s s

end Sys2Proof.Machine
end

