-- ==== Sys2Proof/Machine/Vision.lean ====
section
/-! DEFINITION. The operators of the vision program: convolution, pooling, crop-and-resize (15 R321 to R332). -/

namespace Sys2Proof.Machine

/-! ## Records -/

/-- An operator record (R321). -/
structure VisRec where
  op : Nat
  flags : Nat
  fin : Option Fmt
  fw : Option Fmt
  fout : Option Fmt
  shift : Nat
  inBuf : Nat
  outBuf : Nat
  auxBuf : Nat
  n : Nat
  c : Nat
  h : Nat
  w : Nat
  cOut : Nat
  kh : Nat
  kw : Nat
  sh : Nat
  sw : Nat
  dh : Nat
  dw : Nat
  padT : Nat
  padB : Nat
  padL : Nat
  padR : Nat
  inOff : Nat
  outOff : Nat
  auxOff : Nat
  biasOff : Nat
  boxes : Nat
  oh : Nat
  ow : Nat
  reserved : Bool
  deriving DecidableEq, Repr

/-- The record of 128 bytes. -/
def visRec (b : Bytes) : VisRec :=
  { op := rd b 0 1, flags := rd b 1 1, fin := Fmt.ofCode (rd b 2 1), fw := Fmt.ofCode (rd b 3 1), fout := Fmt.ofCode (rd b 4 1),
    shift := rd b 5 1, inBuf := rd b 8 1, outBuf := rd b 9 1, auxBuf := rd b 0xA 1, n := rd b 0xC 2, c := rd b 0xE 2,
    h := rd b 0x10 2, w := rd b 0x12 2, cOut := rd b 0x14 2, kh := rd b 0x16 1, kw := rd b 0x17 1, sh := rd b 0x18 1,
    sw := rd b 0x19 1, dh := rd b 0x1A 1, dw := rd b 0x1B 1, padT := rd b 0x1C 1, padB := rd b 0x1D 1, padL := rd b 0x1E 1,
    padR := rd b 0x1F 1, inOff := rd b 0x20 8, outOff := rd b 0x28 8, auxOff := rd b 0x30 8, biasOff := rd b 0x38 8,
    boxes := rd b 0x40 2, oh := rd b 0x42 2, ow := rd b 0x44 2,
    reserved := rd b 6 2 != 0 || rd b 0xB 1 != 0 || !allZero (slice b 0x46 58) }

def VisRec.isConv (r : VisRec) : Bool := r.op == 1
def VisRec.isPool (r : VisRec) : Bool := r.op == 2 || r.op == 3
def VisRec.isCrop (r : VisRec) : Bool := r.op == 4 || r.op == 5
def VisRec.sat (r : VisRec) : Bool := r.flags % 2 == 1
def VisRec.bias (r : VisRec) : Bool := r.flags / 2 % 2 == 1
def VisRec.relu (r : VisRec) : Bool := r.flags / 4 % 2 == 1
def VisRec.edgeZero (r : VisRec) : Bool := r.flags / 8 % 2 == 1

/-- HO and WO (R324), as integers: they may be below 1. -/
def VisRec.ho (r : VisRec) : Int := Int.fdiv ((r.h + r.padT + r.padB : Int) - r.dh * ((r.kh : Int) - 1) - 1) r.sh + 1
def VisRec.wo (r : VisRec) : Int := Int.fdiv ((r.w + r.padL + r.padR : Int) - r.dw * ((r.kw : Int) - 1) - 1) r.sw + 1

/-- Channels of the output, and its images, rows and columns. -/
def VisRec.outC (r : VisRec) : Nat := if r.isConv then r.cOut else r.c
def VisRec.outDims (r : VisRec) : Nat × Nat × Nat :=
  if r.isCrop then (r.boxes, r.oh, r.ow) else (r.n, r.ho.toNat, r.wo.toNat)

/-- Bytes of an element, and of a tensor of so many elements with its scales (R323). -/
def Fmt.bytes (f : Fmt) : Nat := f.bits / 8
def tensorBytes (f : Fmt) (elems : Nat) : Nat := elems * f.bytes + (if f.isMx then elems * f.bytes / 16 else 0)

/-- Formats of inputs, and of outputs for an operator (R323, R326, R327, R329). -/
def visFmt (f : Fmt) : Bool := [Fmt.int8, .mxint8, .e4m3, .e5m2, .bf16, .fp16, .fp32].contains f
def floatOut (f : Fmt) : Bool := [Fmt.fp32, .bf16, .fp16, .mxint8, .e4m3, .e5m2].contains f
def VisRec.outOk (r : VisRec) (fi fo : Fmt) : Bool :=
  if r.isConv then (if fi.isInt then fo == .int8 || fo == .int32 else floatOut fo)
  else floatOut fo || (fo == .int8 && fi == .int8 && (r.op == 2 || r.op == 5))

/-- Columns of a weight tile, K-tiles, and bytes of a tile with its sideband (R325). -/
def VisRec.cols (_r : VisRec) (fi : Fmt) : Nat := if fi.bits = 16 then 32 else 64
def VisRec.kTiles (r : VisRec) (fi : Fmt) : Nat := r.kh * r.kw * (r.c * fi.bytes / 64)
def tileBytes (fw : Fmt) : Nat := if fw.bits = 16 then 2048 else if fw.isMx then 4352 else 4096

/-- The ranges a record reads: buffer, offset, length. -/
def VisRec.reads (r : VisRec) (fi : Fmt) : List (Nat × Nat × Nat) :=
  (r.inBuf, r.inOff, tensorBytes fi (r.n * r.h * r.w * r.c)) ::
  (if r.isConv then
     (r.auxBuf, r.auxOff, r.cOut / r.cols fi * r.kTiles fi * tileBytes (r.fw.getD fi)) ::
       (if r.bias then [(r.auxBuf, r.biasOff, 4 * r.cOut)] else [])
   else if r.isCrop then [(r.auxBuf, r.auxOff, 32 * r.boxes)] else [])

/-- The range it writes. -/
def VisRec.writes (r : VisRec) (fo : Fmt) : Nat × Nat × Nat :=
  let (a, b, c) := r.outDims
  (r.outBuf, r.outOff, tensorBytes fo (a * b * c * r.outC))

/-- Fields in range (R321): those that the operator uses. -/
def VisRec.fieldsOk (r : VisRec) : Bool :=
  let in_ := fun (lo hi v : Nat) => decide (lo ≤ v ∧ v ≤ hi)
  !r.reserved && in_ 1 5 r.op && in_ 0 15 r.flags && in_ 0 31 r.shift && in_ 0 2 r.inBuf && in_ 0 2 r.outBuf &&
    in_ 1 4096 r.n && in_ 1 4096 r.c && in_ 1 4096 r.h && in_ 1 4096 r.w && (r.isPool || in_ 0 2 r.auxBuf) &&
    (!r.isConv || in_ 1 4096 r.cOut) &&
    (r.isCrop || (in_ 1 15 r.kh && in_ 1 15 r.kw && in_ 1 8 r.sh && in_ 1 8 r.sw && in_ 1 8 r.dh && in_ 1 8 r.dw &&
      in_ 0 15 r.padT && in_ 0 15 r.padB && in_ 0 15 r.padL && in_ 0 15 r.padR)) &&
    (!r.isCrop || (in_ 1 4096 r.boxes && in_ 1 256 r.oh && in_ 1 256 r.ow))

/-- The pair of a CONV (R325): one of R142 in the 8-bit or 16-bit class. -/
def visPair (fi fw : Fmt) : Bool := pairOk fi fw && (fi.bits == 8 || fi.bits == 16)

/-- A record that R322 lets run; `bytes` gives a buffer's size and `same` whether two buffer numbers name one buffer. -/
def VisRec.runs (r : VisRec) (bytes : Nat → Nat) (same : Nat → Nat → Bool) : Option (Fmt × Fmt) :=
  match r.fin, r.fout with
  | some fi, some fo =>
    let inside := fun (x : Nat × Nat × Nat) => decide (x.2.1 + x.2.2 ≤ bytes x.1)
    let w := r.writes fo
    let apart := fun (x : Nat × Nat × Nat) =>
      !same x.1 w.1 || decide (x.2.1 + x.2.2 ≤ w.2.1) || decide (w.2.1 + w.2.2 ≤ x.2.1)
    if r.fieldsOk && visFmt fi && r.outOk fi fo && r.c * fi.bytes % 64 == 0 && r.outC * fo.bytes % 64 == 0 &&
        (!r.isConv || ((match r.fw with | some fw => visPair fi fw | none => false) && r.cOut % r.cols fi == 0)) &&
        (r.isCrop || (decide (1 ≤ r.ho) && decide (r.ho ≤ 4096) && decide (1 ≤ r.wo) && decide (r.wo ≤ 4096))) &&
        (r.reads fi).all inside && inside w && (r.reads fi).all apart then some (fi, fo)
    else none
  | _, _ => none

/-! ## Reading tensors -/

/-- A reader of a buffer: buffer, offset, bytes. -/
abbrev Reader := Nat → Nat → Nat → Nat

/-- Element i of a tensor: its code and its block scale, 127 (a factor of 1) for a format without scales. -/
def tensorElem (get : Reader) (buf off total : Nat) (f : Fmt) (i : Nat) : Nat × Nat :=
  let c := get buf (off + i * f.bytes) f.bytes
  if f.isMx then (c, get buf (off + total * f.bytes + i * f.bytes / 64 * 4 + i * f.bytes % 64 / 32) 1) else (c, 127)

/-- The value of a code with its scale. -/
def visValue (f : Fmt) (e : Nat × Nat) : Num := if f.isMx then scaled (f.value e.1) e.2 else f.value e.1

/-- Index of an input element. -/
def VisRec.inIdx (r : VisRec) (n y x c : Nat) : Nat := ((n * r.h + y) * r.w + x) * r.c + c

/-- Input row and column at a tap, none in padding (R324). -/
def VisRec.tap (r : VisRec) (y x kh kw : Nat) : Option (Nat × Nat) :=
  let iy : Int := (y * r.sh + kh * r.dh : Nat) - (r.padT : Int)
  let ix : Int := (x * r.sw + kw * r.dw : Nat) - (r.padL : Int)
  if 0 ≤ iy ∧ iy < r.h ∧ 0 ≤ ix ∧ ix < r.w then some (iy.toNat, ix.toNat) else none

/-! ## Writing results: a pixel's channels as FP32 or INT32 codes, converted to FMT_OUT (R147) -/

/-- The codes of one pixel, and its scale bytes per block of 32 channels. -/
def outCodes (fo : Fmt) (sat : Bool) (l : List (BitVec 32)) : List Nat × List Nat :=
  if fo.isMx then
    let bs := (List.range (l.length / 32)).map (fun b => mxBlock fo (((l.drop (32 * b)).take 32).map num32))
    ((bs.map (·.2)).flatten, bs.map (·.1))
  else match fo.float with
    | some g => (l.map (fun v => (g.encode sat (num32 v)).1), [])
    | none => (l.map (·.toNat), [])

/-- Bytes to write to a buffer, by offset. -/
abbrev Writes := List (Nat × Bytes)

/-- What pixel number p of an output of so many elements takes: its element codes, and two scale bytes per 64-byte unit. -/
def pixelWrites (off total : Nat) (fo : Fmt) (chans p : Nat) (codes scales : List Nat) : Writes :=
  let base := p * chans * fo.bytes
  (off + base, (codes.map (toLe fo.bytes)).flatten) ::
    (List.range (scales.length / 2)).map (fun u =>
      (off + total * fo.bytes + (base / 64 + u) * 4, [BitVec.ofNat 8 (scales.getD (2 * u) 0), BitVec.ofNat 8 (scales.getD (2 * u + 1) 0)]))

/-- All pixels of an output, in order. -/
def pixels (d : Nat × Nat × Nat) : List (Nat × Nat × Nat) :=
  ((List.range d.1).map (fun a => ((List.range d.2.1).map (fun b => (List.range d.2.2).map (fun c => (a, b, c)))).flatten)).flatten

/-- The output of a record whose pixels are given by codes. -/
def VisRec.output (r : VisRec) (fo : Fmt) (codes : Nat × Nat × Nat → List Nat × List Nat) : Writes :=
  let d := r.outDims
  let total := d.1 * d.2.1 * d.2.2 * r.outC
  ((pixels d).zipIdx.map (fun (px, p) => let k := codes px; pixelWrites r.outOff total fo r.outC p k.1 k.2)).flatten

/-! ## Convolution (R325, R326) -/

/-- The products of one K-tile for an output channel. -/
def VisRec.tileTerms (r : VisRec) (get : Reader) (fi fw : Fmt) (px : Nat × Nat × Nat) (co kt : Nat) : List Num :=
  let per := r.c * fi.bytes / 64
  let tapNo := kt / per
  let elems := 64 / fi.bytes
  let cols := r.cols fi
  let tile := r.auxOff + (co / cols * r.kTiles fi + kt) * tileBytes fw
  let col := co % cols
  (List.range elems).map (fun k =>
    let a := match r.tap px.2.1 px.2.2 (tapNo / r.kw) (tapNo % r.kw) with
      | some (y, x) => tensorElem get r.inBuf r.inOff (r.n * r.h * r.w * r.c) fi (r.inIdx px.1 y x (kt % per * elems + k))
      | none => (0, 0)
    let b := get r.auxBuf (tile + 64 * k + col * fi.bytes) fi.bytes % 2 ^ fw.bits
    let sb := if fw.isMx then get r.auxBuf (tile + 4096 + 4 * col + k / 32) 1 else 127
    if fi.isMx then
      match e8m0 a.2, e8m0 sb with
      | some i, some j => ((fi.value a.1).mul (fw.value b)).scale (i + j)
      | _, _ => .nan
    else (fi.value a.1).mul (fw.value b))

/-- An output element before its conversion: K-tiles in ascending order, then bias, then RELU. -/
def VisRec.convElem (r : VisRec) (get : Reader) (fi fw : Fmt) (px : Nat × Nat × Nat) (co : Nat) : BitVec 32 :=
  let acc := (List.range (r.kTiles fi)).foldl (fun (a : BitVec 32) kt =>
    let terms := r.tileTerms get fi fw px co kt
    if fi.isInt then (intUpdate (kt == 0) a (terms.map (Num.at 0)).sum).1 else (floatUpdate (kt == 0) r.sat a terms).1) 0
  let bias : BitVec 32 := BitVec.ofNat 32 (get r.auxBuf (r.biasOff + 4 * co) 4)
  if fi.isInt then
    let v := if r.bias then BitVec.ofInt 32 (clampI (-2147483648) 2147483647 (acc.toInt + bias.toInt)) else acc
    if r.relu && v.msb then 0 else v
  else
    let v := if r.bias then add32 acc bias else acc
    if r.relu && v.msb && !(num32 v).isNan then 0 else v

/-- CONV. -/
def VisRec.conv (r : VisRec) (get : Reader) (fi fw fo : Fmt) : Writes :=
  r.output fo (fun px =>
    let l := (List.range r.cOut).map (r.convElem get fi fw px)
    if fi.isInt then (l.map (fun v => if fo = .int8 then intShift .int8 r.shift v.toInt else v.toNat), [])
    else outCodes fo r.sat l)

/-! ## Pooling (R327) -/

/-- A value as FP32. -/
def toFp32 (v : Num) : BitVec 32 := (code32 false v).1

/-- ± m × 2^e ÷ d as FP32, rounded to nearest even. -/
def divNat32 (v : Num) (d : Nat) : BitVec 32 :=
  match v with
  | .fin s m e =>
    let k := 64 + Nat.log2 d
    let q := m * 2 ^ k / d
    let sticky := if m * 2 ^ k % d = 0 then 0 else 1
    (code32 false (.fin s (2 * q + sticky) (e - k - 1))).1
  | v => toFp32 v

/-- In-window values of a pixel and a channel in tap order. -/
def VisRec.window (r : VisRec) (get : Reader) (fi : Fmt) (px : Nat × Nat × Nat) (c : Nat) : List (Nat × Nat) :=
  (List.range (r.kh * r.kw)).filterMap (fun k =>
    (r.tap px.2.1 px.2.2 (k / r.kw) (k % r.kw)).map (fun (y, x) =>
      tensorElem get r.inBuf r.inOff (r.n * r.h * r.w * r.c) fi (r.inIdx px.1 y x c)))

/-- The largest of FP32 values, NaN above every number. -/
def poolMax (l : List (BitVec 32)) : BitVec 32 :=
  match l with
  | [] => 0
  | a :: r => if l.any (fun v => (num32 v).isNan) then nan32 else r.foldl maxOf a

/-- The average. -/
def poolAvg (l : List (BitVec 32)) : BitVec 32 :=
  match l with
  | [] => 0
  | a :: r => mul32 (r.foldl add32 a) (divNat32 (.fin false 1 0) l.length)

/-- POOL_MAX and POOL_AVG. -/
def VisRec.pool (r : VisRec) (get : Reader) (fi fo : Fmt) : Writes :=
  r.output fo (fun px =>
    let win := fun c => r.window get fi px c
    if fo = .int8 then
      ((List.range r.c).map (fun c => match (win c).map (fun e => sgn 8 e.1) with
        | [] => 0
        | a :: l => unsgn 8 (l.foldl max a)), [])
    else
      outCodes fo r.sat ((List.range r.c).map (fun c =>
        let l := (win c).map (fun e => toFp32 (visValue fi e))
        if r.op = 2 then poolMax l else poolAvg l)))

/-! ## Crop-and-resize (R328 to R330) -/

/-- 0.5 and 1.0. -/
abbrev half32 : BitVec 32 := 0x3F000000#32
abbrev one32 : BitVec 32 := 0x3F800000#32

/-- A subtraction in FP32, and a fused multiply and add. -/
def sub32 (a b : BitVec 32) : BitVec 32 := (code32 false ((num32 a).add (num32 b).neg)).1
def fma32 (a b c : BitVec 32) : BitVec 32 := (code32 false (((num32 a).mul (num32 b)).add (num32 c))).1

/-- The sampling point of output position i (R328). -/
def samplePoint (p1 p2 : BitVec 32) (i o : Nat) : BitVec 32 :=
  let t := mul32 (toFp32 (.fin false (2 * i + 1) (-1))) (sub32 p2 p1)
  sub32 (add32 p1 (divNat32 (num32 t) o)) half32

/-- The floor of a finite value. -/
def floorNum : Num → Option Int
  | .fin s m e =>
    let v : Int := m
    let k := (if s then -v else v)
    some (if 0 ≤ e then k * (2 ^ e.toNat : Nat) else Int.fdiv k (2 ^ (-e).toNat : Nat))
  | _ => none

/-- A value clamped to 0 to n − 1. -/
def clamp32 (n : Nat) (v : BitVec 32) : BitVec 32 :=
  let top := ofInt ((n : Int) - 1) 0
  if (num32 v).lt (.fin false 0 0) then 0 else if top.lt (num32 v) then toFp32 top else v

/-- An integer code as FP32. -/
def int32f (i : Int) : BitVec 32 := toFp32 (ofInt i 0)

/-- The tap at a row and a column, none where it lies outside and is not clamped. -/
def VisRec.cropTap (r : VisRec) (y x : Option Int) : Option (Nat × Nat) :=
  match y, x with
  | some y, some x =>
    if r.edgeZero then (if 0 ≤ y ∧ y < r.h ∧ 0 ≤ x ∧ x < r.w then some (y.toNat, x.toNat) else none)
    else some ((clampI 0 ((r.h : Int) - 1) y).toNat, (clampI 0 ((r.w : Int) - 1) x).toNat)
  | _, _ => none

/-- The codes of an output pixel of a box at a sampling point. -/
def VisRec.cropPixel (r : VisRec) (get : Reader) (fi fo : Fmt) (image : Nat) (y x : BitVec 32) : List Nat × List Nat :=
  let y := if r.edgeZero then y else clamp32 r.h y
  let x := if r.edgeZero then x else clamp32 r.w x
  let elem := fun (t : Option (Nat × Nat)) (c : Nat) => t.map (fun (a, b) =>
    tensorElem get r.inBuf r.inOff (r.n * r.h * r.w * r.c) fi (r.inIdx image a b c))
  let val := fun (t : Option (Nat × Nat)) (c : Nat) => match elem t c with
    | some e => toFp32 (visValue fi e)
    | none => 0
  if r.op = 5 then
    let t := r.cropTap (floorNum (num32 (add32 y half32))) (floorNum (num32 (add32 x half32)))
    if fo = .int8 then ((List.range r.c).map (fun c => match elem t c with | some e => e.1 | none => 0), [])
    else outCodes fo r.sat ((List.range r.c).map (val t))
  else
    let y0 := floorNum (num32 y)
    let x0 := floorNum (num32 x)
    let frac := fun (v : BitVec 32) (i : Option Int) => match i with | some i => sub32 v (int32f i) | none => nan32
    let wy := frac y y0
    let wx := frac x x0
    let lerp := fun (w a b : BitVec 32) => fma32 w b (mul32 (sub32 one32 w) a)
    let t := fun (i j : Int) => r.cropTap (y0.map (· + i)) (x0.map (· + j))
    outCodes fo r.sat ((List.range r.c).map (fun c =>
      lerp wy (lerp wx (val (t 0 0) c) (val (t 0 1) c)) (lerp wx (val (t 1 0) c) (val (t 1 1) c))))

/-- The image and the coordinates Y1, X1, Y2, X2 of a box; none where R330 refuses it. -/
def VisRec.box (r : VisRec) (get : Reader) (k : Nat) : Option (Nat × List (BitVec 32)) :=
  let o := r.auxOff + 32 * k
  let l := [4, 8, 12, 16].map (fun d => BitVec.ofNat 32 (get r.auxBuf (o + d) 4))
  let image := get r.auxBuf o 2
  if r.n ≤ image ∨ l.any (fun v => (num32 v).isNan || (num32 v).isInf) then none else some (image, l)

/-- CROP_BILINEAR and CROP_NEAREST. -/
def VisRec.crop (r : VisRec) (get : Reader) (fi fo : Fmt) : Writes :=
  r.output fo (fun (k, i, j) =>
    match r.box get k with
    | none => (List.replicate r.c 0, if fo.isMx then List.replicate (r.c / 32) 0 else [])
    | some (image, l) =>
      r.cropPixel get fi fo image (samplePoint (l.getD 0 0) (l.getD 2 0) i r.oh) (samplePoint (l.getD 1 0) (l.getD 3 0) j r.ow))

/-! ## The record -/

/-- Write bytes to a buffer. -/
def bufWrite (units : List Nat) (off : Nat) (b : Bytes) (s : State) : State :=
  forEach b.zipIdx (fun (v, i) t => match units[(off + i) / unitBytes4M]? with
    | some u => store (u * unitBytes4M + (off + i) % unitBytes4M) [v] t
    | none => t) s

/-- What a record that runs writes, and the boxes that R330 counts. -/
def VisRec.result (r : VisRec) (get : Reader) (fi fo : Fmt) : Writes × Nat :=
  match r.op with
  | 1 => (r.conv get fi (r.fw.getD fi) fo, 0)
  | 2 | 3 => (r.pool get fi fo, 0)
  | _ => (r.crop get fi fo, ((List.range r.boxes).filter (fun k => (r.box get k).isNone)).length)

/-- The vision program comes to its next record (R321, R322, R332): it writes every output of the record, or skips it. -/
def execVisionRecord (n : Nat) (s : State) : Host.Outcome State Fault Refusal :=
  match Tab.find s.tasks n with
  | none => done s s
  | some t => match t.place with
    | none => done s s
    | some pl =>
      if t.paused || t.visCount ≤ t.visNext || !pl.cores.all (fun k => s.isReady (rCl (k / 8))) then done s s
      else
        let units := fun (b : Nat) => s.bufUnits (if b = 0 then t.buf0 else if b = 1 then t.buf1 else t.buf2)
        let handle := fun (b : Nat) => if b = 0 then t.buf0 else if b = 1 then t.buf1 else t.buf2
        let get : Reader := fun b off k => leNat (bufRead (units b) off k s)
        let off := t.visOff + 128 * t.visNext
        let r := visRec (bufRead (units 2) off 128 s)
        let inList := decide (off + 128 ≤ (units 2).length * unitBytes4M)
        match (if inList then r.runs (fun b => (units b).length * unitBytes4M) (fun a b => handle a == handle b) else none) with
        | none =>
          live s (bump t.fn cViolVisionParam { s with tasks := Tab.put s.tasks n { t with
            visNext := t.visNext + 1, visSkipped := t.visSkipped + 1,
            visFirst := if t.visSkipped = 0 then t.visNext else t.visFirst } })
        | some (fi, fo) =>
          let w := r.result get fi fo
          let u := forEach w.1 (fun (o, b) u => bufWrite (units r.outBuf) o b u) s
          let u := bump t.fn cVisionRecords (bumpBy t.fn cViolVisionBox w.2 u)
          live s { u with tasks := Tab.put u.tasks n { t with visNext := t.visNext + 1, visDone := t.visDone + 1 } }

end Sys2Proof.Machine
end

