-- ==== Sys2Proof/Machine/Flint.lean ====
section
/-! DEFINITION. Flint: network images, neurons, wheels, runs and rings (16 R333 to R343; log 50). -/

namespace Sys2Proof.Machine

/-- Change Flint. -/
def updFlint (g : Flint → Flint) (s : State) : State := { s with flint := g s.flint }

/-! ## The network image (R335, R336) -/

/-- Neuron record n of an image. -/
def neuronOf (b : Bytes) (off n : Nat) : Neuron :=
  let r := slice b (off + 16 * n) 16
  { thr := rd r 0 3, decay := rd r 4 2, wshift := rd r 6 1 % 16, resetSub := rd r 6 1 / 16 % 2 == 1,
    output := rd r 6 1 / 32 % 2 == 1, wake := rd r 6 1 / 64 % 2 == 1, refrac := rd r 7 1 % 64, first := rd r 8 4,
    count := rd r 0xC 2, wline := rd r 0xE 1 % 16 }

/-- The fields of neuron record n are in range, and its fan-out lies in its tile's entries. -/
def neuronOk (b : Bytes) (off n synCount : Nat) : Bool :=
  let r := slice b (off + 16 * n) 16
  let x := neuronOf b off n
  decide (1 ≤ x.thr ∧ x.thr ≤ 8388607) && rd r 3 1 == 0 && decide (rd r 6 1 < 128 ∧ rd r 7 1 < 64 ∧ rd r 0xE 1 < 16) &&
    rd r 0xF 1 == 0 && decide (x.count ≤ 4096 ∧ x.first + x.count ≤ synCount)

/-- Input record n of an image. -/
def inputOf (b : Bytes) (off n : Nat) : InLine :=
  let r := slice b (off + 8 * n) 8
  { tile := rd r 0 1, count := rd r 2 2, first := rd r 4 4 }

/-- Synapse entry n of a table. -/
def synapseOf (b : Bytes) (off n : Nat) : Synapse :=
  let w := BitVec.ofNat 32 (rd b (off + 4 * n) 4)
  { tile := bits w 28 4, neuron := bits w 16 12, delay := bits w 10 6 + 1, weight := sgn 8 (bits w 0 8) }

/-- The fields of an image header that its tables stand in: SYN_OFF and SYN_COUNT of tile t. -/
def synOff (b : Bytes) (t : Nat) : Nat := rd b (0x40 + 8 * t) 4
def synCount (b : Bytes) (t : Nat) : Nat := rd b (0x44 + 8 * t) 4

/-- The byte offset of the first header field that fails, if any. -/
def flintHeaderFault (b : Bytes) (len : Nat) : Option Nat :=
  let tiles := rd b 6 1
  let table := fun (off size : Nat) => off % 64 == 0 && decide (off + size ≤ len)
  let checks : List (Nat × Bool) :=
    [(0, rd b 0 4 == 0x4C465646 && decide (192 ≤ len)), (4, rd b 4 2 == 1), (6, decide (1 ≤ tiles ∧ tiles ≤ 16)), (7, rd b 7 1 == 0),
     (8, decide (1 ≤ rd b 8 4 ∧ rd b 8 4 ≤ 4096 * tiles)), (0xC, decide (1 ≤ rd b 0xC 4 ∧ rd b 0xC 4 ≤ 65536)),
     (0x10, table (rd b 0x10 4) (16 * rd b 8 4)), (0x14, table (rd b 0x14 4) (8 * rd b 0xC 4)),
     ((firstNonZero b 0x18 40).getD 0x18, allZero (slice b 0x18 40))] ++
    ((List.range (min tiles 16)).map (fun t =>
      [(0x40 + 8 * t, table (synOff b t) (4 * synCount b t)), (0x44 + 8 * t, decide (synCount b t ≤ 1048576))])).flatten
  (checks.find? (fun c => !c.2)).map (·.1)

/-- The first failure of an image, as REASON and DETAIL, but for the tiles. -/
def flintFault (b : Bytes) (len : Nat) : Option (Nat × Nat) :=
  match flintHeaderFault b len with
  | some o => some (1, o)
  | none =>
    let tiles := rd b 6 1
    let neurons := rd b 8 4
    match (List.range neurons).find? (fun n => !neuronOk b (rd b 0x10 4) n (synCount b (n / 4096))) with
    | some n => some (2, n)
    | none =>
      match (List.range (rd b 0xC 4)).find? (fun n =>
          let r := inputOf b (rd b 0x14 4) n
          !(decide (r.tile < tiles) && rd b (rd b 0x14 4 + 8 * n + 1) 1 == 0 && decide (r.count ≤ 4096) &&
            decide (r.first + r.count ≤ synCount b r.tile))) with
      | some n => some (3, n)
      | none =>
        firstSome (List.range tiles) (fun t =>
          ((List.range (synCount b t)).find? (fun n =>
            let y := synapseOf b (synOff b t) n
            !(decide (y.tile < tiles ∧ 4096 * y.tile + y.neuron < neurons) && rd b (synOff b t + 4 * n + 1) 1 % 4 == 0))).map
            (fun n => (4, t * 2 ^ 28 + n)))

/-- The network of an image. -/
def netOf (f : Nat) (b : Bytes) (granted : List Nat) : Net :=
  let tiles := rd b 6 1
  { fn := f, tiles := tiles, neurons := (List.range (rd b 8 4)).map (neuronOf b (rd b 0x10 4)),
    inputs := (List.range (rd b 0xC 4)).map (inputOf b (rd b 0x14 4)),
    syn := (List.range tiles).map (fun t => (List.range (synCount b t)).map (synapseOf b (synOff b t))), granted := granted }

/-- Tiles without a network, lowest first. -/
def State.freeTiles (s : State) : List Nat := (List.range 16).filter (fun t => !Tab.has s.flint.tiles t)

/-- A command that IAREK_CAP.FLINT serves (R57, R67, R336). -/
def Cmd.flint (c : Cmd) (run : State → State) (s : State) : State :=
  if s.boot.cap.getLsbD 1 then run s else c.drop cViolIarekOpcode s

/-- FLINT_LOAD (R336): the image comes as the host's memory holds it. -/
def execFlintLoad (f : Fn) (src : Src) (image : Bytes) (s : State) : Host.Outcome State Fault Refusal :=
  command f.val opFlintLoad src [(0x10, 8), (0x18, 4)] true (fun c t => c.flint (fun t =>
    if !t.isReady rFlint then c.end eNotReady t
    else
      let len := c.arg 0x18 4
      let b := image.take len
      let refuse := fun (r d : Nat) => c.answer eNoFit 0 (result [(0, 2, r), (4, 4, d)]) t
      match flintFault b len with
      | some (r, d) => refuse r d
      | none =>
        let n := rd b 6 1
        let free := t.freeTiles
        if free.length < n then refuse 5 free.length
        else
          let g := free.take n
          let (h, u) := issue f.val kNetwork (Tab.keys t.flint.nets) t
          c.answer stOk h 0 (updFlint (fun x => { x with
            nets := Tab.put x.nets h (netOf f.val b g),
            tiles := g.foldl (fun tab k => Tab.put tab k (t.tagOf agSch f.val)) x.tiles }) u)) t) s

/-- FLINT_UNLOAD (R66, R69, R336). -/
def execFlintUnload (f : Fn) (src : Src) (s : State) : Host.Outcome State Fault Refusal :=
  command f.val opFlintUnload src [] false (fun c t =>
    let h := c.e.handle.toNat
    c.withHandle kNetwork (Tab.has t.flint.nets h) true (fun t =>
      if t.flint.runs.any (·.net == h) then c.end eBusy t
      else
        let g := ((Tab.find t.flint.nets h).map (·.granted)).getD []
        c.end stOk (updFlint (fun x => { x with nets := Tab.erase x.nets h, tiles := g.foldl Tab.erase x.tiles }) t)) t) s

/-! ## Runs (R341) -/

/-- FLINT_RUN (R70, R341): the run waits for FLINT_RUN_START. -/
def execFlintRun (f : Fn) (src : Src) (s : State) : Host.Outcome State Fault Refusal :=
  command f.val opFlintRun src [(0x10, 8), (0x18, 8), (0x20, 4)] false (fun c t => c.flint (fun t =>
    let h := c.e.handle.toNat
    c.withHandle kNetwork (Tab.has t.flint.nets h) false (fun t =>
      let live := fun (b : Nat) => handleIs t f.val kBuffer b (Tab.has t.bufs b) == .live
      if !live (c.arg 0x10 8) || !live (c.arg 0x18 8) then c.drop cViolIarekHandle t
      else match srcQ c.src with
        | none => t
        | some q => updFlint (fun x => { x with runs := x.runs ++ [{
            fn := f.val, q := q, tag := c.e.tag, net := h, inBuf := c.arg 0x10 8, outBuf := c.arg 0x18 8,
            duration := c.arg 0x20 4 }] }) t) t) t) s

/-- Put a run in the place of another. -/
def putRun (r r' : Run) (s : State) : State :=
  updFlint (fun x => { x with runs := replaceFirst r r' x.runs }) s

/-- FLINT_RUN_START (R341): the oldest waiting run of a network starts, once the run before it has ended. -/
def execFlintRunStart (net : Nat) (s : State) : Host.Outcome State Fault Refusal :=
  match s.activeRun net, s.flint.runs.find? (fun r => r.net == net && !r.started && r.ended.isNone) with
  | none, some r => live s (putRun r { r with started := true, tStart := s.ftNow } s)
  | _, _ => done s s

/-! ## Rings (R339, R340) -/

/-- How many records a ring has, none where its SIZE_LOG2 is out of range or it does not fit the buffer. -/
def ringRecords (units : List Nat) (s : State) : Option Nat :=
  let k := rd (bufRead units 8 1 s) 0 1
  if 6 ≤ k ∧ k ≤ 22 ∧ 64 + 8 * 2 ^ k ≤ units.length * unitBytes4M then some (2 ^ k) else none

/-- WR and RD of a ring, as record numbers of a ring of n records. -/
def ringWr (units : List Nat) (n : Nat) (s : State) : Nat := leNat (bufRead units 0 4 s) % n
def ringRd (units : List Nat) (n : Nat) (s : State) : Nat := leNat (bufRead units 4 4 s) % n

/-- One record of IN_BUF is read. -/
def takeInput (inputs : Nat) (b : Bytes) (x : Run × State) : Run × State :=
  let r := x.1
  let step := rd b 0 4
  let line := rd b 4 2
  let flags := rd b 6 2
  if inputs ≤ line ∨ 2 ≤ flags then (r, bump r.fn cViolFlintInput x.2)
  else
    let late := decide (step < r.strobes ∨ step < r.lastIn)
    let e : InEvent := { step := if late then r.strobes else step, line := line, stop := flags == 1 }
    ({ r with inputs := r.inputs ++ [e], lastIn := step }, if late then bump r.fn cFlintLateInput x.2 else x.2)

/-- FLINT_INPUT_WAKE (R339): the reader takes the records from RD up to WR, and writes RD. -/
def execFlintInputWake (net : Nat) (s : State) : Host.Outcome State Fault Refusal :=
  match s.activeRun net, Tab.find s.flint.nets net with
  | some r, some g =>
    let units := s.bufUnits r.inBuf
    match ringRecords units s with
    | none => done s s
    | some n =>
      let wr := ringWr units n s
      let from_ := ringRd units n s
      let l := (List.range ((wr + n - from_) % n)).map (fun i => bufRead units (64 + 8 * ((from_ + i) % n)) 8 s)
      let x := l.foldl (fun x b => takeInput g.inputs.length b x) (r, s)
      live s (bufWrite units 4 (toLe 4 wr) (putRun r x.1 x.2))
  | _, _ => done s s

/-- An OUT_BUF record; a full ring drops it, and so does a ring without a valid size. The run as it goes on. -/
def outRecord (r : Run) (neuron : Nat) (s : State) : Run × State :=
  let units := s.bufUnits r.outBuf
  let drop := ({ r with drops := r.drops + 1 }, bump r.fn cFlintOutDrop s)
  match ringRecords units s with
  | none => drop
  | some n =>
    let wr := ringWr units n s
    if (wr + 1) % n = ringRd units n s then drop
    else (r, bufWrite units 0 (toLe 4 ((wr + 1) % n))
      (bufWrite units (64 + 8 * wr) (toLe 4 r.step ++ toLe 2 neuron ++ [0#8, 0#8]) s))

/-- The hardware counters bound to a wake line in the running tasks of a function (R214, R340). -/
def State.wakeCounters (s : State) (f line : Nat) : List Nat :=
  (s.tasks.filter (fun e => e.2.fn == f)).flatMap (fun e =>
    match e.2.place, Tab.find s.progs e.2.prog with
    | some pl, some p =>
      let ext := (p.ctrRecs.zipIdx.filter (fun c => c.1.kind == 2)).map (·.2)
      (ext.zipIdx.filter (fun c => c.2 % 16 == line)).filterMap (fun c => pl.counters[c.1]?)
    | _, _ => [])

/-- A spike on a wake line (R340). -/
def wake (f line : Nat) (s : State) : State :=
  match s.wakeCounters f line with
  | [] => bump f cFlintWakeIdle s
  | l => forEach l (fun h t => addCounter (t.counterTag f h) h 1 t) s

/-! ## Neurons and wheels (R337, R338) -/

/-- D^d in 16.16 fixed point by squaring, at most n squarings: factor so far, power, exponent. -/
def decayFactor : Nat → Nat → Nat → Nat → Nat
  | 0, f, _, _ => f
  | n + 1, f, p, d =>
    if d = 0 ∨ f = 0 then f
    else decayFactor n (if d % 2 = 1 then f * p / 65536 else f) (p * p / 65536) (d / 2)

/-- v after d steps of decay, truncated toward zero. -/
def decayed (v : Int) (D d : Nat) : Int := (v * (decayFactor 33 65536 D d : Int)).tdiv 65536

/-- A neuron with input acc at step s: its new state, and whether it fires. -/
def neuronStep (x : Neuron) (st : NState) (s : Nat) (acc : Int) : NState × Bool :=
  let v := decayed st.v x.decay (s - st.last)
  if s < st.refEnd then ({ st with v := v, last := s }, false)
  else
    let v := clampI (-8388608) 8388607 (v + acc)
    if (x.thr : Int) ≤ v then ({ v := if x.resetSub then v - x.thr else 0, last := s, refEnd := s + 1 + x.refrac }, true)
    else ({ st with v := v, last := s }, false)

/-- The synaptic events of a fan-out in a tile at step s. -/
def Net.fanOut (g : Net) (tile first count s : Nat) : List Event :=
  (((g.syn.getD tile []).drop first).take count).map (fun y =>
    { due := s + y.delay, tile := y.tile, neuron := y.neuron, weight := y.weight })

/-- Capacity of a tile's wheel (R333), and events a tile integrates per step. -/
abbrev wheelSize : Nat := 16384
abbrev tileRate : Nat := 256

/-- Events enter the wheels of their tiles; one that finds a wheel full is dropped (R338). -/
def Run.sendAll (r : Run) (l : List Event) : Run × Nat :=
  l.foldl (fun (x : Run × Nat) e =>
    if wheelSize ≤ (x.1.wheel.filter (·.tile == e.tile)).length then ({ x.1 with drops := x.1.drops + 1 }, x.2 + 1)
    else ({ x.1 with wheel := x.1.wheel ++ [e], synEvents := x.1.synEvents + 1 }, x.2)) (r, 0)

/-- The close of a run's next step: the run, the neurons that fire, ascending, and the events dropped. Inputs taken in the step
fan out, the events due are summed and integrated, and spikes fan out. -/
def Run.close (r : Run) (g : Net) : Run × List Nat × Nat :=
  let s := r.step
  let ins := r.inputs.filter (fun e => e.step == s && !e.stop)
  let a := ins.foldl (fun (x : Run × Nat) e => match g.inputs[e.line]? with
    | none => x
    | some i => let y := x.1.sendAll (g.fanOut i.tile i.first i.count s); (y.1, x.2 + y.2)) (r, 0)
  let r := { a.1 with inputs := r.inputs.filter (fun e => e.step != s || e.stop), inEvents := r.inEvents + ins.length }
  let due := r.wheel.filter (·.due == s)
  let r := { r with wheel := r.wheel.filter (·.due != s) }
  let sums : Tab Int := due.foldl (fun t e =>
    let k := 4096 * e.tile + e.neuron
    Tab.upd 0 t k (· + e.weight * (2 ^ ((g.neurons[k]?).map (·.wshift)).getD 0 : Nat))) []
  let b := sums.foldl (fun (x : Run × List Nat) e => match g.neurons[e.1]? with
    | none => x
    | some n =>
      let y := neuronStep n (Tab.get {} x.1.neurons e.1) s e.2
      ({ x.1 with neurons := Tab.put x.1.neurons e.1 y.1 }, if y.2 then x.2 ++ [e.1] else x.2)) (r, [])
  let c := b.2.foldl (fun (x : Run × Nat) k => match g.neurons[k]? with
    | none => x
    | some n => let y := x.1.sendAll (g.fanOut (k / 4096) n.first n.count s); (y.1, x.2 + y.2)) (b.1, a.2)
  (c.1, b.2, c.2)

/-- One step of a run closes: what leaves Flint is written, counted and delivered, and a STOP record ends the run. Whether the
run goes on, as it now stands. -/
def closeStep (r : Run) (g : Net) (s : State) : Option Run × State :=
  let x := r.close g
  let s := bumpBy r.fn cFlintQueueDrop x.2.2 (bumpBy r.fn cFlintSyn (x.1.synEvents - r.synEvents)
    (bumpBy r.fn cFlintSpikes x.2.1.length s))
  let y := x.2.1.foldl (fun (a : Run × State) k => match g.neurons[k]? with
    | none => a
    | some n =>
      let a := if n.output then outRecord a.1 k a.2 else a
      (a.1, if n.wake then wake r.fn n.wline a.2 else a.2)) ({ x.1 with spikes := x.1.spikes + x.2.1.length }, s)
  let z := { y.1 with step := r.step + 1, spent := [] }
  let t := putRun r z y.2
  if r.inputs.any (fun e => e.step == r.step && e.stop) then (none, endRun z eCancelled false t) else (some z, t)

/-- Events that wait in a tile for the step to be closed. -/
def Run.dueIn (r : Run) (tile : Nat) : Nat := (r.wheel.filter (fun e => e.tile == tile && e.due == r.step)).length

/-- Close steps while every tile has integrated what is due, at most n of them, none past the strobe or DURATION_US. `room` is
how many events each tile may still integrate before the next strobe. -/
def closeSteps (g : Net) (net : Nat) : Nat → Tab Nat → Run → State → State
  | 0, _, _, s => s
  | n + 1, room, r, s =>
    if r.strobes ≤ r.step ∨ (r.duration ≠ 0 ∧ r.duration ≤ r.step) then s
    else
      let tiles := List.range g.tiles
      let need := fun (t : Nat) => r.dueIn t - Tab.get 0 r.spent t
      let now := fun (t : Nat) => min (need t) (Tab.get 0 room t)
      let room' := tiles.foldl (fun tab t => Tab.put tab t (Tab.get 0 room t - now t)) room
      if tiles.all (fun t => decide (need t ≤ Tab.get 0 room t)) then
        match closeStep r g s with
        | (some z, t) => closeSteps g net n room' z t
        | (none, t) => t
      else putRun r { r with spent := tiles.foldl (fun tab t => Tab.put tab t (Tab.get 0 r.spent t + now t)) r.spent } s

/-- FLINT_STROBE (R334, R337, R338, R446): every run that is in progress closes its step, and those it lags. -/
def execFlintStrobe (s : State) : Host.Outcome State Fault Refusal :=
  if !s.pins.refFab then done s s
  else
    live s (forEach (Tab.keys s.flint.nets) (fun net t =>
      match t.activeRun net, Tab.find t.flint.nets net with
      | some r, some g =>
        let r' := { r with strobes := r.strobes + 1 }
        closeSteps g net (r'.strobes - r'.step) ((List.range g.tiles).foldl (fun tab k => Tab.put tab k tileRate) []) r' (putRun r r' t)
      | _, _ => t) s)

/-- FLINT_LAG_OVERFLOW (R338): a tile that is 64 steps behind drops the events of its oldest slot. -/
def execFlintLagOverflow (net : Nat) (tile : Nat) (s : State) : Host.Outcome State Fault Refusal :=
  match s.activeRun net, Tab.find s.flint.nets net with
  | some r, some g =>
    let left := r.dueIn tile
    if r.strobes < r.step + 64 ∨ left ≤ Tab.get 0 r.spent tile then done s s
    else
      let r' := { r with wheel := r.wheel.filter (fun e => !(e.tile == tile && e.due == r.step)), drops := r.drops + left }
      live s (closeSteps g net 65 [] r' (bumpBy r.fn cFlintLagDrop left (putRun r r' s)))
  | _, _ => done s s

/-- FLINT_DURATION_END (R341). -/
def execFlintDurationEnd (net : Nat) (s : State) : Host.Outcome State Fault Refusal :=
  match s.activeRun net with
  | none => done s s
  | some r => if r.duration ≠ 0 ∧ r.duration ≤ r.step then live s (endRun r stOk false s) else done s s

end Sys2Proof.Machine
end

