-- ==== Sys2Proof/Machine/OpsMica.lean ====
section
/-! DEFINITION. Pages as bytes: the uncompressed image and its scales (R221, R222), the CODED image of Mica (R246 to R248), and
what a page fetch writes (R227, R230). -/

namespace Sys2Proof.Machine

/-! ## The uncompressed page (R220 to R222) -/

/-- Units of a page's elements. -/
def ModelHdr.pageUnits (h : ModelHdr) : Nat := 128 * h.rowUnits * h.kvHeads

/-- KV_FMT is an MX format, so the page has scales. -/
def ModelHdr.hasScales (h : ModelHdr) : Bool := h.kvFmt != 7

/-- The unit of head `hd`, plane (1 is V), token row j and place s of the row. -/
def ModelHdr.unitOf (h : ModelHdr) (hd plane j s : Nat) : Nat :=
  128 * h.rowUnits * hd + 64 * h.rowUnits * plane + h.rowUnits * j + s

/-- The bytes that granules hold. -/
def granBytes (l : List Nat) (s : State) : Bytes := (l.map (fun g => memRead s.mem (4096 * g) 4096)).flatten

/-- Write bytes over granules. -/
def writeGrans (l : List Nat) (b : Bytes) (s : State) : State :=
  forEach l.zipIdx (fun (g, i) t => store (4096 * g) (slice b (4096 * i) 4096) t) s

/-- The device address of unit u of an uncompressed page. -/
def unitAddr (grans : List Nat) (u : Nat) : Nat := 4096 * (grans.getD (u / 64) 0) + 64 * (u % 64)

/-- Scale bytes of a page: two for each unit. -/
def ModelHdr.scaleBytes (h : ModelHdr) : Nat := if h.hasScales then 2 * h.pageUnits else 0

/-- The scales of an uncompressed page in its frame's scale slot. -/
def State.scaleSlot (s : State) (h : ModelHdr) (f : Nat) : Bytes := fit h.scaleBytes (Tab.get [] s.kv.scales f)

/-- Write one row of a page: its units and its scales. -/
def writeRow (h : ModelHdr) (f : Nat) (grans : List Nat) (j : Nat) (kv scales : Bytes) (s : State) : State :=
  let r := h.rowUnits
  let places := ((List.range 2).map (fun p => (List.range h.kvHeads).map (fun hd => (List.range r).map (fun x =>
    (h.unitOf hd p j x, (p * h.kvHeads + hd) * r + x))))).flatten.flatten
  let t := forEach places (fun (u, i) t => store (unitAddr grans u) (fit 64 (slice kv (64 * i) 64)) t) s
  if !h.hasScales then t
  else
    let old := t.scaleSlot h f
    let new := places.foldl (fun (b : Bytes) (u, i) =>
      b.take (2 * u) ++ fit 2 (slice scales (2 * i) 2) ++ b.drop (2 * u + 2)) old
    updKv (fun k => { k with scales := Tab.put k.scales f new }) t

/-- One row of a page as it is written: the bytes of K and V, and the scales. -/
def readRow (h : ModelHdr) (f : Nat) (grans : List Nat) (j : Nat) (s : State) : Bytes × Bytes :=
  let sc := s.scaleSlot h f
  let us := ((List.range 2).map (fun p => (List.range h.kvHeads).map (fun hd => (List.range h.rowUnits).map (fun x =>
    h.unitOf hd p j x)))).flatten.flatten
  ((us.map (fun u => memRead s.mem (unitAddr grans u) 64)).flatten, (us.map (fun u => slice sc (2 * u) 2)).flatten)

/-! ## Symbol streams (R246) -/

/-- The element bytes of one plane, all heads. -/
def ModelHdr.planeBytes (h : ModelHdr) (elems : Bytes) (plane : Nat) : Bytes :=
  ((List.range h.kvHeads).map (fun hd => slice elems (64 * h.unitOf hd plane 0 0) (64 * 64 * h.rowUnits))).flatten

/-- Put two planes together as an image. -/
def ModelHdr.joinPlanes (h : ModelHdr) (k v : Bytes) : Bytes :=
  let n := 64 * 64 * h.rowUnits
  ((List.range h.kvHeads).map (fun hd => fit n (slice k (n * hd) n) ++ fit n (slice v (n * hd) n))).flatten

/-- The token row of scale i. -/
def ModelHdr.scaleRow (h : ModelHdr) (i : Nat) : Nat := i / 2 % (64 * h.rowUnits) / h.rowUnits

/-- Scale deltas. -/
def ModelHdr.deltas (h : ModelHdr) (sc : Bytes) : Bytes :=
  (List.range h.scaleBytes).map (fun i =>
    sc.getD i 0#8 - (if h.scaleRow i = 0 then 0x7F#8 else sc.getD (i - 2 * h.rowUnits) 0#8))

/-- Scales from deltas. -/
def ModelHdr.undelta (h : ModelHdr) (d : Bytes) : Bytes :=
  (List.range h.scaleBytes).foldl (fun (sc : Bytes) i =>
    sc ++ [d.getD i 0#8 + (if h.scaleRow i = 0 then 0x7F#8 else sc.getD (i - 2 * h.rowUnits) 0#8)]) []

/-- Every second byte: the high (1) or the low (0) bytes of 16-bit elements. -/
def oddBytes (hi : Nat) : Bytes → Bytes
  | a :: b :: r => (if hi = 1 then b else a) :: oddBytes hi r
  | _ => []

/-- 16-bit elements from their high and low bytes. -/
def weave : Bytes → Bytes → Bytes
  | h :: hs, l :: ls => l :: h :: weave hs ls
  | _, _ => []

/-! ## Prefix codes (R246, R247) -/

/-- The code lengths of a stream: those the engine chooses where they are a prefix code of 1 to 12 bits over the symbols that
occur, else 8 bits for each symbol that occurs (log 40). -/
def codeLengths (b : Bytes) : List Nat :=
  let raw := Config.micaLengths b
  let here := fun (y : Nat) => b.any (fun x => x.toNat == y)
  let l := (List.range 256).map (fun y => if here y then raw.getD y 0 else 0)
  let ok := (List.range 256).all (fun y => !here y || decide (1 ≤ l.getD y 0 ∧ l.getD y 0 ≤ 12)) &&
    decide ((l.map (fun n => if n = 0 then 0 else 2 ^ (12 - n))).sum ≤ 4096)
  if ok then l else (List.range 256).map (fun y => if here y then 8 else 0)

/-- The 128 bytes of a code table: 256 four-bit lengths, the lower symbol in the lower bits. -/
def tableBytes (l : List Nat) : Bytes :=
  (List.range 128).map (fun i => BitVec.ofNat 8 (l.getD (2 * i) 0 % 16 + 16 * (l.getD (2 * i + 1) 0 % 16)))

/-- The lengths that a code table holds. -/
def tableLengths (b : Bytes) : List Nat :=
  (List.range 256).map (fun y => (b.getD (y / 2) 0#8).toNat / (if y % 2 = 0 then 1 else 16) % 16)

/-- The canonical code: symbols in order of length and then of value; each symbol with its length and its code. -/
def canonical (l : List Nat) : List (Nat × Nat × Nat) :=
  let order := ((List.range 13).map (fun n => (List.range 256).filter (fun y => l.getD y 0 == n && n != 0))).flatten
  (order.foldl (fun (a : List (Nat × Nat × Nat) × Nat × Nat) y =>
    let n := l.getD y 0
    let code := a.2.2 * 2 ^ (n - a.2.1)
    (a.1 ++ [(y, n, code)], n, code + 1)) ([], 0, 0)).1

/-- The bits of a code, most significant first (log 40). -/
def codeBits (n code : Nat) : List Bool := (List.range n).map (fun i => code.testBit (n - 1 - i))

/-- Pack bits into bytes, the first bit lowest (R247). -/
def packBits (l : List Bool) : Bytes :=
  (List.range ((l.length + 7) / 8)).map (fun i =>
    BitVec.ofNat 8 (((List.range 8).map (fun k => if l.getD (8 * i + k) false then 2 ^ k else 0)).sum))

/-- The bits of bytes. -/
def unpackBits (b : Bytes) : List Bool := (b.map (fun x => (List.range 8).map (fun k => x.getLsbD k))).flatten

/-- Code a stream. -/
def codeStream (l : List Nat) (b : Bytes) : Bytes :=
  let c := canonical l
  packBits ((b.map (fun x => match c.find? (fun e => e.1 == x.toNat) with
    | some e => codeBits e.2.1 e.2.2
    | none => [])).flatten)

/-- The symbol that a run of bits begins with. -/
def nextSymbol (c : List (Nat × Nat × Nat)) (bits : List Bool) : Option (Nat × Nat) :=
  (c.find? (fun e => bits.take e.2.1 == codeBits e.2.1 e.2.2 && decide (e.2.1 ≤ bits.length))).map (fun e => (e.1, e.2.1))

/-- Decode n symbols: the symbols and the bits used, none where the bits spell none. -/
def decodeSyms (c : List (Nat × Nat × Nat)) : Nat → List Bool → Option (Bytes × Nat)
  | 0, _ => some ([], 0)
  | n + 1, bits =>
    match nextSymbol c bits with
    | none => none
    | some (y, k) => (decodeSyms c n (bits.drop k)).map (fun r => (BitVec.ofNat 8 y :: r.1, k + r.2))

/-! ## The CODED image (R247, R248) -/

/-- Bytes up to the next multiple of 64. -/
def pad64 (b : Bytes) : Bytes := b ++ List.replicate ((64 - b.length % 64) % 64) 0#8

/-- The CODED image of a page before its padding: everything up to END. -/
def codedImage (h : ModelHdr) (elems scales : Bytes) : Bytes :=
  let k := h.planeBytes elems 0
  let v := h.planeBytes elems 1
  let ks := if h.hasScales then k else oddBytes 1 k
  let vs := if h.hasScales then v else oddBytes 1 v
  let tk := codeLengths ks
  let tv := codeLengths vs
  let d := h.deltas scales
  let td := codeLengths d
  let kc := codeStream tk ks ++ (if h.hasScales then [] else oddBytes 0 k)
  let vc := codeStream tv vs ++ (if h.hasScales then [] else oddBytes 0 v)
  let tables := tableBytes tk ++ tableBytes tv ++ (if h.hasScales then tableBytes td else [])
  let kOff := 0x40 + tables.length
  let vOff := kOff + (pad64 kc).length
  let sOff := vOff + (pad64 vc).length
  let body := tables ++ pad64 kc ++ (if h.hasScales then pad64 vc ++ codeStream td d else vc)
  let last := 0x40 + body.length
  toLe 4 0x434D5646 ++ toLe 1 h.kvFmt ++ toLe 1 (if h.hasScales then 3 else 2) ++ toLe 1 ((last + 4095) / 4096) ++
    toLe 1 h.kvHeads ++ toLe 1 h.rowUnits ++ toLe 3 0 ++ toLe 4 (crc32 (elems ++ scales)) ++ toLe 4 kOff ++ toLe 4 vOff ++
    toLe 4 (if h.hasScales then sOff else 0) ++ toLe 4 last ++ List.replicate 32 0#8 ++ body

/-- The elements and the scales that a CODED image decodes to, none where it does not decode or CRC differs. -/
def decodeImage (h : ModelHdr) (b : Bytes) : Option (Bytes × Bytes) :=
  let n := 64 * 64 * h.rowUnits * h.kvHeads
  let table := fun (i : Nat) => canonical (tableLengths (slice b (0x40 + 128 * i) 128))
  let plane := fun (i off : Nat) =>
    if h.hasScales then (decodeSyms (table i) n (unpackBits (b.drop off))).map (·.1)
    else (decodeSyms (table i) (n / 2) (unpackBits (b.drop off))).map (fun r =>
      weave r.1 (slice b (off + (r.2 + 7) / 8) (n / 2)))
  let sc := if h.hasScales then
      (decodeSyms (table 2) h.scaleBytes (unpackBits (b.drop (rd b 0x18 4)))).map (fun r => h.undelta r.1)
    else some []
  match plane 0 (rd b 0x10 4), plane 1 (rd b 0x14 4), sc with
  | some k, some v, some x =>
    let e := h.joinPlanes k v
    if crc32 (e ++ x) = rd b 0x0C 4 then some (e, x) else none
  | _, _, _ => none

/-- The elements and the scales of a page that holds a frame, none where its image is not good (R251). -/
def State.pageImage (s : State) (h : ModelHdr) (f : Nat) : Option (Bytes × Bytes) :=
  match Tab.find s.kv.frames f with
  | none => none
  | some r =>
    let b := granBytes r.gmap.grans s
    if r.gmap.coded then decodeImage h b else some (b.take (64 * h.pageUnits), s.scaleSlot h f)

/-! ## What a fetch writes (R227, R230, R232) -/

/-- A page image and its scales while a step writes some of its rows: those rows hold what the kernels have written, which comes to the
model with STEP_END alone and is free until then (R232; log 40). -/
def ModelHdr.unsettled (h : ModelHdr) (rows : List Nat) (n : Nat) (elems scales : Bytes) : Bytes × Bytes :=
  let us := List.range h.pageUnits
  let live := fun (u : Nat) => rows.contains (u % (64 * h.rowUnits) / h.rowUnits)
  if rows = [] then (elems, scales)
  else
    ((us.map (fun u => if live u then toLe 64 (Config.freeBits 512 (n + u)).toNat else fit 64 (slice elems (64 * u) 64))).flatten,
     if !h.hasScales then scales
     else (us.map (fun u => if live u then toLe 2 (Config.freeBits 16 (n + h.pageUnits + u)).toNat else fit 2 (slice scales (2 * u) 2))).flatten)

/-- The element format of a page. -/
def ModelHdr.fmt (h : ModelHdr) : Fmt := (Fmt.ofCode h.kvFmt).getD .bf16

/-- The values of a row of D elements from its bytes and its block scales. -/
def rowNums (f : Fmt) (b sc : Bytes) (d : Nat) : List Num :=
  (List.range d).map (fun i =>
    let c := rd b (f.bits / 8 * i) (f.bits / 8)
    if f.isMx then scaled (f.value c) (sc.getD (i / 32) 0#8).toNat else f.value c)

/-- A row of values as bytes and scales (R147). -/
def packRow (f : Fmt) (l : List Num) : Bytes × Bytes :=
  if f.isMx then
    let bs := ((List.range (l.length / 32)).map (fun i => mxBlock f ((l.drop (32 * i)).take 32)))
    ((bs.map (fun x => x.2.map (BitVec.ofNat 8))).flatten, bs.map (fun x => BitVec.ofNat 8 x.1))
  else ((l.map (fun v => match f.float with
      | some g => toLe 2 (g.encode false v).1
      | none => [0#8, 0#8])).flatten, [])

/-- The rotation of R153 of a K row at a position; ROPE bit 1 pairs the halves. -/
def rotateRow (h : ModelHdr) (freq : List (BitVec 32)) (pos : Nat) (l : List Num) : List Num :=
  let d := l.length
  let halves := h.rope / 2 % 2 == 1
  (List.range d).map (fun i =>
    let p := if halves then i % (d / 2) else i / 2
    let low := if halves then decide (i < d / 2) else i % 2 == 0
    let x0 := (code32 false (l.getD (if halves then p else 2 * p) .nan)).1
    let x1 := (code32 false (l.getD (if halves then p + d / 2 else 2 * p + 1) .nan)).1
    let w := freq.getD p 0
    num32 (rotateElem low x0 x1 pos w).1)

/-- The page image with K rotated, and its scales: row j stands at position `pos j`. -/
def rotatePage (h : ModelHdr) (freq : List (BitVec 32)) (pos : Nat → Nat) (elems scales : Bytes) : Bytes × Bytes :=
  if h.rope % 2 = 0 then (elems, scales)
  else
    let f := h.fmt
    let n := 64 * h.rowUnits
    let m := 2 * h.rowUnits
    let rows := ((List.range h.kvHeads).map (fun hd => (List.range 2).map (fun p => (List.range 64).map (fun j =>
      let u := h.unitOf hd p j 0
      let b := slice elems (64 * u) n
      let sc := slice scales (2 * u) m
      if p = 1 then (b, sc) else packRow f (rotateRow h freq (pos j) (rowNums f b sc (64 * h.dim))))))).flatten.flatten
    ((rows.map (·.1)).flatten, (rows.map (·.2)).flatten)

/-- Write a page image and its scales into a core's Slate from unit `base` on (R221, R222). -/
def Core.putPage (c : Core) (base : Nat) (elems scales : Bytes) : Core :=
  let n := elems.length / 64
  { (List.range n).foldl (fun d u => d.putUnit (base + u) (bytesUnit (slice elems (64 * u) 64))) c with
    shadow := (List.range n).foldl (fun t u => Tab.put t (base + u) (BitVec.ofNat 32 (rd scales (2 * u) 2))) c.shadow }

/-- −∞ in FP32. -/
abbrev negInf32 : BitVec 32 := 0xFF800000#32

/-- A bias row: 64 lanes, 0 for a visible key row and −∞ for a hidden one (R230). -/
def biasRow (visible : Nat → Bool) : List Unit64 :=
  let b : Bytes := ((List.range 64).map (fun j => toLe 4 (if visible j then 0 else negInf32.toNat))).flatten
  (List.range 4).map (fun k => bytesUnit (slice b (64 * k) 64))

/-- The ancestors of a node and itself, root included. -/
def ancestors (nodes : List Node) : Nat → Nat → List Nat
  | 0, x => [x]
  | n + 1, x => if x = 0 then [0] else x :: ancestors nodes n ((nodes.getD (x - 1) ⟨0, 0, 0, 0, 0⟩).parent)

/-- Depth of node i; the root has depth 0. -/
def depthOf (nodes : List Node) (i : Nat) : Nat := if i = 0 then 0 else (nodes.getD (i - 1) ⟨0, 0, 0, 0, 0⟩).depth

/-- The position of the row at place r (R227, R232): r itself, but for a candidate row n + depth. -/
def rowPos (decode : Bool) (n : Nat) (nodes : List Node) (r : Nat) : Nat :=
  if decode && decide (n ≤ r) && decide (r ≤ n + nodes.length) then n + depthOf nodes (r - n) else r

/-- Positions whose rows a share of a step writes (R232): a chunk's rows, or those of the root and the nodes; none lies past the last
column. -/
def StepReq.written (r : StepReq) (kind : StepKind) (c : Ctx) : List Nat :=
  ((List.range (match kind with | .prefill => r.rows | .decode => c.nodes.length + 1)).map (· + r.pos)).filter (· < 131072)

/-- Whether each place is visible to each query of a step (R229): the queries of a prefill chunk at its rows' positions, and
those of a verification, one for the root and one for each node. -/
def queries (decode : Bool) (n rows : Nat) (nodes : List Node) : List (Nat → Bool) :=
  if decode then
    (List.range (nodes.length + 1)).map (fun x =>
      let up := ancestors nodes 16 x
      fun r => decide (r < n) || (decide (n ≤ r) && up.contains (r - n)))
  else (List.range rows).map (fun i => fun r => decide (r ≤ n + i))

end Sys2Proof.Machine
end

