-- ==== Sys2Proof/Machine/OpsShip.lean ====
section
/-! DEFINITION. Requests between parts: members and contexts, what the home part sends and receives, assignment to a working part
(13 R282, R283, R293, R299) and shipments (R289 to R292). -/

namespace Sys2Proof.Machine

/-! ## Members and copies (R281, R282) -/

/-- Contexts that a part has (R283). -/
abbrev contextCount : Nat := 16384

/-- The request takes one of the part's contexts: at home from its admission, elsewhere from its first step here (R283). -/
def Ctx.held (c : Ctx) : Bool := c.home || c.begun

/-- Free contexts here. -/
def State.freeCtxs (s : State) : Nat := contextCount - (s.serve.ctxs.filter (fun e => e.2.held)).length

/-- The requests, in order, that a step can take with n contexts free (R283). -/
def startable : Nat → List (Nat × Ctx) → List (Nat × Ctx)
  | _, [] => []
  | n, e :: r =>
    if e.2.held then e :: startable n r
    else match n with
      | 0 => startable 0 r
      | m + 1 => e :: startable m r

/-- Uncommitted prompt rows of the requests worked here. -/
def State.queuedRows (s : State) : Nat :=
  (s.serve.ctxs.map (fun e => if e.2.work then e.2.promptLen - e.2.committed else 0)).sum

/-- The copies of this part as POOL_VIEW gives them: MODEL_ID, S, SHARD_INDEX and STATE (R278); one that is still loading has no
STATE and is not there. -/
def State.ownCopies (s : State) : List (BitVec 128 × Nat × Nat × Nat) :=
  (s.serve.copies.filter (fun e => e.2.state != .loading)).map (fun e => (e.2.hdr.modelId, e.2.shard, e.2.place, e.2.state.code))

/-- This part as a member of its Rod. -/
def State.self (s : State) : Member :=
  { role := s.serve.role, pool := s.serve.pool, copies := s.ownCopies, frames := s.framesFree, ctxs := s.freeCtxs,
    queued := s.queuedRows, adv := true }

/-- The members of the Rod that this part can reach, itself among them, in ascending address. -/
def State.rod (s : State) : List (Nat × Member) :=
  Tab.put (s.serve.members.filter (fun e => s.rodMembers.contains e.1)) s.fab.addr s.self

/-- The members of this part's group with a role. -/
def State.poolOf (s : State) (role : Nat) : List (Nat × Member) :=
  s.rod.filter (fun e => e.2.role == role && e.2.pool == s.serve.pool)

/-- A member holds a READY copy of a SPREAD = 1 model, as the lowest of its shard group (R282). -/
def Member.leads (m : Member) (id : BitVec 128) : Bool :=
  m.copies.any (fun c => c.1 == id && c.2.1 != 0 && c.2.2.1 == 0 && c.2.2.2 == 1)

/-- A member can work on a context's models. -/
def Member.serves (m : Member) (c : Ctx) : Bool := m.leads c.modelId && (c.draftId == 0 || m.leads c.draftId)

/-- The READY copy of a model on this part, by MODEL_ID, that is spread over the Rod. -/
def State.spreadCopy (s : State) (id : BitVec 128) : Option Nat :=
  (s.serve.copies.find? (fun e => e.2.spread && e.2.hdr.modelId == id && e.2.state == .ready)).map (·.1)

/-- The context of a request named by its home part and its handle there. -/
def State.findCtx (s : State) (home handle : Nat) : Option Nat :=
  (s.serve.ctxs.find? (fun e => (if e.2.home then home == s.me else e.2.homeAddr == home) && e.2.handle == handle)).map (·.1)

/-! ## Grammar state and count table (R302, R309, R312) -/

/-- The grammar state after a token (R309). -/
def Prof.move (p : Prof) (st t : Nat) : Nat :=
  if !p.mode.getLsbD 1 then st
  else match (p.states[st]?).bind (fun g => g.edges.find? (fun e => decide (e.lo ≤ t ∧ t ≤ e.hi))) with
    | some e => e.next
    | none => st

/-- A grammar state with END. -/
def Prof.isEnd (p : Prof) (st : Nat) : Bool := p.mode.getLsbD 1 && ((p.states[st]?).map (·.fin)).getD false

/-- A token is one of STOP_IDS. -/
def Prof.isStop (p : Prof) (t : Nat) : Bool := p.stops.contains t

/-- Enter a token into a count table; whether there was no room (R312). -/
def countToken (t : Nat) (tab : Tab Nat) : Tab Nat × Bool :=
  if Tab.has tab t then (Tab.upd 0 tab t (· + 1), false)
  else if 4096 ≤ tab.length then (tab, true)
  else (Tab.put tab t 1, false)

/-- Enter tokens in order: the table, and how many found no room. -/
def countTokens (ts : List Nat) (tab : Tab Nat) : Tab Nat × Nat :=
  ts.foldl (fun a t => let r := countToken t a.1; (r.1, a.2 + r.2.toNat)) (tab, 0)

/-- The count table at the first generated token (R312). -/
def Prof.firstCounts (p : Prof) (prompt : List Nat) : Tab Nat × Nat :=
  if p.mode.getLsbD 3 && p.mode.getLsbD 4 then countTokens prompt [] else ([], 0)

/-- Grammar state and count table after tokens have been written. -/
def Prof.after (p : Prof) (st : Nat) (tab : Tab Nat) (ts : List Nat) : Nat × Tab Nat × Nat :=
  let c := if p.mode.getLsbD 3 then countTokens ts tab else (tab, 0)
  (ts.foldl p.move st, c.1, c.2)

/-- A context's selection state replayed from the prompt and the written tokens (R302). -/
def Ctx.replayed (c : Ctx) : Ctx :=
  let a := c.prof.firstCounts c.prompt
  let b := c.prof.after c.prof.start a.1 c.written
  { c with grammar := b.1, counts := b.2.1 }

/-! ## Tokens at the home part (R72, R293) -/

/-- Cut tokens into runs of at most 8. -/
def runsOf8 : Nat → List Nat → List (List Nat)
  | 0, _ => []
  | _, [] => []
  | n + 1, l => l.take 8 :: runsOf8 n (l.drop 8)

/-- The home part writes tokens of a request from an output index on; those it has already are left out. -/
def homeTokens (idx pos : Nat) (ts : List Nat) (at_ : BitVec 64) (s : State) : State :=
  match s.ctx idx with
  | none => s
  | some c =>
    if c.state = .ended ∨ c.written.length < pos then s
    else
      let new := ts.drop (c.written.length - pos)
      let t := forEach (runsOf8 new.length new).zipIdx (fun (l, k) t =>
        post c.fn c.q { kind := 1, final := false, status := stOk, tag := c.ctag, handle := BitVec.ofNat 64 c.handle,
                        result := tokenResult (c.written.length + 8 * k) l, opcode := opReqSubmit } t) s
      updCtx idx (fun c => { c with
        written := c.written ++ new, writtenLen := c.written.length + new.length, position := c.written.length + new.length,
        tFirst := if c.written = [] ∧ new ≠ [] then at_ else c.tFirst }) t

/-- The working part hands on what a step has emitted (R293). -/
def emitTokens (idx : Nat) (ts : List Nat) (s : State) : State :=
  match s.ctx idx with
  | none => s
  | some c =>
    if ts = [] then s
    else if c.home then homeTokens idx c.written.length ts s.ftNow s
    else
      updCtx idx (fun c => { c with
        written := c.written ++ ts, writtenLen := c.written.length + ts.length, position := c.written.length + ts.length,
        tFirst := if c.written = [] then s.ftNow else c.tFirst })
        (sendTokens c c.written.length ts false false stOk s.ftNow s)

/-- A request ends OK at its working part (R294): END is 1 for a stop token or an accept. -/
def finishOk (idx : Nat) (end1 : Bool) (s : State) : State :=
  match s.ctx idx with
  | none => s
  | some c =>
    let t := if c.home then finishHome idx stOk end1 s
      else updCtx idx (fun c => { c with state := .ended }) (sendTokens c c.written.length [] true end1 stOk s.ftNow s)
    dropWork idx stOk t

/-! ## Assignment (R282, R299) -/

/-- The member with the most of a measure, the lowest address on a tie. -/
def mostOf (f : Member → Int) (l : List (Nat × Member)) : Option Nat :=
  (l.foldl (fun (a : Option (Nat × Member)) e => match a with
    | none => some e
    | some b => if f b.2 < f e.2 then some e else some b) none).map (·.1)

/-- The pool that a request's prefill runs in, and that its decode runs in. -/
def State.prefillPool (s : State) (c : Ctx) : List (Nat × Member) :=
  (s.poolOf 1 ++ s.poolOf 3).filter (fun e => e.2.serves c)
def State.decodePool (s : State) (c : Ctx) : List (Nat × Member) :=
  (s.poolOf 2 ++ s.poolOf 3).filter (fun e => e.2.serves c)

/-- A context is taken on as working part (R283). -/
def startWork (idx : Nat) (s : State) : State :=
  let n := s.serve.order
  updServe (fun x => { x with order := n + 1 }) (updCtx idx (fun c => ({ c with
    work := true, workAddr := some s.me, order := n,
    dropped := if 0 < c.writtenLen then some 0 else none,
    committed := if 0 < c.writtenLen then c.promptLen + c.writtenLen - 1 else 0,
    state := if 0 < c.writtenLen then .restoring else c.state,
    prevPrefill := none, prevDecode := none } : Ctx).replayed) s)

/-- The ASSIGN message (R380). -/
def sendAssign (c : Ctx) (dest : Nat) (failover : Bool) (s : State) : State :=
  sendMsg dest 1 3 c.tag.word
    (toLe 8 c.handle ++ toLe 1 failover.toNat ++ toLe 1 c.prio ++ toLe 2 0 ++ toLe 4 c.prompt.length ++ toLe 4 c.written.length ++
     toLe 4 c.maxTokens ++ toLe 16 c.modelId.toNat ++ toLe 16 c.draftId.toNat ++ toLe 16 c.profDigest.toNat ++
     toLe 8 c.seed.toNat ++ toLe 8 c.meter ++ toLe 8 c.budget) s

/-- The home part finds a working part for a request that has none: itself for SPREAD = 0 (R282); for the rest the member of
R282, or of R290 after a loss. Without a free context the request waits; without a pool that holds the models it ends
E_FABRIC. -/
def tryAssign (idx : Nat) (s : State) : State :=
  match s.ctx idx with
  | none => s
  | some c =>
    if !c.home || c.state = .ended || c.workAddr.isSome then s
    else
      let spread := (((Tab.find s.serve.models c.model).bind (fun m => s.copy m.copy)).map (·.spread)).getD false
      if !spread then startWork idx s
      else
        let failover := decide (0 < c.failovers)
        let pool := if failover then s.decodePool c else s.prefillPool c
        if pool = [] then endRequest idx eFabric s
        else
          let free := pool.filter (fun e => decide (0 < e.2.ctxs) || e.1 == s.me)
          match mostOf (fun m => if failover then m.frames else -(m.queued : Int)) free with
          | none => s
          | some a =>
            if a = s.me then
              startWork idx (updCtx idx (fun c => { c with copy := s.spreadCopy c.modelId,
                                                           draft := if c.draftId = 0 then none else s.spreadCopy c.draftId }) s)
            else sendAssign c a failover (updCtx idx (fun c => { c with workAddr := some a }) s)

/-- TOKEN_SEG messages for the tokens of a request (R380, R381). -/
def sendTokenSegs (c : Ctx) (dest cls mtype : Nat) (s : State) : State :=
  let all := c.prompt ++ c.written
  forEach (List.range ((all.length + 2031) / 2032)) (fun k t =>
    let part := (all.drop (2032 * k)).take 2032
    sendMsg dest cls mtype c.tag.word
      (toLe 8 c.handle ++ toLe 4 (2032 * k) ++ toLe 2 part.length ++ toLe 2 0 ++ (part.map (toLe 4)).flatten) t) s

/-- The profile table of a context: the function's own, or one received. -/
def State.profTable (s : State) (c : Ctx) : Bytes :=
  match Tab.find s.serve.profs c.profH with
  | some p => if c.home then p.table else []
  | none => ((s.serve.remoteProf.find? (fun e => e.1 = c.profDigest)).map (·.2.2)).getD []

/-- PROFILE_SEG messages. -/
def sendProfile (c : Ctx) (dest cls mtype : Nat) (s : State) : State :=
  let table := s.profTable c
  forEach (List.range ((table.length + 8127) / 8128)) (fun k t =>
    let part := slice table (8128 * k) 8128
    sendMsg dest cls mtype c.tag.word
      (toLe 16 c.profDigest.toNat ++ toLe 4 (8128 * k) ++ toLe 4 table.length ++ toLe 2 part.length ++ toLe 6 0 ++ part) t) s

/-- Profiles received that no request names any more are freed (R380). -/
def freeProfiles (s : State) : State :=
  updServe (fun x => { x with
    remoteProf := x.remoteProf.filter (fun e => x.ctxs.any (fun c => c.2.profDigest = e.1 && c.2.state != .ended)) }) s

/-! ## Shipments, the sending side (R289 to R292) -/

/-- Change a shipment. -/
def updShip (idx : Nat) (g : Ship → Ship) (s : State) : State :=
  updServe (fun x => { x with ships := x.ships.map (fun m => if m.idx = idx then g m else m) }) s

/-- The shipment of a context. -/
def State.ship (s : State) (idx : Nat) : Option Ship := s.serve.ships.find? (fun m => m.idx == idx)

/-- Pages of one column of a context. -/
def State.perColumn (s : State) (c : Ctx) : Nat := ((s.ctxModels c).map (fun m => m.2.layers)).sum

/-- Every page of a column is SEALED. -/
def State.columnSealed (s : State) (idx col : Nat) : Bool :=
  let ks := s.columnKeys idx col
  !ks.isEmpty && ks.all (fun k => decide ((s.page k).st = .sealed))

/-- The request is one that a prefill part ships: prefill pool, spread models, nothing dropped. -/
def State.ships (s : State) (c : Ctx) : Bool :=
  c.work && s.serve.role == 1 && c.dropped.isNone && (c.state == .prefill || c.state == .shipping) &&
    ((c.copy.bind s.copy).map (·.spread)).getD false

/-- The SHIP_OFFER message (R381). -/
def sendOffer (c : Ctx) (id dest : Nat) (s : State) : State :=
  sendMsg dest 2 1 c.tag.word
    (toLe 8 c.handle ++ toLe 4 id ++ toLe 2 ((c.promptLen + 63) / 64) ++ toLe 2 (s.perColumn c) ++ toLe 2 c.homeAddr ++
     toLe 1 c.prio ++ toLe 1 0 ++ toLe 4 c.promptLen ++ toLe 4 c.maxTokens ++ toLe 4 0 ++ toLe 16 c.modelId.toNat ++
     toLe 16 c.draftId.toNat ++ toLe 16 c.profDigest.toNat ++ toLe 8 c.seed.toNat ++ toLe 8 c.meter ++ toLe 8 c.budget) s

/-- Offer a request to the next member (R290), those that have refused left out; when none is left it waits for the retry. -/
def offerTo (idx : Nat) (refused : List Nat) (s : State) : State :=
  match s.ctx idx with
  | none => s
  | some c =>
    let pool := ((s.poolOf 2).filter (fun e => e.2.serves c && decide (0 < e.2.ctxs) && !refused.contains e.1 && e.1 != s.me))
    let rest := s.serve.ships.filter (fun m => m.idx != idx)
    match mostOf (fun m => m.frames) pool with
    | none => updServe (fun x => { x with ships := rest ++ [{ idx := idx, id := 0, out := true, peer := 0xFFFF, st := .refusedAll,
                                                               refused := refused }] }) s
    | some a =>
      let id := s.serve.shipNo % 2 ^ 32
      sendOffer c id a (updServe (fun x => { x with
        shipNo := x.shipNo + 1,
        ships := rest ++ [{ idx := idx, id := id, out := true, peer := a, st := .offered, refused := refused,
                            cols := (c.promptLen + 63) / 64, perCol := s.perColumn c }] }) s)

/-- Offer a request once its first column is sealed, or its whole prompt is committed. -/
def tryOffer (idx : Nat) (s : State) : State :=
  match s.ctx idx with
  | none => s
  | some c =>
    if s.ships c && (s.ship idx).isNone && (s.columnSealed idx 0 || c.state == .shipping) then offerTo idx [] s else s

/-- Send one page and set it SHIPPING (R291). -/
def shipPage (c : Ctx) (m : Ship) (page k : Nat) (s : State) : State :=
  let p := s.page k
  match Tab.find s.kv.frames p.frame, (s.ctxModels c).find? (fun x => x.1 == keyDraft k) with
  | some f, some x =>
    let h := x.2
    let data := granBytes f.gmap.grans s ++ (if f.gmap.coded || !h.hasScales then [] else fit 2048 (s.scaleSlot h p.frame))
    let n := (data.length + 8127) / 8128
    forEach (List.range n) (fun i t =>
      let part := slice data (8128 * i) 8128
      sendMsg m.peer 2 4 c.tag.word
        (toLe 8 c.handle ++ toLe 4 m.id ++ toLe 4 page ++ toLe 1 (keyDraft k).toNat ++ toLe 1 (keyLayer k) ++ toLe 2 (keyCol k) ++
         toLe 1 p.fill ++ toLe 1 h.kvFmt ++ toLe 1 (f.gmap.coded.toNat + 2 * f.gmap.grans.length) ++ toLe 1 i ++ toLe 1 n ++
         toLe 1 0 ++ toLe 2 part.length ++ toLe 4 0 ++ part) t)
      (putPage k { p with st := .shipping, wasSealed := p.st == .sealed } s)
  | _, _ => s

/-- Send one column. -/
def shipColumn (idx : Nat) (s : State) : State :=
  match s.ctx idx, s.ship idx with
  | some c, some m =>
    let ks := s.columnKeys idx m.nextCol
    updShip idx (fun m => { m with nextCol := m.nextCol + 1, pages := m.pages + ks.length })
      (forEach ks.zipIdx (fun (k, i) t => shipPage c m (m.pages + i) k t) s)
  | _, _ => s

/-- Send the columns that are ready, in order (R291), and SHIP_END after the last of them. -/
def shipReady (idx : Nat) : Nat → State → State
  | 0, s => s
  | n + 1, s =>
    match s.ctx idx, s.ship idx with
    | some c, some m =>
      if m.st ≠ .sending then s
      else if m.nextCol = m.cols then
        if c.state = .shipping then
          updShip idx (fun m => { m with st := .waitDone })
            (sendMsg m.peer 2 5 c.tag.word
              (toLe 8 c.handle ++ toLe 4 m.id ++ toLe 4 m.pages ++ toLe 4 (c.written.headD 0) ++ toLe 4 0 ++ toLe 8 c.meter ++
               toLe 8 c.tFirst.toNat) s)
        else s
      else
        let tail := c.state == .shipping && m.nextCol + 1 == m.cols && c.promptLen % 64 != 0
        if s.columnSealed idx m.nextCol || tail then shipReady idx n (shipColumn idx s) else s
    | _, _ => s

/-- Send what is ready of a request's shipment. -/
def shipOn (idx : Nat) (s : State) : State := shipReady idx 2050 s

/-- Pages of a request that are SHIPPING return to the state they held (R292). -/
def unship (idx : Nat) (s : State) : State :=
  updKv (fun x => { x with pages := x.pages.map (fun e =>
    if keyIdx e.1 = idx ∧ e.2.st = .shipping then
      (e.1, { e.2 with st := if e.2.wasSealed then .sealed else .opened, wasSealed := false })
    else e) }) s

/-- The sender abandons a shipment (R292): it is offered again, and the third abandonment ends the request. -/
def abandonOut (idx : Nat) (s : State) : State :=
  match s.ctx idx with
  | none => s
  | some c =>
    let t := bump c.fn cShipAbandoned (unship idx
      (updCtx idx (fun c => { c with abandons := c.abandons + 1 })
        (updServe (fun x => { x with ships := x.ships.filter (fun m => m.idx != idx) }) s)))
    if 3 ≤ c.abandons + 1 then endRequest idx eFabric t else tryOffer idx t

/-- The receiver gives an arriving request up: what it reserved is freed (R292). -/
def abandonIn (idx : Nat) (s : State) : State :=
  let t := freePages idx (updServe (fun x => { x with ships := x.ships.filter (fun m => m.idx != idx) }) s)
  match t.ctx idx with
  | none => t
  | some c => freeProfiles (if c.home then updCtx idx (fun c => { c with work := false }) t
      else updServe (fun x => { x with ctxs := Tab.erase x.ctxs idx }) t)

/-- A SHIP_ABORT message. -/
def sendAbort (c : Ctx) (m : Ship) (reason : Nat) (s : State) : State :=
  sendMsg m.peer 2 7 c.tag.word (toLe 8 c.handle ++ toLe 4 m.id ++ toLe 2 reason ++ toLe 2 0) s

/-! ## Pool views (R281, R380) -/

/-- Tell every member of the Rod what this part is and holds. -/
def sendView (s : State) : State :=
  let own := s.ownCopies
  let b := toLe 1 s.serve.pool ++ toLe 1 s.serve.role ++ toLe 2 0 ++ toLe 4 s.serve.viewGen.toNat ++ toLe 2 own.length ++ toLe 6 0 ++
    (own.map (fun c => toLe 16 c.1.toNat ++ toLe 1 c.2.1 ++ toLe 1 c.2.2.1 ++ toLe 1 c.2.2.2 ++ toLe 13 0)).flatten
  forEach s.rodMembers (fun a t => sendMsg a 1 1 (t.tagOf agSch 0).word b t) s

/-- The part's pool, role or copies have changed. -/
def poolChanged (s : State) : State := sendView (updServe (fun x => { x with viewGen := x.viewGen + 1 }) s)

end Sys2Proof.Machine
end

