-- ==== Sys2Proof/Machine/OpsJasper.lean ====
section
/-! DEFINITION. Jasper: from a row of logits to a token (14 R307 to R314), and drafting and acceptance (R317, R318). -/

namespace Sys2Proof.Machine

/-! ## FP32 -/

/-- The quotient in FP32, rounded to nearest even. -/
def div32 (a b : BitVec 32) : BitVec 32 :=
  match num32 a, num32 b with
  | .fin s m e, .fin t n f =>
    if n = 0 then (code32 false (if m = 0 then .nan else .inf (xor s t))).1
    else
      let k := 64 + Nat.log2 n
      let q := m * 2 ^ k / n
      let sticky := if m * 2 ^ k % n = 0 then 0 else 1
      (code32 false (.fin (xor s t) (2 * q + sticky) (e - f - k - 1))).1
  | .inf s, .fin t _ _ => (code32 false (.inf (xor s t))).1
  | .fin s _ _, .inf t => (code32 false (.fin (xor s t) 0 0)).1
  | _, _ => (code32 false .nan).1

/-- a − b in FP32. -/
def minus32 (a b : BitVec 32) : BitVec 32 := (code32 false ((num32 a).add (num32 b).neg)).1

/-- a < b as values. -/
def less32 (a b : BitVec 32) : Bool := (num32 a).lt (num32 b)

/-- The number n as FP32. -/
def nat32 (n : Nat) : BitVec 32 := (code32 false (.fin false n 0)).1

/-- −a in FP32. -/
def neg32 (a : BitVec 32) : BitVec 32 := a ^^^ 0x80000000#32

/-! ## The natural logarithm (R314) -/

/-- The natural logarithm of a positive FP32 value, rounded to nearest even. -/
def ln32 (x : BitVec 32) : BitVec 32 :=
  match num32 x with
  | .fin _ m e =>
    let k := Nat.log2 m
    let v : Int := (lnRatio m (2 ^ k) : Int) + ((k : Int) + e) * (lnRatio 2 1 : Int)
    (code32 false (ofInt v (-(lnBits : Int)))).1
  | v => (code32 false v).1

/-! ## Draws (R314) -/

/-- The 64-bit finalizer. -/
def mix64 (z : BitVec 64) : BitVec 64 :=
  let z := (z ^^^ (z >>> 30)) * 0xBF58476D1CE4E5B9#64
  let z := (z ^^^ (z >>> 27)) * 0x94D049BB133111EB#64
  z ^^^ (z >>> 31)

/-- The draw of token t at position q. -/
def draw (seed : BitVec 64) (q t : Nat) : BitVec 32 :=
  let z := mix64 (seed + 0x9E3779B97F4A7C15#64 * BitVec.ofNat 64 (q % 2 ^ 32 + 1))
  let z := mix64 (z ^^^ BitVec.ofNat 64 (t % 2 ^ 32))
  (code32 false (.fin false (2 * (z >>> 41).toNat + 1) (-24))).1

/-- The Gumbel value g = −ln(−ln(draw)). -/
def gumbel (seed : BitVec 64) (q t : Nat) : BitVec 32 := neg32 (ln32 (neg32 (ln32 (draw seed q t))))

/-! ## Rows (R307 to R313) -/

/-- A token with a value. -/
abbrev Scored := Nat × BitVec 32

/-- Bit t of a set bitmap. -/
def inSet (b : Bytes) (t : Nat) : Bool := (b.getD (t / 8) 0#8).getLsbD (t % 8)

/-- A token is allowed in a grammar state (R308). -/
def Prof.allows (p : Prof) (st t : Nat) : Bool :=
  (!p.mode.getLsbD 1 || inSet (((p.states[st]?).bind (fun g => p.sets[g.set]?)).getD []) t) && (!p.mode.getLsbD 2 || inSet p.allow t)

/-- The penalties of R311. -/
def Prof.penalize (p : Prof) (counts : Tab Nat) (t : Nat) (l : BitVec 32) : BitVec 32 :=
  let c := Tab.get 0 counts t
  if !p.mode.getLsbD 3 || c == 0 then l
  else
    let l := if less32 0#32 l then div32 l p.rep else mul32 l p.rep
    minus32 (minus32 l p.pres) (mul32 p.freq (nat32 c))

/-- The allowed tokens of a row in ascending order with their logits after step 3 (R307). -/
def Prof.row (p : Prof) (st : Nat) (counts : Tab Nat) (logits : List (BitVec 32)) : List Scored :=
  (logits.zipIdx.filter (fun x => p.allows st x.2)).map (fun x =>
    (x.2, p.penalize counts x.2 (if (num32 x.1).isNan then negInf32 else x.1)))

/-- Scaled logits: divided by T with SAMPLE (R307). -/
def Prof.scale (p : Prof) (l : List Scored) : List Scored :=
  if p.mode.getLsbD 0 then l.map (fun x => (x.1, div32 x.2 p.temp)) else l

/-- Insert into a list in descending value, at most n long; of equal values the one in front stays in front. -/
def insertTop (n : Nat) (x : Scored) : List Scored → List Scored
  | [] => if n = 0 then [] else [x]
  | y :: r =>
    match n with
    | 0 => []
    | m + 1 => if less32 y.2 x.2 then (x :: y :: r).take (m + 1) else y :: insertTop m x r

/-- The n largest of a row, ties to the lower token ID. -/
def topOf (n : Nat) (l : List Scored) : List Scored := l.foldl (fun a x => insertTop n x a) []

/-- exp of a difference to the maximum, within the bound of R150; free where both are infinite (log 41). -/
def softExp (a : BitVec 32) : BitVec 32 := if (num32 a).isNan then Config.softExp a else expAt 5 a

/-- Softmax of a row (R313): each exp of the difference to the maximum, over their sum in ascending token order. -/
def softmax (l : List Scored) : List Scored :=
  let m := ((topOf 1 l).map (·.2)).headD 0
  let es := l.map (fun x => (x.1, softExp (minus32 x.2 m)))
  let z := es.foldl (fun a x => add32 a x.2) 0#32
  es.map (fun x => (x.1, div32 x.2 z))

/-- The shortest prefix whose sum reaches p. -/
def prefixTo (p : BitVec 32) : BitVec 32 → List Scored → List Scored
  | _, [] => []
  | a, x :: r =>
    let b := add32 a x.2
    x :: (if less32 b p then prefixTo p b r else [])

/-- The candidate set of a scaled row (R313). -/
def Prof.candidates (p : Prof) (l : List Scored) : List Scored :=
  if !less32 0#32 p.topP then (if p.topK = 0 then l else topOf p.topK l)
  else
    let first := topOf (if p.topK = 0 then 64 else p.topK) l
    let probs := softmax l
    let mine := (probs.filter (fun x => first.any (fun y => y.1 == x.1)))
    let kept := prefixTo p.topP 0#32 (topOf 64 mine)
    l.filter (fun x => kept.any (fun y => y.1 == x.1))

/-- Candidates with the value that decides: s with SAMPLE, the logit under greedy. -/
def Prof.scores (p : Prof) (seed : BitVec 64) (q : Nat) (row : List Scored) : List Scored :=
  if p.mode.getLsbD 0 then (p.candidates (p.scale row)).map (fun x => (x.1, add32 x.2 (gumbel seed q x.1))) else row

/-- +∞ in FP32. -/
abbrev posInf32 : BitVec 32 := 0x7F800000#32

/-- The token chosen from a row (R313); 0 where no token is allowed. -/
def Prof.choose (p : Prof) (seed : BitVec 64) (q : Nat) (row : List Scored) : Nat :=
  match row.find? (fun x => x.2 == posInf32) with
  | some x => x.1
  | none =>
    if row.all (fun x => x.2 == negInf32) then (row.map (·.1)).headD 0
    else ((topOf 1 (p.scores seed q row)).map (·.1)).headD 0

/-! ## Nodes (R309, R312, R317, R318) -/

/-- A node, the root for 0. -/
def Ctx.node (c : Ctx) (x : Nat) : Node := if x = 0 then ⟨0, 0, 0, 0x3F800000#32, 0⟩ else c.nodes.getD (x - 1) ⟨0, 0, 0, 0, 0⟩

/-- The tokens from the root to a node. -/
def Ctx.path (c : Ctx) (x : Nat) : List Nat :=
  ((ancestors c.nodes 16 x).reverse.filter (· != 0)).map (fun y => (c.node y).token)

/-- Grammar state and counts at a node (R309, R312). -/
def Ctx.at (c : Ctx) (x : Nat) : Nat × Tab Nat := let a := c.prof.after c.grammar c.counts (c.path x); (a.1, a.2.1)

/-- A token that comes after a node ends the request there (R309, R310). -/
def Ctx.ends (c : Ctx) (x t : Nat) : Bool := c.prof.isStop t || c.prof.isEnd (c.prof.move (c.at x).1 t)

/-- A node ends the request, so it has no children. -/
def Ctx.leaf (c : Ctx) (x : Nat) : Bool := x != 0 && c.ends (c.node x).parent (c.node x).token

/-- Speculation is by a tree, and how many nodes it may have (R303, R317). -/
def Prof.isTree (p : Prof) : Bool := p.mode.getLsbD 5
def Prof.specCount (p : Prof) : Nat := if p.specNodes = 0 then 4 else p.specNodes

/-- Depth of the nodes that the present draft level expands. -/
def Ctx.level (c : Ctx) : Nat := (c.nodes.map (·.depth)).foldl max 0

/-- The nodes that the present draft level expands. -/
def Ctx.toExpand (c : Ctx) : List Nat :=
  (List.range (c.nodes.length + 1)).filter (fun x => (c.node x).depth == c.level && !c.leaf x)

/-- The children that a draft row gives a node (R317). -/
def Ctx.children (c : Ctx) (x q : Nat) (row : List Scored) : List Node :=
  let p := c.prof
  let child := fun (t : Nat) (score prob : BitVec 32) =>
    ({ parent := x, token := t, depth := (c.node x).depth + 1, prob := mul32 (c.node x).prob prob, score := score } : Node)
  if row = [] then []
  else if !p.isTree then [child (p.choose c.seed q row) 0 0x3F800000#32]
  else
    let probs := softmax (p.scale row)
    (topOf p.specBranch (p.scores c.seed q row)).map (fun y =>
      child y.1 y.2 (((probs.find? (fun z => z.1 == y.1)).map (·.2)).getD 0))

/-- A child ranks before another: path probability, then parent, then token (R317). -/
def Node.ranks (a b : Node) : Bool :=
  if a.prob ≠ b.prob then less32 b.prob a.prob
  else if a.parent ≠ b.parent then decide (a.parent < b.parent) else decide (a.token < b.token)

/-- A child is numbered before another of its level: parent, then draft score, then token. -/
def Node.precedes (a b : Node) : Bool :=
  if a.parent ≠ b.parent then decide (a.parent < b.parent)
  else if a.score ≠ b.score then less32 b.score a.score else decide (a.token < b.token)

/-- A draft level ends when every node it expands has been processed; the levels are over at their bound, when a level keeps no
node, and when there is no room or no node for a further one (R317, log 46). -/
def Ctx.endLevel (c : Ctx) : Ctx :=
  let p := c.prof
  let max := if p.isTree then p.specDepth else p.specCount
  let good := if p.isTree then c.cands.filter (fun n => !less32 n.prob p.minPath) else c.cands
  let kept := ((good.foldr (insertBy Node.ranks) []).take (p.specCount - c.nodes.length)).foldr (insertBy Node.precedes) []
  let d := { c with nodes := c.nodes ++ kept, cands := [], drafted := [] }
  { d with draftOver := kept.isEmpty || d.toExpand.isEmpty || decide (max ≤ c.level + 1) || decide (p.specCount ≤ d.nodes.length) }

/-- Acceptance (R318): the accepted nodes and the tokens emitted, from a node on. -/
def Ctx.walk (c : Ctx) : Nat → Nat → List Nat × List Nat
  | 0, x => ([], [Tab.get 0 c.samples x])
  | n + 1, x =>
    let t := Tab.get 0 c.samples x
    match (List.range (c.nodes.length + 1)).find? (fun y => y != 0 && (c.node y).parent == x && (c.node y).token == t) with
    | none => ([], [t])
    | some y => if c.leaf y then ([y], [t]) else let r := c.walk n y; (y :: r.1, t :: r.2)

/-- Tokens up to the first that ends the request, and whether one does. -/
def Ctx.clip (c : Ctx) (ts : List Nat) : List Nat × Bool :=
  let go := fun (a : List Nat × Nat × Bool) (t : Nat) =>
    if a.2.2 then a
    else
      let st := c.prof.move a.2.1 t
      (a.1 ++ [t], st, c.prof.isStop t || c.prof.isEnd st)
  let r := ts.foldl go ([], c.grammar, false)
  (r.1, r.2.2)

end Sys2Proof.Machine
end

