-- ==== Sys2Proof/Machine/OpsProfile.lean ====
section
/-! DEFINITION. Token-selection profiles: reading a table and its checks (14 R303 to R305). -/

namespace Sys2Proof.Machine

/-- The byte offset of a field that fails a test. -/
def failAt (off : Nat) (ok : Bool) : Option Nat := if ok then none else some off

/-- An FP32 value lies between two others. -/
def between32 (lo hi v : BitVec 32) : Bool := !(num32 v).isNan && !less32 v lo && !less32 hi v

/-- A section offset of the header: 0 without its MODE bit, else a multiple of 64 past the header and inside the table. -/
def sectionOk (on : Bool) (off len : Nat) : Bool :=
  if on then off % 64 == 0 && decide (128 ≤ off ∧ off < len) else off == 0

/-- The check 0x0001 HEADER. -/
def profHeaderFault (b : Bytes) : Option Nat :=
  let m := rdBV 8 b 6
  if b.length < 128 then some b.length
  else
    [failAt 0 (rd b 0 4 == 0x4A505646), failAt 4 (rd b 4 2 == 1), failAt 6 (!m.getLsbD 7), firstNonZero b 0x0E 2,
      firstNonZero b 0x2B 1, failAt 0x54 (sectionOk (m.getLsbD 1) (rd b 0x54 4) b.length),
      failAt 0x58 (sectionOk (m.getLsbD 2) (rd b 0x58 4) b.length &&
        (!m.getLsbD 2 || decide (rd b 0x58 4 + (rd b 0x50 4 + 511) / 512 * 64 ≤ b.length))),
      firstNonZero b 0x5C 0x24].findSome? id

/-- The check 0x0002 RANGE. -/
def profRangeFault (b : Bytes) : Option Nat :=
  let m := rdBV 8 b 6
  let tree := m.getLsbD 5
  let f := fun (off : Nat) => rdBV 32 b off
  let n := rd b 0x28 1
  [failAt 7 (rd b 7 1 ≤ 8), failAt 8 (!m.getLsbD 0 || between32 0x3D4CCCCD#32 0x41800000#32 (f 8)), failAt 0xC (rd b 0xC 2 ≤ 64),
    failAt 0x10 (between32 0#32 0x3F800000#32 (f 0x10)), failAt 0x14 (between32 0x3F800000#32 0x40800000#32 (f 0x14)),
    failAt 0x18 (between32 0#32 0x41000000#32 (f 0x18)), failAt 0x1C (between32 0#32 0x41000000#32 (f 0x1C)),
    failAt 0x28 (if tree then decide (1 ≤ n ∧ n ≤ 16) else decide (n ≤ 8)),
    failAt 0x29 (!tree || decide (1 ≤ rd b 0x29 1 ∧ rd b 0x29 1 ≤ 8)), failAt 0x2A (!tree || decide (1 ≤ rd b 0x2A 1 ∧ rd b 0x2A 1 ≤ 4)),
    failAt 0x2C (!tree || between32 0#32 0x3F800000#32 (f 0x2C)),
    failAt 0x50 (decide (1 ≤ rd b 0x50 4 ∧ rd b 0x50 4 ≤ 262144))].findSome? id

/-- Bytes of a set bitmap. -/
def setBytes (vocab : Nat) : Nat := (vocab + 511) / 512 * 64

/-- Edges in ascending LO without overlap, LO ≤ HI < VOCAB, NEXT < STATES. -/
def edgesOk (vocab states : Nat) : List Edge → Bool
  | [] => true
  | [e] => decide (e.lo ≤ e.hi ∧ e.hi < vocab ∧ e.next < states)
  | e :: f :: r => decide (e.lo ≤ e.hi ∧ e.hi < f.lo ∧ e.next < states) && edgesOk vocab states (f :: r)

/-- The state that the check 0x0003 GRAMMAR refuses; faults of the section's own header count as state 0. -/
def profGrammarFault (b : Bytes) : Option Nat :=
  if !(rdBV 8 b 6).getLsbD 1 then none
  else
    let g := b.drop (rd b 0x54 4)
    let vocab := rd b 0x50 4
    let states := rd g 0 4
    let sets := rd g 4 4
    let stOff := rd g 0x0C 4
    let seOff := rd g 0x10 4
    let edOff := rd g 0x14 4
    let edges := rd g 0x18 4
    if g.length < 32 ∨ states = 0 ∨ 65536 < states ∨ sets = 0 ∨ 4096 < sets ∨ states ≤ rd g 8 2 ∨ rd g 0xA 2 ≠ 0 ∨ rd g 0x1C 4 ≠ 0 ∨
        stOff % 64 ≠ 0 ∨ seOff % 64 ≠ 0 ∨ edOff % 64 ≠ 0 ∨ g.length < stOff + 16 * states ∨
        g.length < seOff + sets * setBytes vocab ∨ g.length < edOff + 8 * edges then some 0
    else (List.range states).find? (fun i =>
      let a := stOff + 16 * i
      let first := rd g (a + 4) 4
      let n := rd g (a + 8) 4
      let es := (List.range n).map (fun k => rd g (edOff + 8 * (first + k)) 8)
      decide (sets ≤ rd g a 2 ∨ 1 < rd g (a + 2) 1 ∨ rd g (a + 3) 1 ≠ 0 ∨ rd g (a + 0xC) 4 ≠ 0 ∨ edges < first + n) ||
        es.any (fun v => decide (2 ^ 52 ≤ v)) ||
        !edgesOk vocab states (es.map (fun v => { lo := v % 2 ^ 18, hi := v / 2 ^ 18 % 2 ^ 18, next := v / 2 ^ 36 % 2 ^ 16 })))

/-- The profile that a good table spells. -/
def profOf (b : Bytes) : Prof :=
  let m := rdBV 8 b 6
  let vocab := rd b 0x50 4
  let g := b.drop (rd b 0x54 4)
  let gram := m.getLsbD 1
  let stOff := rd g 0x0C 4
  let edOff := rd g 0x14 4
  { mode := m, temp := rdBV 32 b 8, topK := rd b 0xC 2, topP := rdBV 32 b 0x10, rep := rdBV 32 b 0x14, pres := rdBV 32 b 0x18,
    freq := rdBV 32 b 0x1C, seed := rdBV 64 b 0x20, specNodes := rd b 0x28 1, specDepth := rd b 0x29 1,
    specBranch := rd b 0x2A 1, minPath := rdBV 32 b 0x2C, stops := (List.range (rd b 7 1)).map (fun i => rd b (0x30 + 4 * i) 4),
    vocab := vocab, start := if gram then rd g 8 2 else 0,
    states := if !gram then [] else (List.range (rd g 0 4)).map (fun i =>
      let a := stOff + 16 * i
      { set := rd g a 2, fin := rd g (a + 2) 1 % 2 == 1,
        edges := (List.range (rd g (a + 8) 4)).map (fun k =>
          let v := rd g (edOff + 8 * (rd g (a + 4) 4 + k)) 8
          { lo := v % 2 ^ 18, hi := v / 2 ^ 18 % 2 ^ 18, next := v / 2 ^ 36 % 2 ^ 16 }) }),
    sets := if !gram then [] else (List.range (rd g 4 4)).map (fun j => slice g (rd g 0x10 4 + j * setBytes vocab) (setBytes vocab)),
    allow := if m.getLsbD 2 then slice b (rd b 0x58 4) (setBytes vocab) else [] }

/-- States reached from a list in at most n rounds: every edge is followed; a token that no edge covers stays in its state. -/
def Prof.reached (p : Prof) : Nat → List Nat → List Nat
  | 0, l => l
  | n + 1, l =>
    let more := ((l.map (fun i => (((p.states[i]?).map (·.edges)).getD []).map (·.next))).flatten.dedup).filter (fun i => !l.contains i)
    if more.isEmpty then l else p.reached n (l ++ more)

/-- The state that the check 0x0004 EMPTY refuses: the lowest reachable one without END that allows no token. -/
def profEmptyFault (p : Prof) : Option Nat :=
  let states := if p.mode.getLsbD 1 then (p.reached p.states.length [p.start]).foldr (insertBy (fun a b => decide (a < b))) [] else [0]
  states.find? (fun i => !p.isEnd i && !(List.range p.vocab).any (p.allows i))

/-- A table is refused: REASON and DETAIL of the first of the checks 0x0001 to 0x0004 that fails (R305). -/
def profFault (b : Bytes) : Option (Nat × Nat) :=
  ((profHeaderFault b).map (fun d => (1, d))).or
    (((profRangeFault b).map (fun d => (2, d))).or
      (((profGrammarFault b).map (fun d => (3, d))).or ((profEmptyFault (profOf b)).map (fun d => (4, d)))))

/-- The first 16 bytes of the SHA-384 of a table (R380). -/
def digest16 (b : Bytes) : BitVec 128 := BitVec.ofNat 128 (Config.sha384 b).toNat

end Sys2Proof.Machine
end

