-- ==== Sys2Proof/Machine/Jasper.lean ====
section
/-! DEFINITION. Rows of logits at Jasper (14 R301, R307, R317, R318). -/

namespace Sys2Proof.Machine

/-- The position that the token chosen at node x will occupy. -/
def StepReq.choicePos (r : StepReq) (kind : StepKind) (c : Ctx) (x : Nat) : Nat :=
  match kind with
  | .prefill => r.pos + r.rows
  | .decode => r.pos + (c.node x).depth + 1

/-- The request's rows of the running step give a token: every decode step, and the step of the last prompt chunk (R293). -/
def StepReq.samples (r : StepReq) (kind : StepKind) (c : Ctx) : Bool :=
  kind == .decode || (!r.recompute && r.pos + r.rows == c.promptLen)

/-- A row has been processed: the counters of R319. -/
def countRow (f : Nat) (logits : List (BitVec 32)) (s : State) : State :=
  onlyIf (logits.any (fun l => (num32 l).isNan)) (bump f cJasperNan) (bump f cJasperRows s)

/-- A draft row at node x: its children, and the end of the level with its last row (R317). -/
def draftRow (idx x q : Nat) (logits : List (BitVec 32)) (c : Ctx) (s : State) : State :=
  let a := c.at x
  let d := { c with cands := c.cands ++ c.children x q (c.prof.row a.1 a.2 logits), drafted := x :: c.drafted,
                    draftRows := c.draftRows + 1 }
  let e := if d.toExpand.all d.drafted.contains then d.endLevel else d
  bumpBy c.fn cSpecDrafted (e.nodes.length - c.nodes.length) (updCtx idx (fun _ => e) s)

/-- JASPER_ROW: the logits of the target or the draft at a node of a request in the running step. -/
def execJasperRow (idx : Nat) (draft : Bool) (node : Nat) (logits : List (BitVec 32)) (s : State) :
    Host.Outcome State Fault Refusal :=
  match s.ctx idx, s.serve.step with
  | some c, some st =>
    match st.reqs.find? (fun r => r.idx == idx) with
    | none => done s s
    | some r =>
      let vocab := (((if draft then c.draft else c.copy).bind s.copy).map (·.hdr.vocab)).getD 0
      if r.masked || r.discard || st.lost != [] || !r.samples st.kind c || logits.length != vocab || vocab == 0 ||
          c.nodes.length < node then done s s
      else
        let q := r.choicePos st.kind c node
        let t := countRow c.fn logits s
        if draft then
          if st.kind != .decode || c.draftOver || c.samples != [] || !c.toExpand.contains node || c.drafted.contains node then done s s
          else live s (draftRow idx node q logits c t)
        else if st.kind == .decode && c.draft.isSome && !c.draftOver || Tab.has c.samples node then done s s
        else
          let a := c.at node
          live s (updCtx idx (fun c => { c with
            samples := Tab.put c.samples node (c.prof.choose c.seed q (c.prof.row a.1 a.2 logits)) }) t)
  | _, _ => done s s

end Sys2Proof.Machine
end

