-- ==== Sys2Proof/Machine/Mica.lean ====
section
/-! DEFINITION. Page fetches and seals on the Mica engines (11 R245 to R257, 10 R227, R230, R241). -/

namespace Sys2Proof.Machine

/-- The Mica engine of cluster n can be used. -/
def State.engineUp (s : State) (n : Nat) : Bool := s.isReady (rCl n)

/-- A page of a running step was lost (R241): the step is discarded for the request, and the column and every later one are
dropped. A second loss while the request recomputes ends it (R240). -/
def loseColumn (idx col : Nat) (s : State) : State :=
  match s.ctx idx with
  | none => s
  | some c =>
    let inStep := s.running.contains idx
    let again := c.ueSeen && (s.serve.step.map (fun p => p.reqs.any (fun r => r.idx == idx && r.recompute))).getD false
    let t := unship idx s
    let cols := ((t.heldColumns idx).filter (fun k => decide (col ≤ k))) ++
      ((t.kv.ghosts.filter (fun e => e.2.req = idx ∧ col ≤ e.2.col)).map (fun e => e.2.col))
    let t := countDrops (forEach cols.dedup (fun k t => dropColumn idx k t) t)
    let t := updCtx idx (fun c => { c with
      ueSeen := c.ueSeen || inStep, dropped := some (match c.dropped with | none => col | some d => min d col) }) t
    let t := updServe (fun x => { x with step := x.step.map (fun p =>
      { p with reqs := p.reqs.map (fun r => if r.idx = idx then { r with discard := true } else r) }) }) t
    if again then endRequest idx eEvicted t else t

/-- A page whose image does not decode, or whose CRC differs, is lost as with an uncorrectable unit in one of its granules; which one is
retired is free (R241, R251; log 40). -/
def crcFail (c : Ctx) (idx col : Nat) (l : List Nat) (s : State) : State :=
  loseColumn idx col (retire (l.getD (freeNumber s % l.length) 0) (tookFree (bump c.fn cMicaCrcFail s)))

/-- PAGE_FETCH (R221, R227, R230, R232, R251): the page and its scales go into the core's Slate from unit `base` on, K rotated, and
its bias rows from unit `bias` on, one for each query of the running step, where a query must not see some key. -/
def execPageFetch (eng : ClusterId) (k : CoreId) (base bias idx : Nat) (draft : Bool) (layer col : Nat) (s : State) :
    Host.Outcome State Fault Refusal :=
  let key := pageKey idx draft layer col
  let p := s.page key
  match s.ctx idx, s.serve.step with
  | some c, some st =>
    match (s.ctxModels c).find? (fun x => x.1 == draft), st.reqs.find? (fun r => r.idx == idx),
        (if draft then c.draft else c.copy).bind s.copy with
    | some x, some r, some cp =>
      let h := x.2
      let decode := st.kind == .decode
      let qs := queries decode r.pos r.rows c.nodes
      let vis := qs.map (fun q => biasRow (fun j => q (64 * col + j)))
      let all := qs.all (fun q => (List.range 64).all (fun j => q (64 * col + j)))
      let rows := if all then [] else vis.flatten
      if !s.engineUp eng.val || k.val / 8 != eng.val || (s.core k.val).task.isSome || layer ≥ h.layers || col ≥ 2048 ||
          !(p.st == .opened || p.st == .sealed || p.st == .shipping) ||
          24576 < base + h.pageUnits || 24576 < bias + rows.length then done s s
      else match s.pageImage h p.frame with
        | none => live s (crcFail c idx col (((Tab.find s.kv.frames p.frame).map (·.gmap.grans)).getD []) s)
        | some (e, sc) =>
          let rows' := if p.st = .opened then ((r.written st.kind c).filter (fun x => x / 64 = col)).map (· % 64) else []
          let (e, sc) := h.unsettled rows' s.free e sc
          let img := rotatePage h cp.freq (fun j => rowPos decode r.pos c.nodes (64 * col + j)) e sc
          let t := updCore k.val (fun d =>
            rows.zipIdx.foldl (fun d (v, i) => d.putUnit (bias + i) v) ((d.serves c.tag).putPage base img.1 img.2)) { s with free := s.free + (if rows' = [] then 0 else 2 * h.pageUnits) }
          live s (updKv (fun v => { v with fetches := v.fetches ++ [{ eng := eng.val, key := key }] }) t)
    | _, _, _ => done s s
  | _, _ => done s s

/-- PAGE_FETCH_DONE (R249): the engine's oldest fetch. -/
def execPageFetchDone (eng : ClusterId) (s : State) : Host.Outcome State Fault Refusal :=
  match s.kv.fetches.find? (fun x => x.eng == eng.val) with
  | none => done s s
  | some x => live s (updKv (fun v => { v with fetches := v.fetches.erase x, old := fetchOver x v.old }) s)

/-- Granules that the CODED image of an OPEN page will fill, none where the page is sealed RAW (R245). -/
def State.sealGrans (s : State) (key : Nat) : Option Nat :=
  match (s.ctx (keyIdx key)).bind (fun c => (s.ctxModels c).find? (fun m => m.1 == keyDraft key)) with
  | none => none
  | some m => match s.pageImage m.2 (s.page key).frame with
    | none => none
    | some (e, sc) =>
      let n := ((codedImage m.2 e sc).length + 4095) / 4096
      if m.2.rawGrans ≤ n then none else some n

/-- SEAL_START (R244, R245, R249, R256): the oldest seal queued on the engine or on one that has been lost, while a seal frame is free;
page fetches go first unless the seal has waited 100 µs. It takes the granules that its image will fill. -/
def execSealStart (eng : ClusterId) (s : State) : Host.Outcome State Fault Refusal :=
  let mine := s.kv.seals.filter (fun x => x.eng == eng.val)
  match s.kv.seals.find? (fun x => !x.running && (x.eng == eng.val || !s.engineUp x.eng)) with
  | none => done s s
  | some x =>
    if !s.engineUp eng.val || decide (2 ≤ (mine.filter (·.running)).length) ||
        (!x.urgent && s.kv.fetches.any (fun f => f.eng == eng.val)) then done s s
    else
      let (l, t) := match s.sealGrans x.key with
        | none => ([], s)
        | some n => grantGrans n (s.ctxTag (keyIdx x.key)) false s
      live s (updKv (fun v => { v with seals := v.seals.map (fun y =>
        if y.key = x.key then { y with running := true, eng := eng.val, grans := l } else y) }) t)

/-- The frame record of a page takes another map. -/
def setGmap (f : Nat) (m : Gmap) (s : State) : State :=
  updKv (fun v => { v with frames := v.frames.map (fun e => if e.1 = f then (e.1, { e.2 with gmap := m }) else e) }) s

/-- The granules `l` that a page held before its switch stay until the fetches of it that are in progress have completed (R249). -/
def keepOld (key : Nat) (l : List Nat) (v : Kv) : Kv :=
  let n := v.old.foldl (fun a o => max a (o.no + 1)) 0
  let reads := fun (x : Fetch) => x.key == key && x.old.isNone
  let k := (v.fetches.filter reads).length
  if k = 0 then v
  else { v with
    fetches := v.fetches.map (fun x => if reads x then { x with old := some n } else x),
    old := v.old ++ [{ no := n, fetches := k, grans := l }] }

/-- The switch of a page that has been sealed (R245, R249): CODED, in the granules `l` of its seal, where the image is smaller by a
granule, else RAW. -/
def switchPage (key : Nat) (l : List Nat) (h : ModelHdr) (s : State) : State :=
  let p := s.page key
  let fn := s.ctxFn (keyIdx key)
  match Tab.find s.kv.frames p.frame, s.pageImage h p.frame with
  | some f, some (e, sc) =>
    let img := codedImage h e sc
    let n := (img.length + 4095) / 4096
    let s := updKv (fun v => { v with seals := v.seals.filter (·.key != key) }) s
    if h.rawGrans ≤ n then bump fn cMicaSealRaw (putPage key { p with st := .sealed } s)
    else
      let t := writeGrans l (fit (4096 * n) img) s
      let t := updKv (fun v => keepOld key f.gmap.grans { v with scales := Tab.erase v.scales p.frame })
        (setGmap p.frame { coded := true, map := s.kv.freeMap, grans := l } t)
      bumpBy fn cMicaGranulesSaved (h.rawGrans - n) (bump fn cMicaSealCoded (putPage key { p with st := .sealed } t))
  | _, _ => s

/-- SEAL_SWITCH (R249): the engine's oldest running seal, or its younger one. A column that is complete may be shipped (R290,
R291). -/
def execSealSwitch (eng : ClusterId) (second : Bool) (s : State) : Host.Outcome State Fault Refusal :=
  match (s.kv.seals.filter (fun x => x.eng == eng.val && x.running))[if second then 1 else 0]? with
  | none => done s s
  | some x =>
    let idx := keyIdx x.key
    match (s.ctx idx).bind (fun c => (s.ctxModels c).find? (fun m => m.1 == keyDraft x.key)) with
    | none => live s (updKv (fun v => { v with seals := v.seals.filter (·.key != x.key) }) s)
    | some m => live s (shipOn idx (tryOffer idx (switchPage x.key x.grans m.2 s)))

/-- SEAL_STARVATION (R249): the engine's oldest queued seal has waited 100 µs. -/
def execSealStarvation (eng : ClusterId) (s : State) : Host.Outcome State Fault Refusal :=
  match s.kv.seals.find? (fun x => x.eng == eng.val && !x.urgent) with
  | none => done s s
  | some x => live s (updKv (fun v => { v with seals := v.seals.map (fun y => if y.key = x.key then { y with urgent := true } else y) }) s)

end Sys2Proof.Machine
end

