-- ==== Sys2Proof/Machine/OpsStep.lean ====
section
/-! DEFINITION. Building and ending a step (10 R226, R232 to R240, 13 R286 to R296). -/

namespace Sys2Proof.Machine

/-! ## Which requests may join (R269, R286, R287) -/

/-- The ghost of a page carries its function's current FEPOCH and names the page (R257). A request of another part carries that part's
FEPOCH in its own tag. -/
def State.ghostGood (s : State) (k : Nat) : Bool :=
  match Tab.find s.kv.ghosts (s.page k).ghost, s.ctx (keyIdx k) with
  | some g, some c =>
    g.tag.fn == c.tag.fn && g.tag.fepoch == (if c.home then (s.fn c.fn).fepoch else c.tag.fepoch) &&
      g.req == keyIdx k && g.draft == keyDraft k && g.layer == keyLayer k && g.col == keyCol k
  | _, _ => false

/-- Every page of a column is a ghost that can be revived. -/
def State.columnGhosts (s : State) (idx col : Nat) : Bool :=
  (s.columnKeys idx col).all (fun k => decide ((s.page k).st = .ghost) && s.ghostGood k)

/-- The first dropped column of a request that cannot be revived, so that recompute steps start there (R237); none where every one
can. -/
def State.lostColumn (s : State) (idx : Nat) (c : Ctx) : Option Nat :=
  match c.dropped with
  | none => none
  | some d => ((List.range ((c.committed + 63) / 64 - d)).map (d + ·)).find? (fun k => !s.columnGhosts idx k)

/-- The request has rows of its prompt or dropped rows to run, and this part runs them (R287). -/
def State.wantsPrefill (s : State) (idx : Nat) (c : Ctx) : Bool :=
  (s.lostColumn idx c).isSome || (c.committed < c.promptLen && (!s.isSpread c || s.serve.role != 0))

/-- The request decodes here. -/
def State.wantsDecode (s : State) (idx : Nat) (c : Ctx) : Bool :=
  (s.lostColumn idx c).isNone && decide (c.promptLen ≤ c.committed) && c.written != [] && (!s.isSpread c || s.serve.role != 1)

/-- One request goes before another (R287). -/
def ctxBefore (a b : Nat × Ctx) : Bool :=
  if a.2.prio ≠ b.2.prio then decide (b.2.prio < a.2.prio) else decide (a.2.order < b.2.order)

/-- Contexts in the order of R287, those left out that wait for a free context (R283). -/
def State.inOrder (s : State) (p : Nat → Ctx → Bool) : List (Nat × Ctx) :=
  startable s.freeCtxs ((s.serve.ctxs.filter (fun e => s.eligible e.2 && p e.1 e.2)).foldr (insertBy ctxBefore) [])

/-! ## Restoring (R237, R256, R257) -/

/-- Revive one page: a frame, and the ghost's map. -/
def revivePage (k : Nat) (s : State) : State :=
  match Tab.find s.kv.ghosts (s.page k).ghost with
  | none => s
  | some g =>
    let f := s.kv.frames.fresh
    bump (s.ctxFn (keyIdx k)) cKvRevivePages
      (putPage k { st := .sealed, fill := g.fill, frame := f } (updKv (fun v => { v with
        ghosts := Tab.erase v.ghosts (s.page k).ghost,
        frames := Tab.put v.frames f { tag := s.ctxTag (keyIdx k), req := g.req, draft := g.draft, layer := g.layer, col := g.col,
                                       gmap := g.gmap } }) s))

/-- Revive columns from c on, for the batch `prep`, while each is wholly GHOST: whether their frames fit, the first column that was not
revived, and the state. A ghost that does not belong to its entry is destroyed and counted, and those it strands with it (R257, R255). -/
def reviveFrom (prep : List Nat) (idx : Nat) : Nat → Nat → State → Bool × Nat × State
  | 0, c, s => (true, c, s)
  | n + 1, c, s =>
    let ks := s.columnKeys idx c
    if ks.isEmpty || !ks.all (fun k => decide ((s.page k).st = .ghost)) then (true, c, s)
    else
      let bad := ks.filter (fun k => !s.ghostGood k)
      if bad ≠ [] then
        (true, c, strand idx (forEach bad (fun k t => bump (t.ctxFn idx) cViolEpochStale (destroyGhost (t.page k).ghost t)) s))
      else
        let (fits, t) := roomFor ks.length prep (updKv (fun v => { v with reviving := some (idx, c) }) s)
        if !fits then (false, c, t) else reviveFrom prep idx n (c + 1) (forEach ks revivePage t)

/-- Restore a request of the batch `prep` before its next step (R237): what can be revived is revived, and what must be recomputed
loses its ghosts. Where the frames of a revival do not fit, the request keeps its ghosts and has not been restored. -/
def restore (prep : List Nat) (idx : Nat) (s : State) : Bool × State :=
  match s.ctx idx with
  | none => (true, s)
  | some c =>
    match c.dropped with
    | none => (true, s)
    | some d =>
      let (fits, e, t) := reviveFrom prep idx 2048 d s
      let t := updKv (fun v => { v with reviving := none }) t
      if c.committed ≤ 64 * e then (true, updCtx idx (fun c => { c with dropped := none }) t)
      else
        let t := updCtx idx (fun c => { c with dropped := some e, state := if c.state = .decode then .restoring else c.state }) t
        if fits then (true, forEach (t.ghostsFrom idx e) destroyGhost t) else (false, t)

/-- Restore the requests of a batch, in its order, until the frames of one do not fit. -/
def restoreAll (prep : List Nat) : List Nat → State → Bool × State
  | [], s => (true, s)
  | i :: r, s =>
    let (fits, t) := restore prep i s
    if fits then restoreAll prep r t else (false, t)

/-! ## Rows of a step (R232, R237, R287) -/

/-- Committed rows that a column holds, by its first page. -/
def State.columnFill (s : State) (idx col : Nat) : Nat :=
  ((s.columnKeys idx col).head?.map (fun k => if (s.page k).st = .ghost then 0 else (s.page k).fill)).getD 0

/-- A request's share of a prefill step of at most n rows. -/
def State.prefillShare (s : State) (e : Nat × Ctx) (n : Nat) : StepReq :=
  let c := e.2
  match s.lostColumn e.1 c with
  | some d =>
    let pos := 64 * d + s.columnFill e.1 d
    { idx := e.1, rows := min n (c.committed - pos), pos := pos, recompute := true, opened := [] }
  | none => { idx := e.1, rows := min n (c.promptLen - c.committed), pos := c.committed, recompute := false, opened := [] }

/-- Shares of a prefill step of at most so many rows. -/
def State.prefillShares (s : State) : Nat → List (Nat × Ctx) → List StepReq
  | _, [] => []
  | n, e :: r =>
    if n = 0 then []
    else
      let x := s.prefillShare e n
      if x.rows = 0 then s.prefillShares n r else x :: s.prefillShares (n - x.rows) r

/-- Shares of a decode step of at most so many rows. -/
def decodeShares : Nat → List (Nat × Ctx) → List StepReq
  | _, [] => []
  | n, e :: r =>
    let k := 1 + (if e.2.draft.isSome then e.2.prof.specCount else 0)
    if n < k then decodeShares n r
    else { idx := e.1, rows := k, pos := e.2.committed, recompute := false, opened := [] } :: decodeShares (n - k) r

/-- The estimated charge of a share, its previous step's charge times the rows of this step over the rows of that one, takes the meter
past the budget (R295). -/
def Ctx.overBudget (c : Ctx) (kind : StepKind) (rows : Nat) : Bool :=
  let prev := match kind with | .prefill => c.prevPrefill | .decode => c.prevDecode
  match prev with
  | none => false
  | some (e, r) => c.budget != 0 && decide (c.budget * r < c.meter * r + e * rows)

/-- The request of a batch that is removed first (R235): the lowest priority, and of these the highest index. -/
def State.outcast (s : State) (l : List Nat) : Option Nat :=
  let prio := fun (i : Nat) => ((s.ctx i).map (·.prio)).getD 0
  l.foldl (fun (a : Option Nat) i => match a with
    | none => some i
    | some b => if prio i < prio b ∨ (prio i = prio b ∧ b < i) then some i else some b) none

/-- The shares of a step of a kind, for requests in the order of R287. A request that must be recomputed has none in a decode step. -/
def State.sharesOf (s : State) (kind : StepKind) (l : List (Nat × Ctx)) : List StepReq :=
  match kind with
  | .prefill => s.prefillShares 512 l
  | .decode => (decodeShares 2048 (l.filter (fun e => (s.lostColumn e.1 e.2).isNone))).take 256

/-- The contexts of requests. -/
def State.ctxsOf (s : State) (l : List Nat) : List (Nat × Ctx) := l.filterMap (fun i => (s.ctx i).map (fun c => (i, c)))

/-- Prepare a step for the requests `l` (R234, R235, R237): their dropped columns are restored and the frames that the step will grant
are made free, every column of theirs being pinned. While that fails, a request is removed from the batch; a lone one that cannot be
held ends E_EVICTED (R240). -/
def fitBatch (kind : StepKind) : Nat → List Nat → State → List StepReq × State
  | 0, _, s => ([], s)
  | _, [], s => ([], s)
  | n + 1, l, s =>
    let (held, t) := restoreAll l l s
    let shares := t.sharesOf kind (t.ctxsOf l)
    let (fits, t) := if held then roomFor ((shares.map t.newPages).sum) l t else (false, t)
    if fits then (shares, t)
    else match l with
      | [i] => ([], endRequest i eEvicted t)
      | _ => match t.outcast l with
        | none => ([], t)
        | some i => fitBatch kind n (l.filter (· != i)) t

/-- Open the columns of a share: the share with those that were wholly ABSENT. -/
def openShare (r : StepReq) (s : State) : StepReq × State :=
  let new := r.columns.filter (fun c => (s.columnKeys r.idx c).all (fun k => decide ((s.page k).st = .absent)))
  ({ r with opened := new }, forEach r.columns (openColumn r.idx) s)

/-- A context as its step starts. -/
def Ctx.atStart (c : Ctx) : Ctx :=
  { c with begun := true, meterAt := c.meter, nodes := [], samples := [], cands := [], drafted := [], draftRows := 0, draftOver := false,
           state := if c.state = .admitted then .prefill else if c.state = .restoring ∧ c.dropped.isNone then .decode else c.state }

/-- Shares whose estimate passes the budget end E_ENERGY (R295). -/
def dropOverBudget (kind : StepKind) (l : List StepReq) (s : State) : List StepReq × State :=
  let out := l.filter (fun r => ((s.ctx r.idx).map (fun c => c.overBudget kind r.rows)).getD false)
  (l.filter (fun r => !out.any (fun o => o.idx == r.idx)), forEach out (fun r t => endRequest r.idx eEnergy t) s)

/-- The requests that may share a step with the first of them (R287): in a decode step those of its target; a ROLE 2 part recomputes a
request of the pool alone. -/
def State.mayShare (s : State) (kind : StepKind) (first : Nat × Ctx) (k : Nat) (l : List (Nat × Ctx)) : List (Nat × Ctx) :=
  match kind with
  | .decode => l.filter (fun e => e.2.copy == some k)
  | .prefill =>
    if s.serve.role ≠ 2 then l
    else if s.isSpread first.2 then [first] else l.filter (fun e => !s.isSpread e.2)

/-- Start a step of a kind from the requests that want one; a decode step is of the target that the first of them has (R287). -/
def startStep (kind : StepKind) (l : List (Nat × Ctx)) (s : State) : State :=
  match l with
  | [] => s
  | first :: _ =>
    match first.2.copy with
    | none => s
    | some k =>
      let batch := (s.sharesOf kind (s.mayShare kind first k l)).map (·.idx)
      let (shares, t) := fitBatch kind (batch.length + 1) batch s
      let (shares, t) := dropOverBudget kind shares t
      if shares = [] then t
      else
        let (reqs, t) := shares.foldl (fun (a : List StepReq × State) r => let x := openShare r a.2; (a.1 ++ [x.1], x.2)) ([], t)
        let t := forEach reqs (fun r t => updCtx r.idx Ctx.atStart t) t
        updServe (fun x => { x with step := some { kind := kind, copy := k, reqs := reqs }, sums := [] }) t

/-- What a boundary does before a step is built: requests pause or go on (R286), those that must end do (R240, R269), and those
without a working part look for one. -/
def boundary (s : State) : State :=
  let t := pauseBoundary s
  let t := forEach (Tab.keys t.serve.ctxs) tryAssign t
  forEach t.serve.ctxs (fun e t =>
    if e.2.work && e.2.state != .ended && decide (16 ≤ e.2.drops) then endRequest e.1 eEvicted t
    else if e.2.work && e.2.state != .ended && t.tierFenced e.2 && (t.fn e.2.fn).policyOn && (t.fn e.2.fn).drains then
      endRequest e.1 eLease t
    else t) t

/-- A task waits that could be placed now, so it is placed before a step is built (R288). -/
def State.taskFirst (s : State) : Bool :=
  s.tasks.any (fun e => e.2.place.isNone && !e.2.paused && !s.tasks.any (fun x => x.2.before e.2) &&
    (match s.prog e.2.prog with
     | none => false
     | some p => (s.findPlace p (if p.builtin then e.2.visCores else p.cores)).isSome && (!p.builtin || e.2.visCount != 0)))

/-- Build the next step (R287): one prefill step after every 4 decode steps while both kinds have work. -/
def buildStep (s : State) : State :=
  let t := boundary s
  if t.thermal.critical || t.taskFirst then t
  else
    let p := t.inOrder t.wantsPrefill
    let d := t.inOrder t.wantsDecode
    if d = [] ∨ (p ≠ [] ∧ 4 ≤ t.serve.sincePrefill) then startStep .prefill p t else startStep .decode d t

/-! ## The end of a step -/

/-- Every row that Jasper must have processed has been (R301). -/
def State.sampled (s : State) (st : Step) : Bool :=
  st.reqs.all (fun r => r.masked || r.discard || (match s.ctx r.idx with
    | none => true
    | some c => !r.samples st.kind c ||
        ((c.draft.isNone || st.kind != .decode || c.draftOver) &&
          (List.range (c.nodes.length + 1)).all (fun x => Tab.has c.samples x))))

/-- The step has had all the weights it reads: every tiered tensor, unless nothing of it is kept, and every lost chunk that another copy
repairs (R268, R279). -/
def State.weightsRead (s : State) (st : Step) : Bool :=
  let used := s.stepCopies st
  let kept := !st.discard && st.reqs.any (fun r => !r.masked && !r.discard)
  !s.serve.repairs.any (fun r => used.contains r.copy) &&
    (!kept || used.all (fun k => match s.copy k with
      | none => true
      | some c => c.tensors.zipIdx.all (fun t => !t.1.tiered || st.tiers.contains (k, t.2))))

/-- Every layer of the step has written the rows of each request that the step is kept for (R226). -/
def State.rowsWhole (s : State) (st : Step) (rows : List PageRow) : Bool :=
  st.reqs.all (fun r => st.discard || r.masked || r.discard || (match s.ctx r.idx with
    | none => true
    | some c => (s.ctxModels c).all (fun m => (List.range m.2.layers).all (fun l => (r.written st.kind c).all (fun p =>
        rows.any (fun w => w.idx == r.idx && w.draft == m.1 && w.layer == l && w.pos == p))))))

/-- Write the rows of the step into its OPEN pages (R226, R232). -/
def writeRows (st : Step) (rows : List PageRow) (s : State) : State :=
  forEach rows (fun w t =>
    match st.reqs.find? (fun r => r.idx == w.idx), t.ctx w.idx with
    | some r, some c =>
      if r.masked || r.discard || decide (w.pos < r.pos) || decide (r.pos + r.rows ≤ w.pos) then t
      else
        let p := t.page (pageKey w.idx w.draft w.layer (w.pos / 64))
        match (t.ctxModels c).find? (fun m => m.1 == w.draft), Tab.find t.kv.frames p.frame with
        | some m, some f => if p.st = .opened then writeRow m.2 p.frame f.gmap.grans (w.pos % 64) w.kv w.scales t else t
        | _, _ => t
    | _, _ => t) s

/-- Copy the row at one place of every page to another (R233). -/
def copyRow (idx src dst : Nat) (c : Ctx) (s : State) : State :=
  forEach (s.ctxModels c) (fun m t => forEach (List.range m.2.layers) (fun l t =>
    let p := t.page (pageKey idx m.1 l (src / 64))
    let q := t.page (pageKey idx m.1 l (dst / 64))
    match Tab.find t.kv.frames p.frame, Tab.find t.kv.frames q.frame with
    | some f, some g =>
      let row := readRow m.2 p.frame f.gmap.grans (src % 64) t
      writeRow m.2 q.frame g.gmap.grans (dst % 64) row.1 row.2 t
    | _, _ => t) t) s

/-- Queue a seal (R245): on the usable engine with the fewest seals, the lowest cluster on a tie. -/
def queueSeal (key : Nat) (s : State) : State :=
  let load := fun (n : Nat) => (s.kv.seals.filter (fun x => x.eng == n)).length
  let eng := ((List.range 8).filter s.engineUp).foldl (fun (a : Option Nat) n => match a with
    | none => some n
    | some b => if load n < load b then some n else some b) none
  updKv (fun v => { v with seals := v.seals ++ [{ eng := eng.getD 0, key := key }] }) s

/-- Commit a request's rows up to a position (R226): FILL of every page concerned, and a seal for each page that is full. -/
def commitTo (idx upTo : Nat) (cols : List Nat) (s : State) : State :=
  forEach cols (fun c t => forEach (t.columnKeys idx c) (fun k t =>
    let p := t.page k
    let fill := min 64 (upTo - 64 * c)
    if p.st = .opened ∧ p.fill < fill then
      let t := putPage k { p with fill := fill } t
      if fill = 64 then queueSeal k t else t
    else t) t) s

/-- The context of the request's target. -/
def State.contextOf (s : State) (c : Ctx) : Nat := ((c.copy.bind s.copy).map (·.hdr.context)).getD 0

/-- Tokens come out of a step: written up to MAX_TOKENS, the context and the first that ends the request (R294, R240), and
the request ends where one of them says so. -/
def giveTokens (idx room : Nat) (ts : List Nat) (s : State) : State :=
  match s.ctx idx with
  | none => s
  | some c =>
    let (out, end1) := c.clip (ts.take (min room (c.maxTokens - c.written.length)))
    let a := c.prof.after c.grammar c.counts out
    let t := bumpBy c.fn cJasperCountFull a.2.2 s
    let t := emitTokens idx out (updCtx idx (fun c => { c with grammar := a.1, counts := a.2.1 }) t)
    match t.ctx idx with
    | none => t
    | some d =>
      if end1 then finishOk idx true t
      else if d.maxTokens ≤ d.written.length ∨ t.contextOf d ≤ d.committed then finishOk idx false t
      else t

/-- One request's share ends well. -/
def endShare (kind : StepKind) (r : StepReq) (s : State) : State :=
  match s.ctx r.idx with
  | none => s
  | some c =>
    let spent := some (c.meter - c.meterAt, r.rows)
    let good := fun (d : Ctx) => { d with lastCommit := s.serve.stepNo + 1, drops := 0 }
    match kind with
    | .prefill =>
      let upTo := r.pos + r.rows
      let t := commitTo r.idx upTo r.columns s
      if r.recompute then
        bumpBy c.fn cKvRecomputeTokens r.rows (updCtx r.idx (fun d => let d := good d; { d with
          prevPrefill := spent,
          dropped := if c.committed ≤ upTo then none else some (upTo / 64),
          state := if c.committed ≤ upTo ∧ d.state = .restoring then .decode else d.state }) t)
      else
        let t := updCtx r.idx (fun d => let d := good d; { d with committed := upTo, prevPrefill := spent, ueSeen := false }) t
        if upTo ≠ c.promptLen then t
        else
          let ship := s.isSpread c && s.serve.role == 1
          let first := c.prof.firstCounts c.prompt
          let t := bumpBy c.fn cJasperCountFull first.2 t
          let t := updCtx r.idx (fun d => { d with
            state := if ship then .shipping else .decode, grammar := c.prof.start, counts := first.1 }) t
          giveTokens r.idx 1 [Tab.get 0 c.samples 0] t
    | .decode =>
      let w := c.walk 16 0
      let room := s.contextOf c - r.pos
      let rows := min (w.1.length + 1) room
      let t := forEach w.1.zipIdx (fun (p, k) t => if p = k + 1 then t else copyRow r.idx (r.pos + p) (r.pos + k + 1) c t) s
      let t := closeUnused r (commitTo r.idx (r.pos + rows) r.columns t)
      let t := bumpBy c.fn cSpecAccepted w.1.length t
      let t := updCtx r.idx (fun d => let d := good d; { d with committed := r.pos + rows, prevDecode := spent, ueSeen := false }) t
      giveTokens r.idx room w.2 t

/-- End the running step (R226): rows are committed, tokens go out, seals are queued, and what was cancelled leaves. -/
def endStep (st : Step) (rows : List PageRow) (s : State) : State :=
  let bad := st.reqs.filter (fun r => r.masked || r.discard || st.discard)
  let fns := (bad.map (fun r => s.ctxFn r.idx)).dedup
  let good := st.reqs.filter (fun r => !(r.masked || r.discard || st.discard))
  let t := forEach fns (fun f => bump f cKvInterrupted) s
  let t := writeRows { st with reqs := good } rows t
  let t := updServe (fun x => { x with
    step := none, stepNo := x.stepNo + 1, sums := [],
    sincePrefill := match st.kind with | .prefill => 0 | .decode => x.sincePrefill + 1 }) t
  let t := forEach bad closeUnused t
  let t := forEach good (endShare st.kind) t
  let t := forEach st.reqs (fun r t => match (t.ctx r.idx).bind (·.endWith) with
    | some e => dropWork r.idx e t
    | none => t) t
  let t := forEach st.reqs (fun r t => shipOn r.idx (tryOffer r.idx t)) t
  let t := forEach (Tab.keys (t.serve.copies.filter (fun e => e.2.state == .unloading))) dropCopy t
  freeProfiles (pauseBoundary t)

end Sys2Proof.Machine
end

