-- ==== Sys2Proof/Machine/OpsRx.lean ====
section
/-! DEFINITION. What the destination of a serving message does with it (18 R379 to R381, 13 R281, R289 to R293, R298). A handler
takes the source, the tag and the payload, which begins at offset 0x20 of the message. -/

namespace Sys2Proof.Machine

/-- The n-byte field of a payload at an offset of the message. -/
def mfield (b : Bytes) (off n : Nat) : Nat := rd b (off - 0x20) n

/-- A payload is long enough and its reserved fields are 0 (R379). -/
def bodyOk (b : Bytes) (len : Nat) (reserved : List (Nat × Nat)) : Bool :=
  decide (len ≤ b.length) && reserved.all (fun x => allZero (slice b (x.1 - 0x20) x.2))

/-- A malformed message of a request, or of none (R379). -/
def badServe (tag : BitVec 32) (s : State) : State := bump (tagOfWord tag.toNat).fn cViolServeMsg s
def badFab (s : State) : State := bumpPart cViolFabMsg s

/-- Hand a message to its request's context: without one it is discarded, and under another tag it is stale (R97). -/
def withCtx (o : Option Nat) (tag : BitVec 32) (g : Nat → Ctx → State → State) (s : State) : State :=
  match o with
  | none => s
  | some i => match s.ctx i with
    | none => s
    | some c => if c.tag.word = tag then g i c s else bump (tagOfWord tag.toNat).fn cViolEpochStale s

/-! ## CTRL: membership (R281, R290) -/

/-- POOL_VIEW. -/
def rxPoolView (src : Nat) (b : Bytes) (s : State) : State :=
  let n := mfield b 0x28 2
  if !bodyOk b (0x10 + 32 * n) [(0x22, 2), (0x2A, 6)] || 254 < n || 3 < mfield b 0x21 1 || 15 < mfield b 0x20 1 ||
      (List.range n).any (fun k => !allZero (slice b (0x10 + 32 * k + 19) 13)) then badFab s
  else
    let copies := (List.range n).map (fun k =>
      let o := 0x30 + 32 * k
      (BitVec.ofNat 128 (mfield b o 16), mfield b (o + 16) 1, mfield b (o + 17) 1, mfield b (o + 18) 1))
    updServe (fun x => { x with members := Tab.upd {} x.members src (fun m => { m with
      pool := mfield b 0x20 1, role := mfield b 0x21 1, copies := copies }) }) s

/-- ADVERT. Requests that wait for a working part look for one again. -/
def rxAdvert (src : Nat) (b : Bytes) (s : State) : State :=
  if !bodyOk b 0x10 [(0x2D, 3)] then badFab s
  else
    let t := updServe (fun x => { x with members := Tab.upd {} x.members src (fun m => { m with
      frames := mfield b 0x20 4, ctxs := mfield b 0x24 4, queued := mfield b 0x28 4, adv := true }) }) s
    forEach (Tab.keys t.serve.ctxs) tryAssign t

/-! ## CTRL: a request on its working part (R282, R283, R298, R299) -/

/-- The profile of a digest, if it is here in full. -/
def State.profOfDigest (s : State) (d : BitVec 128) : Prof :=
  if d = 0 then {}
  else match s.serve.profs.find? (fun e => digest16 e.2.table = d) with
    | some e => e.2.prof
    | none => match s.serve.remoteProf.find? (fun e => e.1 = d && e.2.1 == e.2.2.length) with
      | some e => profOf e.2.2
      | none => {}

/-- A context for another part's request. -/
def remoteCtx (home handle : Nat) (tag : BitVec 32) (target draft digest : BitVec 128) (s : State) : Ctx :=
  { home := false, work := true, homeAddr := home, handle := handle, fn := (tagOfWord tag.toNat).fn, tag := tagOfWord tag.toNat,
    q := 0, ctag := 0, workAddr := some s.me, model := 0, draftH := 0, copy := s.spreadCopy target,
    draft := if draft = 0 then none else s.spreadCopy draft, modelId := target, draftId := draft, adapter := 0, profH := 0,
    prof := s.profOfDigest digest, profDigest := digest, prompt := [], written := [], promptLen := 0, maxTokens := 0, budget := 0,
    prio := 0, tAccept := 0, nonce := 0, seed := 0, state := .admitted, order := s.serve.order }

/-- Put a new context at the lowest free index. -/
def addCtx (c : Ctx) (s : State) : State :=
  updServe (fun x => { x with order := x.order + 1, ctxs := Tab.put x.ctxs x.ctxs.fresh c }) s

/-- Take an assignment on and acknowledge it; it takes a context when its first step starts (R283). -/
def takeAssign (src : Nat) (tag : BitVec 32) (b : Bytes) (s : State) : State :=
  let target := BitVec.ofNat 128 (mfield b 0x38 16)
  let draft := BitVec.ofNat 128 (mfield b 0x48 16)
  let digest := BitVec.ofNat 128 (mfield b 0x58 16)
  let p := mfield b 0x2C 4
  let w := mfield b 0x30 4
  let c : Ctx := { remoteCtx src (mfield b 0x20 8) tag target draft digest s with
    promptLen := p, writtenLen := w, maxTokens := mfield b 0x34 4, budget := mfield b 0x78 8, meter := mfield b 0x70 8,
    prio := mfield b 0x29 1, seed := BitVec.ofNat 64 (mfield b 0x68 8), dropped := if 0 < w then some 0 else none,
    committed := if 0 < w then p + w - 1 else 0, state := if 0 < w then .restoring else .admitted }
  sendMsg src 1 4 tag (toLe 8 c.handle ++ toLe 1 (s.profHeld digest).toNat ++ toLe 7 0) (addCtx c s)

/-- ASSIGN: an assignment that this part cannot work on is discarded; one that finds every index of a request used waits. -/
def rxAssign (src : Nat) (tag : BitVec 32) (b : Bytes) (s : State) : State :=
  let draft := BitVec.ofNat 128 (mfield b 0x48 16)
  if !bodyOk b 0x60 [(0x2A, 2)] || 1 < mfield b 0x28 1 then badServe tag s
  else if (s.findCtx src (mfield b 0x20 8)).isSome || (s.spreadCopy (BitVec.ofNat 128 (mfield b 0x38 16))).isNone ||
      (draft != 0 && (s.spreadCopy draft).isNone) then s
  else if contextCount ≤ s.serve.ctxs.length then updServe (fun x => { x with assigns := x.assigns ++ [(src, tag, b)] }) s
  else takeAssign src tag b s

/-- Assignments that waited are taken on. -/
def retryAssigns (s : State) : State :=
  let l := s.serve.assigns
  forEach l (fun a t => rxAssign a.1 a.2.1 a.2.2 t) (updServe (fun x => { x with assigns := [] }) s)

/-- ASSIGN_ACK at the home part: the tokens follow, and the profile where the working part lacks it. -/
def rxAssignAck (src : Nat) (tag : BitVec 32) (b : Bytes) (s : State) : State :=
  if !bodyOk b 0x10 [(0x29, 7)] || 1 < mfield b 0x28 1 then badServe tag s
  else withCtx (s.findCtx s.me (mfield b 0x20 8)) tag (fun i c t =>
    if c.workAddr ≠ some src ∨ c.state = .ended then t
    else
      let t := updCtx i (fun c => { c with state := if c.state = .admitted then .prefill else c.state }) t
      let t := sendTokenSegs c src 1 5 t
      if mfield b 0x28 1 = 0 ∧ c.profDigest ≠ 0 then sendProfile c src 1 6 t else t) s

/-- The context that a token segment from a part is for: its home part sends it, or the sender of its shipment. -/
def State.segCtx (s : State) (src handle : Nat) : Option Nat :=
  (s.serve.ctxs.find? (fun e => e.2.work && e.2.handle == handle &&
    (e.2.homeAddr == src || s.serve.ships.any (fun m => m.idx == e.1 && !m.out && m.peer == src)))).map (·.1)

/-- TOKEN_SEG: the next token IDs of a request; with the last the selection state is rebuilt (R302). -/
def rxTokenSeg (src : Nat) (tag : BitVec 32) (b : Bytes) (s : State) : State :=
  let n := mfield b 0x2C 2
  if !bodyOk b (0x10 + 4 * n) [(0x2E, 2)] || n = 0 || 2032 < n then badServe tag s
  else withCtx (s.segCtx src (mfield b 0x20 8)) tag (fun i c t =>
    if mfield b 0x28 4 ≠ c.prompt.length + c.written.length then t
    else
      let ids := c.prompt ++ c.written ++ (List.range n).map (fun k => mfield b (0x30 + 4 * k) 4)
      updCtx i (fun c =>
        let d := { c with prompt := ids.take c.promptLen, written := (ids.drop c.promptLen).take c.writtenLen }
        let d := { d with position := d.written.length }
        if d.prompt.length = d.promptLen ∧ d.written.length = d.writtenLen then d.replayed else d) t) s

/-- PROFILE_SEG: the next bytes of a profile table, kept under its digest (R380). -/
def rxProfileSeg (b : Bytes) (s : State) : State :=
  let n := mfield b 0x38 2
  let d := BitVec.ofNat 128 (mfield b 0x20 16)
  let off := mfield b 0x30 4
  if !bodyOk b (0x20 + n) [(0x3A, 6)] || n = 0 || 8128 < n then badFab s
  else
    let old := if off = 0 then [] else ((s.serve.remoteProf.find? (fun e => e.1 = d)).map (·.2.2)).getD []
    if old.length ≠ off then s
    else
      let all := old ++ slice b 0x20 n
      let t := updServe (fun x => { x with
        remoteProf := (d, mfield b 0x34 4, all) :: x.remoteProf.filter (fun e => e.1 ≠ d) }) s
      if all.length ≠ mfield b 0x34 4 then t
      else updServe (fun x => { x with ctxs := x.ctxs.map (fun e =>
        if e.2.profDigest = d ∧ !e.2.home then (e.1, ({ e.2 with prof := profOf all } : Ctx).replayed) else e) }) t

/-- The home part's view of a request that works elsewhere moves on, under a pause too (R285). -/
def Ctx.moveTo (st : ReqState) (c : Ctx) : Ctx :=
  if c.state = .paused then { c with before := st } else { c with state := st }

/-- TOKENS at the home part (R293): token entries, and at the end the final completion, whose STATUS is a code of R5. A message of the
sender of a shipment that comes after the receiver's first, or after the request has come to be worked here, moves nothing. -/
def rxTokens (src : Nat) (tag : BitVec 32) (b : Bytes) (s : State) : State :=
  let n := mfield b 0x2C 1
  let fl := mfield b 0x2D 1
  if !bodyOk b 0x44 [] || 9 < n || 3 < fl || (fl % 2 == 1 && !isStatus (BitVec.ofNat 16 (mfield b 0x2E 2))) then badServe tag s
  else withCtx (s.findCtx s.me (mfield b 0x20 8)) tag (fun i c t =>
    if c.state = .ended then t
    else
      let decodes := ((t.rod.find? (fun e => e.1 == src)).map (fun e => e.2.role != 1)).getD true
      let old := c.work || (fl % 2 == 0 && decide (mfield b 0x28 4 + n ≤ c.written.length))
      let t := if old then t else updCtx i (fun c => ({ c with
        meter := mfield b 0x30 8, workAddr := some src } : Ctx).moveTo (if decodes then .decode else .shipping)) t
      let t := homeTokens i (mfield b 0x28 4) ((List.range n).map (fun k => mfield b (0x40 + 4 * k) 4)) (BitVec.ofNat 64 (mfield b 0x38 8)) t
      if fl % 2 = 0 then t
      else dropWork i stOk (finishHome i (BitVec.ofNat 16 (mfield b 0x2E 2)) (fl / 2 == 1) t)) s

/-- CANCEL at a part that works on the request (R298). -/
def rxCancel (src : Nat) (tag : BitVec 32) (b : Bytes) (s : State) : State :=
  let st : Status := BitVec.ofNat 16 (mfield b 0x28 2)
  if !bodyOk b 0x10 [(0x2A, 6)] || (st != eCancelled && st != eLease) then badServe tag s
  else withCtx (s.findCtx src (mfield b 0x20 8)) tag (fun i c t =>
    if c.home ∨ c.state = .ended then t
    else freeProfiles (dropWork i st (updCtx i (fun c => { c with state := .ended, late := true }) t))) s

/-! ## KV: shipments (R289 to R292) -/

/-- SHIP_OFFER at the receiver: a context and frames are reserved, or the offer is refused. Where the receiver is the home part, the
request stays as its sender has it until SHIP_END (R285). -/
def rxShipOffer (src : Nat) (tag : BitVec 32) (b : Bytes) (s : State) : State :=
  if !bodyOk b 0x68 [(0x33, 1), (0x3C, 4)] then badServe tag s
  else
    let handle := mfield b 0x20 8
    let id := mfield b 0x28 4
    let home := mfield b 0x30 2
    let n := mfield b 0x2C 2 * mfield b 0x2E 2
    let target := BitVec.ofNat 128 (mfield b 0x40 16)
    let draft := BitVec.ofNat 128 (mfield b 0x50 16)
    let digest := BitVec.ofNat 128 (mfield b 0x60 16)
    let answer := fun (mtype : Nat) (x : Bytes) (t : State) => sendMsg src 2 mtype tag (toLe 8 handle ++ toLe 4 id ++ x) t
    let refuse := fun (r : Nat) (t : State) => answer 3 (toLe 2 r ++ toLe 2 0) t
    let s := match s.findCtx home handle with
      | some i => if s.serve.ships.any (fun m => m.idx == i && !m.out) then abandonIn i s else s
      | none => s
    let old := s.findCtx home handle
    if (s.spreadCopy target).isNone || (draft != 0 && (s.spreadCopy draft).isNone) then refuse 3 s
    else if !((old.bind s.ctx).map Ctx.held).getD false && s.freeCtxs == 0 then refuse 1 s
    else
      let (fits, t) := roomFor n [] s
      if !fits then refuse 2 t
      else
        let take := fun (c : Ctx) => ({ c with
          begun := true, copy := s.spreadCopy target, draft := if draft = 0 then none else s.spreadCopy draft, committed := 0,
          dropped := none, order := s.serve.order } : Ctx)
        let put := fun (c : Ctx) => ({ take c with
          work := true, workAddr := some s.me, promptLen := mfield b 0x34 4, maxTokens := mfield b 0x38 4,
          prio := mfield b 0x32 1, budget := mfield b 0x80 8, meter := mfield b 0x78 8, meterAt := mfield b 0x78 8,
          seed := BitVec.ofNat 64 (mfield b 0x70 8), state := .shipping } : Ctx)
        let t := match old with
          | some i => updServe (fun x => { x with order := x.order + 1 }) (updCtx i (fun c => if c.home then take c else put c) t)
          | none => addCtx (put (remoteCtx home handle tag target draft digest s)) t
        match t.findCtx home handle with
        | none => t
        | some i =>
          let m : Ship := { idx := i, id := id, out := false, peer := src, st := .receiving, cols := mfield b 0x2C 2,
                            perCol := mfield b 0x2E 2, reserved := n }
          answer 2 (toLe 4 n ++ toLe 1 (t.profHeld digest).toNat ++ toLe 7 0)
            (updServe (fun x => { x with ships := x.ships ++ [m] }) t)

/-- The request of an answer to this part's shipment: the SHIP_ID in force, from the part it went to (R381). -/
def State.outShip (s : State) (src handle id : Nat) : Option Nat :=
  (s.serve.ships.find? (fun m => m.out && m.st != .refusedAll && m.peer == src && m.id == id &&
    ((s.ctx m.idx).map (·.handle)) == some handle)).map (·.idx)

/-- The request of a message of an arriving shipment. -/
def State.inShip (s : State) (src handle id : Nat) : Option Nat :=
  (s.serve.ships.find? (fun m => !m.out && m.peer == src && m.id == id && ((s.ctx m.idx).map (·.handle)) == some handle)).map (·.idx)

/-- SHIP_ACCEPT at the sender: token IDs, the profile where it is lacking, and the pages that are ready. -/
def rxShipAccept (src : Nat) (tag : BitVec 32) (b : Bytes) (s : State) : State :=
  if !bodyOk b 0x18 [(0x31, 7)] || 1 < mfield b 0x30 1 then badServe tag s
  else withCtx (s.outShip src (mfield b 0x20 8) (mfield b 0x28 4)) tag (fun i c t =>
    if ((t.ship i).map (·.st)) ≠ some .offered then t
    else
      let t := updShip i (fun m => { m with st := .sending }) t
      let t := sendTokenSegs { c with written := [] } src 2 8 t
      let t := if mfield b 0x30 1 = 0 ∧ c.profDigest ≠ 0 then sendProfile c src 2 9 t else t
      shipOn i t) s

/-- SHIP_REFUSE at the sender: the next member is tried (R290). -/
def rxShipRefuse (src : Nat) (tag : BitVec 32) (b : Bytes) (s : State) : State :=
  if !bodyOk b 0x10 [(0x2E, 2)] || mfield b 0x2C 2 = 0 || 3 < mfield b 0x2C 2 then badServe tag s
  else withCtx (s.outShip src (mfield b 0x20 8) (mfield b 0x28 4)) tag (fun i c t =>
    offerTo i (src :: ((t.ship i).map (·.refused)).getD []) (bump c.fn cShipRefused t)) s

/-- Put an arriving page into a reserved frame (R291). -/
def takePage (i : Nat) (c : Ctx) (h : ModelHdr) (draft coded : Bool) (layer col fill ngran : Nat) (data : Bytes) (s : State) : State :=
  let (l, t) := grantGrans ngran (s.ctxTag i) false s
  let t := writeGrans l (fit (4096 * ngran) data) t
  let f := t.kv.frames.fresh
  let sc := if coded || !h.hasScales then t.kv.scales
    else Tab.put t.kv.scales f (fit h.scaleBytes (data.drop (4096 * ngran)))
  updShip i (fun m => { m with pages := m.pages + 1, reserved := m.reserved - 1, partial_ := [] })
    (putPage (pageKey i draft layer col) { st := if fill = 64 then .sealed else .opened, fill := fill, frame := f }
      (updKv (fun v => { v with
        scales := sc,
        frames := Tab.put v.frames f { tag := s.ctxTag i, req := i, draft := draft, layer := layer, col := col,
                                       gmap := { coded := coded, map := v.freeMap, grans := l } } }) (updCtx i (fun _ => c) t)))

/-- SHIP_PAGE at the receiver. -/
def rxShipPage (src : Nat) (tag : BitVec 32) (b : Bytes) (s : State) : State :=
  let n := mfield b 0x3A 2
  let frags := mfield b 0x38 1
  let frag := mfield b 0x37 1
  let gf := mfield b 0x36 1
  let fill := mfield b 0x34 1
  if !bodyOk b (0x20 + n) [(0x39, 1), (0x3C, 4)] || n = 0 || 8128 < n || frags = 0 || 9 < frags || frags ≤ frag || 63 < gf ||
      16 < gf / 2 || 1 < mfield b 0x30 1 || fill = 0 || 64 < fill then badServe tag s
  else withCtx (s.inShip src (mfield b 0x20 8) (mfield b 0x28 4)) tag (fun i c t =>
    match t.ship i, (t.ctxModels c).find? (fun x => x.1 == (mfield b 0x30 1 == 1)) with
    | some m, some x =>
      let h := x.2
      let key := pageKey i x.1 (mfield b 0x31 1) (mfield b 0x32 2)
      if h.layers ≤ mfield b 0x31 1 ∨ m.cols ≤ mfield b 0x32 2 ∨ h.kvFmt ≠ mfield b 0x35 1 then badServe tag t
      else
        let all := (if frag = 0 then [] else m.partial_) ++ slice b 0x20 n
        if frag + 1 < frags then updShip i (fun m => { m with partial_ := all }) t
        else if (t.page key).st ≠ .absent ∨ m.reserved = 0 then t
        else takePage i c h x.1 (gf % 2 == 1) (mfield b 0x31 1) (mfield b 0x32 2) fill (gf / 2) all t
    | _, _ => t) s

/-- SHIP_END at the receiver: with every page there, the request decodes here; else the shipment is abandoned. A receiver that is the
home part writes the first token, unless a TOKENS message has brought it already. -/
def rxShipEnd (src : Nat) (tag : BitVec 32) (b : Bytes) (s : State) : State :=
  if !bodyOk b 0x28 [(0x34, 4)] then badServe tag s
  else withCtx (s.inShip src (mfield b 0x20 8) (mfield b 0x28 4)) tag (fun i c t =>
    match t.ship i with
    | none => t
    | some m =>
      if m.pages ≠ mfield b 0x2C 4 then abandonIn i (sendAbort c m 2 t)
      else
        let first := mfield b 0x30 4
        let t := updServe (fun x => { x with ships := x.ships.filter (fun y => y.idx != i) }) t
        let t := if c.home then homeTokens i 0 [first] (BitVec.ofNat 64 (mfield b 0x40 8)) t else t
        let t := updCtx i (fun c => (({ c with
          written := if c.written = [] then [first] else c.written, writtenLen := max 1 c.writtenLen, position := max 1 c.position,
          work := true, workAddr := some t.me, committed := c.promptLen, tFirst := BitVec.ofNat 64 (mfield b 0x40 8),
          meter := mfield b 0x38 8 + (if c.home then 0 else c.meter - c.meterAt) } : Ctx).moveTo .decode).replayed) t
        sendMsg src 2 6 tag (toLe 8 c.handle ++ toLe 4 m.id ++ toLe 4 m.pages) t) s

/-- SHIP_DONE at the sender: its pages of the request are freed, and its context where it is not the home part (R291). -/
def rxShipDone (src : Nat) (tag : BitVec 32) (b : Bytes) (s : State) : State :=
  if !bodyOk b 0x10 [] then badServe tag s
  else withCtx (s.outShip src (mfield b 0x20 8) (mfield b 0x28 4)) tag (fun i c t =>
    match t.ship i with
    | none => t
    | some m =>
      if m.st ≠ .waitDone then t
      else if m.pages ≠ mfield b 0x2C 4 then abandonOut i (sendAbort c m 2 t)
      else
        let t := freePages i (updServe (fun x => { x with ships := x.ships.filter (fun y => y.idx != i) }) t)
        freeProfiles (if c.home then updCtx i (fun c => { c with work := false, workAddr := some src, state := .decode }) t
          else updServe (fun x => { x with ctxs := Tab.erase x.ctxs i }) t)) s

/-- The receiver has ended a request that is shipped from here (R298): nothing is offered again, and a part that is not its home part
gives it up. -/
def endShipped (i : Nat) (c : Ctx) (reason : Nat) (s : State) : State :=
  let t := bump c.fn cShipAbandoned (unship i (updServe (fun x => { x with ships := x.ships.filter (fun m => m.idx != i) }) s))
  if c.home then t
  else freeProfiles (dropWork i (if reason = 4 then eCancelled else if reason = 5 then eLease else eFabric)
    (updCtx i (fun c => { c with state := .ended }) t))

/-- SHIP_ABORT, at either side (R292): with reasons 1 to 3 the sender offers again; the others mean that the request ends. -/
def rxShipAbort (src : Nat) (tag : BitVec 32) (b : Bytes) (s : State) : State :=
  let reason := mfield b 0x2C 2
  let handle := mfield b 0x20 8
  if !bodyOk b 0x10 [(0x2E, 2)] || reason = 0 || 6 < reason then badServe tag s
  else
    match s.outShip src handle (mfield b 0x28 4) with
    | some i => withCtx (some i) tag (fun i c t =>
        if reason ≤ 3 then abandonOut i t
        else endShipped i c reason t) s
    | none => withCtx (s.inShip src handle (mfield b 0x28 4)) tag (fun i _ t => abandonIn i t) s

end Sys2Proof.Machine
end

