-- ==== Sys2Proof/Machine/OpsWeights.lean ====
section
/-! DEFINITION. Weight streams, model images, placement, shares of a Rod-wide load and the steps of a load (05 R117, R118,
12 R260 to R277). -/

namespace Sys2Proof.Machine

/-! ## Streams (R117) -/

/-- Bytes of a chunk with its tag, at most. -/
abbrev chunkBytes : Nat := 65552

/-- Chunks of a stream of so many bytes. -/
def chunkCount (length : Nat) : Nat := (length - 64 + chunkBytes - 1) / chunkBytes

/-- The plaintext of a chunk, none where its tag fails. -/
def openChunk (key : BitVec 256) (nonce : BitVec 64) (id : BitVec 128) (i : Nat) (raw : Bytes) : Option Bytes :=
  let n := raw.length - 16
  Config.gcmOpen key (toLe 8 nonce.toNat ++ toLe 4 i) (toLe 16 id.toNat ++ toLe 4 i) (raw.take n) (raw.drop n)

/-! ## Model images (R260, R261) -/

/-- The header of a model image. -/
def modelHdr (b : Bytes) : ModelHdr :=
  { kvFmt := rd b 7 1, modelId := rdBV 128 b 8, layers := rd b 0x18 2, qHeads := rd b 0x1A 2, kvHeads := rd b 0x1C 1,
    dim := rd b 0x1D 1, rope := rd b 0x1E 1, freqs := rd b 0x1F 1, width := rd b 0x20 4, ffn := rd b 0x24 4, vocab := rd b 0x28 4,
    context := rd b 0x2C 4, tensors := rd b 0x30 4, tableOff := rd b 0x34 4, freqOff := rd b 0x38 4, plainLen := rd b 0x40 8,
    digest := rdBV 384 b 0x48 }

/-- The offset of the first header field that is out of its range (REASON 0x0003). -/
def headerFault (b : Bytes) (id : BitVec 128) : Option Nat :=
  let h := modelHdr b
  let no := fun (off : Nat) (ok : Bool) => if ok then none else some off
  [no 0 (rd b 0 4 == 0x444D5646), no 4 (rd b 4 2 == 1), no 6 (rd b 6 1 == 0), no 7 ([2, 3, 4, 7].contains h.kvFmt),
    no 8 (h.modelId == id), no 0x18 (decide (1 ≤ h.layers ∧ h.layers ≤ 255)),
    no 0x1A (decide (h.qHeads ≤ 256) && h.qHeads % (max h.kvHeads 1) == 0), no 0x1C (decide (1 ≤ h.kvHeads ∧ h.kvHeads ≤ 8)),
    no 0x1D (decide (1 ≤ h.dim ∧ h.dim ≤ 4)), no 0x1E (decide (h.rope < 4)),
    no 0x1F (h.freqs == if h.rope % 2 = 1 then 32 * h.dim else 0), no 0x28 (decide (1 ≤ h.vocab ∧ h.vocab ≤ 262144)),
    no 0x2C (decide (64 ≤ h.context ∧ h.context ≤ 131072) && h.context % 64 == 0), firstNonZero b 0x3C 4,
    firstNonZero b 0x78 0x88].findSome? (fun x => x)

/-- KV_HEADS × D × element bytes (R220). -/
def ModelHdr.pageRow (h : ModelHdr) : Nat := h.kvHeads * 64 * h.dim * (if h.kvFmt = 7 then 2 else 1)

/-- Where the header, the tensor table and the frequency table end. -/
def ModelHdr.metaEnd (h : ModelHdr) : Nat := max 256 (max (h.tableOff + 32 * h.tensors) (h.freqOff + 4 * h.freqs))

/-- Entry k of the tensor table. -/
def tensorAt (b : Bytes) (h : ModelHdr) (k : Nat) : Tensor :=
  let o := h.tableOff + 32 * k
  { role := rd b o 1, fmt := rd b (o + 1) 1, layer := rd b (o + 2) 1, rank := rd b (o + 3) 1, rows := rd b (o + 4) 4,
    cols := rd b (o + 8) 4, off := rd b (o + 0x10) 8, len := rd b (o + 0x18) 8 }

/-- The tensor table. -/
def tensorsOf (b : Bytes) (h : ModelHdr) : List Tensor := (List.range h.tensors).map (tensorAt b h)

/-- Roles of a layer, and of the model, that a decoder-only model needs; the output head may be absent. -/
def rolesMissing (h : ModelHdr) (ts : List Tensor) : Bool :=
  let has := fun (r l : Nat) => ts.any (fun t => t.role == r && t.layer == l)
  !has 0 0xFF || !has 10 0xFF ||
    (List.range h.layers).any (fun l => [1, 2, 3, 4, 5, 6, 7, 8, 9].any (fun r => !has r l))

/-- The entry of the tensor table that breaks R261, or the number of entries where a role is missing (REASON 0x0005). -/
def tableFault (b : Bytes) (h : ModelHdr) : Option Nat :=
  let ts := tensorsOf b h
  let bad := fun (e : Tensor × Nat) =>
    let t := e.1
    decide (11 < t.role ∨ t.off % 65536 ≠ 0 ∨ t.off < h.metaEnd ∨ h.plainLen < t.off + t.len ∨ 10 < t.fmt) ||
      (if t.role = 0 ∨ 10 ≤ t.role then t.layer != 0xFF else decide (h.layers ≤ t.layer)) ||
      rd b (h.tableOff + 32 * e.2 + 0xC) 4 != 0 ||
      ts.zipIdx.any (fun u => u.2 != e.2 && decide (u.1.off < t.off + t.len ∧ t.off < u.1.off + u.1.len))
  match ts.zipIdx.find? bad with
  | some e => some e.2
  | none => if rolesMissing h ts then some h.tensors else none

/-- The frequency table. -/
def freqOf (b : Bytes) (h : ModelHdr) : List (BitVec 32) := (List.range h.freqs).map (fun i => rdBV 32 b (h.freqOff + 4 * i))

/-! ## Placement (R265 to R267) -/

/-- 4 MiB units that hold so many bytes. -/
def unitsFor (n : Nat) : Nat := (n + unitBytes4M - 1) / unitBytes4M

/-- Tensors one after the other from an offset of the region on. -/
def placed : Nat → List Tensor → List Tensor
  | _, [] => []
  | o, t :: r => if t.tiered then t :: placed o r else { t with place := o } :: placed (o + t.len) r

/-- The staging region when the tensors of a list are tiered: twice the largest. -/
def stageFor (rest : List Tensor) : Nat := 2 * (rest.map (·.len)).foldl max 0

/-- Tensors in ascending RANK, and in table order within one RANK. -/
def byRank (ts : List Tensor) : List Tensor := ts.foldr (insertBy (fun a b => decide (a.rank ≤ b.rank))) []

/-- Units that Tiered placement needs with the first m tensors of an order resident (R267). -/
def tierNeed (order : List Tensor) (m : Nat) : Nat :=
  unitsFor (((order.take m).map (·.len)).sum + stageFor (order.drop m))

/-- The most tensors that fit Tiered (R267), and how many units they and the staging region take. -/
def tierFit (ts : List Tensor) (headroom : Nat) : Option (List Tensor × Nat) :=
  let order := byRank ts
  ((List.range (ts.length + 1)).reverse.find? (fun m => decide (tierNeed order m ≤ headroom))).map (fun m =>
    (order.take m, tierNeed order m))

/-- The fewest units with which some Tiered placement fits. -/
def tierLeast (ts : List Tensor) : Nat :=
  (List.range (ts.length + 1)).foldl (fun a m => min a (tierNeed (byRank ts) m)) (unitsFor ((ts.map (·.len)).sum))

/-! ## Shares of a shard group (R276) -/

/-- The byte ranges of the image that member `place` of S holds of a tensor: Q, K, V, gate, up, the embedding and the output head
by rows, O and down by columns, norms whole. A row is LENGTH ÷ ROWS bytes (log 42). -/
def Tensor.share (t : Tensor) (n place : Nat) : List (Nat × Nat) :=
  let row := t.len / max t.rows 1
  let cut := fun (x : Nat) => (place * x / n, (place + 1) * x / n)
  if n ≤ 1 ∨ t.role = 8 ∨ t.role = 9 ∨ t.role = 10 then [(t.off, t.len)]
  else if t.role = 4 ∨ t.role = 7 then
    let c := cut row
    (List.range t.rows).map (fun r => (t.off + r * row + c.1, c.2 - c.1))
  else
    let c := cut t.rows
    [(t.off + c.1 * row, (c.2 - c.1) * row)]

/-- Bytes of a share of a tensor. -/
def Tensor.shareLen (t : Tensor) (n place : Nat) : Nat := ((t.share n place).map (·.2)).sum

/-- Tensors of a share, each with its place in the share's region and its bytes there. -/
def shareTensors (n place : Nat) : Nat → List Tensor → List Tensor
  | _, [] => []
  | o, t :: r => { t with place := o } :: shareTensors n place (o + t.shareLen n place) r

/-- Units of a share. -/
def shareUnits (ts : List Tensor) (n place : Nat) : Nat := unitsFor ((ts.map (fun t => t.shareLen n place)).sum)

/-- A member needs a chunk: one below the first tensor, or one that holds a byte of its share. -/
def holdsChunk (h : ModelHdr) (ts : List Tensor) (n place c : Nat) : Bool :=
  decide (65536 * c < h.metaEnd) ||
    ts.any (fun t => (t.share n place).any (fun r => decide (0 < r.2 ∧ r.1 < 65536 * (c + 1) ∧ 65536 * c < r.1 + r.2)))

/-! ## Regions -/

/-- Bytes written at an offset of a region of units. -/
def regionWrite (units : List Nat) (off : Nat) (b : Bytes) (s : State) : State :=
  forEach b.zipIdx (fun (v, i) t => match units[(off + i) / unitBytes4M]? with
    | some u =>
      let a := u * unitBytes4M + (off + i) % unitBytes4M
      let g := Tab.get (a / 4096) t.store.lent (a / 4096)
      store (4096 * g + a % 4096) [v] t
    | none => t) s

/-- Bytes of a region. -/
def regionRead (units : List Nat) (off n : Nat) (s : State) : Bytes :=
  (List.range n).map (fun i => match units[(off + i) / unitBytes4M]? with
    | some u =>
      let a := u * unitBytes4M + (off + i) % unitBytes4M
      memGet s.mem (4096 * Tab.get (a / 4096) s.store.lent (a / 4096) + a % 4096)
    | none => 0#8)

/-- The bytes of a chunk of the image that a copy holds resident: offset in its region, offset in the chunk, and how many. -/
def Copy.pieces (c : Copy) (chunk : Nat) : List (Nat × Nat × Nat) :=
  (c.tensors.filter (fun t => !t.tiered)).flatMap (fun t =>
    ((t.share (max c.shard 1) c.place).foldl (fun (a : Nat × List (Nat × Nat × Nat)) r =>
      let lo := max r.1 (65536 * chunk)
      let hi := min (r.1 + r.2) (65536 * (chunk + 1))
      (a.1 + r.2, if lo < hi then a.2 ++ [(t.place + a.1 + (lo - r.1), lo - 65536 * chunk, hi - lo)] else a.2)) (0, [])).2)

/-- Write what a copy holds resident of a chunk (R263, R276). -/
def writeChunk (k chunk : Nat) (plain : Bytes) (s : State) : State :=
  match s.copy k with
  | none => s
  | some c => forEach (c.pieces chunk) (fun p t => regionWrite c.units p.1 (slice plain p.2.1 p.2.2) t) s

/-! ## The end of a load (R262, R263, R271) -/

/-- RESULT of a load: REASON, DETAIL and FLAGS. -/
def loadResult (reason detail flags : Nat) : BitVec 320 := result [(0, 2, reason), (4, 4, detail), (8, 1, flags)]

/-- Complete a load's command. -/
def completeLoad (l : Load) (st : Status) (h : Nat) (r : BitVec 320) (s : State) : State :=
  let e : Cqe := { kind := 0, status := st, tag := l.tag, handle := BitVec.ofNat 64 h, result := r, retry := retryOf st s,
                   opcode := match l.kind with | .model => opModelLoad | .adapter _ => opAdapterLoad }
  tookFree (complete l.fn l.q e s)

/-- A load fails: everything granted for it is freed. -/
def failLoad (l : Load) (st : Status) (reason detail : Nat) (s : State) : State :=
  completeLoad l st 0 (loadResult reason detail 0) (dropLoad l s)

/-- Issue a handle to a copy. -/
def handleTo (l : Load) (k : Nat) (attached : Bool) (s : State) : State :=
  let (h, t) := issue l.fn kModel (Tab.keys s.serve.models) s
  let t := updServe (fun x => { x with
    loads := x.loads.erase l, models := Tab.put x.models h { fn := l.fn, copy := k, attached := attached, key := l.keyHandle } }) t
  completeLoad l stOk h (loadResult 0 0 attached.toNat) (freeDma l.dma t)

/-- Replace a load. -/
def putLoad (l m : Load) (s : State) : State :=
  updServe (fun x => { x with loads := x.loads.map (fun y => if y = l then m else y) }) s

/-- Change a copy. -/
def updCopy (k : Nat) (g : Copy → Copy) (s : State) : State :=
  updServe (fun x => match Tab.find x.copies k with
    | none => x
    | some c => { x with copies := Tab.put x.copies k (g c) }) s

/-- The copy that a load may attach to (R271): Strict, with the same header bytes and the same SHARE and SPREAD. -/
def State.attachable (s : State) (l : Load) : Option (Nat × Copy) :=
  if !l.share && l.tier then none
  else s.serve.copies.find? (fun e => e.2.strict && e.2.raw == l.plain.take 256 && e.2.share == l.share && e.2.spread == l.spread &&
    e.2.state != .unloading)

/-! ## Placement of a load -/

/-- The copy that a load makes. -/
def copyFor (l : Load) (ts : List Tensor) (strict : Bool) (units : List Nat) (n place : Nat) (rod : Option (Nat × Nat)) : Copy :=
  let h := modelHdr l.plain
  { hdr := h, raw := l.plain.take 256, freq := freqOf l.plain h, tensors := ts, share := l.share, spread := l.spread, strict := strict,
    state := .loading, loader := l.fn, key := l.keyHandle, src := l.src, nonce := l.nonce, ckey := l.key, units := units,
    hbmBytes := ((ts.filter (fun t => !t.tiered)).map (fun t => t.shareLen n place)).sum,
    tierBytes := ((ts.filter (·.tiered)).map (·.len)).sum, stageBytes := stageFor (ts.filter (·.tiered)), shard := n, place := place,
    rodId := rod }

/-- A function's handle names a copy that is not being unloaded (R280). -/
def State.modelLive (s : State) (h : Nat) : Bool :=
  ((Tab.find s.serve.models h).map (fun m => (s.copy m.copy).all (fun c => c.state != .unloading))).getD false

/-- Put a new copy: its number. -/
def addCopy (c : Copy) (s : State) : Nat × State :=
  let k := s.serve.nextCopy
  (k, updServe (fun x => { x with nextCopy := k + 1, copies := Tab.put x.copies k c }) s)

/-- How a placement comes out: refused with REASON, status and DETAIL; waiting for pinned columns; or done. -/
inductive Placing where
  | refused (st : Status) (reason detail : Nat)
  | waits (s : State)
  | done (l : Load) (s : State)

/-- Place a model on this part alone (R266, R267). -/
def placeHere (l : Load) (s : State) : Placing :=
  let h := modelHdr l.plain
  let ts := tensorsOf l.plain h
  let strict := l.share || !l.tier
  let owner := s.tagOf agSch l.fn
  let need := unitsFor ((ts.map (·.len)).sum)
  let fit := if strict then (if need ≤ s.headroom then some (ts, need) else none) else tierFit ts s.headroom
  match fit with
  | none => .refused eNoMem 7 ((if strict then need else tierLeast ts) - s.headroom)
  | some (keep, n) =>
    let ts := placed 0 (ts.map (fun t => { t with tiered := !keep.contains t }))
    match grantUnits .weight owner n s with
    | .short => .refused eNoMem 7 (n - s.headroom)
    | .waits t => .waits t
    | .got us t =>
      let (k, t) := addCopy (copyFor l ts strict us 0 0 none) t
      .done { l with copy := k, units := us } t

/-- The pools of the Rod: each with its members in ascending address. -/
def State.pools (s : State) : List (List Nat) :=
  let keys := ((s.rod.filter (fun e => e.2.role != 0)).map (fun e => (e.2.pool, e.2.role))).dedup
  keys.map (fun k => (s.rod.filter (fun e => e.2.pool == k.1 && e.2.role == k.2)).map (·.1))

/-- The shard group size of a pool (R276), none where 1, 2 and 4 all fail. Whether a share fits another member is not known here;
it is a free value (log 43). -/
def State.groupSize (s : State) (h : ModelHdr) (ts : List Tensor) (pool : List Nat) (no : Nat) : Option Nat :=
  [1, 2, 4].find? (fun n => pool.length % n == 0 && h.kvHeads % n == 0 &&
    pool.zipIdx.all (fun e => if e.1 = s.me then decide (shareUnits ts n (e.2 % n) ≤ s.headroom)
      else Config.freeNat (s.free + 64 * no + 8 * n + e.2) % 2 == 1))

/-- Place a model on every member of every pool (R276): each is told its place, and this part takes its own share. -/
def placeRod (l : Load) (s : State) : Placing :=
  let h := modelHdr l.plain
  let ts := tensorsOf l.plain h
  let sized := s.pools.zipIdx.map (fun e => (e.1, s.groupSize h ts e.1 e.2))
  let s := { s with free := s.free + 64 * 64 }
  if sized.any (fun e => e.2.isNone) then .refused eNoMem 7 (shareUnits ts 1 0 - s.headroom)
  else
    let all := (sized.map (fun e => e.1.zipIdx.map (fun m => (m.1, e.2.getD 1, m.2 % e.2.getD 1)))).flatten
    let others := all.filter (fun m => m.1 != s.me)
    let id := s.serve.nextRod % 2 ^ 32
    let mine := all.find? (fun m => m.1 == s.me)
    let n := (mine.map (·.2.1)).getD 0
    let place := (mine.map (·.2.2)).getD 0
    let want := if mine.isNone then 0 else shareUnits ts n place
    match grantUnits .weight (s.tagOf agSch l.fn) want s with
    | .short => .refused eNoMem 7 (want - s.headroom)
    | .waits t => .waits t
    | .got us t =>
      let own := if mine.isNone then [] else shareTensors n place 0 ts
      let (k, t) := addCopy (copyFor l own true us n place (some (s.me, id))) t
      let t := updServe (fun x => { x with nextRod := x.nextRod + 1 }) t
      let t := forEach others (fun m t => sendMsg m.1 3 1 (t.tagOf agSch l.fn).word
        (toLe 4 id ++ toLe 1 m.2.1 ++ toLe 1 m.2.2 ++ toLe 2 0 ++ toLe 16 h.modelId.toNat ++ toLe 4 (chunkCount l.length) ++ toLe 4 0) t) t
      .done { l with copy := k, units := us, rod := some (id, others, others.map (·.1)) } t

/-- Forward a chunk to the members that hold it (R276). -/
def forwardChunk (l : Load) (c : Nat) (plain : Bytes) (s : State) : State :=
  match l.rod with
  | none => s
  | some (id, members, _) =>
    let h := modelHdr l.plain
    let ts := tensorsOf l.plain h
    let n := (plain.length + 8127) / 8128
    forEach (members.filter (fun m => c == 0 || holdsChunk h ts m.2.1 m.2.2 c)) (fun m t =>
      forEach (List.range n) (fun i t =>
        let part := slice plain (8128 * i) 8128
        sendMsg m.1 3 2 (t.tagOf agSch l.fn).word
          (toLe 4 id ++ toLe 4 c ++ toLe 16 h.modelId.toNat ++ toLe 1 i ++ toLe 1 n ++ toLe 2 part.length ++ toLe 4 0 ++ part) t) t) s

/-- LOAD_END to the members of a Rod-wide load. -/
def sendLoadEnd (f id : Nat) (members : List Nat) (keep : Bool) (s : State) : State :=
  forEach members (fun m t => sendMsg m 3 4 (t.tagOf agSch f).word (toLe 4 id ++ toLe 1 keep.toNat ++ toLe 3 0) t) s

/-! ## The steps of a load (R263) -/

/-- LENGTH of the stream of a model image of so many bytes (R117, R261). -/
def streamLength (plain : Nat) : Nat := 64 + plain + 16 * ((plain + 65535) / 65536)

/-- The load fails with everything of the stream's contents checked in order: REASON, status and DETAIL. -/
def modelFault (l : Load) : Option (Nat × Nat) :=
  let b := l.plain
  let h := modelHdr b
  if b.length < 256 then some (3, b.length)
  else if rd b 0 4 = 0x444D5646 ∧ l.length ≠ streamLength h.plainLen then some (1, 0)
  else match headerFault b l.modelId with
    | some d => some (3, d)
    | none =>
      if 512 < h.pageRow then some (4, h.pageRow)
      else if h.plainLen < h.metaEnd then some (5, 0)
      else if b.length < h.metaEnd then none
      else (tableFault b h).map (fun d => (5, d))

/-- The stream has been read and its tensors written: it is checked, the copy is READY and the handle goes out, unless members of a
Rod-wide load have still to report (R263, R277). -/
def finishModel (l : Load) (s : State) : State :=
  let h := modelHdr l.plain
  if h.plainLen ≠ l.plain.length then failLoad l eSig 1 (chunkCount l.length - 1) s
  else if (Config.sha384 (l.plain.drop 0x100)).toNat ≠ h.digest.toNat then failLoad l eSig 6 0 s
  else
    match l.rod with
    | some (_, _, _ :: _) => s
    | r =>
      let t := match r with
        | some (id, ms, _) => sendLoadEnd l.fn id (ms.map (·.1)) true s
        | none => s
      poolChanged (handleTo l l.copy false (updCopy l.copy (fun c => { c with state := if c.state = .damaged then .damaged else .ready }) t))

/-- A chunk of a placed load goes where it belongs: this part's own place, and the members that hold it. -/
def spendChunk (l : Load) (c : Nat) (plain : Bytes) (s : State) : State := forwardChunk l c plain (writeChunk l.copy c plain s)

/-- Go on with a model load after its plaintext has grown: attach, place, write, forward, finish (R263). The second answer is false
where the grant of its units must wait. -/
def modelStep (l : Load) (s : State) : State × Bool :=
  match modelFault l with
  | some (r, d) => (failLoad l eSig r d s, true)
  | none =>
    let all := decide (chunkCount l.length ≤ l.next)
    let h := modelHdr l.plain
    if l.copy ≠ 0 then (if all then finishModel l s else s, true)
    else if l.plain.length < h.metaEnd then (if all then failLoad l eSig 5 0 s else s, true)
    else match s.attachable l with
      | some (k, c) => (if c.state ≠ .loading then handleTo l k true s else putLoad l { l with waits := some k } s, true)
      | none =>
        match (if l.spread then placeRod l s else placeHere l s) with
        | .refused st r d => (failLoad l st r d s, true)
        | .waits t => (t, false)
        | .done m t =>
          let m := { m with waits := none }
          let t := putLoad l m t
          let t := forEach (List.range m.next) (fun c t => spendChunk m c (slice m.plain (65536 * c) 65536) t) t
          (if all then finishModel m t else t, true)

/-- Loads that waited for a copy go on once it is READY or gone (R271). -/
def resumeLoads (s : State) : State :=
  forEach s.serve.loads (fun l t =>
    match l.waits with
    | none => t
    | some k => match t.copy k with
      | some c => if c.state ≠ .loading then handleTo l k true t else t
      | none =>
        let m := { l with waits := none }
        (modelStep m (putLoad l m t)).1) s

/-! ## Adapters (R274, R275) -/

/-- Bytes of an adapted tensor's A and B. -/
def adapterBytes (r fmt : Nat) (t : Tensor) : Nat :=
  let n := r * t.cols + t.rows * r
  if fmt = 7 then 2 * n else n + n / 32

/-- REASON and DETAIL of an adapter that is refused, none where it fits its model. -/
def adapterFault (b : Bytes) (c : Copy) : Option (Nat × Nat) :=
  let n := rd b 0x2C 4
  let r := rd b 6 1
  let no := fun (off : Nat) (ok : Bool) => if ok then none else some off
  let header := [no 0 (rd b 0 4 == 0x44415646), no 4 (rd b 4 2 == 1), no 6 ([8, 16, 32, 64].contains r),
    no 7 (rd b 7 1 == 3 || rd b 7 1 == 7), no 0x2C (decide (1 ≤ n ∧ n ≤ 7 * c.hdr.layers)), firstNonZero b 0x30 16].findSome? id
  match (if b.length < 64 then some b.length else header) with
  | some d => some (3, d)
  | none =>
    let entryBad := fun (k : Nat) =>
      let o := 64 + 16 * k
      !allZero (slice b (o + 2) 6) || rd b (o + 8) 8 % 65536 != 0 || decide (rd b (o + 8) 8 < 64 + 16 * n)
    match (List.range n).find? entryBad with
    | some k => some (5, k)
    | none =>
    if rdBV 128 b 8 ≠ c.hdr.modelId ∨ rdBV 128 b 0x18 ≠ BitVec.ofNat 128 c.hdr.digest.toNat then some (9, 0xFFFFFFFF)
    else (List.range n).findSome? (fun k =>
      let o := 64 + 16 * k
      let role := rd b o 1
      match c.tensors.find? (fun t => t.role == role && t.layer == rd b (o + 1) 1 && decide (1 ≤ role ∧ role ≤ 7)) with
      | none => some (9, k)
      | some t =>
        if b.length < rd b (o + 8) 8 + adapterBytes r (rd b 7 1) t then some (5, k) else none)

/-- Finish an adapter load; the second answer is false where the grant must wait. -/
def finishAdapter (l : Load) (model : Nat) (s : State) : State × Bool :=
  match (Tab.find s.serve.models model).bind (fun m => (s.copy m.copy).map (fun c => (m.copy, c))) with
  | none => (failLoad l eSig 9 0xFFFFFFFF s, true)
  | some (k, c) =>
    match adapterFault l.plain c with
    | some (r, d) => (failLoad l eSig r d s, true)
    | none =>
      let b := l.plain
      let n := rd b 0x2C 4
      let entries := (List.range n).map (fun i =>
        let o := 64 + 16 * i
        (rd b o 1, rd b (o + 1) 1, rd b (o + 8) 8))
      let size := fun (e : Nat × Nat × Nat) =>
        ((c.tensors.find? (fun t => t.role == e.1 && t.layer == e.2.1)).map (adapterBytes (rd b 6 1) (rd b 7 1))).getD 0
      let total := (entries.map size).sum
      match grantUnits .adapter (s.tagOf agSch l.fn) (unitsFor total) s with
      | .short => (failLoad l eNoMem 7 (unitsFor total - s.headroom) s, true)
      | .waits t => (t, false)
      | .got us t =>
        let t := regionWrite us 0 ((entries.map (fun e => slice b e.2.2 (size e))).flatten) t
        let (h, t) := issue l.fn kAdapter (Tab.keys t.serve.adapters) t
        let a : Adapter := { fn := l.fn, model := model, copy := k, rank := rd b 6 1, fmt := rd b 7 1, alpha := rdBV 32 b 0x28,
                             baseId := c.hdr.modelId, entries := entries, units := us, bytes := total, key := l.keyHandle }
        let t := freeDma l.dma (updServe (fun x => { x with loads := x.loads.erase l, adapters := Tab.put x.adapters h a }) t)
        (completeLoad l stOk h (loadResult 0 0 0) t, true)

/-! ## The member's side of a Rod-wide load (R276, R277) -/

/-- Change a Rod-wide load that this part takes part in. -/
def updRod (id src : Nat) (g : RodLoad → RodLoad) (s : State) : State :=
  updServe (fun x => { x with rod := x.rod.map (fun r => if r.id = id ∧ r.loader = src then g r else r) }) s

/-- LOAD_STATUS to the loading part. -/
def reportLoad (r : RodLoad) (st : Status) (reason chunks : Nat) (s : State) : State :=
  updRod r.id r.loader (fun x => { x with reported := true })
    (sendMsg r.loader 3 3 (s.tagOf agSch 0).word (toLe 4 r.id ++ toLe 2 st.toNat ++ toLe 2 reason ++ toLe 4 chunks) s)

/-- The chunks received so far, put together as the image. -/
def RodLoad.image (r : RodLoad) (off n : Nat) : Bytes :=
  (List.range n).map (fun i => ((Tab.find r.got ((off + i) / 65536)).getD []).getD ((off + i) % 65536) 0#8)

/-- A member goes on with a Rod-wide load, with the chunk that has just arrived: once the tables are here its share is granted, each
chunk is written, and the last one is reported. -/
def memberStep (new : Option Nat) (r : RodLoad) (s : State) : State :=
  if r.reported ∨ !Tab.has r.got 0 then s
  else
    let h := modelHdr (r.image 0 256)
    let tables := (List.range ((h.metaEnd + 65535) / 65536)).all (Tab.has r.got)
    if !tables then s
    else
      let b := r.image 0 h.metaEnd
      let ts := tensorsOf b h
      let ready := fun (k : Nat) (chunks : List Nat) (t : State) =>
        let t := forEach chunks (fun c t => writeChunk k c ((Tab.find r.got c).getD []) t) t
        if (t.copy k).isSome && (List.range r.chunks).all (fun c => !holdsChunk h ts r.shard r.place c || Tab.has r.got c) then
          reportLoad { r with copy := some k } stOk 0 r.got.length t
        else t
      match r.copy with
      | some k => ready k new.toList s
      | none =>
        let own := shareTensors r.shard r.place 0 ts
        match grantUnits .weight (s.tagOf agSch 0) (shareUnits ts r.shard r.place) s with
        | .short => reportLoad r eNoMem 7 r.got.length s
        | .waits t => t
        | .got us t =>
          let c : Copy := { hdr := h, raw := b.take 256, freq := freqOf b h, tensors := own, share := true, spread := true, strict := true,
                            state := .loading, loader := 0, key := 0, src := 0, nonce := 0, ckey := 0, units := us,
                            hbmBytes := (own.map (fun t => t.shareLen r.shard r.place)).sum, tierBytes := 0, stageBytes := 0,
                            shard := r.shard, place := r.place, rodId := some (r.loader, r.id), member := true }
          let (k, t) := addCopy c t
          ready k (Tab.keys r.got) (updRod r.id r.loader (fun x => { x with copy := some k }) t)

end Sys2Proof.Machine
end

