-- ==== Sys2Proof/Machine/OpsRod.lean ====
section
/-! DEFINITION. What the destination of a weight distribution message does with it (18 R382), lost chunks of weights and their
repair (12 R279). -/

namespace Sys2Proof.Machine

/-! ## Rod-wide loads (R276, R277) -/

/-- LOAD_BEGIN at a member. -/
def rxLoadBegin (src : Nat) (b : Bytes) (s : State) : State :=
  let n := mfield b 0x24 1
  let place := mfield b 0x25 1
  if !bodyOk b 0x20 [(0x26, 2), (0x3C, 4)] || !([1, 2, 4].contains n) || n ≤ place then badFab s
  else updServe (fun x => { x with
    rod := x.rod.filter (fun r => !(r.id == mfield b 0x20 4 && r.loader == src)) ++
      [{ id := mfield b 0x20 4, loader := src, modelId := BitVec.ofNat 128 (mfield b 0x28 16), shard := n, place := place,
         chunks := mfield b 0x38 4 }] }) s

/-- The fields of WEIGHT_CHUNK and REPAIR_DATA are in their ranges. -/
def chunkMsgOk (b : Bytes) : Bool :=
  let n := mfield b 0x3A 2
  bodyOk b (0x20 + n) [(0x3C, 4)] && decide (1 ≤ n ∧ n ≤ 8128 ∧ mfield b 0x38 1 < mfield b 0x39 1 ∧ mfield b 0x39 1 ≤ 9)

/-- WEIGHT_CHUNK at a member: fragments are put together, and the load goes on with each chunk. -/
def rxWeightChunk (src : Nat) (b : Bytes) (s : State) : State :=
  if !chunkMsgOk b then badFab s
  else
    let id := mfield b 0x20 4
    match s.serve.rod.find? (fun r => r.id == id && r.loader == src && r.modelId == BitVec.ofNat 128 (mfield b 0x28 16)) with
    | none => s
    | some r =>
      let frag := mfield b 0x38 1
      let all := (if frag = 0 then [] else r.partial_) ++ slice b 0x20 (mfield b 0x3A 2)
      if frag + 1 < mfield b 0x39 1 then updRod id src (fun r => { r with partial_ := all }) s
      else
        let m := { r with got := Tab.put r.got (mfield b 0x24 4) all, partial_ := [] }
        memberStep (some (mfield b 0x24 4)) m (updRod id src (fun _ => m) s)

/-- LOAD_STATUS at the loading part: a failure ends the load on every part. -/
def rxLoadStatus (src : Nat) (b : Bytes) (s : State) : State :=
  if !bodyOk b 0x0C [] then badFab s
  else
    match s.serve.loads.find? (fun l => (l.rod.map (·.1)) == some (mfield b 0x20 4)) with
    | none => s
    | some l =>
      match l.rod with
      | none => s
      | some (id, ms, left) =>
        if !left.contains src then s
        else if mfield b 0x24 2 ≠ 0 then resumeLoads (failLoad l eFabric 8 src s)
        else
          let m := { l with rod := some (id, ms, left.filter (· != src)) }
          let t := putLoad l m s
          if m.read then resumeLoads (finishModel m t) else t

/-- A member of a Rod-wide load has left before its completion, whether or not it has reported (R277). -/
def loadsLost (s : State) : State :=
  forEach s.serve.loads (fun l t =>
    match l.rod with
    | none => t
    | some (_, ms, _) => match ms.find? (fun m => !t.rodMembers.contains m.1) with
      | some m => resumeLoads (failLoad l eFabric 8 m.1 t)
      | none => t) s

/-- LOAD_END at a member: the share is kept or discarded; the same message ends the copy when the loading PF unloads it
(log 44). -/
def rxLoadEnd (src : Nat) (b : Bytes) (s : State) : State :=
  if !bodyOk b 0x08 [(0x25, 3)] || 1 < mfield b 0x24 1 then badFab s
  else
    let id := mfield b 0x20 4
    let mine := (s.serve.copies.find? (fun e => e.2.rodId == some (src, id))).map (·.1)
    let t := updServe (fun x => { x with rod := x.rod.filter (fun r => !(r.id == id && r.loader == src)) }) s
    match mine with
    | none => t
    | some k =>
      if mfield b 0x24 1 = 1 then resumeLoads (poolChanged (updCopy k (fun c => { c with state := if c.state = .damaged then .damaged else .ready }) t))
      else resumeLoads (poolChanged (dropCopy k t))

/-! ## Lost chunks (R279) -/

/-- A copy is DAMAGED: its live requests end E_EVICTED. -/
def damageCopy (k : Nat) (s : State) : State :=
  let t := updServe (fun x => { x with repairs := x.repairs.filter (·.copy != k) })
    (updCopy k (fun c => { c with state := if c.state = .unloading then .unloading else .damaged }) s)
  let t := forEach (t.serve.ctxs.filter (fun e => (e.2.work || t.serve.ships.any (fun m => m.idx == e.1 && !m.out)) &&
    (e.2.copy == some k || e.2.draft == some k))) (fun e t =>
    endRequest e.1 eEvicted t) t
  poolChanged t

/-- A part that was to repair a chunk has left the Rod, so the model is DAMAGED. -/
def repairsLost (s : State) : State :=
  forEach s.serve.repairs (fun r t => if t.rodMembers.contains r.peer then t else damageCopy r.copy t) s

/-- The chunk of the image that a byte of a copy's region belongs to. -/
def Copy.chunkAt (c : Copy) (x : Nat) : Option Nat :=
  match c.tensors.find? (fun t => !t.tiered && decide (t.place ≤ x ∧ x < t.place + t.shareLen (max c.shard 1) c.place)) with
  | none => none
  | some t =>
    let at_ := (t.share (max c.shard 1) c.place).foldl (fun (a : Nat × Option Nat) r =>
      match a.2 with
      | some _ => a
      | none => if a.1 < r.2 then (a.1, some (r.1 + a.1)) else (a.1 - r.2, none)) (x - t.place, none)
    at_.2.map (· / 65536)

/-- A copy of n shares, in a part at a place, holds every byte of a chunk that copy c holds: a full copy holds them all. -/
def Copy.heldBy (c : Copy) (chunk n place : Nat) : Bool :=
  (c.tensors.filter (fun t => !t.tiered)).all (fun t =>
    ((t.share (max c.shard 1) c.place).filter (fun r => decide (r.1 < 65536 * (chunk + 1) ∧ 65536 * chunk < r.1 + r.2))).all (fun r =>
      (t.share (max n 1) place).any (fun x =>
        decide (x.1 ≤ max r.1 (65536 * chunk) ∧ min (r.1 + r.2) (65536 * (chunk + 1)) ≤ x.1 + x.2))))

/-- A chunk of a copy is lost: another copy in the Rod is asked for it, or the model is DAMAGED (R279). -/
def loseChunk (k chunk : Nat) (s : State) : State :=
  match s.copy k with
  | none => s
  | some c =>
    if c.lost.contains chunk then s
    else
      let t := updCopy k (fun c => { c with lost := c.lost ++ [chunk] }) s
      let id := c.hdr.modelId
      match t.rod.find? (fun e => e.1 != t.fab.addr && e.2.copies.any (fun y => y.1 == id && c.heldBy chunk y.2.1 y.2.2.1 && y.2.2.2 == 1)) with
      | none => damageCopy k t
      | some e =>
        sendMsg e.1 3 5 (t.tagOf agSch c.loader).word
          (toLe 16 id.toNat ++ toLe 16 c.hdr.digest.toNat ++ toLe 4 chunk ++ toLe 4 0)
          (updServe (fun x => { x with repairs := x.repairs ++ [{ copy := k, chunk := chunk, peer := e.1 }] }) t)

/-- REPAIR_REQ at a part with another copy: the chunk as this copy holds it. -/
def rxRepairReq (src : Nat) (b : Bytes) (s : State) : State :=
  if !bodyOk b 0x28 [(0x44, 4)] then badFab s
  else
    let id := BitVec.ofNat 128 (mfield b 0x20 16)
    let chunk := mfield b 0x40 4
    match s.serve.copies.find? (fun e => e.2.hdr.modelId == id && BitVec.ofNat 128 e.2.hdr.digest.toNat == BitVec.ofNat 128 (mfield b 0x30 16) &&
        e.2.state == .ready && !e.2.lost.contains chunk) with
    | none => s
    | some e =>
      let data := (e.2.pieces chunk).foldl (fun (d : Bytes) p =>
        d.take p.2.1 ++ regionRead e.2.units p.1 p.2.2 s ++ d.drop (p.2.1 + p.2.2)) (List.replicate 65536 0#8)
      forEach (List.range 9) (fun i t =>
        let part := slice data (8128 * i) 8128
        sendMsg src 3 6 (t.tagOf agSch e.2.loader).word
          (toLe 4 0 ++ toLe 4 chunk ++ toLe 16 id.toNat ++ toLe 1 i ++ toLe 1 9 ++ toLe 2 part.length ++ toLe 4 0 ++ part) t) s

/-- Every retired granule of a copy that has no replacement gets a fresh one. -/
def lendGrans (k : Nat) (s : State) : State :=
  match s.copy k with
  | none => s
  | some c =>
    let lost := s.store.retired.filter (fun g => c.units.contains (g / 1024) && !Tab.has s.store.lent g)
    forEach lost (fun g t =>
      let (l, t) := grantGrans 1 (t.tagOf agSch c.loader) true t
      match l with
      | [] => t
      | g' :: _ => updStore (fun x => { x with lent := Tab.put x.lent g g' }) { t with mem := memWrite t.mem (4096 * g') (memRead t.mem (4096 * g) 4096) }) s

/-- REPAIR_DATA: with the last fragment the chunk is written into a fresh granule. -/
def rxRepairData (b : Bytes) (s : State) : State :=
  if !chunkMsgOk b || mfield b 0x20 4 != 0 then badFab s
  else
    let chunk := mfield b 0x24 4
    match s.serve.repairs.find? (fun r => r.chunk == chunk &&
        ((s.copy r.copy).map (·.hdr.modelId)) == some (BitVec.ofNat 128 (mfield b 0x28 16))) with
    | none => s
    | some r =>
      let frag := mfield b 0x38 1
      let all := (if frag = 0 then [] else r.got) ++ slice b 0x20 (mfield b 0x3A 2)
      if frag + 1 < mfield b 0x39 1 then
        updServe (fun x => { x with repairs := x.repairs.map (fun y => if y = r then { r with got := all } else y) }) s
      else
        let t := updServe (fun x => { x with repairs := x.repairs.erase r }) (lendGrans r.copy s)
        match t.copy r.copy with
        | none => t
        | some c =>
          let t := writeChunk r.copy chunk all t
          bump c.loader cWeightRepaired (updCopy r.copy (fun c => { c with lost := c.lost.filter (· != chunk) }) t)

/-- REDUCE and GATHER: what a member of the shard group contributes to the running step. -/
def rxPartial (reduce : Bool) (src : Nat) (b : Bytes) (s : State) : State :=
  let ok := if reduce then
      bodyOk b 0x20 [(0x29, 1), (0x34, 12)] && (mfield b 0x25 1 == 4 || mfield b 0x25 1 == 7) &&
        decide (mfield b 0x27 1 < mfield b 0x28 1)
    else bodyOk b (0x20 + 4 * mfield b 0x2C 4) [(0x31, 15)] && decide (1 ≤ mfield b 0x2C 4 ∧ mfield b 0x2C 4 ≤ 2032)
  if !ok then badFab s
  else if s.serve.step.isNone then s
  else updServe (fun x => { x with sums := x.sums ++ [{ reduce := reduce, src := src, body := b }] }) s

end Sys2Proof.Machine
end

