-- ==== Sys2Proof/Machine/Hbm.lean ====
section
/-! DEFINITION. HBM stacks in use: temperature, refresh and throttle, scrubbing, the loss of a stack, and errors of the memories
(08 R204 to R207, 10 R241, 11 R257, 12 R279, 20 R430, R432, R433). -/

namespace Sys2Proof.Machine

/-- A stack, and a change of one. -/
def State.stack (s : State) (h : Nat) : Hbm := Tab.get {} s.hbm h
def updStack (h : Nat) (g : Hbm → Hbm) (s : State) : State := { s with hbm := Tab.upd {} s.hbm h g }

/-- A temperature of a usable stack in 0.125 °C (R204, R432): refresh halved from 85 °C until 83 °C, row activations limited
from 95 °C until 92 °C. Entering the throttle is counted and posted. -/
def stackTemp (h : Nat) (v : Int) (s : State) : State :=
  let x := s.stack h
  let t := updStack h (fun y => { y with
    halved := if 680 ≤ v then true else if v ≤ 664 then false else y.halved,
    throttled := if 760 ≤ v then true else if v ≤ 736 then false else y.throttled }) s
  if !x.throttled && decide (760 ≤ v) then thermalEvent (96 + h) 1 v (bumpPart cHbmThrottle t) else t

/-- HBM_TEMP_READ (R204, R430, R432): the reading in °C, none where the report has stopped; a usable stack that is silent counts
as 95 °C. Before training the reading is judged against the critical threshold alone; a stack not in use is not judged. -/
def execHbmTempRead (h : StackId) (temp : Option Int) (s : State) : Host.Outcome State Fault Refusal :=
  let x := s.stack h.val
  if x.failed || x.lost || s.settings.hbmMask.getLsbD h.val then done s s
  else if !x.usable then
    live s (judgeCritical (updStack h.val (fun y => { y with temp := temp.map (8 * ·) }) s))
  else
    let t := updStack h.val (fun y => { y with silent := temp.isNone, temp := (temp.map (8 * ·)).or y.temp }) s
    live s (judgeCritical (stackTemp h.val ((temp.map (8 * ·)).getD 760) t))

/-! ## What an uncorrectable unit leads to (R207) -/

/-- An uncorrectable unit that the running step was given (R207): the step, which commits nothing of what it has done (R226), is
reissued once; the second ends its requests. -/
def stepUe (s : State) : State :=
  match s.serve.step with
  | none => s
  | some st =>
    if st.reissued then forEach st.reqs (fun r t => endRequest r.idx eEvicted t) s
    else
      let fns := (st.reqs.map (fun r => s.ctxFn r.idx)).dedup
      let t := forEach fns (fun f => bump f cKvInterrupted) (forEach st.reqs closeUnused s)
      let t := forEach st.reqs (fun r t => updCtx r.idx (fun c =>
        { c with nodes := [], samples := [], cands := [], drafted := [], draftRows := 0, draftOver := false }) t) t
      let t := updServe (fun x => { x with step := some { st with reissued := true, tiers := [] }, sums := [] }) t
      if st.lost = [] then reopenStep t else t

/-- An uncorrectable unit in the memories of a core: `zeroed` is the core with zeros in its place. A task runs on (R206). -/
def coreUe (k count : Nat) (zeroed : Core → Core) (s : State) : State :=
  let t := updCore k zeroed s
  match s.coreTask k with
  | some x => bump x.fn count t
  | none => stepUe (bumpPart count t)

/-- Where a granule lies: its place in the region of a copy, as copy and offset (R267, R279). -/
def State.copyAt (s : State) (g : Nat) : Option (Nat × Copy × Nat) :=
  firstSome s.serve.copies (fun e => (e.2.units.findIdx? (· == g / 1024)).map (fun i => (e.1, e.2, i * unitBytes4M + g % 1024 * 4096)))

/-- An uncorrectable unit in a resident tensor (R279): its chunk is lost. -/
def weightUe (a : Nat) (s : State) : State :=
  let g := a / 4096
  let home := ((s.store.lent.find? (fun e => e.2 == g)).map (·.1)).getD g
  match s.copyAt home with
  | none => s
  | some (k, c, off) =>
    let t := updStore (fun x => { x with lent := Tab.keep x.lent (fun _ g' => g' != g) }) s
    match c.chunkAt (off + a % 4096) with
    | some n => loseChunk k n t
    | none => t

/-- An uncorrectable unit of HBM at a device address that a step or a task was given (R206, R207, R241, R257, R279). A step that reads
weights goes on with its reissue once a lost chunk has been repaired. -/
def hbmUe (a : Nat) (s : State) : State :=
  let g := a / 4096
  let t := ueRead a (zero (a / 64 * 64) 64 s)
  let t := forEach (s.kv.frames.filter (fun e => e.2.gmap.grans.contains g)) (fun e t => loseColumn e.2.req e.2.col t) t
  let t := forEach (s.kv.ghosts.filter (fun e => e.2.gmap.grans.contains g)) (fun e t => strand e.2.req (destroyGhost e.1 t)) t
  if (s.copyAt (((s.store.lent.find? (fun e => e.2 == g)).map (·.1)).getD g)).isSome then stepUe (weightUe a t) else t

/-- Entries 16i to 16i + 15 of a table read 0. -/
def zero16 {α : Type} [OfNat α 0] (t : Tab α) (i : Nat) : Tab α := (List.range 16).foldl (fun t j => Tab.put t (16 * i + j) 0) t

/-- An uncorrectable unit of Slate: it reads 0, and so do the words of the stream that it holds (R158). -/
def Core.slateUe (c : Core) (u : Nat) : Core :=
  let i := u - c.streamBase
  { c with
    slate := Tab.put c.slate u 0, bad := if c.bad.contains u then c.bad else u :: c.bad,
    stream := if u < c.streamBase then c.stream
      else c.stream.take (8 * i) ++ ((c.stream.drop (8 * i)).take 8).map (fun _ => 0#64) ++ c.stream.drop (8 * i + 8) }

/-- UNCORRECTABLE_UNIT (R206, R207): zeros are delivered, the error is counted, and SCH acts by where the unit lies. In the firmware
store it spoils what SEC reads there at a reload (R89). -/
def execUncorrectableUnit (u : UeAt) (s : State) : Host.Outcome State Fault Refusal :=
  match u with
  | .aRow k b r => live s (coreUe k.val cGrainsUe (fun c => { c with aRows := Tab.put c.aRows (256 * b.val + r.val) 0 }) s)
  | .bRow k b r => live s (coreUe k.val cGrainsUe (fun c => { c with bRows := Tab.put c.bRows (256 * b.val + r.val) 0 }) s)
  | .aSide k b i => live s (coreUe k.val cGrainsUe (fun c => { c with aScale := zero16 c.aScale (16 * b.val + i.val) }) s)
  | .bSide k b i => live s (coreUe k.val cGrainsUe (fun c => { c with bScale := zero16 c.bScale (16 * b.val + i.val) }) s)
  | .shadow k i => live s (coreUe k.val cSlateUe (fun c => { c with shadow := zero16 c.shadow i.val }) s)
  | .plane k p n => live s (coreUe k.val cGrainsUe (fun c => { c with
      plane := Tab.put c.plane (64 * p.val + n.val / 4) (setBits (c.planeRow p.val (n.val / 4)) (512 * (n.val % 4)) 512 0) }) s)
  | .slate k n => live s (coreUe k.val cSlateUe (fun c => c.slateUe n.val) s)
  | .basalt off =>
    if 128 * 1048576 ≤ off then done s s
    else if 120 * 1048576 ≤ off then
      live s (bumpPart cBasaltUe { s with boot := { s.boot with
        bad := (decide (124 * 1048576 ≤ off), off % (4 * 1048576) / 64 * 64) :: s.boot.bad } })
    else
      let t := updStore (fun x => { x with basaltBad := off / 64 :: x.basaltBad.filter (· != off / 64) }) (zero (basaltBase + off / 64 * 64) 64 s)
      match Tab.find s.store.basalt (off / 1048576) with
      | some n => live s (bumpOwner ((Tab.find s.tasks n).map (·.fn)) cBasaltUe t)
      | none => live s (stepUe (bumpPart cBasaltUe t))
  | .hbm a => if s.totalUnits * unitBytes4M ≤ a then done s s else live s (hbmUe a s)

/-- HBM_SCRUB (R204, R206, R279): the scrub of a stack found correctable errors at these device addresses of it, which it corrected, and
uncorrectable ones at those. Addresses that lie in another stack (R201) are none of its own. -/
def execHbmScrub (h : StackId) (corrected uncorrectable : List Nat) (s : State) : Host.Outcome State Fault Refusal :=
  if !(s.stack h.val).usable then done s s
  else
    let mine := fun (l : List Nat) => l.filter (fun a => decide (a < s.totalUnits * unitBytes4M) && (s.hbmPlace a).1 == h.val)
    let t := forEach (mine corrected) (fun a t => bumpOwner (s.fnAt a) cHbmCe t) s
    live s (forEach (mine uncorrectable) (fun a t => weightUe a (ueRead a t)) t)

/-- HBM_STACK_LOST (R205, R341): live requests, tasks, runs and loads end; what needs HBM is turned away from then on. -/
def execHbmStackLost (h : StackId) (s : State) : Host.Outcome State Fault Refusal :=
  if !(s.stack h.val).usable then done s s
  else
    let t := updStack h.val (fun y => { y with usable := false, lost := true, silent := false, throttled := false, halved := false }) s
    let t := postEvent evHbm stOk h.val (setReady (rHbm h.val) false t)
    let t := forEach (Tab.keys t.serve.ctxs) (fun i => endRequest i eEvicted) t
    let t := forEach (Tab.keys t.tasks) (fun n => endTask n eCancelled false) t
    let t := forEach t.flint.runs (fun r => endRun r eCancelled false) t
    live s (forEach t.serve.loads (fun l t =>
      complete l.fn l.q { kind := 0, status := eNotReady, tag := l.tag, retry := 0,
                          opcode := match l.kind with | .model => opModelLoad | .adapter _ => opAdapterLoad } (dropLoad l t)) t)

/-- CRITICAL_TIMEOUT (R433): the critical state has lasted 1 s. -/
def execCriticalTimeout (s : State) : Host.Outcome State Fault Refusal :=
  if !s.thermal.critical || s.thermal.critEnded then done s s
  else
    let t := updThermal (fun x => { x with critEnded := true }) s
    let t := forEach (Tab.keys (t.serve.ctxs.filter (fun e => e.2.work))) (fun i => endRequest i eThermal) t
    live s (forEach (Tab.keys t.tasks) (fun n => endTask n eThermal false) t)

end Sys2Proof.Machine
end

