-- ==== Sys2Proof/Machine/ConfigSpace.lean ====
section
/-! DEFINITION. Configuration space (00 R2, 02 R36 to R38, R43 to R45): the registers of the features that the part has, as a function
reads and writes them. The offsets of the capabilities and whatever the spec does not state of them are free (log 31); the places of
the fields in a capability are PCIe's (log 61). -/

namespace Sys2Proof.Machine

/-- The Filvos control register (R44, R50). -/
def State.filvosControl (s : State) : BitVec 32 :=
  let win := decide (0 < s.link.winUnits) && decide (2 ≤ s.link.rate.toNat) && !s.link.cxlOff
  BitVec.ofNat 32 (2 * win.toNat + 4 * s.link.secResetBusy.toNat)

/-! ## Base addresses (R38) -/

/-- Size and type bits of the BAR pair at word 2k of the six BAR words: BAR0, BAR2 and BAR4, all of 64 bits, the last two
prefetchable. -/
def barShape (k : Nat) : Nat × Nat := [(2 ^ 16, 4), (2 ^ 34, 12), (2 ^ 21, 12)].getD k (1, 0)

/-- Word w (0 to 5) of three BAR pairs as it is read. -/
def barWord (b : List (BitVec 64)) (w : Nat) : BitVec 32 :=
  BitVec.ofNat 32 (((b.getD (w / 2) 0).toNat + (barShape (w / 2)).2) / 2 ^ (32 * (w % 2)))

/-- The pairs after a write of word w: the bits below the size stay 0. -/
def barWrite (b : List (BitVec 64)) (w : Nat) (v : BitVec 32) : List (BitVec 64) :=
  let x := setBits (b.getD (w / 2) 0) (32 * (w % 2)) 32 v.toNat
  let size := (barShape (w / 2)).1
  b.set (w / 2) (BitVec.ofNat 64 (x.toNat / size * size))

/-! ## Reads -/

/-- Fields (lowest bit, width, value) put into a free word. -/
def stated (free : BitVec 32) (l : List (Nat × Nat × Nat)) : BitVec 32 := l.foldl (fun v x => setBits v x.1 x.2.1 x.2.2) free

/-- Current link speed and width as PCIe codes them; a rate below 16 GT/s is not known closer (R35). -/
def State.linkFields (s : State) : List (Nat × Nat × Nat) :=
  [(20, 6, s.link.width.toNat)] ++ (if s.link.rate = 0 then [] else [(16, 4, s.link.rate.toNat + 3)])

/-- The words of the capabilities of a function: offset, and the fields that R35 to R38 and R43 state. -/
def State.capWords (s : State) (f : Nat) : List (Nat × List (Nat × Nat × Nat)) :=
  let x := s.fn f
  [(Config.pcieCap + 4, [(0, 3, 2), (28, 1, 1)]), (Config.pcieCap + 8, [(0, 16, x.devCtl.toNat)]),
   (Config.pcieCap + 12, [(4, 6, 16), (10, 2, 2)]), (Config.pcieCap + 16, [(0, 2, x.aspm.toNat)] ++ s.linkFields),
   (Config.msixCap, [(16, 11, vectorsOf f - 1), (30, 1, x.msixMask.toNat), (31, 1, x.msixEn.toNat)]),
   (Config.msixCap + 4, [(0, 32, 4)]), (Config.msixCap + 8, [(0, 32, Config.pbaOffset f * 8 + 4)]),
   (Config.atsCap + 4, [(31, 1, x.ats.toNat)]), (Config.pasidCap + 4, [(8, 5, 20), (16, 1, x.pasid.toNat)]),
   (Config.aerCap + 8, [(0, 32, x.aerMask.1.toNat)]), (Config.aerCap + 12, [(0, 32, x.aerMask.2.1.toNat)]),
   (Config.aerCap + 20, [(0, 32, x.aerMask.2.2.toNat)])] ++
  (if f ≠ 0 then []
   else
    [(Config.sriovCap + 8, [(0, 1, s.link.vfEnable.toNat)]), (Config.sriovCap + 12, [(16, 16, 31)]),
     (Config.sriovCap + 16, [(0, 16, s.link.numVfs)]), (Config.sriovCap + 20, [(0, 16, 1), (16, 16, 1)])] ++
    (List.range 6).map (fun w => (Config.sriovCap + 36 + 4 * w, [(0, 32, (barWord s.link.vfBars w).toNat)])))

/-- What a configuration read of a doubleword returns: identity, class, BARs, capabilities and DVSEC as stated; the rest is free. -/
def configRead (f reg : Nat) (s : State) : BitVec 32 :=
  let free := freeWord 32 s
  if reg = 0 then 0x6400#16 ++ Config.vendorId
  else if reg = 8 then 0#24 ++ 0xB1#8 ||| (free &&& 0xFFFFFF00#32)
  else if 16 ≤ reg ∧ reg < 40 then (if f = 0 then barWord s.link.bars ((reg - 16) / 4) else 0)
  else if f = 0 ∧ reg = Config.dvsec + 4 then setBits free 0 16 Config.vendorId.toNat
  else if f = 0 ∧ reg = Config.dvsec + 8 then setBits free 0 16 1
  else if f = 0 ∧ reg = Config.dvsec + 12 then s.filvosControl
  else match (s.capWords f).find? (fun e => e.1 == reg) with
    | some e => stated free e.2
    | none => free

/-! ## Writes -/

/-- A write of a doubleword that no row of the table has for its own (log 31): MSI-X control, the BARs, payload and read request
sizes, ASPM, the enables of ATS and PASID, and AER's masks and severity. -/
def configSet (f reg : Nat) (v : BitVec 32) (s : State) : State :=
  if reg = Config.msixCap then sendPending f (updFn f (fun x => { x with msixEn := v.getLsbD 31, msixMask := v.getLsbD 30 }) s)
  else if 16 ≤ reg ∧ reg < 40 ∧ f = 0 then { s with link := { s.link with bars := barWrite s.link.bars ((reg - 16) / 4) v } }
  else if reg = Config.pcieCap + 8 then updFn f (fun x => { x with devCtl := v.truncate 16 }) s
  else if reg = Config.pcieCap + 16 then updFn f (fun x => { x with aspm := v.truncate 2 &&& 2#2 }) s
  else if reg = Config.atsCap + 4 then updFn f (fun x => { x with ats := v.getLsbD 31 }) s
  else if reg = Config.pasidCap + 4 then updFn f (fun x => { x with pasid := v.getLsbD 16 }) s
  else if reg = Config.aerCap + 8 then updFn f (fun x => { x with aerMask := (v, x.aerMask.2) }) s
  else if reg = Config.aerCap + 12 then updFn f (fun x => { x with aerMask := (x.aerMask.1, v, x.aerMask.2.2) }) s
  else if reg = Config.aerCap + 20 then updFn f (fun x => { x with aerMask := (x.aerMask.1, x.aerMask.2.1, v) }) s
  else if f = 0 ∧ Config.sriovCap + 36 ≤ reg ∧ reg < Config.sriovCap + 60 then
    { s with link := { s.link with vfBars := barWrite s.link.vfBars ((reg - (Config.sriovCap + 36)) / 4) v } }
  else s

end Sys2Proof.Machine
end

