-- ==== Sys2Proof/Machine/HostLink.lean ====
section
/-! DEFINITION. The commands of the host link, its functions and windows, and CXL (02; 22 R463). -/

namespace Sys2Proof.Machine

/-! ## Configuration space (R2, R26, R44, R55) -/

/-- A configuration request (R26, R55); writes that have a row of their own come as that row (log 31). -/
def execConfigRequest (f : Fn) (reg : BitVec 12) (write : Option (BitVec 32)) (s : State) : Host.Outcome State Fault Refusal :=
  if !s.isReady rCfg || (s.fn f.val).flr then live s (emit (.cfgRetry f.val) s)
  else if !s.present f.val then done s s
  else
    match write with
    | none => live s (tookFree (emit (.cfgDone f.val (some (configRead f.val reg.toNat s))) s))
    | some v =>
      live s (configSet f.val reg.toNat v (emit (.cfgDone f.val none) s))

/-! ## The link (R34, R35) -/

/-- The host link retrains to a rate code and a width (R35). At 16 GT/s or below CXL stops until the next whole-part reset,
after the lines in state M, those on their way out among them, have been written back. All lanes that trained are active again, so that
L0P_WIDTH is the new width (DESIGN CHOICE, log 61). -/
def execHostLinkRetrain (rate : BitVec 2) (width : BitVec 5) (s : State) : Host.Outcome State Fault Refusal :=
  if !([4, 8, 16] : List Nat).contains width.toNat then done s s
  else
    let slow := decide (rate.toNat < 2)
    let off := s.link.cxlOff || slow
    let t := if slow then
        let back := fun (line : Nat) (state : Mesi) (data : Unit64) t => if state = Mesi.m then emit (.host 0 (64 * line) (unitBytes data) none) t else t
        { (forEach s.cxl.evict (fun e t => back e.line e.state e.data t)
            (forEach s.cxl.lines (fun (e : Nat × CacheLine) t => back e.1 e.2.state e.2.data t) s)) with cxl := {} }
      else s
    live s (linkChange (fun l => { l with
      rate := rate, width := width, l0p := width, flit := rate == 3#2, degraded := rate != 3#2 || width != 16#5, cxlOff := off,
      cxlMem := !off && decide (0 < l.winUnits), cxlCache := !off }) t)

/-- L0p changes the active lanes (R35, R36). -/
def execL0pWidthChange (width : BitVec 5) (s : State) : Host.Outcome State Fault Refusal :=
  if !([4, 8, 16] : List Nat).contains width.toNat || decide (s.link.width.toNat < width.toNat) then done s s
  else live s (linkChange (fun l => { l with l0p := width }) s)

/-! ## Functions, fences and resets (R37, R47, R54, R55, R81) -/

/-- Every VF is reset and gone (R37, R54). -/
def endVfs (s : State) : State :=
  let t := forEach ((List.range s.link.numVfs).map (· + 1)) functionReset s
  resumeLoads (setReady rVf false { t with link := { t.link with vfEnable := false } })

/-- A write of NumVFs and VF Enable (R37). VF Enable that is set already keeps NumVFs; NumVFs written with VF Enable 0 is at most 31, and
it stays when VF Enable is cleared (DESIGN CHOICE, log 61). -/
def execVfEnable (num : Nat) (enable : Bool) (s : State) : Host.Outcome State Fault Refusal :=
  live s (configWrite 0 (fun s =>
    if !enable then (if s.link.vfEnable then endVfs s else { s with link := { s.link with numVfs := min 31 num } })
    else if s.link.vfEnable || decide (31 < num) then s
    else setReady rVf true { s with link := { s.link with numVfs := num, vfEnable := true } }) s)

/-- Bus Master Enable is cleared (R47, R86). -/
def execBusMasterEnableClear (f : Fn) (s : State) : Host.Outcome State Fault Refusal :=
  live s (configWrite f.val (fun s =>
    if !(s.fn f.val).bme then s
    else
      let t := updFn f.val (fun x => { x with bme := false }) s
      let t := if f.val = 0 && t.boot.fetching then bootRefuse eSig t else t
      fence f.val 2 t) s)

/-- Bus Master Enable is set (R47, R81). D3hot is a cause that takes over, whether or not work was active when it was entered (DESIGN
CHOICE, log 61). -/
def execBusMasterEnableSet (f : Fn) (s : State) : Host.Outcome State Fault Refusal :=
  live s (configWrite f.val (fun s =>
    let x := s.fn f.val
    let t := updFn f.val (fun x => { x with bme := true }) s
    if x.fenced && x.fenceCause == 2#2 then
      (if x.d3 then raiseVec f.val 0 (updFn f.val (fun x => { x with fenceCause := 3 }) t) else liftFence f.val t)
    else t) s)

/-- A function enters D3hot (R47). -/
def execD3hotEntry (f : Fn) (s : State) : Host.Outcome State Fault Refusal :=
  live s (configWrite f.val (fun s =>
    if (s.fn f.val).d3 then s
    else
      let t := updFn f.val (fun x => { x with d3 := true }) s
      if s.busyFn f.val then fence f.val 3 (bump f.val cViolD3Active t) else t) s)

/-- A function returns to D0 (R47, R81). -/
def execD0Return (f : Fn) (s : State) : Host.Outcome State Fault Refusal :=
  live s (configWrite f.val (fun s =>
    let x := s.fn f.val
    let t := updFn f.val (fun x => { x with d3 := false }) s
    if x.fenced && x.fenceCause == 3#2 then
      (if x.bme then liftFence f.val t else raiseVec f.val 0 (updFn f.val (fun x => { x with fenceCause := 2 }) t))
    else t) s)

/-- The last write of a fenced function has been issued and its last read has completed (R47). -/
def execFenceDone (f : Fn) (s : State) : Host.Outcome State Fault Refusal :=
  let x := s.fn f.val
  if !x.fenced || x.fenceDone then done s s
  else live s (raiseVec f.val 0 (updFn f.val (fun x => { x with fenceDone := true }) s))

/-- Initiate Function Level Reset (R54, R55). -/
def execInitiateFlr (f : Fn) (s : State) : Host.Outcome State Fault Refusal :=
  live s (configWrite f.val (updFn f.val (fun x => { x with flr := true })) s)

/-- The FLR completes (R54, R55); an FLR of the PF ends every VF. -/
def execFlrComplete (f : Fn) (s : State) : Host.Outcome State Fault Refusal :=
  if !(s.fn f.val).flr then done s s
  else
    let t := resumeLoads (functionReset f.val s)
    live s (if f.val = 0 && t.link.vfEnable then endVfs t else t)

/-! ## BARs (R40, R41) -/

/-- An access that is not an aligned one of 32 or 64 bits (R40). -/
def execBarAccessMalformed (f : Fn) (_bar4 : Bool) (write : Bool) (_off : BitVec 21) (s : State) :
    Host.Outcome State Fault Refusal :=
  live s (barAccess f.val (fun s => bump f.val cViolBarAccess (if write then s else emit (.read f.val 0) s)) s)

/-- A write of 32 or 64 bits to BAR0 or BAR4 (R39, R40, R57, R84); a write with no writable field is counted once. A write of 64 bits
with a writable field in one half acts on that half and counts nothing (DESIGN CHOICE, log 61). -/
def regWrite (f : Nat) (bar4 : Bool) (off : Nat) (size64 : Bool) (v : BitVec 64) (s : State) : State :=
  let lo := v.truncate 32
  let hi : BitVec 32 := BitVec.ofNat 32 (v.toNat / 2 ^ 32)
  if off % (if size64 then 8 else 4) ≠ 0 then bump f cViolBarAccess s
  else if !size64 then
    match regWriter f bar4 off with
    | none => bump f cViolBarWrite s
    | some w => w lo s
  else if !bar4 ∧ off = 0x118 then cancelHandle f v (updFn f (fun x => { x with cancelLow := none }) s)
  else if !bar4 ∧ (off = 0x200 ∨ off = 0x208) ∧ (s.ring f 0).enable then bump f cViolIarekRing s
  else if !bar4 ∧ 0x180 ≤ off ∧ off < 0x1C0 ∧ (s.fn f).busy then bump f cViolIarekDoorbell s
  else
    match regWriter f bar4 off, regWriter f bar4 (off + 4) with
    | none, none => bump f cViolBarWrite s
    | some a, none => a lo s
    | none, some b => b hi s
    | some a, some b => b hi (a lo s)

/-- A register write (R40). -/
def execRegisterWrite (f : Fn) (bar4 : Bool) (off : BitVec 21) (size64 : Bool) (v : BitVec 64) (s : State) :
    Host.Outcome State Fault Refusal :=
  live s (barAccess f.val (regWrite f.val bar4 off.toNat size64 v) s)

/-- The device address that a window offset maps to, none where the slot is not mapped (R41). -/
def State.windowAddr (s : State) (f off : Nat) : Option Nat :=
  match Tab.find (s.fn f).slots (off / unitBytes4M) with
  | none => none
  | some x => (((Tab.find s.bufs x.buf).map (·.units)).bind (fun l => l[x.unit]?)).map (fun u => u * unitBytes4M + off % unitBytes4M)

/-- A read of the host window (R41): poisoned where a unit it reads is uncorrectable (R206); which of its units is free (log 26). -/
def execHostWindowRead (f : Fn) (off : BitVec 34) (len : Nat) (uncorrectable : Bool) (s : State) : Host.Outcome State Fault Refusal :=
  live s (barAccess f.val (fun s =>
    match s.windowAddr f.val off.toNat with
    | none => bump f.val cViolWinUnmapped (emit (.window f.val (List.replicate len 0#8) false) s)
    | some a =>
      let t := if uncorrectable then tookFree (ueRead (a + freeNumber s % max len 1) s) else s
      emit (.window f.val (if uncorrectable then [] else memRead s.mem a len) uncorrectable) t) s)

/-- A write to the host window (R41). -/
def execHostWindowWrite (f : Fn) (off : BitVec 34) (data : Bytes) (s : State) : Host.Outcome State Fault Refusal :=
  live s (barAccess f.val (fun s =>
    match s.windowAddr f.val off.toNat with
    | none => bump f.val cViolWinUnmapped s
    | some a => store a data s) s)

/-- A read of a counter in the telemetry aperture (R460, R463). -/
def execTelemetryCounterRead (f : Fn) (k : Nat) (part : ReadPart) (s : State) : Host.Outcome State Fault Refusal :=
  live s (barAccess f.val (fun s =>
    let v := s.counter f.val k
    match part with
    | .full => emit (.read f.val (BitVec.ofNat 64 v)) s
    | .low => emit (.read f.val (BitVec.ofNat 64 (v % 2 ^ 32)))
        (updFn f.val (fun x => { x with teleLatch := Tab.put x.teleLatch k (BitVec.ofNat 32 (v / 2 ^ 32)) }) s)
    | .high =>
      let h := Tab.get (BitVec.ofNat 32 (v / 2 ^ 32)) (s.fn f.val).teleLatch k
      emit (.read f.val (h.zeroExtend 64)) (updFn f.val (fun x => { x with teleLatch := Tab.erase x.teleLatch k }) s)) s)

/-! ## CXL (R49 to R53) -/

/-- Lines of the snoop filter (R51). -/
abbrev snoopLines : Nat := 524288

/-- Device address of a line of the coherent window (R181). -/
def State.winAddr (s : State) (line : Nat) : Nat := s.topUnit * unitBytes4M + 64 * line

/-- The host takes hold of a line: it becomes the most recently used; a full filter back-invalidates its oldest (R51). -/
def admitLine (line : Nat) (s : State) : State :=
  let rest := s.cxl.snoop.erase line
  if rest.length < snoopLines then updCxl (fun x => { x with snoop := rest ++ [line] }) s
  else match rest with
    | [] => s
    | old :: r => emit (.cxlBi old) (updCxl (fun x => { x with snoop := r ++ [line], waiting := x.waiting ++ [old] }) s)

/-- A CXL.mem read or write of a window line (R51). -/
def execCxlMemRequest (line : Nat) (write : Option Unit64) (hold : Bool) (uncorrectable : Bool) (s : State) :
    Host.Outcome State Fault Refusal :=
  if !s.link.cxlMem || decide (s.link.winUnits * 4194304 ≤ line) then done s s
  else
    let t := if hold then admitLine line s
      else if write.isSome then updCxl (fun x => { x with snoop := x.snoop.erase line }) s
      else s
    match write with
    | some d => live s (emit (.cxlMem line none false) (store (s.winAddr line) (unitBytes d) t))
    | none =>
      if uncorrectable then live s (bumpPart cHbmPoison (emit (.cxlMem line none true) (ueRead (s.winAddr line) t)))
      else live s (emit (.cxlMem line (some (bytesUnit (memRead s.mem (s.winAddr line) 64))) false) t)

/-- The host answers a back-invalidate (R51). -/
def execBackInvalidateResponse (line : Nat) (data : Option Unit64) (s : State) : Host.Outcome State Fault Refusal :=
  if !s.cxl.waiting.contains line then done s s
  else
    let t := updCxl (fun x => { x with waiting := x.waiting.erase line, snoop := x.snoop.erase line }) s
    live s (match data with
      | none => t
      | some d => store (s.winAddr line) (unitBytes d) t)

/-- The three host snoops. -/
inductive SnoopKind where
  | data | inv | cur

/-- The state a snoop leaves a line in. -/
def afterSnoop (k : SnoopKind) (x : Mesi) : Mesi :=
  match k, x with
  | _, .i => .i
  | .inv, _ => .i
  | .data, _ => .s
  | .cur, x => x

/-- Answer a snoop from the cache or from the eviction buffer, as if the line were still held (R52, R53). -/
def answerSnoop (k : SnoopKind) (line : Nat) (s : State) : State :=
  match s.cxl.evict.find? (fun e => e.line == line) with
  | some e =>
    let n := afterSnoop k e.state
    emit (.cxlSnp line (if e.state = .m then some e.data else none) n)
      (updCxl (fun x => { x with evict := x.evict.map (fun y => if y.line = line then
        { y with state := n, snooped := true, kind := if y.kind = .clean then .cleanNoData else y.kind } else y) }) s)
  | none =>
    match Tab.find s.cxl.lines line with
    | none => emit (.cxlSnp line none .i) s
    | some c =>
      let n := afterSnoop k c.state
      emit (.cxlSnp line (if c.state = .m then some c.data else none) n)
        (updCxl (fun x => { x with lines := if n = .i then Tab.erase x.lines line else Tab.put x.lines line { c with state := n } }) s)

/-- SnpData (R52). -/
def execSnpData (line : Nat) (s : State) : Host.Outcome State Fault Refusal :=
  if s.link.cxlCache then live s (answerSnoop .data line s) else done s s

/-- SnpInv (R52, R53). -/
def execSnpInv (line : Nat) (s : State) : Host.Outcome State Fault Refusal :=
  if s.link.cxlCache then live s (answerSnoop .inv line s) else done s s

/-- SnpCur (R52). -/
def execSnpCur (line : Nat) (s : State) : Host.Outcome State Fault Refusal :=
  if s.link.cxlCache then live s (answerSnoop .cur line s) else done s s

/-- A write pull of a DirtyEvict (R53): Bogus where a snoop has taken the data. -/
def execWritePull (line : Nat) (s : State) : Host.Outcome State Fault Refusal :=
  match s.cxl.evict.find? (fun e => e.line == line) with
  | none => done s s
  | some e => if e.kind = .dirty then live s (emit (.cxlPull line e.data e.snooped) s) else done s s

/-- The host's GO frees the entry (R53). -/
def execEvictionGo (line : Nat) (s : State) : Host.Outcome State Fault Refusal :=
  live s (updCxl (fun x => { x with evict := x.evict.filter (·.line != line) }) s)

end Sys2Proof.Machine
end

