-- ==== Sys2Proof/Machine/Training.lean ====
section
/-! DEFINITION. Training of ports and link-down (17 R353 to R364, 01 R29), and the fabric reference (21 R446). -/

namespace Sys2Proof.Machine

/-- A port of the allotment. -/
def State.allots (s : State) (p : Nat) : Bool := Tab.has s.fab.ports p

/-- Two ordered sets come from one port of one part (R356): the same ADDR or NONCE, and the same PORT. -/
def samePort (a b : OrdSet) : Bool :=
  decide (a.port = b.port) && (decide (a.nonce = b.nonce) || (a.addrValid && b.addrValid && decide (a.addr = b.addr)))

/-- What an ordered set tells of the partner. -/
def learnPartner (o : OrdSet) (x : Port) : Port :=
  { x with
    partner := if o.addrValid then some o.addr.toNat else x.partner, partnerNonce := o.nonce, partnerPort := o.port.toNat,
    partnerWidth := if o.width = 3 then 8 else if o.width = 2 then 4 else 2, partnerPam4 := o.pam4 }

/-- A nonce is the part's own: one that a port of its allotment sends or has drawn (R356). -/
def State.ownNonce (s : State) (n : BitVec 64) : Bool :=
  s.fab.ports.any (fun e => e.2.nonce == n && (e.2.st == .training || n != 0))

/-- The port is wired to the part itself (R356): it stays DOWN, counts as given up, and posts cause 5 once. -/
def selfWired (p : Nat) (s : State) : State :=
  let t := updPort p (fun x => { x with st := .down, attempt := 0, selfWired := true, givenUp := true, accepted := false }) s
  startPorts none (fabricBits (portEvent p 0 5 (bumpPart cViolLinkWiring t)))

/-- TS1 on the lanes of a port that trains (R354, R356): the lanes that agree with the lowest one are taken. -/
def takeTs1 (p : Nat) (sets : List (Fin 8 × OrdSet)) (s : State) : State :=
  let low := sets.foldl (fun (a : Option (Fin 8 × OrdSet)) e => match a with
    | none => some e
    | some y => if e.1 < y.1 then some e else some y) none
  match low with
  | none => s
  | some (k, o) =>
    if sets.any (fun e => s.ownNonce e.2.nonce) then selfWired p s
    else
      let same := sets.filter (fun e => samePort o e.2)
      let ok := BitVec.ofNat 8 ((same.map (fun e => 2 ^ e.1.val)).sum)
      bumpPartBy cViolLinkWiring (sets.length - same.length)
        (updPort p (fun x => { learnPartner o x with laneOk := ok, reversed := o.lane.toNat != k.val }) s)

/-- TS1 (R29, R354, R356, R358). -/
def execTs1 (p : PortId) (sets : List (Fin 8 × OrdSet)) (s : State) : Host.Outcome State Fault Refusal :=
  let x := s.port p.val
  if !s.allots p.val || !s.pins.refFab then done s s
  else match x.st with
    | .hold =>
      live s (if x.listens && s.slotFree then takeTs1 p.val sets (startAttempt p.val s) else bumpPart cViolFabHold s)
    | .training => if x.stage = .detect ∨ x.stage = .lock then live s (takeTs1 p.val sets s) else done s s
    | _ => done s s

/-- The leader chooses a mode and announces it, or the attempt has none left (R355, R360). -/
def leadMode (p : Nat) (s : State) : State :=
  let x := s.port p
  match chooseMode (min x.width x.partnerWidth) x.bothOk (!s.settings.linkNrz && x.partnerPam4) with
  | some (m, l) => sendSet p 2 0 m (updPort p (fun x => { x with mode := m, lanes := l, accepted := false }) s)
  | none => if x.attempt = 1 then failAttempt p s else requestAction p 1 0 0 x.cause s

/-- TS2 (R355): the leader chooses, the follower takes what TARGET announces and answers ACCEPT. -/
def execTs2 (p : PortId) (o : OrdSet) (s : State) : Host.Outcome State Fault Refusal :=
  let x := s.port p.val
  if !s.allots p.val || !((x.st = .training || x.st = .retrain) && (x.stage = .identify || x.stage = .equalize)) then done s s
  else
    let byAddr := s.fab.valid && o.addrValid
    if x.stage = .identify ∧ !byAddr ∧ o.nonce = x.nonce then
      live s (sendSet p.val 2 0 0 (updPort p.val (fun x => { x with nonce := freeWord 64 s }) (tookFree s)))
    else
      let lead := if x.attempt ≠ 1 then x.leader
        else if byAddr then decide (s.fab.addr < o.addr.toNat) else decide (x.nonce.toNat < o.nonce.toNat)
      let t := updPort p.val (fun x => { learnPartner o x with partnerOk := o.laneOk, leader := lead }) s
      let y := t.port p.val
      if lead then
        live s (if x.stage = .identify ∨ y.lanes &&& y.bothOk ≠ y.lanes then leadMode p.val t else t)
      else if o.target = 0 then live s t
      else
        let m := o.target.toNat
        live s (match lanesFor (modeWidth m) y.bothOk with
          | some l => sendSet p.val 5 0 m (updPort p.val (fun x => { x with mode := m, lanes := l, accepted := true }) t)
          | none => t)

/-- HOLD from the other end (R358): a training port gives up its slot and listens. -/
def execHold (p : PortId) (_o : OrdSet) (s : State) : Host.Outcome State Fault Refusal :=
  let x := s.port p.val
  if !s.allots p.val || x.st != .training then done s s
  else
    live s (startPorts (some p.val) (sendSet p.val 3 0 0 (updPort p.val (fun x => { x with
      st := .hold, listens := true, attempt := 0, accepted := false }) s)))

/-- Follow the partner's request, for the cause that its LINK_REQ gave (R360, R361, R364). In a fast retrain every lane may pass EQUALIZE
again. -/
def followReq (p : Nat) (o : OrdSet) (s : State) : State :=
  let x := s.port p
  let a := o.request.toNat
  let m := o.target.toNat
  if a = 1 then trainAgain p x.reqCause s
  else
    let n := modeWidth m
    let all := BitVec.ofNat 8 (2 ^ x.width - 1)
    let ok := if a = 3 then x.lanes &&& x.unreverse o.laneOk else all
    updPort p (fun x => { x with laneOk := if a = 2 then all else x.laneOk })
      (leaveTraffic p a m ((lanesFor n ok).getD x.lanes) x.reqCause s)

/-- REQ (R360, R361). -/
def execReq (p : PortId) (o : OrdSet) (s : State) : Host.Outcome State Fault Refusal :=
  let x := s.port p.val
  if !s.allots p.val || o.request = 0 then done s s
  else match x.st with
    | .up => live s (followReq p.val o s)
    | .retrain =>
      if x.request = 0 then done s s
      else
        let t := bumpPart cViolLinkRace s
        live s (if x.leader then t
          else followReq p.val o (updPort p.val (fun x => { x with request := 0, deferred := some x.cause }) t))
    | _ => done s s

/-- ACCEPT (R355): the follower takes the leader's choice. -/
def execAccept (p : PortId) (o : OrdSet) (s : State) : Host.Outcome State Fault Refusal :=
  let x := s.port p.val
  if s.allots p.val && x.leader && (x.st = .training || x.st = .retrain) && o.target.toNat = x.mode then
    live s (updPort p.val (fun x => { x with accepted := true }) s)
  else done s s

/-- A width change after the loss of a lane (R360), to the best mode of the same signalling. -/
def narrow (p : Nat) (s : State) : State :=
  let x := s.port p
  match chooseMode x.width (x.lanes &&& x.laneOk) (modePam4 x.mode) with
  | some (m, l) => requestAction p 3 m l 1 s
  | none => requestAction p 1 0 0 1 s

/-- The stage after a full training's stage, or after a stage of a retrain or width change (R354). -/
def stageDone (p : Nat) (pass : BitVec 8) (delay : Nat) (s : State) : State :=
  let x := s.port p
  let go := fun (st : Stage) (t : State) => updPort p (fun x => { x with stage := st }) t
  match x.stage with
  | .detect => go .lock s
  | .lock =>
    let t := updPort p (fun x => { x with laneOk := x.laneOk &&& pass }) s
    if (t.port p).laneOk = 0 then s else sendSet p 2 0 0 (go .identify t)
  | .identify => if x.accepted then go .equalize s else s
  | .equalize =>
    if !x.accepted then s
    else
      let t := updPort p (fun x => { x with laneOk := x.laneOk &&& pass }) s
      let y := t.port p
      if y.lanes &&& y.laneOk = y.lanes then go .deskew t
      else if x.leader then leadMode p t
      else sendSet p 2 0 0 (updPort p (fun x => { x with accepted := false }) t)
  | .deskew =>
    let t := updPort p (fun x => { x with pathDelay := delay }) s
    if x.attempt = 3 then portUp p t else go .linkInit t
  | .linkInit => portUp p s

/-- A stage is complete (R354): the lanes that passed it, and in DESKEW the path delay. Once UP, a follower whose request gave
way checks its cause again (R361). -/
def execTrainingStageDone (p : PortId) (lanes : BitVec 8) (delay : Nat) (s : State) : Host.Outcome State Fault Refusal :=
  let x := s.port p.val
  if !s.allots p.val || !(x.st = .training || x.st = .retrain) then done s s
  else
    let t := stageDone p.val lanes delay s
    let y := t.port p.val
    live s (if y.st = .up ∧ x.deferred = some 1 ∧ y.lanes &&& y.laneOk ≠ y.lanes then narrow p.val t else t)

/-- A stage exceeds its limit (R354, R360): full training fails; after a retrain or width change full training follows. -/
def execTrainingStageTimeout (p : PortId) (s : State) : Host.Outcome State Fault Refusal :=
  let x := s.port p.val
  if !s.allots p.val then done s s
  else match x.st with
    | .training => live s (failAttempt p.val s)
    | .retrain => live s (requestAction p.val 1 0 0 x.cause s)
    | _ => done s s

/-- The delay after a failed attempt is over (R359). -/
def execTrainingRetry (p : PortId) (s : State) : Host.Outcome State Fault Refusal :=
  let x := s.port p.val
  if !s.allots p.val || x.st != .down || x.selfWired || !s.pins.refFab then done s s
  else live s (if s.slotFree then startAttempt p.val s else sendSet p.val 3 0 0 (updPort p.val (fun x => { x with st := .hold }) s))

/-- 1 s after PERST# deassertion (R29, R358). -/
def execFirstSecondEnd (s : State) : Host.Outcome State Fault Refusal :=
  live s (startPorts none (updFab (fun x => { x with freePacing := true }) s))

/-- A lane loses lock (R360). -/
def execLaneLockLost (p : PortId) (lane : Fin 8) (s : State) : Host.Outcome State Fault Refusal :=
  let x := s.port p.val
  if !s.allots p.val || x.st != .up then done s s
  else
    let t := updPort p.val (fun x => { x with laneOk := x.laneOk &&& ~~~ BitVec.ofNat 8 (2 ^ lane.val) }) s
    live s (if x.lanes.getLsbD lane.val then narrow p.val t else t)

/-- Uncorrectable codewords within 1 ms (R360). -/
def execFecBurst (p : PortId) (n : Nat) (s : State) : Host.Outcome State Fault Refusal :=
  let x := s.port p.val
  if s.allots p.val && x.st = .up && decide (16 < n) then live s (requestAction p.val 2 x.mode x.lanes 2 s) else done s s

/-- One frame has been resent 8 times (R360). -/
def execReplayLimit (p : PortId) (s : State) : Host.Outcome State Fault Refusal :=
  let x := s.port p.val
  if s.allots p.val && x.st = .up && x.replay.any (fun e => decide (8 ≤ e.2)) then
    live s (requestAction p.val 2 x.mode x.lanes 3 s)
  else done s s

/-- 600 s below the allotted mode: the leader alone asks for a fast retrain (R360). The table of R364 has no cause for it;
0 is sent (log 33). -/
def execLowModeTimer (p : PortId) (s : State) : Host.Outcome State Fault Refusal :=
  let x := s.port p.val
  let m := x.allotted s.settings.linkNrz
  if s.allots p.val && x.st = .up && x.leader && decide (x.mode < m) then
    let l := (lanesFor (modeWidth m) (BitVec.ofNat 8 (2 ^ x.width - 1))).getD x.lanes
    live s (requestAction p.val 2 m l 0 (updPort p.val (fun x => { x with laneOk := BitVec.ofNat 8 (2 ^ x.width - 1) }) s))
  else done s s

/-- A LINK_REQ on VC0 (R352): it announces the cause; the REQ ordered sets that follow act (R360). One that meets the port's own
request gives the cause of a request that may be the leader's (R361). -/
def rxLinkReq (p request target cause : Nat) (s : State) : State :=
  if request = 0 ∨ 3 < request ∨ 6 < target then s
  else updPort p (fun x => { x with reqCause := cause }) s

/-- LINK_REQ (R352, R360). -/
def execLinkReq (p : PortId) (request : Nat) (target : Nat) (cause : Nat) (s : State) : Host.Outcome State Fault Refusal :=
  let x := s.port p.val
  if s.allots p.val && (x.st = .up || (x.st = .retrain && x.request != 0)) then live s (rxLinkReq p.val request target cause s) else done s s

/-- 5 ms after link-down a port that is not UP goes DOWN (R351, R362). -/
def execLinkDownTimeout (p : PortId) (s : State) : Host.Outcome State Fault Refusal :=
  let x := s.port p.val
  if !s.allots p.val || !x.linkDown || x.st = .up then done s s
  else
    let credits := (Tab.vals x.used).sum
    let t := updPort p.val (fun x => { x with
      st := .down, attempt := 0, linkDown := false, keyed := false, replay := [], used := [], owed := [], partial_ := [],
      mode := 0, lanes := 0, request := 0, accepted := false }) s
    let t := bumpPartBy cLinkCreditReclaim credits (bumpPart cLinkDown t)
    live s (startPorts none (renew (portEvent p.val 0 0 (handBack p.val t))))

/-- The 156.25 MHz reference stops (21): every port loses lock, and fabric time and the Flint strobe hold. In the first second the ports
that were UP wait for a slot (R29). -/
def execFabRefclkLoss (s : State) : Host.Outcome State Fault Refusal :=
  live s { s with
    pins := { s.pins with refFab := false },
    fab := { s.fab with ports := Tab.mapVals s.fab.ports (fun _ x =>
      if x.st = .up then { x with
          linkDown := true, oldMode := x.mode, st := if s.fab.freePacing then .training else .hold,
          attempt := s.fab.freePacing.toNat, stage := .detect, cause := 0, accepted := false }
      else x) } }

/-- The reference returns (21, R18): counting resumes from the value held, ports that lost lock less than 5 ms ago train, and a part
that is no time master steps again. -/
def execFabRefclkReturn (s : State) : Host.Outcome State Fault Refusal :=
  if s.pins.refFab then done s s
  else
    let t := startPorts none { s with pins := { s.pins with refFab := true } }
    let again := t.fab.ports.filter (fun e => e.2.linkDown && e.2.st == .training && e.2.stage == .detect)
    let t := forEach (Tab.keys again) (fun p t =>
      sendSet p 1 0 0 (updPort p (fun x => { x with nonce := freeWord 64 t }) (tookFree t))) t
    live s (if t.ft.master || !t.ft.everLocked then t else setReady rFtLock false { t with ft := { t.ft with locked := false, holdover := true } })

end Sys2Proof.Machine
end

