-- ==== Sys2Proof/Machine/Links.lean ====
section
/-! DEFINITION. Frames as they arrive: acknowledgement, credits and order (17 R348 to R352), messages put together from frames
and delivered in MSEQ order or kept for their next hop (18 R378 to R382, R385, R387; log 51). -/

namespace Sys2Proof.Machine

/-! ## Messages at their destination (R379 to R382) -/

/-- What a message that has come to its turn does. -/
def deliver (m : Msg) (s : State) : State :=
  let src := m.hdr.src
  let tag := m.hdr.tag
  let b := m.body
  match m.hdr.cls, m.hdr.mtype with
  | 1, 1 => rxPoolView src b s
  | 1, 2 => rxAdvert src b s
  | 1, 3 => rxAssign src tag b s
  | 1, 4 => rxAssignAck src tag b s
  | 1, 5 => rxTokenSeg src tag b s
  | 1, 6 => rxProfileSeg b s
  | 1, 7 => rxTokens src tag b s
  | 1, 8 => rxCancel src tag b s
  | 2, 1 => rxShipOffer src tag b s
  | 2, 2 => rxShipAccept src tag b s
  | 2, 3 => rxShipRefuse src tag b s
  | 2, 4 => rxShipPage src tag b s
  | 2, 5 => rxShipEnd src tag b s
  | 2, 6 => rxShipDone src tag b s
  | 2, 7 => rxShipAbort src tag b s
  | 2, 8 => rxTokenSeg src tag b s
  | 2, 9 => rxProfileSeg b s
  | 3, 1 => rxLoadBegin src b s
  | 3, 2 => rxWeightChunk src b s
  | 3, 3 => rxLoadStatus src b s
  | 3, 4 => rxLoadEnd src b s
  | 3, 5 => rxRepairReq src b s
  | 3, 6 => rxRepairData b s
  | 3, 7 => rxPartial true src b s
  | 3, 8 => rxPartial false src b s
  | _, _ => badFab s

/-! ## Order (R387) -/

/-- Where a class and a source keep their order. -/
def orderKey (cls src : Nat) : Nat := 4096 * cls + src

/-- The order of a class and a source, and a change of it. -/
def State.msgOrder (s : State) (k : Nat) : MsgOrder := Tab.get {} s.fab.order k
def updOrder (k : Nat) (g : MsgOrder → MsgOrder) (s : State) : State :=
  updFab (fun x => { x with order := Tab.upd {} x.order k g }) s

/-- How far an MSEQ lies ahead of the next one; what lies behind gives 32,768 or more. -/
def MsgOrder.ahead (o : MsgOrder) (q : BitVec 16) : Nat := (q - o.next).toNat

/-- Deliver the held messages whose turn has come, at most n. -/
def drainHeldMsgs (k : Nat) : Nat → State → State
  | 0, s => s
  | n + 1, s =>
    let o := s.msgOrder k
    match o.held.find? (fun m => m.hdr.mseq == o.next) with
    | none => s
    | some m =>
      drainHeldMsgs k n (deliver m (updOrder k (fun x => { next := x.next + 1, held := x.held.filter (fun y => y.hdr.mseq != m.hdr.mseq) }) s))

/-- The most messages held for one class and source. -/
abbrev heldMax : Nat := 256

/-- Skip the gap before the held message that comes first: every value skipped counts as lost, and what is held is delivered as
far as its order goes. -/
def skipGap (k : Nat) (s : State) : State :=
  let o := s.msgOrder k
  match o.held with
  | [] => s
  | a :: r =>
    let n := r.foldl (fun d m => min d (o.ahead m.hdr.mseq)) (o.ahead a.hdr.mseq)
    drainHeldMsgs k (heldMax + 1) (updOrder k (fun x => { x with next := x.next + BitVec.ofNat 16 n }) (bumpPartBy cFabMsgLost n s))

/-- A message for this part: delivered in its turn, held ahead of a gap, or dropped where its turn has passed. -/
def takeMsg (m : Msg) (s : State) : State :=
  let k := orderKey m.hdr.cls m.hdr.src
  let o := s.msgOrder k
  let d := o.ahead m.hdr.mseq
  if d = 0 then drainHeldMsgs k heldMax (deliver m (updOrder k (fun x => { x with next := x.next + 1 }) s))
  else if 32768 ≤ d ∨ o.held.any (fun y => y.hdr.mseq == m.hdr.mseq) then s
  else
    let t := updOrder k (fun x => { x with held := x.held ++ [m] }) s
    if heldMax ≤ o.held.length then skipGap k t else t

/-- MSEQ_GAP_TIMEOUT (R387). -/
def execMseqGapTimeout (src : BitVec 12) (cls : Nat) (s : State) : Host.Outcome State Fault Refusal :=
  if (s.msgOrder (orderKey cls src.toNat)).held.isEmpty then done s s else live s (skipGap (orderKey cls src.toNat) s)

/-! ## Link messages on VC0 (R352) -/

/-- The least body length of a type, and the reserved bytes within it. -/
def linkShape : Nat → Option (Nat × List (Nat × Nat))
  | 1 => some (0x14, [])
  | 2 => some (0x20, [])
  | 3 => some (4, [])
  | 4 => some (0x64, [(0x61, 3)])
  | 5 => some (0x60, [])
  | 6 | 7 | 8 => some (4, [])
  | 9 => some (4, [(3, 1)])
  | _ => none

/-- A link message. -/
def rxLink (p : Nat) (b : Bytes) (s : State) : State :=
  let len := rd b 2 2
  let x := slice b 4 len
  match linkShape (rd b 0 1) with
  | none => badFab s
  | some (n, res) =>
    if rd b 1 1 ≠ 0 ∨ 988 < len ∨ len < n ∨ res.any (fun r => !allZero (slice x r.1 r.2)) then badFab s
    else match rd b 0 1 with
      | 1 => rxSyncReq p (rdBV 16 x 0) (rdBV 16 x 2) s
      | 2 => rxSyncResp p (rdBV 16 x 0) (rdBV 16 x 2) (rdBV 16 x 4) (rdBV 8 x 6) (rdBV 8 x 7) (rdBV 64 x 8) (rdBV 64 x 16) (rdBV 64 x 24) s
      | 3 => if len < 4 + rd x 2 2 then badFab s else rxKeyCert p (rd x 0 1) (rd x 1 1) (slice x 4 (rd x 2 2)) s
      | 4 => rxKeyShare p (slice x 0 97) s
      | 5 => rxKeyProof p (slice x 0 96) s
      | 6 => rxKeyDone p (rdBV 32 x 0) s
      | 7 => rxRekey p (rdBV 32 x 0) s
      | 8 => rxRekeyAck p (rdBV 32 x 0) s
      | _ => rxLinkReq p (rd x 0 1) (rd x 1 1) (rd x 2 1) s

/-! ## Frames (R348 to R351) -/

/-- Credits that the part owes the partner again. -/
def oweCredits (p vc n : Nat) (s : State) : State := updPort p (fun x => { x with owed := Tab.upd 0 x.owed vc (· + n) }) s

/-- A frame of VC1 to VC6: with the last frame of its message the message is delivered or kept for its next hop (R385), and the
space of what is delivered or dropped is free. -/
def rxMsgFrame (p vc : Nat) (b : Bytes) (s : State) : State :=
  let all := Tab.get [] (s.port p).partial_ vc ++ fit 992 b
  if hdrBad all then badFab (oweCredits p vc 1 (updPort p (fun x => { x with partial_ := Tab.erase x.partial_ vc }) s))
  else
    let m := msgOf all
    let n := (m.hdr.length + 991) / 992
    if all.length < 992 * n then updPort p (fun x => { x with partial_ := Tab.put x.partial_ vc all }) s
    else
      let t := updPort p (fun x => { x with partial_ := Tab.erase x.partial_ vc }) s
      if t.fab.valid && m.hdr.dest == t.fab.addr then takeMsg m (oweCredits p vc n t)
      else if !t.fab.valid then oweCredits p vc n t
      else updFab (fun x => { x with fwd := x.fwd ++ [(p, vc, m)] }) t

/-- The payload of a frame that has been accepted. -/
def rxPayload (p vc : Nat) (b : Bytes) (s : State) : State :=
  if vc = 0 then rxLink p b (oweCredits p 0 1 s)
  else if vc = 7 then rxRecord p b (oweCredits p 7 1 s)
  else rxMsgFrame p vc b s

/-- The partner has received every frame up to a SEQ: they leave the replay buffer (R349). -/
def acked (a : BitVec 16) (x : Port) : Port :=
  let l := x.replay.filter (fun e => decide (32768 ≤ (a - e.1.seq).toNat))
  { x with replay := l, ackedTx := if l.length < x.replay.length then a else x.ackedTx }

/-- Every frame after the acknowledged SEQ is sent again, in order (R349). -/
def resend (p : Nat) (s : State) : State :=
  let l := (s.port p).replay
  forEach l (fun e t => emit (.frame p e.1) t) (updPort p (fun x => { x with
    replay := x.replay.map (fun e => (e.1, e.2 + 1)), replays := min (2 ^ 32 - 1) (x.replays + l.length) }) s)

/-- What a good frame says of the other direction: ACK, NAK, and credits returned (R349, R350). -/
def takeAck (p : Nat) (ack : BitVec 16) (nak : Bool) (credVc credits : Nat) (s : State) : State :=
  let t := updPort p (fun x =>
    let y := acked ack x
    { y with used := if credits = 0 ∨ 7 < credVc then y.used else Tab.upd 0 y.used credVc (· - credits) }) s
  if nak then resend p t else t

/-- The part holds the key of a frame: VC0 alone before keys are in force, then the key of its phase, or the one before it until
the partner sends under the new one (R120, R351). -/
def Port.opens (x : Port) (vc : Nat) (phase : Bool) : Bool :=
  if !x.keyed then vc == 0 else phase == x.phaseRx.getLsbD 0 || x.keyRxOld.isSome

/-- FRAME (R348 to R351): what the decoder corrected and could not correct, whether the CRC is good, and the frame. A bad frame,
one out of order and one under no key in hand are discarded and answered with a NAK; one received before is discarded. A frame
without a payload carries an acknowledgement alone and takes no SEQ. -/
def execFrame (p : PortId) (seq ack : BitVec 16) (vc : Fin 8) (nak phase : Bool) (credVc credits : Nat) (payload : Bytes)
    (corr uncorr : Nat) (crcOk : Bool) (s : State) : Host.Outcome State Fault Refusal :=
  let x := s.port p.val
  if !s.allots p.val || x.st != .up then done s s
  else
    let sat := fun (v : Nat) => min (2 ^ 32 - 1) v
    let t := updPort p.val (fun x => { x with fecCorr := sat (x.fecCorr + corr), fecUncorr := sat (x.fecUncorr + uncorr) }) s
    if uncorr ≠ 0 ∨ !crcOk then live s (sendAck p.val true t)
    else if payload = [] then live s (flushPort p.val (takeAck p.val ack nak credVc credits t))
    else
      let d := (seq - (x.seqRx + 1)).toNat
      if d ≠ 0 ∧ 32768 ≤ d then live s t
      else if d ≠ 0 ∨ !x.opens vc.val phase then live s (sendAck p.val true t)
      else
        let t := updPort p.val (fun y => { y with
          seqRx := seq, keyRxOld := if phase = y.phaseRx.getLsbD 0 then none else y.keyRxOld }) t
        let t := takeAck p.val ack nak credVc credits t
        let t := if vc ≠ 0 && s.levelClash p.val then oweCredits p.val vc.val 1 t else rxPayload p.val vc.val payload t
        live s (flushPort p.val (sendAck p.val false t))

end Sys2Proof.Machine
end

