-- ==== Sys2Proof/Machine/Mailbox.lean ====
section
/-! DEFINITION. The commands of the mailbox (03), of buffers and windows (02 R41, 12 R265), of keys (05 R114 to R116) and of
limits and preferred points (00 R9, 20 R416, R418), but for LIST. -/

namespace Sys2Proof.Machine

/-! ## Doorbells and registers -/

/-- A write of RING_CFG of ring pair 0 that sets ENABLE (R58). -/
def execRingEnable (f : Fn) (v : BitVec 32) (s : State) : Host.Outcome State Fault Refusal :=
  if v.getLsbD 31 then live s (barAccess f.val (wrRingCfg f.val v) s) else done s s

/-- A write of RING_CFG of ring pair 0 that clears ENABLE (R58). -/
def execRingDisable (f : Fn) (v : BitVec 32) (s : State) : Host.Outcome State Fault Refusal :=
  if v.getLsbD 31 then done s s else live s (barAccess f.val (wrRingCfg f.val v) s)

/-- SQ_TAIL_DB (R59). -/
def execSqTailDb (f : Fn) (q : RingId) (v : BitVec 32) (s : State) : Host.Outcome State Fault Refusal :=
  live s (barAccess f.val (wrSqTail f.val q.val v) s)

/-- CQ_HEAD_DB (R59). -/
def execCqHeadDb (f : Fn) (q : RingId) (v : BitVec 32) (s : State) : Host.Outcome State Fault Refusal :=
  live s (barAccess f.val (wrCqHead f.val q.val v) s)

/-- COAL_US µs have passed since the first entry not yet signalled (R64). -/
def execCoalesceTimeout (f : Fn) (q : RingId) (s : State) : Host.Outcome State Fault Refusal :=
  let r := s.ring f.val q.val
  if r.unsig = 0 then done s s
  else live s (raiseVec f.val r.vector.toNat (updRing f.val q.val (fun r => { r with unsig := 0 }) s))

/-- DIRECT_DB (R65). -/
def execDirectDb (f : Fn) (v : BitVec 32) (s : State) : Host.Outcome State Fault Refusal :=
  live s (barAccess f.val (wrDirectDb f.val v) s)

/-- The low half of CANCEL_DB (R74). -/
def execCancelDbLow (f : Fn) (v : BitVec 32) (s : State) : Host.Outcome State Fault Refusal :=
  live s (barAccess f.val (wrCancelLow f.val v) s)

/-- CANCEL_DB, as 64 bits or as the high half (R74). -/
def execCancelDb (f : Fn) (high : Bool) (v : BitVec 64) (s : State) : Host.Outcome State Fault Refusal :=
  live s (barAccess f.val (fun s =>
    if high then wrCancelHigh f.val (v.truncate 32) s
    else cancelHandle f.val v (updFn f.val (fun x => { x with cancelLow := none }) s)) s)

/-- LEASE_HEARTBEAT (R78, R79). -/
def execLeaseHeartbeat (f : Fn) (s : State) : Host.Outcome State Fault Refusal :=
  live s (barAccess f.val (wrHeartbeat f.val) s)

/-- LEASE_CTRL (R78). -/
def execLeaseCtrlWrite (f : Fn) (v : BitVec 32) (s : State) : Host.Outcome State Fault Refusal :=
  live s (barAccess f.val (wrLeaseCtrl f.val v) s)

/-- Two periods without a heartbeat (R79, R81). -/
def execLeaseExpiry (f : Fn) (s : State) : Host.Outcome State Fault Refusal :=
  let x := s.fn f.val
  if !x.armed || x.expired then done s s
  else live s (fence f.val 1 (updFn f.val (fun y => { y with expired := true }) s))

/-! ## IDENTIFY, ADOPT, rings, COUNTERS -/

/-- IAREK_CAP (R57). -/
def State.iarekCap (s : State) : Nat := 0x200000 + s.boot.cap.toNat

/-- The IDENTIFY page of a function (R76). -/
def identifyPage (f : Nat) (s : State) : Bytes :=
  let b := s.boot
  let hbm := ((List.range 6).map (fun h => if (Tab.get {} s.hbm h).usable then 2 ^ h else 0)).sum
  fit 4096 (toLe 4 0x44495646 ++ toLe 2 1 ++ toLe 2 b.runLevel.toNat ++ toLe 2 b.runAbi.toNat ++ toLe 1 f ++ toLe 1 32 ++
    toLe 4 s.iarekCap ++ toLe 4 b.runBuild.toNat ++ toLe 2 counterCount ++ toLe 1 0xB1 ++ toLe 1 hbm ++ toLe 4 16384 ++
    toLe 4 s.framesTotal ++ toLe 4 65536 ++ toLe 2 (vectorsOf f) ++ toLe 2 s.opcodes.length ++ List.replicate 88 0#8 ++
    (s.opcodes.map (toLe 4)).flatten)

/-- Data of a command's result written to a host buffer; none goes through the direct slot (R65). -/
def Cmd.write (c : Cmd) (addr : Nat) (b : Bytes) (s : State) : State :=
  match c.src with
  | .ring _ _ => emit (.host c.f addr b (s.pasidOf c.f)) s
  | _ => s

/-- IDENTIFY (R76). -/
def execIdentify (f : Fn) (src : Src) (s : State) : Host.Outcome State Fault Refusal :=
  command f.val opIdentify src [(0x10, 8)] true (fun c t =>
    let addr := c.arg 0x10 8
    let u := if addr = 0 then t else c.write addr (identifyPage f.val t) t
    c.answer stOk 0 (result [(0, 2, t.boot.runLevel.toNat), (2, 1, 32), (4, 4, t.iarekCap)]) u) s

/-- ADOPT (R80): the fence is lifted unless Bus Master Enable or D3hot keeps it (R47), and every ring pair is disabled. -/
def execAdopt (f : Fn) (src : Src) (s : State) : Host.Outcome State Fault Refusal :=
  command f.val opAdopt src [(0x10, 4), (0x14, 1)] true (fun c t =>
    let p := c.arg 0x10 4
    let pol := c.arg 0x14 1
    let x := t.fn f.val
    if p < 10 ∨ 10000 < p ∨ 3 < pol then c.drop cViolIarekField t
    else if !x.expired then c.end eBusy t
    else
      let live := (t.homeOf f.val).length
      let u := updFn f.val (fun y => { y with
        expired := false, settled := false, armed := true, period := BitVec.ofNat 14 p, policy := BitVec.ofNat 2 pol,
        rings := Tab.mapVals y.rings (fun _ r => { r with enable := false, tag := { r.tag with agent := 15 } }) }) t
      let u := if !x.bme then raiseVec f.val 0 (updFn f.val (fun y => { y with fenceCause := 2 }) u)
        else if x.d3 then raiseVec f.val 0 (updFn f.val (fun y => { y with fenceCause := 3 }) u)
        else liftFence f.val u
      c.answer stOk 0 (result [(0, 4, live), (4, 4, x.held.length), (8, 1, x.fenceCause.toNat)]) u) s

/-- RING_CREATE (R58): a ring pair that is enabled is E_BUSY whatever its configuration says (DESIGN CHOICE, log 62). -/
def execRingCreate (f : Fn) (src : Src) (s : State) : Host.Outcome State Fault Refusal :=
  command f.val opRingCreate src [(0x10, 1), (0x11, 1), (0x12, 1), (0x13, 1), (0x14, 1), (0x18, 8), (0x20, 8)] true (fun c t =>
    let q := c.arg 0x10 1
    let w := c.arg 0x14 1
    if q = 0 ∨ 31 < q ∨ w = 0 ∨ 16 < w then c.drop cViolIarekField t
    else if (t.ring f.val q).enable then c.end eBusy t
    else
      let cfg := fun (r : Ring) => { r with
        sqBase := BitVec.ofNat 64 (c.arg 0x18 8), cqBase := BitVec.ofNat 64 (c.arg 0x20 8),
        vector := BitVec.ofNat 6 (c.arg 0x13 1), weight := BitVec.ofNat 4 (w - 1),
        sqLog := BitVec.ofNat 5 (c.arg 0x11 1), cqLog := BitVec.ofNat 5 (c.arg 0x12 1) }
      if 31 < c.arg 0x11 1 ∨ 31 < c.arg 0x12 1 ∨ 63 < c.arg 0x13 1 ∨ !ringOk f.val (cfg (t.ring f.val q)) then
        c.drop cViolIarekRing t
      else c.end stOk (startRing f.val q cfg t)) s

/-- RING_DELETE (R69); of a ring pair that is not enabled it ends OK (DESIGN CHOICE, log 62). -/
def execRingDelete (f : Fn) (src : Src) (s : State) : Host.Outcome State Fault Refusal :=
  command f.val opRingDelete src [(0x10, 1)] true (fun c t =>
    let q := c.arg 0x10 1
    if q = 0 ∨ 31 < q then c.drop cViolIarekField t
    else if t.usesRing f.val q then c.end eBusy t
    else c.end stOk (stopRing f.val q t)) s

/-- COUNTERS (R461). -/
def execCounters (f : Fn) (src : Src) (s : State) : Host.Outcome State Fault Refusal :=
  command f.val opCounters src [(0x10, 8), (0x18, 1)] true (fun c t =>
    let clear := c.arg 0x18 1
    if 1 < clear then c.drop cViolIarekField t
    else
      let u := c.write (c.arg 0x10 8) (((List.range counterCount).map (fun k => toLe 8 (t.counter f.val k))).flatten) t
      c.answer stOk 0 (result [(0, 4, 8 * counterCount)]) (if clear = 1 then clearCounters f.val u else u)) s

/-! ## Buffers and windows -/

/-- BUF_ALLOC (R265). While pinned columns keep the KV store from shrinking, the command waits where it stands. -/
def execBufAlloc (f : Fn) (src : Src) (s : State) : Host.Outcome State Fault Refusal :=
  command f.val opBufAlloc src [(0x10, 4)] true (fun c t =>
    let n := c.arg 0x10 4
    if n = 0 ∨ 4096 < n then c.drop cViolIarekField t
    else c.needsHbm (fun t =>
      match grantUnits .buffer (t.tagOf agSch f.val) n t with
      | .short => c.end eNoMem t
      | .waits u => { u with funcs := s.funcs, turn := s.turn, cxl := s.cxl }
      | .got us u =>
        let (h, u) := issue f.val kBuffer (Tab.keys u.bufs) u
        c.answer stOk h 0 { u with bufs := Tab.put u.bufs h { fn := f.val, units := us } }) t) s

/-- BAR2 slots of a function that map a buffer. -/
def State.slotsOf (s : State) (f h : Nat) : Nat := ((s.fn f).slots.filter (fun e => e.2.buf == h)).length

/-- Tasks that name a buffer, and Flint runs that do. -/
def State.tasksOn (s : State) (h : Nat) : Nat :=
  (s.tasks.filter (fun e => e.2.buf0 == h || e.2.buf1 == h || e.2.buf2 == h)).length
def State.runsOn (s : State) (h : Nat) : Nat := (s.flint.runs.filter (fun r => r.inBuf == h || r.outBuf == h)).length

/-- BUF_FREE (R66, R69). -/
def execBufFree (f : Fn) (src : Src) (s : State) : Host.Outcome State Fault Refusal :=
  command f.val opBufFree src [] false (fun c t =>
    let h := c.e.handle.toNat
    c.withHandle kBuffer (Tab.has t.bufs h) true (fun t =>
      if t.slotsOf f.val h + t.tasksOn h + t.runsOn h ≠ 0 then c.end eBusy t else c.end stOk (dropBuf h t)) t) s

/-- WIN_MAP (R41, R69). -/
def execWinMap (f : Fn) (src : Src) (s : State) : Host.Outcome State Fault Refusal :=
  command f.val opWinMap src [(0x10, 2), (0x14, 4)] false (fun c t =>
    let h := c.e.handle.toNat
    let slot := c.arg 0x10 2
    let unit := c.arg 0x14 4
    c.withHandle kBuffer (Tab.has t.bufs h) false (fun t =>
      match ((Tab.find t.bufs h).map (·.units)).bind (fun l => l[unit]?) with
      | none => c.drop cViolIarekField t
      | some u =>
        if 4096 ≤ slot then c.drop cViolIarekField t
        else if t.topUnit ≤ u then c.drop cViolWinAlias t
        else if Tab.has (t.fn f.val).slots slot then c.end eBusy t
        else c.end stOk (updFn f.val (fun x => { x with slots := Tab.put x.slots slot { buf := h, unit := unit } }) t)) t) s

/-- WIN_UNMAP (R41). -/
def execWinUnmap (f : Fn) (src : Src) (s : State) : Host.Outcome State Fault Refusal :=
  command f.val opWinUnmap src [(0x10, 2)] true (fun c t =>
    let slot := c.arg 0x10 2
    if 4096 ≤ slot then c.drop cViolIarekField t
    else c.end stOk (updFn f.val (fun x => { x with slots := Tab.erase x.slots slot }) t)) s

/-! ## Keys (R113 to R116) -/

/-- KWK_ID for the floor in force (R113). -/
def State.kwkId (s : State) : Nat := (Config.sha384 (Config.kwkPub s.fuses.deviceSeed s.fwFloor)).toNat % 2 ^ 64

/-- The content key of a wrapped blob, none where R115 refuses it. -/
def unwrap (f : Nat) (b : Bytes) (s : State) : Option (BitVec 256) :=
  let fn := rd b 7 1
  let ok := b.length == 192 && rd b 0 4 == 0x4B575646 && rd b 4 2 == 1 && decide (rd b 6 1 < 4) && rd b 8 8 == s.kwkId &&
    (fn == 0xFF || fn == f) && allZero (slice b 0x81 3)
  if !ok then none
  else
    let info := ([0x46, 0x56, 0x53, 0x2D, 0x36, 0x34, 0x30, 0x30, 0x20, 0x4B, 0x57, 0x4B] : Bytes) ++ b.take 0x20
    (Config.gcmOpen (Config.wrapKey s.fuses.deviceSeed s.fwFloor (slice b 0x20 97) info) (slice b 0x84 12) (b.take 0x90) (slice b 0x90 32)
      (slice b 0xB0 16)).map (fun p => BitVec.ofNat 256 (leNat p))

/-- KEY_LOAD (R102, R115, R116); it waits while SEC is handed over (R92). -/
def execKeyLoad (f : Fn) (src : Src) (blob : Bytes) (s : State) : Host.Outcome State Fault Refusal :=
  if (s.proc agSec).state = .handoff then done s s
  else command f.val opKeyLoad src [(0x10, 8), (0x18, 4)] true (fun c t =>
    let len := c.arg 0x18 4
    if len < 64 ∨ 4096 < len then c.drop cViolIarekField t
    else if !t.secTakes then c.endRetry eBusy 0 t
    else
      let b := fit len blob
      match unwrap f.val b t with
      | none => c.end eSig t
      | some k =>
        if 256 ≤ t.sec.keys.length ∨ 16 ≤ (t.sec.keys.filter (fun e => e.2.owner.fn == f.val)).length then c.end eBusy t
        else
          let (h, u) := issue f.val kKey (Tab.keys t.sec.keys) t
          let entry : KeyRec := {
            use := rd b 6 1, fnByte := rd b 7 1, kwkId := rdBV 64 b 8, modelId := rdBV 128 b 0x10, key := k,
            owner := t.tagOf agSec f.val }
          c.answer stOk h 0 { u with sec := { u.sec with keys := Tab.put u.sec.keys h entry } }) s

/-! ## Limits and preferred points -/

/-- LIMIT_SET (R9, R402, R418, R435). -/
def execLimitSet (f : Fn) (src : Src) (s : State) : Host.Outcome State Fault Refusal :=
  command f.val opLimitSet src [(0x10, 1), (0x11, 1), (0x14, 4)] true (fun c t =>
    let q := c.arg 0x10 1
    let op := c.arg 0x11 1
    let v := c.arg 0x14 4
    if 2 < q ∨ 2 < op ∨ (op = 1 ∧ !limitOk q v) then c.drop cViolIarekField t
    else
      let u := if op = 1 then setLimit false q (some v) t else if op = 2 then setLimit false q none t else t
      let w := limitValues q u
      c.answer stOk 0 (result [(0, 4, w.1), (4, 4, w.2.1), (8, 4, w.2.2)]) u) s

/-- PHASE_OP_SET (R416); the point follows at PMC's next update. -/
def execPhaseOpSet (f : Fn) (src : Src) (s : State) : Host.Outcome State Fault Refusal :=
  command f.val opPhaseOpSet src [(0x10, 1), (0x11, 1)] true (fun c t =>
    let k := c.arg 0x10 1
    let p := c.arg 0x11 1
    if 4 < k ∨ 7 < p then c.drop cViolIarekField t
    else if !t.isReady rPmc then c.end eNotReady t
    else c.answer stOk 0 (result [(0, 1, t.power.op)]) (updCaps (fun x => { x with pref := x.pref.set k p }) t)) s

end Sys2Proof.Machine
end

