-- ==== Sys2Proof/Machine/Power.lean ====
section
/-! DEFINITION. The commands of power delivery, phases and droop (19), but for the loss of CORE_EN. Their hardware is in AON
and runs whatever the state of PERST# and of the firmware (R396). -/

namespace Sys2Proof.Machine

/-- CORE_EN is asserted (R392): the controller ramps VDD_CORE to the OP0 setpoint at 0.5 V/ms. -/
def execCoreEnAssert (s : State) : Host.Outcome State Fault Refusal :=
  if s.pins.coreEn || s.pins.thermtrip then done s s
  else done s (updPower (fun p => { p with target := opVolt 0, slow := true, op := 0, freqOp := 0, change := none })
    { s with pins := { s.pins with coreEn := true, phasesMid := false } })

/-- VDD_CORE has stayed in the tolerance band for 50 µs (R392). -/
def execVcoreGood (s : State) : Host.Outcome State Fault Refusal :=
  if !s.pins.coreEn || s.pins.vcoreGood || s.pins.thermtrip then done s s
  else done s (updPower (fun p => { p with setpoint := p.target, slow := false })
    { s with pins := { s.pins with vcoreGood := true } })

/-- The power-down ramp has brought VDD_CORE below 0.1 V (R393): no phase is driven and VCORE_GOOD falls. -/
def execVcoreGoodDeassert (s : State) : Host.Outcome State Fault Refusal :=
  if s.pins.coreEn then done s s
  else done s (updPower (fun p => { p with setpoint := 0, target := 0, amps := 0 })
    { s with pins := { s.pins with vcoreGood := false, phasesMid := true } })

/-- An upward ramp has settled (R395): the islands are brought to the new frequency. -/
def execRampSettled (s : State) : Host.Outcome State Fault Refusal :=
  match s.power.change with
  | none => done s s
  | some c => done s (updPower (fun p => { p with setpoint := p.target, freqOp := c.dst, change := none }) s)

/-- A governor window of 1 µs (R402, R403) with the current, in mA, that the islands' activity asks for: the current moves
towards it by at most S; stretching or ballast makes up the rest. S as set before the window began is taken. A droop response, a
brownout warning, PERST# and THERMTRIP# are not bound (R404). -/
def execSlewWindow (want : Nat) (s : State) : Host.Outcome State Fault Refusal :=
  let limit := s.slew * 1000
  let now := s.power.amps
  let free := s.brown.asserted || s.pins.perst || s.pins.thermtrip || s.power.stretch.any (fun e => decide (0 < e.2))
  let next := if free then want else if want < now then max want (now - limit) else min want (now + limit)
  done s (updPower (fun p => { p with slewWin := s.slew, amps := next }) s)

/-- A phase has been imbalanced for 20 µs (R397): it is probed, unless an island is stretched, BROWN# is asserted or another
phase is being probed, when its window starts again. -/
def execPhaseImbalance (k : PhaseId) (s : State) : Host.Outcome State Fault Refusal :=
  if (s.phase k).st ≠ 0 || s.power.stretch.any (fun e => decide (0 < e.2)) || s.brown.asserted ||
      s.power.phases.any (·.2.probing) then done s s
  else done s (updPhase k (fun p => { p with probing := true }) s)

/-- The probe of 2 µs ends (R397): whether the others' sum rose by half the mean share or more. -/
def execPhaseProbeEnd (k : PhaseId) (rose : Bool) (s : State) : Host.Outcome State Fault Refusal :=
  if !(s.phase k).probing then done s s
  else if rose then done s (distrustPhase k 5 s)
  else done s (dropPhase k 0 s)

/-- A phase's reading has been stuck for 1 ms (R398); while it is probed, the probe decides. -/
def execSenseStuck (k : PhaseId) (s : State) : Host.Outcome State Fault Refusal :=
  if (s.phase k).probing then done s s else done s (distrustPhase k 3 s)

/-- A phase's reading lies below −5 A or above 60 A (R398). -/
def execSenseOutOfRange (k : PhaseId) (s : State) : Host.Outcome State Fault Refusal :=
  if (s.phase k).probing then done s s else done s (distrustPhase k 4 s)

/-- PH_FAULTk# asserted for 1 µs (R399): dropped without a probe. -/
def execPhFault (k : PhaseId) (s : State) : Host.Outcome State Fault Refusal :=
  done s (dropPhase k 1 s)

/-- A stage above 140 °C (R399): dropped without a probe. -/
def execStageOver140 (k : PhaseId) (s : State) : Host.Outcome State Fault Refusal :=
  done s (dropPhase k 2 s)

/-- A stage above 125 °C for 1 ms (R399): its current share is halved. -/
def execStageHot (k : PhaseId) (s : State) : Host.Outcome State Fault Refusal :=
  if (s.phase k).hot || (s.phase k).st = 2 then done s s
  else done s (alert 3 (bumpPart cPhaseHot (updPhase k (fun p => { p with hot := true }) s)))

/-- A halved stage falls below 115 °C (R399). -/
def execStageCooled (k : PhaseId) (s : State) : Host.Outcome State Fault Refusal :=
  done s (updPhase k (fun p => { p with hot := false }) s)

/-- An island's supply crosses a threshold (R406): its stretch level rises to the one of the crossing; an upward change in
progress is abandoned and asked for again later (R408). -/
def execDroopCrossing (k : IslandId) (level : Fin 4) (s : State) : Host.Outcome State Fault Refusal :=
  let old := Tab.get 0 s.power.stretch k.val
  if level.val ≤ old then done s s
  else
    let t := updPower (fun p => { p with stretch := Tab.put p.stretch k.val level.val,
                                         held := p.held || p.change.isSome }) (abandonUp s)
    let t := updPower (fun p => { p with held := p.held || s.power.change.isSome }) t
    done s (if old = 0 then bumpPart cDroopStretch t else t)

/-- An island's supply has been no more than 2 % low for 1 µs (R407). -/
def execDroopStepDown (k : IslandId) (s : State) : Host.Outcome State Fault Refusal :=
  done s (updPower (fun p => { p with stretch := Tab.upd 0 p.stretch k.val (fun l => l - 1) }) s)

/-- VDD_CORE has been in the band for 20 µs (R408): a held or abandoned change is asked for again. -/
def execDroopHoldEnd (s : State) : Host.Outcome State Fault Refusal :=
  if !s.power.held || s.brown.asserted || s.power.stretch.any (fun e => decide (0 < e.2)) then done s s
  else done s (setPoint s.power.op (updPower (fun p => { p with held := false }) s))

/-- VDD_CORE more than 6 % above the setpoint for 1 µs (R409). -/
def execOvershoot (s : State) : Host.Outcome State Fault Refusal :=
  done s (alert 6 (bumpPart cVcoreOvershoot (updPower (fun p => { p with overshoot := true }) s)))

/-- PWRBRK# low for 1 µs (R411): OP0 and PWRBRK_CAP, by hardware. -/
def execPwrbrkAssert (s : State) : Host.Outcome State Fault Refusal :=
  if s.power.pwrbrk then done s s
  else done s (forceOp0 (alert 5 (bumpPart cPwrbrk (updPower (fun p => { p with pwrbrk := true }) s))))

/-- PWRBRK# high for 1 µs (R411): the next update of PMC asks for the requested point again. -/
def execPwrbrkRelease (s : State) : Host.Outcome State Fault Refusal :=
  done s (updPower (fun p => { p with pwrbrk := false }) s)

/-- A write of ALERT_CAUSE (R412): the PF clears W1C bits; in a VF the register has no writable field (R40). -/
def execAlertCauseWrite (f : Fn) (v : BitVec 32) (s : State) : Host.Outcome State Fault Refusal :=
  live s (barAccess f.val (fun s =>
    if f.val = 0 then updPower (fun p => { p with alert := p.alert &&& ~~~ (BitVec.ofNat 8 v.toNat &&& 0x7F#8) }) s
    else bump f.val cViolBarWrite s) s)

end Sys2Proof.Machine
end

