-- ==== Sys2Proof/Machine/Serving.lean ====
section
/-! DEFINITION. The serving service: requests, pools, profiles, steps and the messages between parts (03 R69 to R72, 13, 14 R305,
R306). -/

namespace Sys2Proof.Machine

/-! ## Requests (R71, R283 to R285, R297) -/

/-- How a handle in an argument stands: 0 names none. -/
def argHandle (s : State) (f kind h : Nat) (live : Bool) : Bool := h == 0 || handleIs s f kind h live == .live

/-- The copy that a model handle names. -/
def State.copyOf (s : State) (h : Nat) : Option Copy := (Tab.find s.serve.models h).bind (fun m => s.copy m.copy)

/-- The fields of a REQ_SUBMIT that the spec refuses, with the counter (R66, R70, R275, R284, R306). -/
def submitFault (c : Cmd) (prompt : List (BitVec 32)) (cp : Copy) (s : State) : Option Nat :=
  let n := c.arg 0x18 4
  let adapter := c.arg 0x28 8
  let profile := c.arg 0x30 8
  let draft := c.arg 0x38 8
  let adapterOk := argHandle s c.f kAdapter adapter (Tab.has s.serve.adapters adapter) &&
    (adapter == 0 || ((Tab.find s.serve.adapters adapter).map (·.model)) == some c.e.handle.toNat)
  if !adapterOk || !argHandle s c.f kProfile profile (Tab.has s.serve.profs profile) ||
      !argHandle s c.f kModel draft (s.modelLive draft) then some cViolIarekHandle
  else if n = 0 ∨ 32768 < n ∨ cp.hdr.context ≤ n ∨ c.arg 0x1C 4 = 0 then some cViolIarekField
  else if (prompt.take n).any (fun t => decide (cp.hdr.vocab ≤ t.toNat)) then some cViolIarekField
  else if ((Tab.find s.serve.profs profile).map (fun p => p.prof.vocab != cp.hdr.vocab)).getD false then some cViolIarekField
  else if ((s.copyOf draft).map (fun d => d.hdr.vocab != cp.hdr.vocab || d.spread != cp.spread)).getD false then
    some cViolIarekField
  else none

/-- The context of an admitted request at its home part; its NONCE is a free value (R315, log 5). -/
def homeCtx (c : Cmd) (q h : Nat) (prompt : List (BitVec 32)) (cp : Copy) (s : State) : Ctx :=
  let ph := c.arg 0x30 8
  let dh := c.arg 0x38 8
  let table := ((Tab.find s.serve.profs ph).map (·.table)).getD []
  let prof := ((Tab.find s.serve.profs ph).map (·.prof)).getD {}
  let nonce := freeWord 32 s
  let dc := (Tab.find s.serve.models dh).map (·.copy)
  let mc := (Tab.find s.serve.models c.e.handle.toNat).map (·.copy)
  let n := c.arg 0x18 4
  { home := true, work := false, homeAddr := s.me, handle := h, fn := c.f, tag := s.tagOf agSch c.f, q := q, ctag := c.e.tag,
    workAddr := none, model := c.e.handle.toNat, draftH := dh, copy := if cp.spread then none else mc,
    draft := if cp.spread then none else dc, modelId := cp.hdr.modelId, draftId := ((s.copyOf dh).map (·.hdr.modelId)).getD 0,
    adapter := c.arg 0x28 8, profH := ph, prof := prof, profDigest := if ph = 0 then 0 else digest16 table,
    prompt := (List.range n).map (fun i => (prompt.getD i 0).toNat), written := [], promptLen := n, maxTokens := c.arg 0x1C 4,
    budget := c.arg 0x20 8, prio := c.prio, tAccept := s.ftNow, nonce := nonce,
    seed := if prof.seedPerRequest then BitVec.ofNat 64 (bits prof.seed 32 32 * 2 ^ 32 + nonce.toNat) else prof.seed,
    state := .admitted, order := s.serve.order }

/-- REQ_SUBMIT (R71, R279, R283, R284, R306, R433): the prompt comes as host memory holds it at PROMPT_ADDR. -/
def execReqSubmit (f : Fn) (src : Src) (prompt : List (BitVec 32)) (s : State) : Host.Outcome State Fault Refusal :=
  command f.val opReqSubmit src [(0x10, 8), (0x18, 4), (0x1C, 4), (0x20, 8), (0x28, 8), (0x30, 8), (0x38, 8)] false (fun c t =>
    let m := c.e.handle.toNat
    c.withHandle kModel (t.modelLive m) false (fun t =>
      match t.copyOf m, srcQ c.src with
      | some cp, some q =>
        match submitFault c prompt cp t with
        | some k => c.drop k t
        | none =>
          if t.hbmLost then c.endRetry eNotReady 0 t
          else if t.thermal.critical then c.end eThermal t
          else if t.freeCtxs = 0 then c.end eBusy t
          else
            let idx := t.serve.ctxs.fresh
            let (h, u) := issueAt f.val kRequest idx t
            let x := homeCtx c q h prompt cp u
            let u := post f.val q (c.entry false stOk h 0 u) (updServe (fun y => { y with ctxs := Tab.put y.ctxs idx x }) (tookFree u))
            if cp.state = .damaged ∨ (t.copyOf (c.arg 0x38 8)).any (fun d => d.state == .damaged) then endRequest idx eEvicted u else tryAssign idx u
      | _, _ => t) t) s

/-- REQ_CANCEL (R297): its own OK follows the request's final completion. -/
def execReqCancel (f : Fn) (src : Src) (s : State) : Host.Outcome State Fault Refusal :=
  command f.val opReqCancel src [] false (fun c t =>
    let h := c.e.handle.toNat
    c.withHandle kRequest (t.liveRequest f.val h).isSome true (fun t =>
      match t.liveRequest f.val h with
      | some i => c.end stOk (endRequest i eCancelled t)
      | none => t) t) s

/-- REQ_QUERY (R71, R285). -/
def execReqQuery (f : Fn) (src : Src) (s : State) : Host.Outcome State Fault Refusal :=
  command f.val opReqQuery src [] false (fun c t =>
    let h := c.e.handle.toNat
    c.withHandle kRequest (t.liveRequest f.val h).isSome false (fun t =>
      match (t.liveRequest f.val h).bind t.ctx with
      | some x => c.answer stOk h (requestResult x false 0) t
      | none => t) t) s

/-! ## Pools and profiles -/

/-- A Rod-wide load runs here or elsewhere (R277). -/
def State.rodLoading (s : State) : Bool := s.serve.loads.any (fun l => l.spread || l.rod.isSome) || !s.serve.rod.isEmpty

/-- POOL_SET (R281). -/
def execPoolSet (f : Fn) (src : Src) (s : State) : Host.Outcome State Fault Refusal :=
  command f.val opPoolSet src [(0x10, 1), (0x11, 1)] true (fun c t =>
    let role := c.arg 0x10 1
    let pool := c.arg 0x11 1
    let group := (t.rod.filter (fun e => e.1 != t.fab.addr && e.2.pool == pool)).map (fun e => e.2.role)
    let clash := (role == 3 && group.any (fun r => r == 1 || r == 2)) || ((role == 1 || role == 2) && group.contains 3)
    let holds := role != t.serve.role && t.serve.ctxs.any (fun e => e.2.work && !e.2.home)
    if 3 < role ∨ 15 < pool then c.drop cViolIarekField t
    else if !t.isReady rFabricAny then c.end eFabric t
    else if clash || holds || t.rodLoading then c.end eBusy t
    else c.end stOk (poolChanged (updServe (fun x => { x with role := role, pool := pool }) t))) s

/-- PROFILE_SET (R303, R305): the table comes as host memory holds it. -/
def execProfileSet (f : Fn) (src : Src) (table : Bytes) (s : State) : Host.Outcome State Fault Refusal :=
  command f.val opProfileSet src [(0x10, 8), (0x18, 4)] true (fun c t =>
    let len := c.arg 0x18 4
    let b := fit len table
    let refuse := fun (r d : Nat) => c.answer eNoFit 0 (result [(0, 2, r), (4, 4, d)]) t
    if 67108864 < len then c.drop cViolIarekField t
    else match profFault b with
      | some (r, d) => refuse r d
      | none =>
        let p := profOf b
        let total := (t.serve.profs.map (fun e => e.2.bytes)).sum
        if p.isTree ∧ !t.boot.cap.getLsbD 0 then refuse 5 0
        else if 256 ≤ t.serve.profs.length ∨ 32 ≤ (t.serve.profs.filter (fun e => e.2.fn == f.val)).length ∨
            268435456 < total + len then refuse 6 0
        else
          let (h, u) := issue f.val kProfile (Tab.keys t.serve.profs) t
          c.answer stOk h 0 (updServe (fun x => { x with
            profs := Tab.put x.profs h { fn := f.val, prof := p, bytes := len, table := b } }) u)) s

/-- Live requests of a function that name a profile. -/
def State.profUsers (s : State) (h : Nat) : Nat :=
  (s.serve.ctxs.filter (fun e => e.2.home && e.2.profH == h && e.2.state != .ended)).length

/-- PROFILE_FREE (R69). -/
def execProfileFree (f : Fn) (src : Src) (s : State) : Host.Outcome State Fault Refusal :=
  command f.val opProfileFree src [] false (fun c t =>
    let h := c.e.handle.toNat
    c.withHandle kProfile (Tab.has t.serve.profs h) true (fun t =>
      if t.profUsers h ≠ 0 then c.end eBusy t
      else c.end stOk (updServe (fun x => { x with profs := Tab.erase x.profs h }) t)) t) s

/-! ## Steps -/

/-- STEP_BUILD (R234 to R237, R286 to R288, R295): at a step boundary. -/
def execStepBuild (s : State) : Host.Outcome State Fault Refusal :=
  if s.serve.step.isSome || !s.schRuns then done s s else live s (buildStep (forEach s.serve.rod (memberStep none) (retryAssigns s)))

/-- STEP_END (R226, R233, R268, R279, R293, R294): every layer has written its rows and Jasper has chosen, no cluster being lost to the
step or halted until its revocation (R98); its weights are whole, and its tiered tensors have been fetched. -/
def execStepEnd (rows : List PageRow) (s : State) : Host.Outcome State Fault Refusal :=
  match s.serve.step with
  | none => done s s
  | some st => if st.lost != [] || (List.range 8).any (fun n => (s.proc (n + 3)).deferred.isSome) || !s.sampled st || !s.rowsWhole st rows || !s.weightsRead st || !s.schRuns then done s s else live s (endStep st rows s)

/-! ## Due messages -/

/-- POOL_VIEW_DUE (R380): every 100 ms. -/
def execPoolViewDue (s : State) : Host.Outcome State Fault Refusal :=
  if !s.fab.valid || !s.schRuns then done s s else live s (sendView s)

/-- ADVERT_DUE (R290): every 1 ms, to every member of the group. -/
def execAdvertDue (s : State) : Host.Outcome State Fault Refusal :=
  if !s.fab.valid || !s.schRuns then done s s
  else
    let b := toLe 4 s.framesFree ++ toLe 4 s.freeCtxs ++ toLe 4 s.queuedRows ++ toLe 1 s.power.op ++ toLe 3 0
    let group := (s.rod.filter (fun e => e.1 != s.fab.addr && e.2.pool == s.serve.pool)).map (·.1)
    live s (forEach group (fun a t => sendMsg a 1 2 (t.tagOf agSch 0).word b t) s)

/-- SHIP_OFFER_RETRY (R290): 1 ms after every member has refused. -/
def execShipOfferRetry (idx : Nat) (s : State) : Host.Outcome State Fault Refusal :=
  match s.ship idx with
  | none => done s s
  | some m => if m.st = .refusedAll then live s (offerTo idx [] s) else done s s

/-- SHIP_TIMEOUT (R292): no SHIP_DONE 50 ms after SHIP_END. -/
def execShipTimeout (idx : Nat) (s : State) : Host.Outcome State Fault Refusal :=
  match s.ship idx, s.ctx idx with
  | some m, some c => if m.st = .waitDone then live s (abandonOut idx (sendAbort c m 1 s)) else done s s
  | _, _ => done s s

/-- WORK_ROUTE_TIMEOUT (R299): no route to the working part for 5 ms. -/
def execWorkRouteTimeout (idx : Nat) (s : State) : Host.Outcome State Fault Refusal :=
  match s.ctx idx with
  | none => done s s
  | some c =>
    match c.workAddr with
    | none => done s s
    | some a =>
      if !c.home || c.work || c.state = .ended || s.reaches a then done s s
      else if 0 < c.failovers then live s (endRequest idx eFabric s)
      else live s (tryAssign idx (bump c.fn cReqFailover
        (updCtx idx (fun c => { c with failovers := c.failovers + 1, workAddr := none }) s)))

/-- HOME_ROUTE_TIMEOUT (R299): no route to the home part for 5 ms. -/
def execHomeRouteTimeout (idx : Nat) (s : State) : Host.Outcome State Fault Refusal :=
  match s.ctx idx with
  | none => done s s
  | some c =>
    if c.home || c.state = .ended || s.reaches c.homeAddr then done s s
    else live s (freeProfiles (dropWork idx eFabric (bump c.fn cServeOrphaned (updCtx idx (fun c => { c with state := .ended }) s))))

/-! ## Messages received -/

/-- POOL_VIEW (R281, R380). -/
def execPoolView (src : BitVec 12) (tag : BitVec 32) (body : Bytes) (s : State) : Host.Outcome State Fault Refusal :=
  let _ := tag
  live s (rxPoolView src.toNat body s)

/-- ADVERT (R290). -/
def execAdvert (src : BitVec 12) (tag : BitVec 32) (body : Bytes) (s : State) : Host.Outcome State Fault Refusal :=
  let _ := tag
  live s (rxAdvert src.toNat body s)

/-- ASSIGN (R282, R283). -/
def execAssign (src : BitVec 12) (tag : BitVec 32) (body : Bytes) (s : State) : Host.Outcome State Fault Refusal :=
  live s (rxAssign src.toNat tag body s)

/-- ASSIGN_ACK (R380). -/
def execAssignAck (src : BitVec 12) (tag : BitVec 32) (body : Bytes) (s : State) : Host.Outcome State Fault Refusal :=
  live s (rxAssignAck src.toNat tag body s)

/-- TOKEN_SEG (R380, R381). -/
def execTokenSeg (src : BitVec 12) (tag : BitVec 32) (body : Bytes) (s : State) : Host.Outcome State Fault Refusal :=
  live s (rxTokenSeg src.toNat tag body s)

/-- PROFILE_SEG (R380, R381). -/
def execProfileSeg (src : BitVec 12) (tag : BitVec 32) (body : Bytes) (s : State) : Host.Outcome State Fault Refusal :=
  let _ := (src, tag)
  live s (rxProfileSeg body s)

/-- TOKENS (R293). -/
def execTokens (src : BitVec 12) (tag : BitVec 32) (body : Bytes) (s : State) : Host.Outcome State Fault Refusal :=
  live s (rxTokens src.toNat tag body s)

/-- CANCEL (R298). -/
def execCancel (src : BitVec 12) (tag : BitVec 32) (body : Bytes) (s : State) : Host.Outcome State Fault Refusal :=
  live s (rxCancel src.toNat tag body s)

/-- SHIP_OFFER (R290). -/
def execShipOffer (src : BitVec 12) (tag : BitVec 32) (body : Bytes) (s : State) : Host.Outcome State Fault Refusal :=
  live s (rxShipOffer src.toNat tag body s)

/-- SHIP_ACCEPT (R381). -/
def execShipAccept (src : BitVec 12) (tag : BitVec 32) (body : Bytes) (s : State) : Host.Outcome State Fault Refusal :=
  live s (rxShipAccept src.toNat tag body s)

/-- SHIP_REFUSE (R290). -/
def execShipRefuse (src : BitVec 12) (tag : BitVec 32) (body : Bytes) (s : State) : Host.Outcome State Fault Refusal :=
  live s (rxShipRefuse src.toNat tag body s)

/-- SHIP_PAGE (R291). -/
def execShipPage (src : BitVec 12) (tag : BitVec 32) (body : Bytes) (s : State) : Host.Outcome State Fault Refusal :=
  live s (rxShipPage src.toNat tag body s)

/-- SHIP_END (R291). -/
def execShipEnd (src : BitVec 12) (tag : BitVec 32) (body : Bytes) (s : State) : Host.Outcome State Fault Refusal :=
  live s (rxShipEnd src.toNat tag body s)

/-- SHIP_DONE (R291). -/
def execShipDone (src : BitVec 12) (tag : BitVec 32) (body : Bytes) (s : State) : Host.Outcome State Fault Refusal :=
  live s (rxShipDone src.toNat tag body s)

/-- SHIP_ABORT (R292). -/
def execShipAbort (src : BitVec 12) (tag : BitVec 32) (body : Bytes) (s : State) : Host.Outcome State Fault Refusal :=
  live s (rxShipAbort src.toNat tag body s)

end Sys2Proof.Machine
end

