-- ==== Sys2Proof/Machine/Sideband.lean ====
section
/-! DEFINITION. The commands of the I3C port, MCTP and PLDM, the test access port and the 25 MHz reference (21). -/

namespace Sys2Proof.Machine

/-- Change the sideband's state. -/
def updSide (g : Side → Side) (s : State) : State := { s with side := g s.side }

/-- SETDASA (R448): the static address 0x30 + ADDR_SEL becomes the dynamic one. The target answers from SEC_ROM on (R27). -/
def execSetdasa (s : State) : Host.Outcome State Fault Refusal :=
  if s.side.up then done s (updSide (fun x => { x with dyn := some (0x30#7 + s.pins.addrSel.setWidth 7) }) s) else done s s

/-- ENTDAA (R448). -/
def execEntdaa (addr : BitVec 7) (s : State) : Host.Outcome State Fault Refusal :=
  if s.side.up then done s (updSide (fun x => { x with dyn := some addr }) s) else done s s

/-- DISEC (R448). -/
def execDisec (s : State) : Host.Outcome State Fault Refusal :=
  if s.side.up then done s (updSide (fun x => { x with ibi := false }) s) else done s s

/-- ENEC (R448). -/
def execEnec (s : State) : Host.Outcome State Fault Refusal :=
  if s.side.up then done s (updSide (fun x => { x with ibi := true }) s) else done s s

/-- An MCTP control message (R449). The types served are 0x00, 0x01, 0x05 and 0x06; the UUID and the versions are the part's own. -/
def execMctpControl (req : MctpReq) (s : State) : Host.Outcome State Fault Refusal :=
  if !s.side.up then done s s
  else match req with
    | .setEid e => done s (emit (.mctp 0 [e]) (updSide (fun x => { x with eid := e }) s))
    | .getEid => done s (emit (.mctp 0 [s.side.eid]) s)
    | .versions => done s (emit (.mctp 0 (toLe 4 Config.mctpVersions.toNat)) s)
    | .types => done s (emit (.mctp 0 [0x00#8, 0x01#8, 0x05#8, 0x06#8]) s)
    | .uuid => done s (emit (.mctp 0 (toLe 16 Config.mctpUuid.toNat)) s)
    | .malformed => done s (bumpPart cViolMctp s)

/-- A PLDM request (R9, R412, R449). A limit outside its range is not taken. -/
def execPldmRequest (req : PldmReq) (s : State) : Host.Outcome State Fault Refusal :=
  if !s.side.up then done s s
  else match req with
    | .base => done s (emit (.pldmReply [0, 2, 4]) s)
    | .readyMap => done s (emit (.pldmReply [(s.ready.toNat : Int)]) s)
    | .die k => done s (emit (.pldmReply (if s.thermal.excluded.contains k.val then [] else (Tab.find s.thermal.die k.val).toList)) s)
    | .stack h => done s (emit (.pldmReply (s.stackReading h.val).toList) s)
    | .power k => done s (emit (.pldmReply [(([s.caps.inputMw, s.caps.powLinks, s.caps.powMem, s.caps.powComp, s.caps.powUncore].getD k.val 0 : Nat) : Int)]) s)
    | .limit q =>
      let v := limitValues q.val s
      done s (emit (.pldmReply [(v.1 : Int), (v.2.1 : Int), (v.2.2 : Int)]) s)
    | .setLimit q v =>
      if v.all (limitOk q.val) then
        let t := setLimit true q.val v s
        let w := limitValues q.val t
        done s (emit (.pldmReply [(w.1 : Int), (w.2.1 : Int), (w.2.2 : Int)]) t)
      else done s (emit (.pldmReply []) s)
    | .clearAlert mask =>
      done s (emit (.pldmReply []) (updPower (fun p => { p with alert := p.alert &&& ~~~ (mask &&& 0x7F#8) }) s))
    | .fru => done s (emit (.pldmReply Config.fruData) s)
    | .malformed => done s (bumpPart cViolMctp s)

/-- A JTAG instruction that takes the pins (R452): only while PERST# is asserted; otherwise it acts as BYPASS and is
counted. -/
def takePins (i : Jtag) (s : State) : State :=
  if s.pins.perst then updSide (fun x => { x with ir := i, pins := true }) s
  else bumpPart cViolJtagMode (updSide (fun x => { x with ir := .bypass, pins := false }) s)

/-- A JTAG instruction that leaves the pins to the functional logic. -/
def leavePins (i : Jtag) (s : State) : State := updSide (fun x => { x with ir := i, pins := false }) s

/-- The device identification register (R451; log 14). -/
def idcode : BitVec 32 := BitVec.ofNat 32 (1 * 2 ^ 28 + 0x6400 * 2 ^ 12 + Config.jedecId.toNat * 2 + 1)

/-- EXTEST. -/
def execExtest (s : State) : Host.Outcome State Fault Refusal := done s (takePins .extest s)

/-- IDCODE: the identification register is captured. -/
def execIdcode (s : State) : Host.Outcome State Fault Refusal := done s (emit (.jtag idcode) (leavePins .idcode s))

/-- SAMPLE/PRELOAD, with the levels shifted in. -/
def execSamplePreload (levels : Bytes) (s : State) : Host.Outcome State Fault Refusal :=
  done s (updSide (fun x => { x with boundary := levels }) (leavePins .sample s))

/-- CLAMP. -/
def execClamp (s : State) : Host.Outcome State Fault Refusal := done s (takePins .clamp s)

/-- HIGHZ. -/
def execHighz (s : State) : Host.Outcome State Fault Refusal := done s (takePins .highz s)

/-- EXTEST_PULSE. -/
def execExtestPulse (s : State) : Host.Outcome State Fault Refusal := done s (takePins .extestPulse s)

/-- EXTEST_TRAIN. -/
def execExtestTrain (s : State) : Host.Outcome State Fault Refusal := done s (takePins .extestTrain s)

/-- BYPASS. -/
def execBypass (s : State) : Host.Outcome State Fault Refusal := done s (leavePins .bypass s)

/-- TRST#: Test-Logic-Reset, which loads IDCODE. -/
def execTrst (s : State) : Host.Outcome State Fault Refusal := done s (leavePins .idcode s)

/-- The 25 MHz reference stops (R446): the loops hold their trim; the loss is counted and reported through PLDM. -/
def execSysclk25mLoss (s : State) : Host.Outcome State Fault Refusal :=
  if !s.pins.refSys then done s s
  else done s (pldmEvent cRefclkLoss 0 (bumpPart cRefclkLoss { s with pins := { s.pins with refSys := false, loopsHeld := true } }))

/-- The 25 MHz reference returns (R446): the loops trim again without a step. -/
def execSysclk25mReturn (s : State) : Host.Outcome State Fault Refusal :=
  done s { s with pins := { s.pins with refSys := true, loopsHeld := false } }

end Sys2Proof.Machine
end

