-- ==== Sys2Proof/Machine/Topology.lean ====
section
/-! DEFINITION. Records, settles and delivery under change (18 R370 to R374, R385 to R387), but for what a delivered message
does. -/

namespace Sys2Proof.Machine

/-- A link-state record arrives on VC7 (R370, R371). -/
def execLinkStateRecord (p : PortId) (body : Bytes) (s : State) : Host.Outcome State Fault Refusal :=
  live s (rxRecord p.val body s)

/-- The part originates a record (R370). -/
def execRecordRefreshDue (s : State) : Host.Outcome State Fault Refusal := live s (originate s)

/-- A record has not been refreshed for 3 s (R370); the part's own never ages. -/
def execRecordAgeOut (id : BitVec 64) (s : State) : Host.Outcome State Fault Refusal :=
  if id = Config.partId then done s s
  else live s (updFab (fun x => { x with db := x.db.map (fun r => if r.id = id then { r with aged := true } else r) }) s)

/-- Shipments whose other side has no route any more are abandoned (R292). -/
def shipsLost (s : State) : State :=
  forEach (s.serve.ships.filter (fun m => m.st != .refusedAll && !s.reaches m.peer)) (fun m t =>
    if m.out then abandonOut m.idx t else abandonIn m.idx t) s

/-- A settle (R372); a part without a loaded bundle takes no part in it (R371), any other holds its own record. -/
def execSettle (s : State) : Host.Outcome State Fault Refusal :=
  if !s.isReady rFw then done s s
  else
    let t := if (s.recordOf Config.partId).isSome then s else storeRecord (s.ownRecord s.fab.seq) s
    live s (repairsLost (loadsLost (shipsLost (renew (settle t)))))

/-- 600 s after the record of an address's part was last refreshed (R374). -/
def execAddressHoldExpiry (a : BitVec 12) (s : State) : Host.Outcome State Fault Refusal :=
  match Tab.find s.fab.holds a.toNat with
  | none => done s s
  | some id =>
    match s.recordOf id with
    | some r => if r.aged then live s (updFab (fun x => { x with
          holds := Tab.erase x.holds a.toNat, db := x.db.filter (fun r => r.id ≠ id) }) s) else done s s
    | none => live s (updFab (fun x => { x with holds := Tab.erase x.holds a.toNat }) s)

/-- Frames that a message takes. -/
def Msg.frames (m : Msg) : Nat := (m.hdr.length + 991) / 992

/-- The oldest message for another part goes to its next hop (R385); its buffer space is then free. -/
def execMessageForward (s : State) : Host.Outcome State Fault Refusal :=
  match s.fab.fwd with
  | [] => done s s
  | (p, v, m) :: r =>
    let t := updFab (fun x => { x with fwd := r }) s
    let t := updPort p (fun x => { x with owed := Tab.upd 0 x.owed v (· + m.frames) }) t
    let h := routeHop m.hdr.route m.hdr.hop
    live s (if !s.fab.valid then t
      else if m.hdr.hops ≤ m.hdr.hop then bumpPart cViolFabMsg t
      else
        let st := (t.port h.2).st
        if st = .up ∨ (t.port h.2).linkDown then sendHop m (bumpPartBy cFabForward m.frames t) else reroute m m.hdr.hop t)

/-- The message at the head of a VC has waited 10 ms for a credit (R386). -/
def execVcHeadStall (p : PortId) (vc : Fin 8) (s : State) : Host.Outcome State Fault Refusal :=
  let x := s.port p.val
  let q := Tab.get [] x.queues vc.val
  match q with
  | [] => done s s
  | b :: _ =>
    if vc = 0 ∨ vc = 7 ∨ x.hasCredit vc.val then done s s
    else
      let left := Tab.get 0 x.txLeft vc.val
      let n := if left = 0 then (rd b 10 2 + 991) / 992 else left
      live s (bumpPart cFabStallDrop (flushPort p.val (updPort p.val (fun x => { x with
        queues := Tab.put x.queues vc.val (q.drop n), txLeft := Tab.put x.txLeft vc.val 0 }) s)))

end Sys2Proof.Machine
end

