-- ==== Sys2Proof/Machine/Weights.lean ====
section
/-! DEFINITION. Models and adapters: loading, reporting and unloading (12), LIST (03 R77), and the messages of Rod-wide loads and
repairs. -/

namespace Sys2Proof.Machine

/-! ## Loads -/

/-- The key of a handle permits a stream: bit 0 of USE for weights, bit 1 for adapters, and its MODEL_ID, or any where that is 0
(R114, R115). -/
def KeyRec.permits (k : KeyRec) (bit : Nat) (id : BitVec 128) : Bool := k.use / 2 ^ bit % 2 == 1 && (k.modelId == 0 || k.modelId == id)

/-- A load of a stream begins, once its header is right and the key permits it (R117, R262). -/
def beginLoad (c : Cmd) (kind : LoadKind) (key : Nat) (bit : Nat) (header : Bytes) (src length : Nat) (tier share spread : Bool)
    (s : State) : State :=
  let h := fit 64 header
  let refuse := fun (r : Nat) => c.answer eSig 0 (loadResult r 0 0) s
  if !allZero (slice h 0x18 40) ∨ length < 64 + 17 then refuse 1
  else match Tab.find s.sec.keys key with
    | none => refuse 2
    | some k =>
      if !k.permits bit (rdBV 128 h 0) then refuse 2
      else
       let dma := s.freeDma.getD 0
       takeDma dma (s.tagOf agSch c.f) <| updServe (fun x => { x with loads := x.loads ++ [{
        fn := c.f, q := srcQ c.src, tag := c.e.tag, kind := kind, copy := 0, key := k.key, modelId := rdBV 128 h 0,
        nonce := rdBV 64 h 0x10, length := length, next := 0, plain := [], units := [], src := BitVec.ofNat 64 src, tier := tier,
        share := share, spread := spread, keyHandle := key, dma := dma }] }) s

/-- MODEL_LOAD (R102, R262, R263, R270): the stream header comes as the host's memory holds it; the chunks follow. -/
def execModelLoad (f : Fn) (src : Src) (header : Bytes) (s : State) : Host.Outcome State Fault Refusal :=
  command f.val opModelLoad src [(0x10, 8), (0x18, 8), (0x20, 1), (0x21, 1), (0x22, 2)] false (fun c t =>
    let key := c.e.handle.toNat
    let tier := c.arg 0x20 1
    let share := c.arg 0x21 1
    let spread := c.arg 0x22 2
    c.withHandle kKey (Tab.has t.sec.keys key) false (fun t =>
      if 1 < tier ∨ 1 < share ∨ 1 < spread then c.drop cViolIarekField t
      else if f.val ≠ 0 ∧ (share = 1 ∨ spread = 1) then c.drop cViolIarekPriv t
      else if spread = 1 ∧ share = 0 then c.drop cViolIarekField t
      else c.needsHbm (fun t =>
        if !t.secTakes then c.endRetry eBusy 0 t
        else if 4 ≤ t.serve.loads.length then c.end eBusy t
        else beginLoad c .model key 0 header (c.arg 0x10 8) (c.arg 0x18 8) (tier == 0) (share == 1) (spread == 1) t) t) t) s

/-- Adapters that a part holds or loads, of one function or of all (R275). -/
def State.adapterCount (s : State) (who : Nat → Bool) : Nat :=
  (s.serve.adapters.filter (fun e => who e.2.fn)).length +
    (s.serve.loads.filter (fun l => who l.fn && match l.kind with | .adapter _ => true | .model => false)).length

/-- ADAPTER_LOAD (R102, R262, R274, R275). -/
def execAdapterLoad (f : Fn) (src : Src) (header : Bytes) (s : State) : Host.Outcome State Fault Refusal :=
  command f.val opAdapterLoad src [(0x10, 8), (0x18, 8), (0x20, 8)] false (fun c t =>
    let m := c.e.handle.toNat
    let key := c.arg 0x20 8
    c.withHandle kModel (t.modelLive m) false (fun t =>
      if handleIs t f.val kKey key (Tab.has t.sec.keys key) ≠ .live then c.drop cViolIarekHandle t
      else c.needsHbm (fun t =>
        let cp := (Tab.find t.serve.models m).bind (fun x => t.copy x.copy)
        if !t.secTakes then c.endRetry eBusy 0 t
        else if ((cp.map (fun x => x.share || x.spread)).getD true) then c.answer eSig 0 (loadResult 9 0xFFFFFFFF 0) t
        else if 1024 ≤ t.adapterCount (fun _ => true) ∨ 64 ≤ t.adapterCount (· == f.val) then c.answer eNoMem 0 (loadResult 7 0 0) t
        else if 4 ≤ t.serve.loads.length then c.end eBusy t
        else beginLoad c (.adapter m) key 1 header (c.arg 0x10 8) (c.arg 0x18 8) false false false t) t) t) s

/-- STREAM_CHUNK (R117, R118, R263): the next chunk of load n, ciphertext and tag. A load that waits for a copy reads nothing, and so
does one of a fenced function (R47). Once all chunks are read, the event retries a grant that waits for pinned columns. -/
def execStreamChunk (n : Nat) (data : Bytes) (s : State) : Host.Outcome State Fault Refusal :=
  match s.serve.loads[n]? with
  | none => done s s
  | some l =>
    let waiting := (l.waits.bind s.copy).isSome
    let more := decide (l.next < chunkCount l.length)
    let want := min chunkBytes (l.length - 64 - chunkBytes * l.next)
    if waiting ∨ (l.read ∧ l.copy ≠ 0) ∨ (more ∧ (s.fn l.fn).fenced) then done s s
    else
      let raw := data.take want
      match (if more then (if data.length = want then openChunk l.key l.nonce l.modelId l.next raw else none) else some []) with
      | none => live s (resumeLoads (failLoad l eSig 1 l.next s))
      | some p =>
        let m := { l with next := if more then l.next + 1 else l.next, plain := l.plain ++ p, waits := none }
        let m := { m with read := decide (chunkCount m.length ≤ m.next) }
        let t := putLoad l m s
        match l.kind with
        | .adapter h =>
          if !m.read then live s t
          else live s (finishAdapter m h t).1
        | .model =>
          let t := if m.copy = 0 ∨ !more then t else spendChunk m l.next p t
          let r := modelStep m t
          live s (if r.2 then resumeLoads r.1 else r.1)

/-! ## Reporting and unloading -/

/-- The model record of R278. -/
def modelRecord (f h : Nat) (m : ModelH) (s : State) : Bytes :=
  match s.copy m.copy with
  | none => []
  | some c =>
    let refs := (s.serve.models.filter (fun e => e.2.copy == m.copy)).length
    let adapters := (s.serve.adapters.filter (fun e => e.2.fn == f && e.2.model == h)).length
    toLe 16 c.hdr.modelId.toNat ++ toLe 8 h ++ toLe 1 c.state.code ++
      toLe 1 (c.strict.toNat + 2 * c.share.toNat + 4 * c.spread.toNat + 8 * m.attached.toNat) ++ toLe 1 c.shard ++
      toLe 1 (min refs 255) ++ toLe 2 adapters ++ toLe 2 c.lost.length ++ toLe 8 c.hbmBytes ++ toLe 8 c.tierBytes ++
      toLe 8 c.stageBytes ++ toLe 8 c.tierFetched

/-- MODEL_QUERY (R278). -/
def execModelQuery (f : Fn) (src : Src) (s : State) : Host.Outcome State Fault Refusal :=
  command f.val opModelQuery src [(0x10, 8), (0x18, 4)] false (fun c t =>
    let h := c.e.handle.toNat
    c.withHandle kModel (Tab.has t.serve.models h) false (fun t =>
      match Tab.find t.serve.models h with
      | none => t
      | some m =>
        if c.arg 0x18 4 < 64 then c.drop cViolIarekField t
        else c.answer stOk h (result [(0, 4, 64)]) (c.write (c.arg 0x10 8) (modelRecord f.val h m t) t)) t) s

/-- Live requests, worked here or of this part's functions, that use a handle or, when the copy would end, the copy. -/
def State.modelBusy (s : State) (h : Nat) (m : ModelH) : Bool :=
  let ends := match s.copy m.copy with
    | none => false
    | some c => c.endsWith m.fn true ((s.serve.models.filter (fun e => e.2.copy == m.copy)).length ≤ 1)
  s.serve.ctxs.any (fun e => e.2.state != .ended &&
    ((e.2.home && (e.2.model == h || e.2.draftH == h)) || (ends && (e.2.copy == some m.copy || e.2.draft == some m.copy)))) ||
    s.serve.adapters.any (fun e => e.2.fn == m.fn && e.2.model == h) || s.serve.loads.any (fun l => l.kind == .adapter h)

/-- MODEL_UNLOAD (R270, R280): with the copy of a Rod-wide load, every member's share ends (log 44). -/
def execModelUnload (f : Fn) (src : Src) (s : State) : Host.Outcome State Fault Refusal :=
  command f.val opModelUnload src [] false (fun c t =>
    let h := c.e.handle.toNat
    c.withHandle kModel (Tab.has t.serve.models h) true (fun t =>
      match Tab.find t.serve.models h with
      | none => t
      | some m =>
        if t.modelBusy h m then c.end eBusy t
        else
          let u := releaseModel h true t
          let u := match t.copy m.copy, u.copy m.copy with
            | some x, none =>
              let u := match x.rodId with
                | some (_, id) => sendLoadEnd f.val id t.rodMembers false u
                | none => u
              poolChanged u
            | _, _ => u
          c.end stOk u) t) s

/-- ADAPTER_UNLOAD (R69). -/
def execAdapterUnload (f : Fn) (src : Src) (s : State) : Host.Outcome State Fault Refusal :=
  command f.val opAdapterUnload src [] false (fun c t =>
    let h := c.e.handle.toNat
    c.withHandle kAdapter (Tab.has t.serve.adapters h) true (fun t =>
      if t.serve.ctxs.any (fun e => e.2.home && e.2.adapter == h && e.2.state != .ended) then c.end eBusy t
      else c.end stOk (dropAdapter h t)) t) s

/-! ## LIST (R77) -/

/-- Models and adapters loaded under a key. -/
def State.keyUsers (s : State) (h : Nat) : Nat :=
  (s.serve.models.filter (fun e => e.2.key == h)).length + (s.serve.adapters.filter (fun e => e.2.key == h)).length

/-- The objects of a function of a kind: each handle with its record. -/
def listOf (f kind : Nat) (s : State) : List (Nat × Bytes) :=
  match kind with
  | 0 => (s.sec.keys.filter (fun e => e.2.owner.fn == f)).map (fun e =>
      (e.1, toLe 8 e.1 ++ toLe 1 e.2.use ++ toLe 1 e.2.fnByte ++ toLe 6 0 ++ toLe 16 e.2.modelId.toNat ++ toLe 8 e.2.kwkId.toNat ++
        toLe 4 (s.keyUsers e.1)))
  | 1 => (s.homeOf f).map (fun e =>
      let c := e.2
      (c.handle, toLe 8 c.handle ++ toLe 1 c.state.code ++ toLe 1 c.prio ++ toLe 1 c.q ++ toLe 1 0 ++ toLe 2 (c.workAddr.getD 0xFFFF) ++
        toLe 2 0 ++ toLe 8 c.model ++ toLe 4 c.written.length ++ toLe 4 c.prompt.length ++ toLe 8 (c.meter + c.homeMeter) ++
        toLe 8 c.tAccept.toNat ++ toLe 8 c.tFirst.toNat))
  | 2 => (s.serve.models.filter (fun e => e.2.fn == f)).map (fun e => (e.1, modelRecord f e.1 e.2 s))
  | 3 => (s.serve.adapters.filter (fun e => e.2.fn == f)).map (fun e =>
      (e.1, toLe 8 e.1 ++ toLe 1 e.2.rank ++ toLe 1 e.2.fmt ++ toLe 6 0 ++ toLe 8 e.2.model ++ toLe 8 e.2.bytes ++
        toLe 16 e.2.baseId.toNat))
  | 4 => (s.bufs.filter (fun e => e.2.fn == f)).map (fun e =>
      (e.1, toLe 8 e.1 ++ toLe 4 e.2.units.length ++ toLe 4 (s.slotsOf f e.1) ++ toLe 4 (s.tasksOn e.1) ++ toLe 4 (s.runsOn e.1)))
  | 5 => (s.progs.filter (fun e => e.2.fn == f)).map (fun e =>
      (e.1, toLe 8 e.1 ++ toLe 1 e.2.cores ++ toLe 1 e.2.placement ++ toLe 1 e.2.builtin.toNat ++ toLe 1 0 ++
        toLe 2 e.2.ctrRecs.length ++ toLe 2 0 ++ toLe 4 e.2.imageLen ++ toLe 4 (s.tasks.filter (fun t => t.2.prog == e.1)).length))
  | 6 => (s.serve.profs.filter (fun e => e.2.fn == f)).map (fun e =>
      (e.1, toLe 8 e.1 ++ toLe 1 e.2.prof.mode.toNat ++ toLe 1 e.2.prof.stops.length ++ toLe 2 0 ++ toLe 4 e.2.bytes ++
        toLe 4 e.2.prof.vocab ++ toLe 4 (s.serve.ctxs.filter (fun c => c.2.home && c.2.profH == e.1 && c.2.state != .ended)).length))
  | _ => (s.flint.nets.filter (fun e => e.2.fn == f)).map (fun e =>
      (e.1, toLe 8 e.1 ++ toLe 1 e.2.tiles ++ toLe 1 (s.activeRun e.1).isSome.toNat ++ toLe 2 0 ++ toLe 4 e.2.neurons.length ++
        toLe 4 e.2.inputs.length ++ toLe 4 (e.2.syn.map (·.length)).sum))

/-- LIST (R77): records in ascending INDEX, as many as fit; through the direct slot none is written (R65). -/
def execList (f : Fn) (src : Src) (s : State) : Host.Outcome State Fault Refusal :=
  command f.val opList src [(0x10, 8), (0x18, 4), (0x1C, 1)] true (fun c t =>
    let len := c.arg 0x18 4
    let kind := c.arg 0x1C 1
    if len % 64 ≠ 0 ∨ len < 64 ∨ 7 < kind then c.drop cViolIarekField t
    else
      let all := (listOf f.val kind t).foldr (insertBy (fun a b => decide (hIndex a.1 < hIndex b.1))) []
      let out := if srcQ c.src = none then [] else all.take (len / 64)
      c.answer stOk 0 (result [(0, 4, out.length), (4, 4, all.length)])
        (c.write (c.arg 0x10 8) ((out.map (fun e => fit 64 e.2)).flatten) t)) s

/-! ## Tiered tensors (R268) -/

/-- The chunks of a tensor opened in order, none where a tag fails. -/
def openTensor (c : Copy) (t : Tensor) (raw : List Bytes) : Option Bytes :=
  let first := t.off / 65536
  (raw.zipIdx.mapM (fun (x : Bytes × Nat) => openChunk c.ckey c.nonce c.hdr.modelId (first + x.2) x.1)).map (fun l => l.flatten.take t.len)

/-- TIER_FETCH_DONE (R268): the chunks of tensor n of copy k, as fetched for the running step, which fetches a tensor once; none is
fetched while its loader is fenced (R269). -/
def execTierFetchDone (k n : Nat) (raw : List Bytes) (s : State) : Host.Outcome State Fault Refusal :=
  match s.copy k, s.serve.step with
  | some c, some st =>
    match c.tensors[n]? with
    | none => done s s
    | some t =>
      let used := (s.stepCopies st).contains k
      if !t.tiered || !used || raw.length != (t.len + 65535) / 65536 || (s.fn c.loader).fenced || st.tiers.contains (k, n) then done s s
      else
        let s := updServe (fun x => { x with step := some { st with tiers := st.tiers ++ [(k, n)] } }) s
        let u := updCopy k (fun c => { c with tierFetched := c.tierFetched + (raw.map (·.length)).sum, half := !c.half }) s
        match openTensor c t raw with
        | some b => live s (regionWrite c.units (c.hbmBytes + if c.half then c.stageBytes / 2 else 0) b u)
        | none =>
          let u := updServe (fun x => { x with step := x.step.map (fun p => { p with discard := true }) }) u
          live s (damageCopy k (bump c.loader cViolTierSource u))
  | _, _ => done s s

/-! ## Messages received -/

/-- LOAD_BEGIN (R382). -/
def execLoadBegin (src : BitVec 12) (tag : BitVec 32) (body : Bytes) (s : State) : Host.Outcome State Fault Refusal :=
  let _ := tag
  live s (rxLoadBegin src.toNat body s)

/-- WEIGHT_CHUNK (R276). -/
def execWeightChunk (src : BitVec 12) (tag : BitVec 32) (body : Bytes) (s : State) : Host.Outcome State Fault Refusal :=
  let _ := tag
  live s (rxWeightChunk src.toNat body s)

/-- LOAD_STATUS (R277). -/
def execLoadStatus (src : BitVec 12) (tag : BitVec 32) (body : Bytes) (s : State) : Host.Outcome State Fault Refusal :=
  let _ := tag
  live s (rxLoadStatus src.toNat body s)

/-- LOAD_END (R277). -/
def execLoadEnd (src : BitVec 12) (tag : BitVec 32) (body : Bytes) (s : State) : Host.Outcome State Fault Refusal :=
  let _ := tag
  live s (rxLoadEnd src.toNat body s)

/-- REPAIR_REQ (R279). -/
def execRepairReq (src : BitVec 12) (tag : BitVec 32) (body : Bytes) (s : State) : Host.Outcome State Fault Refusal :=
  let _ := tag
  live s (rxRepairReq src.toNat body s)

/-- REPAIR_DATA (R279). -/
def execRepairData (src : BitVec 12) (tag : BitVec 32) (body : Bytes) (s : State) : Host.Outcome State Fault Refusal :=
  let _ := (src, tag)
  live s (rxRepairData body s)

/-- REDUCE (R382). -/
def execReduce (src : BitVec 12) (tag : BitVec 32) (body : Bytes) (s : State) : Host.Outcome State Fault Refusal :=
  let _ := tag
  live s (rxPartial true src.toNat body s)

/-- GATHER (R382). -/
def execGather (src : BitVec 12) (tag : BitVec 32) (body : Bytes) (s : State) : Host.Outcome State Fault Refusal :=
  let _ := tag
  live s (rxPartial false src.toNat body s)

end Sys2Proof.Machine
end

