-- ==== Sys2Proof/Machine/Dispatch.lean ====
section
/-! DEFINITION. The dispatch: each command to its meaning. -/

namespace Sys2Proof.Machine

def exec (i : Instr) (s : State) : Host.Outcome State Fault Refusal :=
  match i with
  | .perstDeassert addrSel => Sys2Proof.Machine.execPerstDeassert addrSel s
  | .perstAssert => Sys2Proof.Machine.execPerstAssert s
  | .provReadDone quad pollTimedOut => Sys2Proof.Machine.execProvReadDone quad pollTimedOut s
  | .secRomReady => Sys2Proof.Machine.execSecRomReady s
  | .hbmTrainingDone h okAtRate okAtBase => Sys2Proof.Machine.execHbmTrainingDone h okAtRate okAtBase s
  | .basaltSelftestDone ok => Sys2Proof.Machine.execBasaltSelftestDone ok s
  | .cfgReady => Sys2Proof.Machine.execCfgReady s
  | .configRequest f reg write => Sys2Proof.Machine.execConfigRequest f reg write s
  | .syncBeatDue => Sys2Proof.Machine.execSyncBeatDue s
  | .syncReq p epoch seq t1 t4prev => Sys2Proof.Machine.execSyncReq p epoch seq t1 t4prev s
  | .syncResp p epoch seq master hops flags t2 t3 rootOfs => Sys2Proof.Machine.execSyncResp p epoch seq master hops flags t2 t3 rootOfs s
  | .syncBeatMissed p => Sys2Proof.Machine.execSyncBeatMissed p s
  | .ftNowRead f part => Sys2Proof.Machine.execFtNowRead f part s
  | .vddCoreDip depth => Sys2Proof.Machine.execVddCoreDip depth s
  | .brownoutWarning depth => Sys2Proof.Machine.execBrownoutWarning depth s
  | .brownoutReset depth => Sys2Proof.Machine.execBrownoutReset depth s
  | .brownoutRecovery => Sys2Proof.Machine.execBrownoutRecovery s
  | .hostLinkRetrain rate width => Sys2Proof.Machine.execHostLinkRetrain rate width s
  | .hostLinkDown => Sys2Proof.Machine.execHostLinkDown s
  | .vfEnable num enable => Sys2Proof.Machine.execVfEnable num enable s
  | .busMasterEnableClear f => Sys2Proof.Machine.execBusMasterEnableClear f s
  | .busMasterEnableSet f => Sys2Proof.Machine.execBusMasterEnableSet f s
  | .d3hotEntry f => Sys2Proof.Machine.execD3hotEntry f s
  | .d0Return f => Sys2Proof.Machine.execD0Return f s
  | .fenceDone f => Sys2Proof.Machine.execFenceDone f s
  | .initiateFlr f => Sys2Proof.Machine.execInitiateFlr f s
  | .flrComplete f => Sys2Proof.Machine.execFlrComplete f s
  | .barAccessMalformed f bar4 write off => Sys2Proof.Machine.execBarAccessMalformed f bar4 write off s
  | .registerWrite f bar4 off size64 v => Sys2Proof.Machine.execRegisterWrite f bar4 off size64 v s
  | .hostWindowRead f off len uncorrectable => Sys2Proof.Machine.execHostWindowRead f off len uncorrectable s
  | .hostWindowWrite f off data => Sys2Proof.Machine.execHostWindowWrite f off data s
  | .secReset imageOk => Sys2Proof.Machine.execSecReset imageOk s
  | .backInvalidateResponse line data => Sys2Proof.Machine.execBackInvalidateResponse line data s
  | .snpData line => Sys2Proof.Machine.execSnpData line s
  | .snpInv line => Sys2Proof.Machine.execSnpInv line s
  | .snpCur line => Sys2Proof.Machine.execSnpCur line s
  | .writePull line => Sys2Proof.Machine.execWritePull line s
  | .evictionGo line => Sys2Proof.Machine.execEvictionGo line s
  | .ringEnable f v => Sys2Proof.Machine.execRingEnable f v s
  | .ringDisable f v => Sys2Proof.Machine.execRingDisable f v s
  | .sqTailDb f q v => Sys2Proof.Machine.execSqTailDb f q v s
  | .cqHeadDb f q v => Sys2Proof.Machine.execCqHeadDb f q v s
  | .coalesceTimeout f q => Sys2Proof.Machine.execCoalesceTimeout f q s
  | .directDb f v => Sys2Proof.Machine.execDirectDb f v s
  | .cancelDbLow f v => Sys2Proof.Machine.execCancelDbLow f v s
  | .cancelDb f high v => Sys2Proof.Machine.execCancelDb f high v s
  | .leaseHeartbeat f => Sys2Proof.Machine.execLeaseHeartbeat f s
  | .leaseCtrlWrite f v => Sys2Proof.Machine.execLeaseCtrlWrite f v s
  | .leaseExpiry f => Sys2Proof.Machine.execLeaseExpiry f s
  | .identify f src => Sys2Proof.Machine.execIdentify f src s
  | .adopt f src => Sys2Proof.Machine.execAdopt f src s
  | .ringCreate f src => Sys2Proof.Machine.execRingCreate f src s
  | .ringDelete f src => Sys2Proof.Machine.execRingDelete f src s
  | .list f src => Sys2Proof.Machine.execList f src s
  | .counters f src => Sys2Proof.Machine.execCounters f src s
  | .bufAlloc f src => Sys2Proof.Machine.execBufAlloc f src s
  | .bufFree f src => Sys2Proof.Machine.execBufFree f src s
  | .winMap f src => Sys2Proof.Machine.execWinMap f src s
  | .winUnmap f src => Sys2Proof.Machine.execWinUnmap f src s
  | .keyLoad f src blob => Sys2Proof.Machine.execKeyLoad f src blob s
  | .modelLoad f src header => Sys2Proof.Machine.execModelLoad f src header s
  | .modelUnload f src => Sys2Proof.Machine.execModelUnload f src s
  | .adapterLoad f src header => Sys2Proof.Machine.execAdapterLoad f src header s
  | .adapterUnload f src => Sys2Proof.Machine.execAdapterUnload f src s
  | .modelQuery f src => Sys2Proof.Machine.execModelQuery f src s
  | .progLoad f src manifest image => Sys2Proof.Machine.execProgLoad f src manifest image s
  | .progUnload f src => Sys2Proof.Machine.execProgUnload f src s
  | .flintLoad f src image => Sys2Proof.Machine.execFlintLoad f src image s
  | .flintUnload f src => Sys2Proof.Machine.execFlintUnload f src s
  | .profileSet f src table => Sys2Proof.Machine.execProfileSet f src table s
  | .profileFree f src => Sys2Proof.Machine.execProfileFree f src s
  | .poolSet f src => Sys2Proof.Machine.execPoolSet f src s
  | .limitSet f src => Sys2Proof.Machine.execLimitSet f src s
  | .phaseOpSet f src => Sys2Proof.Machine.execPhaseOpSet f src s
  | .fwUpdate f src bundle => Sys2Proof.Machine.execFwUpdate f src bundle s
  | .provStage f src data => Sys2Proof.Machine.execProvStage f src data s
  | .reqSubmit f src prompt => Sys2Proof.Machine.execReqSubmit f src prompt s
  | .reqCancel f src => Sys2Proof.Machine.execReqCancel f src s
  | .reqQuery f src => Sys2Proof.Machine.execReqQuery f src s
  | .taskRun f src => Sys2Proof.Machine.execTaskRun f src s
  | .flintRun f src => Sys2Proof.Machine.execFlintRun f src s
  | .flintRunStart net => Sys2Proof.Machine.execFlintRunStart net s
  | .bootGo f v => Sys2Proof.Machine.execBootGo f v s
  | .bundleFetchComplete bundle => Sys2Proof.Machine.execBundleFetchComplete bundle s
  | .processorRunning p => Sys2Proof.Machine.execProcessorRunning p s
  | .watchdogExpiry p => Sys2Proof.Machine.execWatchdogExpiry p s
  | .processorMemoryUe p => Sys2Proof.Machine.execProcessorMemoryUe p s
  | .trapInTrapHandler p => Sys2Proof.Machine.execTrapInTrapHandler p s
  | .revocationDeferred p => Sys2Proof.Machine.execRevocationDeferred p s
  | .pauseLimitExpiry p => Sys2Proof.Machine.execPauseLimitExpiry p s
  | .handoffSafePoint p block => Sys2Proof.Machine.execHandoffSafePoint p block s
  | .fwTargetReplaced p => Sys2Proof.Machine.execFwTargetReplaced p s
  | .getCertificate mctp slot off len wellFormed => Sys2Proof.Machine.execGetCertificate mctp slot off len wellFormed s
  | .challenge mctp slot nonce wellFormed => Sys2Proof.Machine.execChallenge mctp slot nonce wellFormed s
  | .keyExchange mctp slot share wellFormed => Sys2Proof.Machine.execKeyExchange mctp slot share wellFormed s
  | .getMeasurements mctp op nonce wellFormed => Sys2Proof.Machine.execGetMeasurements mctp op nonce wellFormed s
  | .ideKm session stream go wellFormed => Sys2Proof.Machine.execIdeKm session stream go wellFormed s
  | .keyCert p frag frags data => Sys2Proof.Machine.execKeyCert p frag frags data s
  | .keyShare p pub => Sys2Proof.Machine.execKeyShare p pub s
  | .keyProof p sig => Sys2Proof.Machine.execKeyProof p sig s
  | .keyDone p phase => Sys2Proof.Machine.execKeyDone p phase s
  | .rekeyDue p => Sys2Proof.Machine.execRekeyDue p s
  | .rekey p phase => Sys2Proof.Machine.execRekey p phase s
  | .rekeyAck p phase => Sys2Proof.Machine.execRekeyAck p phase s
  | .instructionDispatch k => Sys2Proof.Machine.execInstructionDispatch k s
  | .nop k slot => Sys2Proof.Machine.execNop k slot s
  | .spanLoadb k => Sys2Proof.Machine.execSpanLoadb k s
  | .spanMm k => Sys2Proof.Machine.execSpanMm k s
  | .spanDrain k => Sys2Proof.Machine.execSpanDrain k s
  | .vadd k => Sys2Proof.Machine.execVadd k s
  | .vsub k => Sys2Proof.Machine.execVsub k s
  | .vmul k => Sys2Proof.Machine.execVmul k s
  | .vfma k => Sys2Proof.Machine.execVfma k s
  | .vmin k => Sys2Proof.Machine.execVmin k s
  | .vmax k => Sys2Proof.Machine.execVmax k s
  | .vcmp k => Sys2Proof.Machine.execVcmp k s
  | .vsel k => Sys2Proof.Machine.execVsel k s
  | .vcvt k => Sys2Proof.Machine.execVcvt k s
  | .vexp k => Sys2Proof.Machine.execVexp k s
  | .vrcp k => Sys2Proof.Machine.execVrcp k s
  | .vrsq k => Sys2Proof.Machine.execVrsq k s
  | .vsin k => Sys2Proof.Machine.execVsin k s
  | .vcos k => Sys2Proof.Machine.execVcos k s
  | .vmaxr k => Sys2Proof.Machine.execVmaxr k s
  | .vexps k => Sys2Proof.Machine.execVexps k s
  | .vresc k => Sys2Proof.Machine.execVresc k s
  | .vtopk k => Sys2Proof.Machine.execVtopk k s
  | .vrot k => Sys2Proof.Machine.execVrot k s
  | .vrel k => Sys2Proof.Machine.execVrel k s
  | .vsets k => Sys2Proof.Machine.execVsets k s
  | .vmovr k => Sys2Proof.Machine.execVmovr k s
  | .vfclr k => Sys2Proof.Machine.execVfclr k s
  | .sld k => Sys2Proof.Machine.execSld k s
  | .dmaGo k => Sys2Proof.Machine.execDmaGo k s
  | .syncWait k => Sys2Proof.Machine.execSyncWait k s
  | .syncAdd k => Sys2Proof.Machine.execSyncAdd k s
  | .syncTas k => Sys2Proof.Machine.execSyncTas k s
  | .loop k => Sys2Proof.Machine.execLoop k s
  | .seti k => Sys2Proof.Machine.execSeti k s
  | .inc k => Sys2Proof.Machine.execInc k s
  | .setd k => Sys2Proof.Machine.execSetd k s
  | .halt k => Sys2Proof.Machine.execHalt k s
  | .instructionComplete k n => Sys2Proof.Machine.execInstructionComplete k n s
  | .dmaDescriptorComplete e => Sys2Proof.Machine.execDmaDescriptorComplete e s
  | .bankStarvation k bank => Sys2Proof.Machine.execBankStarvation k bank s
  | .taskPlaced n => Sys2Proof.Machine.execTaskPlaced n s
  | .taskEnd n => Sys2Proof.Machine.execTaskEnd n s
  | .visionRecord n => Sys2Proof.Machine.execVisionRecord n s
  | .hbmTempRead h temp => Sys2Proof.Machine.execHbmTempRead h temp s
  | .hbmScrub h corrected uncorrectable => Sys2Proof.Machine.execHbmScrub h corrected uncorrectable s
  | .hbmStackLost h => Sys2Proof.Machine.execHbmStackLost h s
  | .uncorrectableUnit u => Sys2Proof.Machine.execUncorrectableUnit u s
  | .stepBuild => Sys2Proof.Machine.execStepBuild s
  | .stepEnd rows => Sys2Proof.Machine.execStepEnd rows s
  | .jasperRow idx draft node logits => Sys2Proof.Machine.execJasperRow idx draft node logits s
  | .pageFetch eng k base bias idx draft layer col => Sys2Proof.Machine.execPageFetch eng k base bias idx draft layer col s
  | .pageFetchDone eng => Sys2Proof.Machine.execPageFetchDone eng s
  | .sealStart eng => Sys2Proof.Machine.execSealStart eng s
  | .sealSwitch eng second => Sys2Proof.Machine.execSealSwitch eng second s
  | .sealStarvation eng => Sys2Proof.Machine.execSealStarvation eng s
  | .tierFetchDone k n raw => Sys2Proof.Machine.execTierFetchDone k n raw s
  | .poolViewDue => Sys2Proof.Machine.execPoolViewDue s
  | .poolView src tag body => Sys2Proof.Machine.execPoolView src tag body s
  | .advertDue => Sys2Proof.Machine.execAdvertDue s
  | .advert src tag body => Sys2Proof.Machine.execAdvert src tag body s
  | .assign src tag body => Sys2Proof.Machine.execAssign src tag body s
  | .assignAck src tag body => Sys2Proof.Machine.execAssignAck src tag body s
  | .tokenSeg src tag body => Sys2Proof.Machine.execTokenSeg src tag body s
  | .profileSeg src tag body => Sys2Proof.Machine.execProfileSeg src tag body s
  | .tokens src tag body => Sys2Proof.Machine.execTokens src tag body s
  | .cancel src tag body => Sys2Proof.Machine.execCancel src tag body s
  | .shipOffer src tag body => Sys2Proof.Machine.execShipOffer src tag body s
  | .shipAccept src tag body => Sys2Proof.Machine.execShipAccept src tag body s
  | .shipRefuse src tag body => Sys2Proof.Machine.execShipRefuse src tag body s
  | .shipOfferRetry idx => Sys2Proof.Machine.execShipOfferRetry idx s
  | .shipPage src tag body => Sys2Proof.Machine.execShipPage src tag body s
  | .shipEnd src tag body => Sys2Proof.Machine.execShipEnd src tag body s
  | .shipDone src tag body => Sys2Proof.Machine.execShipDone src tag body s
  | .shipAbort src tag body => Sys2Proof.Machine.execShipAbort src tag body s
  | .shipTimeout idx => Sys2Proof.Machine.execShipTimeout idx s
  | .workRouteTimeout idx => Sys2Proof.Machine.execWorkRouteTimeout idx s
  | .homeRouteTimeout idx => Sys2Proof.Machine.execHomeRouteTimeout idx s
  | .loadBegin src tag body => Sys2Proof.Machine.execLoadBegin src tag body s
  | .weightChunk src tag body => Sys2Proof.Machine.execWeightChunk src tag body s
  | .loadStatus src tag body => Sys2Proof.Machine.execLoadStatus src tag body s
  | .loadEnd src tag body => Sys2Proof.Machine.execLoadEnd src tag body s
  | .repairReq src tag body => Sys2Proof.Machine.execRepairReq src tag body s
  | .repairData src tag body => Sys2Proof.Machine.execRepairData src tag body s
  | .reduce src tag body => Sys2Proof.Machine.execReduce src tag body s
  | .gather src tag body => Sys2Proof.Machine.execGather src tag body s
  | .flintStrobe => Sys2Proof.Machine.execFlintStrobe s
  | .flintInputWake net => Sys2Proof.Machine.execFlintInputWake net s
  | .flintLagOverflow net tile => Sys2Proof.Machine.execFlintLagOverflow net tile s
  | .flintDurationEnd net => Sys2Proof.Machine.execFlintDurationEnd net s
  | .ts1 p sets => Sys2Proof.Machine.execTs1 p sets s
  | .ts2 p o => Sys2Proof.Machine.execTs2 p o s
  | .hold p o => Sys2Proof.Machine.execHold p o s
  | .req p o => Sys2Proof.Machine.execReq p o s
  | .accept p o => Sys2Proof.Machine.execAccept p o s
  | .trainingStageDone p lanes delay => Sys2Proof.Machine.execTrainingStageDone p lanes delay s
  | .trainingStageTimeout p => Sys2Proof.Machine.execTrainingStageTimeout p s
  | .trainingRetry p => Sys2Proof.Machine.execTrainingRetry p s
  | .firstSecondEnd => Sys2Proof.Machine.execFirstSecondEnd s
  | .frame p seq ack vc nak phase credVc credits payload corr uncorr crcOk => Sys2Proof.Machine.execFrame p seq ack vc nak phase credVc credits payload corr uncorr crcOk s
  | .laneLockLost p lane => Sys2Proof.Machine.execLaneLockLost p lane s
  | .fecBurst p n => Sys2Proof.Machine.execFecBurst p n s
  | .replayLimit p => Sys2Proof.Machine.execReplayLimit p s
  | .lowModeTimer p => Sys2Proof.Machine.execLowModeTimer p s
  | .linkReq p request target cause => Sys2Proof.Machine.execLinkReq p request target cause s
  | .linkDownTimeout p => Sys2Proof.Machine.execLinkDownTimeout p s
  | .linkStateRecord p body => Sys2Proof.Machine.execLinkStateRecord p body s
  | .recordRefreshDue => Sys2Proof.Machine.execRecordRefreshDue s
  | .recordAgeOut id => Sys2Proof.Machine.execRecordAgeOut id s
  | .settle => Sys2Proof.Machine.execSettle s
  | .addressHoldExpiry a => Sys2Proof.Machine.execAddressHoldExpiry a s
  | .messageForward => Sys2Proof.Machine.execMessageForward s
  | .vcHeadStall p vc => Sys2Proof.Machine.execVcHeadStall p vc s
  | .mseqGapTimeout src cls => Sys2Proof.Machine.execMseqGapTimeout src cls s
  | .coreEnAssert => Sys2Proof.Machine.execCoreEnAssert s
  | .vcoreGood => Sys2Proof.Machine.execVcoreGood s
  | .coreEnDeassert => Sys2Proof.Machine.execCoreEnDeassert s
  | .rampSettled => Sys2Proof.Machine.execRampSettled s
  | .slewWindow want => Sys2Proof.Machine.execSlewWindow want s
  | .phaseImbalance k => Sys2Proof.Machine.execPhaseImbalance k s
  | .phaseProbeEnd k rose => Sys2Proof.Machine.execPhaseProbeEnd k rose s
  | .senseStuck k => Sys2Proof.Machine.execSenseStuck k s
  | .senseOutOfRange k => Sys2Proof.Machine.execSenseOutOfRange k s
  | .phFault k => Sys2Proof.Machine.execPhFault k s
  | .stageOver140 k => Sys2Proof.Machine.execStageOver140 k s
  | .stageHot k => Sys2Proof.Machine.execStageHot k s
  | .stageCooled k => Sys2Proof.Machine.execStageCooled k s
  | .droopCrossing k level => Sys2Proof.Machine.execDroopCrossing k level s
  | .droopStepDown k => Sys2Proof.Machine.execDroopStepDown k s
  | .droopHoldEnd => Sys2Proof.Machine.execDroopHoldEnd s
  | .overshoot => Sys2Proof.Machine.execOvershoot s
  | .pwrbrkAssert => Sys2Proof.Machine.execPwrbrkAssert s
  | .pwrbrkRelease => Sys2Proof.Machine.execPwrbrkRelease s
  | .alertCauseWrite f v => Sys2Proof.Machine.execAlertCauseWrite f v s
  | .pmcUpdate m => Sys2Proof.Machine.execPmcUpdate m s
  | .energyWindow input shares => Sys2Proof.Machine.execEnergyWindow input shares s
  | .modelRefit => Sys2Proof.Machine.execModelRefit s
  | .meterSelfCheck ok => Sys2Proof.Machine.execMeterSelfCheck ok s
  | .meterStuck => Sys2Proof.Machine.execMeterStuck s
  | .thermalSensorSample readings => Sys2Proof.Machine.execThermalSensorSample readings s
  | .sensorExclusion k => Sys2Proof.Machine.execSensorExclusion k s
  | .criticalTimeout => Sys2Proof.Machine.execCriticalTimeout s
  | .thermtrip => Sys2Proof.Machine.execThermtrip s
  | .sysclk25mLoss => Sys2Proof.Machine.execSysclk25mLoss s
  | .fabRefclkLoss => Sys2Proof.Machine.execFabRefclkLoss s
  | .fabRefclkReturn => Sys2Proof.Machine.execFabRefclkReturn s
  | .setdasa => Sys2Proof.Machine.execSetdasa s
  | .entdaa addr => Sys2Proof.Machine.execEntdaa addr s
  | .disec => Sys2Proof.Machine.execDisec s
  | .mctpControl req => Sys2Proof.Machine.execMctpControl req s
  | .pldmRequest req => Sys2Proof.Machine.execPldmRequest req s
  | .extest => Sys2Proof.Machine.execExtest s
  | .idcode => Sys2Proof.Machine.execIdcode s
  | .samplePreload levels => Sys2Proof.Machine.execSamplePreload levels s
  | .clamp => Sys2Proof.Machine.execClamp s
  | .highz => Sys2Proof.Machine.execHighz s
  | .extestPulse => Sys2Proof.Machine.execExtestPulse s
  | .extestTrain => Sys2Proof.Machine.execExtestTrain s
  | .bypass => Sys2Proof.Machine.execBypass s
  | .trst => Sys2Proof.Machine.execTrst s
  | .telemetryCounterRead f k part => Sys2Proof.Machine.execTelemetryCounterRead f k part s
  | .vddAuxLoss => Sys2Proof.Machine.execVddAuxLoss s
  | .sysclk25mReturn => Sys2Proof.Machine.execSysclk25mReturn s
  | .aonReady => Sys2Proof.Machine.execAonReady s
  | .ftRunning => Sys2Proof.Machine.execFtRunning s
  | .cxlMemRequest line write keeps uncorrectable => Sys2Proof.Machine.execCxlMemRequest line write keeps uncorrectable s
  | .l0pWidthChange width => Sys2Proof.Machine.execL0pWidthChange width s
  | .enec => Sys2Proof.Machine.execEnec s
  | .getVersion mctp v12 v13 wellFormed => Sys2Proof.Machine.execGetVersion mctp v12 v13 wellFormed s
  | .getCapabilities mctp wellFormed => Sys2Proof.Machine.execGetCapabilities mctp wellFormed s
  | .negotiateAlgorithms mctp offers wellFormed => Sys2Proof.Machine.execNegotiateAlgorithms mctp offers wellFormed s
  | .finish session macOk wellFormed => Sys2Proof.Machine.execFinish session macOk wellFormed s
  | .endSession session wellFormed => Sys2Proof.Machine.execEndSession session wellFormed s
  | .keyUpdate session wellFormed => Sys2Proof.Machine.execKeyUpdate session wellFormed s
  | .heartbeat session wellFormed => Sys2Proof.Machine.execHeartbeat session wellFormed s
  | .vcoreGoodDeassert => Sys2Proof.Machine.execVcoreGoodDeassert s
  | .streamChunk n data => Sys2Proof.Machine.execStreamChunk n data s
  | .norOperationDone => Sys2Proof.Machine.execNorOperationDone s

end Sys2Proof.Machine
end

