-- ==== Sys2Proof/Machine/Tick.lean ====
section
/-! DEFINITION. What a tick of the 625 MHz clock changes where no command waits (log 1): the model's clock, fabric time (01 R15), a
ramp of the VDD_CORE setpoint (19 R393, R395) and the end of an overshoot (R409). -/

namespace Sys2Proof.Machine

/-- A value moves towards another by at most d. -/
def towardsBy (d a b : Nat) : Nat := if a < b then min b (a + d) else max b (a - d)

/-- The setpoint of VDD_CORE moves towards its target: 5 mV/µs (R395), or 0.5 V/ms at power-up and power-down (R392, R393),
through PERST# too. Once THERMTRIP# has stopped the clocks nothing moves. -/
def rampSetpoint (s : State) : State :=
  updPower (fun p => { p with
    setpoint := towardsBy (if p.slow then 8 else 80) p.setpoint p.target, overshoot := false }) s

/-- Fabric time counts at its rate while the part is out of reset with the fabric reference clock present (01 R15). -/
def countFabric (s : State) : State :=
  { s with ft := if !s.pins.perst && s.pins.refFab then { s.ft with count := s.ft.count + s.ft.rate.zeroExtend 80 } else s.ft }

/-- One tick of 1.6 ns. -/
def tick (s : State) : State :=
  let t := { s with time := s.time + 1 }
  if s.pins.clocksStopped then t else rampSetpoint (countFabric t)

end Sys2Proof.Machine
end

