-- ==== Sys2Proof/Laws/State.lean ====
section
/-! SUPPORT. What each update of the state leaves alone, one lemma for each field and update, and what it does to the field it
changes, so that no proof unfolds a record update. -/

namespace Sys2Proof.Laws

open Sys2Proof.Machine

/-! ## emit -/

@[simp] theorem emit_time (o : Out) (s : State) : (emit o s).time = s.time := rfl
@[simp] theorem emit_ready (o : Out) (s : State) : (emit o s).ready = s.ready := rfl
@[simp] theorem emit_cnt (o : Out) (s : State) : (emit o s).cnt = s.cnt := rfl
@[simp] theorem emit_fcnt (o : Out) (s : State) : (emit o s).fcnt = s.fcnt := rfl
@[simp] theorem emit_pins (o : Out) (s : State) : (emit o s).pins = s.pins := rfl
@[simp] theorem emit_ft (o : Out) (s : State) : (emit o s).ft = s.ft := rfl
@[simp] theorem emit_brown (o : Out) (s : State) : (emit o s).brown = s.brown := rfl
@[simp] theorem emit_link (o : Out) (s : State) : (emit o s).link = s.link := rfl
@[simp] theorem emit_cxl (o : Out) (s : State) : (emit o s).cxl = s.cxl := rfl
@[simp] theorem emit_funcs (o : Out) (s : State) : (emit o s).funcs = s.funcs := rfl
@[simp] theorem emit_boot (o : Out) (s : State) : (emit o s).boot = s.boot := rfl
@[simp] theorem emit_procs (o : Out) (s : State) : (emit o s).procs = s.procs := rfl
@[simp] theorem emit_upd (o : Out) (s : State) : (emit o s).upd = s.upd := rfl
@[simp] theorem emit_hand (o : Out) (s : State) : (emit o s).hand = s.hand := rfl
@[simp] theorem emit_fuses (o : Out) (s : State) : (emit o s).fuses = s.fuses := rfl
@[simp] theorem emit_sec (o : Out) (s : State) : (emit o s).sec = s.sec := rfl
@[simp] theorem emit_nor (o : Out) (s : State) : (emit o s).nor = s.nor := rfl
@[simp] theorem emit_prov (o : Out) (s : State) : (emit o s).prov = s.prov := rfl
@[simp] theorem emit_settings (o : Out) (s : State) : (emit o s).settings = s.settings := rfl
@[simp] theorem emit_hbm (o : Out) (s : State) : (emit o s).hbm = s.hbm := rfl
@[simp] theorem emit_store (o : Out) (s : State) : (emit o s).store = s.store := rfl
@[simp] theorem emit_bufs (o : Out) (s : State) : (emit o s).bufs = s.bufs := rfl
@[simp] theorem emit_cores (o : Out) (s : State) : (emit o s).cores = s.cores := rfl
@[simp] theorem emit_ctrs (o : Out) (s : State) : (emit o s).ctrs = s.ctrs := rfl
@[simp] theorem emit_engines (o : Out) (s : State) : (emit o s).engines = s.engines := rfl
@[simp] theorem emit_chipDma (o : Out) (s : State) : (emit o s).chipDma = s.chipDma := rfl
@[simp] theorem emit_progs (o : Out) (s : State) : (emit o s).progs = s.progs := rfl
@[simp] theorem emit_tasks (o : Out) (s : State) : (emit o s).tasks = s.tasks := rfl
@[simp] theorem emit_nextTask (o : Out) (s : State) : (emit o s).nextTask = s.nextTask := rfl
@[simp] theorem emit_turn (o : Out) (s : State) : (emit o s).turn = s.turn := rfl
@[simp] theorem emit_kv (o : Out) (s : State) : (emit o s).kv = s.kv := rfl
@[simp] theorem emit_serve (o : Out) (s : State) : (emit o s).serve = s.serve := rfl
@[simp] theorem emit_flint (o : Out) (s : State) : (emit o s).flint = s.flint := rfl
@[simp] theorem emit_fab (o : Out) (s : State) : (emit o s).fab = s.fab := rfl
@[simp] theorem emit_power (o : Out) (s : State) : (emit o s).power = s.power := rfl
@[simp] theorem emit_caps (o : Out) (s : State) : (emit o s).caps = s.caps := rfl
@[simp] theorem emit_meter (o : Out) (s : State) : (emit o s).meter = s.meter := rfl
@[simp] theorem emit_thermal (o : Out) (s : State) : (emit o s).thermal = s.thermal := rfl
@[simp] theorem emit_side (o : Out) (s : State) : (emit o s).side = s.side := rfl
@[simp] theorem emit_issued (o : Out) (s : State) : (emit o s).issued = s.issued := rfl
@[simp] theorem emit_mem (o : Out) (s : State) : (emit o s).mem = s.mem := rfl
@[simp] theorem emit_free (o : Out) (s : State) : (emit o s).free = s.free := rfl
@[simp] theorem emit_pending (o : Out) (s : State) : (emit o s).pending = s.pending := rfl

/-! ## tookFree -/

@[simp] theorem tookFree_time (s : State) : (tookFree s).time = s.time := rfl
@[simp] theorem tookFree_ready (s : State) : (tookFree s).ready = s.ready := rfl
@[simp] theorem tookFree_cnt (s : State) : (tookFree s).cnt = s.cnt := rfl
@[simp] theorem tookFree_fcnt (s : State) : (tookFree s).fcnt = s.fcnt := rfl
@[simp] theorem tookFree_pins (s : State) : (tookFree s).pins = s.pins := rfl
@[simp] theorem tookFree_ft (s : State) : (tookFree s).ft = s.ft := rfl
@[simp] theorem tookFree_brown (s : State) : (tookFree s).brown = s.brown := rfl
@[simp] theorem tookFree_link (s : State) : (tookFree s).link = s.link := rfl
@[simp] theorem tookFree_cxl (s : State) : (tookFree s).cxl = s.cxl := rfl
@[simp] theorem tookFree_funcs (s : State) : (tookFree s).funcs = s.funcs := rfl
@[simp] theorem tookFree_boot (s : State) : (tookFree s).boot = s.boot := rfl
@[simp] theorem tookFree_procs (s : State) : (tookFree s).procs = s.procs := rfl
@[simp] theorem tookFree_upd (s : State) : (tookFree s).upd = s.upd := rfl
@[simp] theorem tookFree_hand (s : State) : (tookFree s).hand = s.hand := rfl
@[simp] theorem tookFree_fuses (s : State) : (tookFree s).fuses = s.fuses := rfl
@[simp] theorem tookFree_sec (s : State) : (tookFree s).sec = s.sec := rfl
@[simp] theorem tookFree_nor (s : State) : (tookFree s).nor = s.nor := rfl
@[simp] theorem tookFree_prov (s : State) : (tookFree s).prov = s.prov := rfl
@[simp] theorem tookFree_settings (s : State) : (tookFree s).settings = s.settings := rfl
@[simp] theorem tookFree_hbm (s : State) : (tookFree s).hbm = s.hbm := rfl
@[simp] theorem tookFree_store (s : State) : (tookFree s).store = s.store := rfl
@[simp] theorem tookFree_bufs (s : State) : (tookFree s).bufs = s.bufs := rfl
@[simp] theorem tookFree_cores (s : State) : (tookFree s).cores = s.cores := rfl
@[simp] theorem tookFree_ctrs (s : State) : (tookFree s).ctrs = s.ctrs := rfl
@[simp] theorem tookFree_engines (s : State) : (tookFree s).engines = s.engines := rfl
@[simp] theorem tookFree_chipDma (s : State) : (tookFree s).chipDma = s.chipDma := rfl
@[simp] theorem tookFree_progs (s : State) : (tookFree s).progs = s.progs := rfl
@[simp] theorem tookFree_tasks (s : State) : (tookFree s).tasks = s.tasks := rfl
@[simp] theorem tookFree_nextTask (s : State) : (tookFree s).nextTask = s.nextTask := rfl
@[simp] theorem tookFree_turn (s : State) : (tookFree s).turn = s.turn := rfl
@[simp] theorem tookFree_kv (s : State) : (tookFree s).kv = s.kv := rfl
@[simp] theorem tookFree_serve (s : State) : (tookFree s).serve = s.serve := rfl
@[simp] theorem tookFree_flint (s : State) : (tookFree s).flint = s.flint := rfl
@[simp] theorem tookFree_fab (s : State) : (tookFree s).fab = s.fab := rfl
@[simp] theorem tookFree_power (s : State) : (tookFree s).power = s.power := rfl
@[simp] theorem tookFree_caps (s : State) : (tookFree s).caps = s.caps := rfl
@[simp] theorem tookFree_meter (s : State) : (tookFree s).meter = s.meter := rfl
@[simp] theorem tookFree_thermal (s : State) : (tookFree s).thermal = s.thermal := rfl
@[simp] theorem tookFree_side (s : State) : (tookFree s).side = s.side := rfl
@[simp] theorem tookFree_issued (s : State) : (tookFree s).issued = s.issued := rfl
@[simp] theorem tookFree_mem (s : State) : (tookFree s).mem = s.mem := rfl
@[simp] theorem tookFree_out (s : State) : (tookFree s).out = s.out := rfl
@[simp] theorem tookFree_pending (s : State) : (tookFree s).pending = s.pending := rfl

/-! ## bumpPartBy -/

@[simp] theorem bumpPartBy_time (k n : Nat) (s : State) : (bumpPartBy k n s).time = s.time := rfl
@[simp] theorem bumpPartBy_ready (k n : Nat) (s : State) : (bumpPartBy k n s).ready = s.ready := rfl
@[simp] theorem bumpPartBy_fcnt (k n : Nat) (s : State) : (bumpPartBy k n s).fcnt = s.fcnt := rfl
@[simp] theorem bumpPartBy_pins (k n : Nat) (s : State) : (bumpPartBy k n s).pins = s.pins := rfl
@[simp] theorem bumpPartBy_ft (k n : Nat) (s : State) : (bumpPartBy k n s).ft = s.ft := rfl
@[simp] theorem bumpPartBy_brown (k n : Nat) (s : State) : (bumpPartBy k n s).brown = s.brown := rfl
@[simp] theorem bumpPartBy_link (k n : Nat) (s : State) : (bumpPartBy k n s).link = s.link := rfl
@[simp] theorem bumpPartBy_cxl (k n : Nat) (s : State) : (bumpPartBy k n s).cxl = s.cxl := rfl
@[simp] theorem bumpPartBy_funcs (k n : Nat) (s : State) : (bumpPartBy k n s).funcs = s.funcs := rfl
@[simp] theorem bumpPartBy_boot (k n : Nat) (s : State) : (bumpPartBy k n s).boot = s.boot := rfl
@[simp] theorem bumpPartBy_procs (k n : Nat) (s : State) : (bumpPartBy k n s).procs = s.procs := rfl
@[simp] theorem bumpPartBy_upd (k n : Nat) (s : State) : (bumpPartBy k n s).upd = s.upd := rfl
@[simp] theorem bumpPartBy_hand (k n : Nat) (s : State) : (bumpPartBy k n s).hand = s.hand := rfl
@[simp] theorem bumpPartBy_fuses (k n : Nat) (s : State) : (bumpPartBy k n s).fuses = s.fuses := rfl
@[simp] theorem bumpPartBy_sec (k n : Nat) (s : State) : (bumpPartBy k n s).sec = s.sec := rfl
@[simp] theorem bumpPartBy_nor (k n : Nat) (s : State) : (bumpPartBy k n s).nor = s.nor := rfl
@[simp] theorem bumpPartBy_prov (k n : Nat) (s : State) : (bumpPartBy k n s).prov = s.prov := rfl
@[simp] theorem bumpPartBy_settings (k n : Nat) (s : State) : (bumpPartBy k n s).settings = s.settings := rfl
@[simp] theorem bumpPartBy_hbm (k n : Nat) (s : State) : (bumpPartBy k n s).hbm = s.hbm := rfl
@[simp] theorem bumpPartBy_store (k n : Nat) (s : State) : (bumpPartBy k n s).store = s.store := rfl
@[simp] theorem bumpPartBy_bufs (k n : Nat) (s : State) : (bumpPartBy k n s).bufs = s.bufs := rfl
@[simp] theorem bumpPartBy_cores (k n : Nat) (s : State) : (bumpPartBy k n s).cores = s.cores := rfl
@[simp] theorem bumpPartBy_ctrs (k n : Nat) (s : State) : (bumpPartBy k n s).ctrs = s.ctrs := rfl
@[simp] theorem bumpPartBy_engines (k n : Nat) (s : State) : (bumpPartBy k n s).engines = s.engines := rfl
@[simp] theorem bumpPartBy_chipDma (k n : Nat) (s : State) : (bumpPartBy k n s).chipDma = s.chipDma := rfl
@[simp] theorem bumpPartBy_progs (k n : Nat) (s : State) : (bumpPartBy k n s).progs = s.progs := rfl
@[simp] theorem bumpPartBy_tasks (k n : Nat) (s : State) : (bumpPartBy k n s).tasks = s.tasks := rfl
@[simp] theorem bumpPartBy_nextTask (k n : Nat) (s : State) : (bumpPartBy k n s).nextTask = s.nextTask := rfl
@[simp] theorem bumpPartBy_turn (k n : Nat) (s : State) : (bumpPartBy k n s).turn = s.turn := rfl
@[simp] theorem bumpPartBy_kv (k n : Nat) (s : State) : (bumpPartBy k n s).kv = s.kv := rfl
@[simp] theorem bumpPartBy_serve (k n : Nat) (s : State) : (bumpPartBy k n s).serve = s.serve := rfl
@[simp] theorem bumpPartBy_flint (k n : Nat) (s : State) : (bumpPartBy k n s).flint = s.flint := rfl
@[simp] theorem bumpPartBy_fab (k n : Nat) (s : State) : (bumpPartBy k n s).fab = s.fab := rfl
@[simp] theorem bumpPartBy_power (k n : Nat) (s : State) : (bumpPartBy k n s).power = s.power := rfl
@[simp] theorem bumpPartBy_caps (k n : Nat) (s : State) : (bumpPartBy k n s).caps = s.caps := rfl
@[simp] theorem bumpPartBy_meter (k n : Nat) (s : State) : (bumpPartBy k n s).meter = s.meter := rfl
@[simp] theorem bumpPartBy_thermal (k n : Nat) (s : State) : (bumpPartBy k n s).thermal = s.thermal := rfl
@[simp] theorem bumpPartBy_side (k n : Nat) (s : State) : (bumpPartBy k n s).side = s.side := rfl
@[simp] theorem bumpPartBy_issued (k n : Nat) (s : State) : (bumpPartBy k n s).issued = s.issued := rfl
@[simp] theorem bumpPartBy_mem (k n : Nat) (s : State) : (bumpPartBy k n s).mem = s.mem := rfl
@[simp] theorem bumpPartBy_out (k n : Nat) (s : State) : (bumpPartBy k n s).out = s.out := rfl
@[simp] theorem bumpPartBy_free (k n : Nat) (s : State) : (bumpPartBy k n s).free = s.free := rfl
@[simp] theorem bumpPartBy_pending (k n : Nat) (s : State) : (bumpPartBy k n s).pending = s.pending := rfl

/-! ## bumpBy -/

@[simp] theorem bumpBy_time (f k n : Nat) (s : State) : (bumpBy f k n s).time = s.time := rfl
@[simp] theorem bumpBy_ready (f k n : Nat) (s : State) : (bumpBy f k n s).ready = s.ready := rfl
@[simp] theorem bumpBy_pins (f k n : Nat) (s : State) : (bumpBy f k n s).pins = s.pins := rfl
@[simp] theorem bumpBy_ft (f k n : Nat) (s : State) : (bumpBy f k n s).ft = s.ft := rfl
@[simp] theorem bumpBy_brown (f k n : Nat) (s : State) : (bumpBy f k n s).brown = s.brown := rfl
@[simp] theorem bumpBy_link (f k n : Nat) (s : State) : (bumpBy f k n s).link = s.link := rfl
@[simp] theorem bumpBy_cxl (f k n : Nat) (s : State) : (bumpBy f k n s).cxl = s.cxl := rfl
@[simp] theorem bumpBy_funcs (f k n : Nat) (s : State) : (bumpBy f k n s).funcs = s.funcs := rfl
@[simp] theorem bumpBy_boot (f k n : Nat) (s : State) : (bumpBy f k n s).boot = s.boot := rfl
@[simp] theorem bumpBy_procs (f k n : Nat) (s : State) : (bumpBy f k n s).procs = s.procs := rfl
@[simp] theorem bumpBy_upd (f k n : Nat) (s : State) : (bumpBy f k n s).upd = s.upd := rfl
@[simp] theorem bumpBy_hand (f k n : Nat) (s : State) : (bumpBy f k n s).hand = s.hand := rfl
@[simp] theorem bumpBy_fuses (f k n : Nat) (s : State) : (bumpBy f k n s).fuses = s.fuses := rfl
@[simp] theorem bumpBy_sec (f k n : Nat) (s : State) : (bumpBy f k n s).sec = s.sec := rfl
@[simp] theorem bumpBy_nor (f k n : Nat) (s : State) : (bumpBy f k n s).nor = s.nor := rfl
@[simp] theorem bumpBy_prov (f k n : Nat) (s : State) : (bumpBy f k n s).prov = s.prov := rfl
@[simp] theorem bumpBy_settings (f k n : Nat) (s : State) : (bumpBy f k n s).settings = s.settings := rfl
@[simp] theorem bumpBy_hbm (f k n : Nat) (s : State) : (bumpBy f k n s).hbm = s.hbm := rfl
@[simp] theorem bumpBy_store (f k n : Nat) (s : State) : (bumpBy f k n s).store = s.store := rfl
@[simp] theorem bumpBy_bufs (f k n : Nat) (s : State) : (bumpBy f k n s).bufs = s.bufs := rfl
@[simp] theorem bumpBy_cores (f k n : Nat) (s : State) : (bumpBy f k n s).cores = s.cores := rfl
@[simp] theorem bumpBy_ctrs (f k n : Nat) (s : State) : (bumpBy f k n s).ctrs = s.ctrs := rfl
@[simp] theorem bumpBy_engines (f k n : Nat) (s : State) : (bumpBy f k n s).engines = s.engines := rfl
@[simp] theorem bumpBy_chipDma (f k n : Nat) (s : State) : (bumpBy f k n s).chipDma = s.chipDma := rfl
@[simp] theorem bumpBy_progs (f k n : Nat) (s : State) : (bumpBy f k n s).progs = s.progs := rfl
@[simp] theorem bumpBy_tasks (f k n : Nat) (s : State) : (bumpBy f k n s).tasks = s.tasks := rfl
@[simp] theorem bumpBy_nextTask (f k n : Nat) (s : State) : (bumpBy f k n s).nextTask = s.nextTask := rfl
@[simp] theorem bumpBy_turn (f k n : Nat) (s : State) : (bumpBy f k n s).turn = s.turn := rfl
@[simp] theorem bumpBy_kv (f k n : Nat) (s : State) : (bumpBy f k n s).kv = s.kv := rfl
@[simp] theorem bumpBy_serve (f k n : Nat) (s : State) : (bumpBy f k n s).serve = s.serve := rfl
@[simp] theorem bumpBy_flint (f k n : Nat) (s : State) : (bumpBy f k n s).flint = s.flint := rfl
@[simp] theorem bumpBy_fab (f k n : Nat) (s : State) : (bumpBy f k n s).fab = s.fab := rfl
@[simp] theorem bumpBy_power (f k n : Nat) (s : State) : (bumpBy f k n s).power = s.power := rfl
@[simp] theorem bumpBy_caps (f k n : Nat) (s : State) : (bumpBy f k n s).caps = s.caps := rfl
@[simp] theorem bumpBy_meter (f k n : Nat) (s : State) : (bumpBy f k n s).meter = s.meter := rfl
@[simp] theorem bumpBy_thermal (f k n : Nat) (s : State) : (bumpBy f k n s).thermal = s.thermal := rfl
@[simp] theorem bumpBy_side (f k n : Nat) (s : State) : (bumpBy f k n s).side = s.side := rfl
@[simp] theorem bumpBy_issued (f k n : Nat) (s : State) : (bumpBy f k n s).issued = s.issued := rfl
@[simp] theorem bumpBy_mem (f k n : Nat) (s : State) : (bumpBy f k n s).mem = s.mem := rfl
@[simp] theorem bumpBy_out (f k n : Nat) (s : State) : (bumpBy f k n s).out = s.out := rfl
@[simp] theorem bumpBy_free (f k n : Nat) (s : State) : (bumpBy f k n s).free = s.free := rfl
@[simp] theorem bumpBy_pending (f k n : Nat) (s : State) : (bumpBy f k n s).pending = s.pending := rfl

/-! ## bump -/

@[simp] theorem bump_time (f k : Nat) (s : State) : (bump f k s).time = s.time := rfl
@[simp] theorem bump_ready (f k : Nat) (s : State) : (bump f k s).ready = s.ready := rfl
@[simp] theorem bump_pins (f k : Nat) (s : State) : (bump f k s).pins = s.pins := rfl
@[simp] theorem bump_ft (f k : Nat) (s : State) : (bump f k s).ft = s.ft := rfl
@[simp] theorem bump_brown (f k : Nat) (s : State) : (bump f k s).brown = s.brown := rfl
@[simp] theorem bump_link (f k : Nat) (s : State) : (bump f k s).link = s.link := rfl
@[simp] theorem bump_cxl (f k : Nat) (s : State) : (bump f k s).cxl = s.cxl := rfl
@[simp] theorem bump_funcs (f k : Nat) (s : State) : (bump f k s).funcs = s.funcs := rfl
@[simp] theorem bump_boot (f k : Nat) (s : State) : (bump f k s).boot = s.boot := rfl
@[simp] theorem bump_procs (f k : Nat) (s : State) : (bump f k s).procs = s.procs := rfl
@[simp] theorem bump_upd (f k : Nat) (s : State) : (bump f k s).upd = s.upd := rfl
@[simp] theorem bump_hand (f k : Nat) (s : State) : (bump f k s).hand = s.hand := rfl
@[simp] theorem bump_fuses (f k : Nat) (s : State) : (bump f k s).fuses = s.fuses := rfl
@[simp] theorem bump_sec (f k : Nat) (s : State) : (bump f k s).sec = s.sec := rfl
@[simp] theorem bump_nor (f k : Nat) (s : State) : (bump f k s).nor = s.nor := rfl
@[simp] theorem bump_prov (f k : Nat) (s : State) : (bump f k s).prov = s.prov := rfl
@[simp] theorem bump_settings (f k : Nat) (s : State) : (bump f k s).settings = s.settings := rfl
@[simp] theorem bump_hbm (f k : Nat) (s : State) : (bump f k s).hbm = s.hbm := rfl
@[simp] theorem bump_store (f k : Nat) (s : State) : (bump f k s).store = s.store := rfl
@[simp] theorem bump_bufs (f k : Nat) (s : State) : (bump f k s).bufs = s.bufs := rfl
@[simp] theorem bump_cores (f k : Nat) (s : State) : (bump f k s).cores = s.cores := rfl
@[simp] theorem bump_ctrs (f k : Nat) (s : State) : (bump f k s).ctrs = s.ctrs := rfl
@[simp] theorem bump_engines (f k : Nat) (s : State) : (bump f k s).engines = s.engines := rfl
@[simp] theorem bump_chipDma (f k : Nat) (s : State) : (bump f k s).chipDma = s.chipDma := rfl
@[simp] theorem bump_progs (f k : Nat) (s : State) : (bump f k s).progs = s.progs := rfl
@[simp] theorem bump_tasks (f k : Nat) (s : State) : (bump f k s).tasks = s.tasks := rfl
@[simp] theorem bump_nextTask (f k : Nat) (s : State) : (bump f k s).nextTask = s.nextTask := rfl
@[simp] theorem bump_turn (f k : Nat) (s : State) : (bump f k s).turn = s.turn := rfl
@[simp] theorem bump_kv (f k : Nat) (s : State) : (bump f k s).kv = s.kv := rfl
@[simp] theorem bump_serve (f k : Nat) (s : State) : (bump f k s).serve = s.serve := rfl
@[simp] theorem bump_flint (f k : Nat) (s : State) : (bump f k s).flint = s.flint := rfl
@[simp] theorem bump_fab (f k : Nat) (s : State) : (bump f k s).fab = s.fab := rfl
@[simp] theorem bump_power (f k : Nat) (s : State) : (bump f k s).power = s.power := rfl
@[simp] theorem bump_caps (f k : Nat) (s : State) : (bump f k s).caps = s.caps := rfl
@[simp] theorem bump_meter (f k : Nat) (s : State) : (bump f k s).meter = s.meter := rfl
@[simp] theorem bump_thermal (f k : Nat) (s : State) : (bump f k s).thermal = s.thermal := rfl
@[simp] theorem bump_side (f k : Nat) (s : State) : (bump f k s).side = s.side := rfl
@[simp] theorem bump_issued (f k : Nat) (s : State) : (bump f k s).issued = s.issued := rfl
@[simp] theorem bump_mem (f k : Nat) (s : State) : (bump f k s).mem = s.mem := rfl
@[simp] theorem bump_out (f k : Nat) (s : State) : (bump f k s).out = s.out := rfl
@[simp] theorem bump_free (f k : Nat) (s : State) : (bump f k s).free = s.free := rfl
@[simp] theorem bump_pending (f k : Nat) (s : State) : (bump f k s).pending = s.pending := rfl

/-! ## bumpPart -/

@[simp] theorem bumpPart_time (k : Nat) (s : State) : (bumpPart k s).time = s.time := rfl
@[simp] theorem bumpPart_ready (k : Nat) (s : State) : (bumpPart k s).ready = s.ready := rfl
@[simp] theorem bumpPart_fcnt (k : Nat) (s : State) : (bumpPart k s).fcnt = s.fcnt := rfl
@[simp] theorem bumpPart_pins (k : Nat) (s : State) : (bumpPart k s).pins = s.pins := rfl
@[simp] theorem bumpPart_ft (k : Nat) (s : State) : (bumpPart k s).ft = s.ft := rfl
@[simp] theorem bumpPart_brown (k : Nat) (s : State) : (bumpPart k s).brown = s.brown := rfl
@[simp] theorem bumpPart_link (k : Nat) (s : State) : (bumpPart k s).link = s.link := rfl
@[simp] theorem bumpPart_cxl (k : Nat) (s : State) : (bumpPart k s).cxl = s.cxl := rfl
@[simp] theorem bumpPart_funcs (k : Nat) (s : State) : (bumpPart k s).funcs = s.funcs := rfl
@[simp] theorem bumpPart_boot (k : Nat) (s : State) : (bumpPart k s).boot = s.boot := rfl
@[simp] theorem bumpPart_procs (k : Nat) (s : State) : (bumpPart k s).procs = s.procs := rfl
@[simp] theorem bumpPart_upd (k : Nat) (s : State) : (bumpPart k s).upd = s.upd := rfl
@[simp] theorem bumpPart_hand (k : Nat) (s : State) : (bumpPart k s).hand = s.hand := rfl
@[simp] theorem bumpPart_fuses (k : Nat) (s : State) : (bumpPart k s).fuses = s.fuses := rfl
@[simp] theorem bumpPart_sec (k : Nat) (s : State) : (bumpPart k s).sec = s.sec := rfl
@[simp] theorem bumpPart_nor (k : Nat) (s : State) : (bumpPart k s).nor = s.nor := rfl
@[simp] theorem bumpPart_prov (k : Nat) (s : State) : (bumpPart k s).prov = s.prov := rfl
@[simp] theorem bumpPart_settings (k : Nat) (s : State) : (bumpPart k s).settings = s.settings := rfl
@[simp] theorem bumpPart_hbm (k : Nat) (s : State) : (bumpPart k s).hbm = s.hbm := rfl
@[simp] theorem bumpPart_store (k : Nat) (s : State) : (bumpPart k s).store = s.store := rfl
@[simp] theorem bumpPart_bufs (k : Nat) (s : State) : (bumpPart k s).bufs = s.bufs := rfl
@[simp] theorem bumpPart_cores (k : Nat) (s : State) : (bumpPart k s).cores = s.cores := rfl
@[simp] theorem bumpPart_ctrs (k : Nat) (s : State) : (bumpPart k s).ctrs = s.ctrs := rfl
@[simp] theorem bumpPart_engines (k : Nat) (s : State) : (bumpPart k s).engines = s.engines := rfl
@[simp] theorem bumpPart_chipDma (k : Nat) (s : State) : (bumpPart k s).chipDma = s.chipDma := rfl
@[simp] theorem bumpPart_progs (k : Nat) (s : State) : (bumpPart k s).progs = s.progs := rfl
@[simp] theorem bumpPart_tasks (k : Nat) (s : State) : (bumpPart k s).tasks = s.tasks := rfl
@[simp] theorem bumpPart_nextTask (k : Nat) (s : State) : (bumpPart k s).nextTask = s.nextTask := rfl
@[simp] theorem bumpPart_turn (k : Nat) (s : State) : (bumpPart k s).turn = s.turn := rfl
@[simp] theorem bumpPart_kv (k : Nat) (s : State) : (bumpPart k s).kv = s.kv := rfl
@[simp] theorem bumpPart_serve (k : Nat) (s : State) : (bumpPart k s).serve = s.serve := rfl
@[simp] theorem bumpPart_flint (k : Nat) (s : State) : (bumpPart k s).flint = s.flint := rfl
@[simp] theorem bumpPart_fab (k : Nat) (s : State) : (bumpPart k s).fab = s.fab := rfl
@[simp] theorem bumpPart_power (k : Nat) (s : State) : (bumpPart k s).power = s.power := rfl
@[simp] theorem bumpPart_caps (k : Nat) (s : State) : (bumpPart k s).caps = s.caps := rfl
@[simp] theorem bumpPart_meter (k : Nat) (s : State) : (bumpPart k s).meter = s.meter := rfl
@[simp] theorem bumpPart_thermal (k : Nat) (s : State) : (bumpPart k s).thermal = s.thermal := rfl
@[simp] theorem bumpPart_side (k : Nat) (s : State) : (bumpPart k s).side = s.side := rfl
@[simp] theorem bumpPart_issued (k : Nat) (s : State) : (bumpPart k s).issued = s.issued := rfl
@[simp] theorem bumpPart_mem (k : Nat) (s : State) : (bumpPart k s).mem = s.mem := rfl
@[simp] theorem bumpPart_out (k : Nat) (s : State) : (bumpPart k s).out = s.out := rfl
@[simp] theorem bumpPart_free (k : Nat) (s : State) : (bumpPart k s).free = s.free := rfl
@[simp] theorem bumpPart_pending (k : Nat) (s : State) : (bumpPart k s).pending = s.pending := rfl

/-! ## updFn -/

@[simp] theorem updFn_time (f : Nat) (g : Func → Func) (s : State) : (updFn f g s).time = s.time := rfl
@[simp] theorem updFn_ready (f : Nat) (g : Func → Func) (s : State) : (updFn f g s).ready = s.ready := rfl
@[simp] theorem updFn_cnt (f : Nat) (g : Func → Func) (s : State) : (updFn f g s).cnt = s.cnt := rfl
@[simp] theorem updFn_fcnt (f : Nat) (g : Func → Func) (s : State) : (updFn f g s).fcnt = s.fcnt := rfl
@[simp] theorem updFn_pins (f : Nat) (g : Func → Func) (s : State) : (updFn f g s).pins = s.pins := rfl
@[simp] theorem updFn_ft (f : Nat) (g : Func → Func) (s : State) : (updFn f g s).ft = s.ft := rfl
@[simp] theorem updFn_brown (f : Nat) (g : Func → Func) (s : State) : (updFn f g s).brown = s.brown := rfl
@[simp] theorem updFn_link (f : Nat) (g : Func → Func) (s : State) : (updFn f g s).link = s.link := rfl
@[simp] theorem updFn_cxl (f : Nat) (g : Func → Func) (s : State) : (updFn f g s).cxl = s.cxl := rfl
@[simp] theorem updFn_boot (f : Nat) (g : Func → Func) (s : State) : (updFn f g s).boot = s.boot := rfl
@[simp] theorem updFn_procs (f : Nat) (g : Func → Func) (s : State) : (updFn f g s).procs = s.procs := rfl
@[simp] theorem updFn_upd (f : Nat) (g : Func → Func) (s : State) : (updFn f g s).upd = s.upd := rfl
@[simp] theorem updFn_hand (f : Nat) (g : Func → Func) (s : State) : (updFn f g s).hand = s.hand := rfl
@[simp] theorem updFn_fuses (f : Nat) (g : Func → Func) (s : State) : (updFn f g s).fuses = s.fuses := rfl
@[simp] theorem updFn_sec (f : Nat) (g : Func → Func) (s : State) : (updFn f g s).sec = s.sec := rfl
@[simp] theorem updFn_nor (f : Nat) (g : Func → Func) (s : State) : (updFn f g s).nor = s.nor := rfl
@[simp] theorem updFn_prov (f : Nat) (g : Func → Func) (s : State) : (updFn f g s).prov = s.prov := rfl
@[simp] theorem updFn_settings (f : Nat) (g : Func → Func) (s : State) : (updFn f g s).settings = s.settings := rfl
@[simp] theorem updFn_hbm (f : Nat) (g : Func → Func) (s : State) : (updFn f g s).hbm = s.hbm := rfl
@[simp] theorem updFn_store (f : Nat) (g : Func → Func) (s : State) : (updFn f g s).store = s.store := rfl
@[simp] theorem updFn_bufs (f : Nat) (g : Func → Func) (s : State) : (updFn f g s).bufs = s.bufs := rfl
@[simp] theorem updFn_cores (f : Nat) (g : Func → Func) (s : State) : (updFn f g s).cores = s.cores := rfl
@[simp] theorem updFn_ctrs (f : Nat) (g : Func → Func) (s : State) : (updFn f g s).ctrs = s.ctrs := rfl
@[simp] theorem updFn_engines (f : Nat) (g : Func → Func) (s : State) : (updFn f g s).engines = s.engines := rfl
@[simp] theorem updFn_chipDma (f : Nat) (g : Func → Func) (s : State) : (updFn f g s).chipDma = s.chipDma := rfl
@[simp] theorem updFn_progs (f : Nat) (g : Func → Func) (s : State) : (updFn f g s).progs = s.progs := rfl
@[simp] theorem updFn_tasks (f : Nat) (g : Func → Func) (s : State) : (updFn f g s).tasks = s.tasks := rfl
@[simp] theorem updFn_nextTask (f : Nat) (g : Func → Func) (s : State) : (updFn f g s).nextTask = s.nextTask := rfl
@[simp] theorem updFn_turn (f : Nat) (g : Func → Func) (s : State) : (updFn f g s).turn = s.turn := rfl
@[simp] theorem updFn_kv (f : Nat) (g : Func → Func) (s : State) : (updFn f g s).kv = s.kv := rfl
@[simp] theorem updFn_serve (f : Nat) (g : Func → Func) (s : State) : (updFn f g s).serve = s.serve := rfl
@[simp] theorem updFn_flint (f : Nat) (g : Func → Func) (s : State) : (updFn f g s).flint = s.flint := rfl
@[simp] theorem updFn_fab (f : Nat) (g : Func → Func) (s : State) : (updFn f g s).fab = s.fab := rfl
@[simp] theorem updFn_power (f : Nat) (g : Func → Func) (s : State) : (updFn f g s).power = s.power := rfl
@[simp] theorem updFn_caps (f : Nat) (g : Func → Func) (s : State) : (updFn f g s).caps = s.caps := rfl
@[simp] theorem updFn_meter (f : Nat) (g : Func → Func) (s : State) : (updFn f g s).meter = s.meter := rfl
@[simp] theorem updFn_thermal (f : Nat) (g : Func → Func) (s : State) : (updFn f g s).thermal = s.thermal := rfl
@[simp] theorem updFn_side (f : Nat) (g : Func → Func) (s : State) : (updFn f g s).side = s.side := rfl
@[simp] theorem updFn_issued (f : Nat) (g : Func → Func) (s : State) : (updFn f g s).issued = s.issued := rfl
@[simp] theorem updFn_mem (f : Nat) (g : Func → Func) (s : State) : (updFn f g s).mem = s.mem := rfl
@[simp] theorem updFn_out (f : Nat) (g : Func → Func) (s : State) : (updFn f g s).out = s.out := rfl
@[simp] theorem updFn_free (f : Nat) (g : Func → Func) (s : State) : (updFn f g s).free = s.free := rfl
@[simp] theorem updFn_pending (f : Nat) (g : Func → Func) (s : State) : (updFn f g s).pending = s.pending := rfl

/-! ## updRing -/

@[simp] theorem updRing_time (f q : Nat) (g : Ring → Ring) (s : State) : (updRing f q g s).time = s.time := rfl
@[simp] theorem updRing_ready (f q : Nat) (g : Ring → Ring) (s : State) : (updRing f q g s).ready = s.ready := rfl
@[simp] theorem updRing_cnt (f q : Nat) (g : Ring → Ring) (s : State) : (updRing f q g s).cnt = s.cnt := rfl
@[simp] theorem updRing_fcnt (f q : Nat) (g : Ring → Ring) (s : State) : (updRing f q g s).fcnt = s.fcnt := rfl
@[simp] theorem updRing_pins (f q : Nat) (g : Ring → Ring) (s : State) : (updRing f q g s).pins = s.pins := rfl
@[simp] theorem updRing_ft (f q : Nat) (g : Ring → Ring) (s : State) : (updRing f q g s).ft = s.ft := rfl
@[simp] theorem updRing_brown (f q : Nat) (g : Ring → Ring) (s : State) : (updRing f q g s).brown = s.brown := rfl
@[simp] theorem updRing_link (f q : Nat) (g : Ring → Ring) (s : State) : (updRing f q g s).link = s.link := rfl
@[simp] theorem updRing_cxl (f q : Nat) (g : Ring → Ring) (s : State) : (updRing f q g s).cxl = s.cxl := rfl
@[simp] theorem updRing_boot (f q : Nat) (g : Ring → Ring) (s : State) : (updRing f q g s).boot = s.boot := rfl
@[simp] theorem updRing_procs (f q : Nat) (g : Ring → Ring) (s : State) : (updRing f q g s).procs = s.procs := rfl
@[simp] theorem updRing_upd (f q : Nat) (g : Ring → Ring) (s : State) : (updRing f q g s).upd = s.upd := rfl
@[simp] theorem updRing_hand (f q : Nat) (g : Ring → Ring) (s : State) : (updRing f q g s).hand = s.hand := rfl
@[simp] theorem updRing_fuses (f q : Nat) (g : Ring → Ring) (s : State) : (updRing f q g s).fuses = s.fuses := rfl
@[simp] theorem updRing_sec (f q : Nat) (g : Ring → Ring) (s : State) : (updRing f q g s).sec = s.sec := rfl
@[simp] theorem updRing_nor (f q : Nat) (g : Ring → Ring) (s : State) : (updRing f q g s).nor = s.nor := rfl
@[simp] theorem updRing_prov (f q : Nat) (g : Ring → Ring) (s : State) : (updRing f q g s).prov = s.prov := rfl
@[simp] theorem updRing_settings (f q : Nat) (g : Ring → Ring) (s : State) : (updRing f q g s).settings = s.settings := rfl
@[simp] theorem updRing_hbm (f q : Nat) (g : Ring → Ring) (s : State) : (updRing f q g s).hbm = s.hbm := rfl
@[simp] theorem updRing_store (f q : Nat) (g : Ring → Ring) (s : State) : (updRing f q g s).store = s.store := rfl
@[simp] theorem updRing_bufs (f q : Nat) (g : Ring → Ring) (s : State) : (updRing f q g s).bufs = s.bufs := rfl
@[simp] theorem updRing_cores (f q : Nat) (g : Ring → Ring) (s : State) : (updRing f q g s).cores = s.cores := rfl
@[simp] theorem updRing_ctrs (f q : Nat) (g : Ring → Ring) (s : State) : (updRing f q g s).ctrs = s.ctrs := rfl
@[simp] theorem updRing_engines (f q : Nat) (g : Ring → Ring) (s : State) : (updRing f q g s).engines = s.engines := rfl
@[simp] theorem updRing_chipDma (f q : Nat) (g : Ring → Ring) (s : State) : (updRing f q g s).chipDma = s.chipDma := rfl
@[simp] theorem updRing_progs (f q : Nat) (g : Ring → Ring) (s : State) : (updRing f q g s).progs = s.progs := rfl
@[simp] theorem updRing_tasks (f q : Nat) (g : Ring → Ring) (s : State) : (updRing f q g s).tasks = s.tasks := rfl
@[simp] theorem updRing_nextTask (f q : Nat) (g : Ring → Ring) (s : State) : (updRing f q g s).nextTask = s.nextTask := rfl
@[simp] theorem updRing_turn (f q : Nat) (g : Ring → Ring) (s : State) : (updRing f q g s).turn = s.turn := rfl
@[simp] theorem updRing_kv (f q : Nat) (g : Ring → Ring) (s : State) : (updRing f q g s).kv = s.kv := rfl
@[simp] theorem updRing_serve (f q : Nat) (g : Ring → Ring) (s : State) : (updRing f q g s).serve = s.serve := rfl
@[simp] theorem updRing_flint (f q : Nat) (g : Ring → Ring) (s : State) : (updRing f q g s).flint = s.flint := rfl
@[simp] theorem updRing_fab (f q : Nat) (g : Ring → Ring) (s : State) : (updRing f q g s).fab = s.fab := rfl
@[simp] theorem updRing_power (f q : Nat) (g : Ring → Ring) (s : State) : (updRing f q g s).power = s.power := rfl
@[simp] theorem updRing_caps (f q : Nat) (g : Ring → Ring) (s : State) : (updRing f q g s).caps = s.caps := rfl
@[simp] theorem updRing_meter (f q : Nat) (g : Ring → Ring) (s : State) : (updRing f q g s).meter = s.meter := rfl
@[simp] theorem updRing_thermal (f q : Nat) (g : Ring → Ring) (s : State) : (updRing f q g s).thermal = s.thermal := rfl
@[simp] theorem updRing_side (f q : Nat) (g : Ring → Ring) (s : State) : (updRing f q g s).side = s.side := rfl
@[simp] theorem updRing_issued (f q : Nat) (g : Ring → Ring) (s : State) : (updRing f q g s).issued = s.issued := rfl
@[simp] theorem updRing_mem (f q : Nat) (g : Ring → Ring) (s : State) : (updRing f q g s).mem = s.mem := rfl
@[simp] theorem updRing_out (f q : Nat) (g : Ring → Ring) (s : State) : (updRing f q g s).out = s.out := rfl
@[simp] theorem updRing_free (f q : Nat) (g : Ring → Ring) (s : State) : (updRing f q g s).free = s.free := rfl
@[simp] theorem updRing_pending (f q : Nat) (g : Ring → Ring) (s : State) : (updRing f q g s).pending = s.pending := rfl

/-! ## store -/

@[simp] theorem store_time (a : Nat) (b : Bytes) (s : State) : (Machine.store a b s).time = s.time := rfl
@[simp] theorem store_ready (a : Nat) (b : Bytes) (s : State) : (Machine.store a b s).ready = s.ready := rfl
@[simp] theorem store_cnt (a : Nat) (b : Bytes) (s : State) : (Machine.store a b s).cnt = s.cnt := rfl
@[simp] theorem store_fcnt (a : Nat) (b : Bytes) (s : State) : (Machine.store a b s).fcnt = s.fcnt := rfl
@[simp] theorem store_pins (a : Nat) (b : Bytes) (s : State) : (Machine.store a b s).pins = s.pins := rfl
@[simp] theorem store_ft (a : Nat) (b : Bytes) (s : State) : (Machine.store a b s).ft = s.ft := rfl
@[simp] theorem store_brown (a : Nat) (b : Bytes) (s : State) : (Machine.store a b s).brown = s.brown := rfl
@[simp] theorem store_link (a : Nat) (b : Bytes) (s : State) : (Machine.store a b s).link = s.link := rfl
@[simp] theorem store_cxl (a : Nat) (b : Bytes) (s : State) : (Machine.store a b s).cxl = s.cxl := rfl
@[simp] theorem store_funcs (a : Nat) (b : Bytes) (s : State) : (Machine.store a b s).funcs = s.funcs := rfl
@[simp] theorem store_boot (a : Nat) (b : Bytes) (s : State) : (Machine.store a b s).boot = s.boot := rfl
@[simp] theorem store_procs (a : Nat) (b : Bytes) (s : State) : (Machine.store a b s).procs = s.procs := rfl
@[simp] theorem store_upd (a : Nat) (b : Bytes) (s : State) : (Machine.store a b s).upd = s.upd := rfl
@[simp] theorem store_hand (a : Nat) (b : Bytes) (s : State) : (Machine.store a b s).hand = s.hand := rfl
@[simp] theorem store_fuses (a : Nat) (b : Bytes) (s : State) : (Machine.store a b s).fuses = s.fuses := rfl
@[simp] theorem store_sec (a : Nat) (b : Bytes) (s : State) : (Machine.store a b s).sec = s.sec := rfl
@[simp] theorem store_nor (a : Nat) (b : Bytes) (s : State) : (Machine.store a b s).nor = s.nor := rfl
@[simp] theorem store_prov (a : Nat) (b : Bytes) (s : State) : (Machine.store a b s).prov = s.prov := rfl
@[simp] theorem store_settings (a : Nat) (b : Bytes) (s : State) : (Machine.store a b s).settings = s.settings := rfl
@[simp] theorem store_hbm (a : Nat) (b : Bytes) (s : State) : (Machine.store a b s).hbm = s.hbm := rfl
@[simp] theorem store_store (a : Nat) (b : Bytes) (s : State) : (Machine.store a b s).store = s.store := rfl
@[simp] theorem store_bufs (a : Nat) (b : Bytes) (s : State) : (Machine.store a b s).bufs = s.bufs := rfl
@[simp] theorem store_cores (a : Nat) (b : Bytes) (s : State) : (Machine.store a b s).cores = s.cores := rfl
@[simp] theorem store_ctrs (a : Nat) (b : Bytes) (s : State) : (Machine.store a b s).ctrs = s.ctrs := rfl
@[simp] theorem store_engines (a : Nat) (b : Bytes) (s : State) : (Machine.store a b s).engines = s.engines := rfl
@[simp] theorem store_chipDma (a : Nat) (b : Bytes) (s : State) : (Machine.store a b s).chipDma = s.chipDma := rfl
@[simp] theorem store_progs (a : Nat) (b : Bytes) (s : State) : (Machine.store a b s).progs = s.progs := rfl
@[simp] theorem store_tasks (a : Nat) (b : Bytes) (s : State) : (Machine.store a b s).tasks = s.tasks := rfl
@[simp] theorem store_nextTask (a : Nat) (b : Bytes) (s : State) : (Machine.store a b s).nextTask = s.nextTask := rfl
@[simp] theorem store_turn (a : Nat) (b : Bytes) (s : State) : (Machine.store a b s).turn = s.turn := rfl
@[simp] theorem store_kv (a : Nat) (b : Bytes) (s : State) : (Machine.store a b s).kv = s.kv := rfl
@[simp] theorem store_serve (a : Nat) (b : Bytes) (s : State) : (Machine.store a b s).serve = s.serve := rfl
@[simp] theorem store_flint (a : Nat) (b : Bytes) (s : State) : (Machine.store a b s).flint = s.flint := rfl
@[simp] theorem store_fab (a : Nat) (b : Bytes) (s : State) : (Machine.store a b s).fab = s.fab := rfl
@[simp] theorem store_power (a : Nat) (b : Bytes) (s : State) : (Machine.store a b s).power = s.power := rfl
@[simp] theorem store_caps (a : Nat) (b : Bytes) (s : State) : (Machine.store a b s).caps = s.caps := rfl
@[simp] theorem store_meter (a : Nat) (b : Bytes) (s : State) : (Machine.store a b s).meter = s.meter := rfl
@[simp] theorem store_thermal (a : Nat) (b : Bytes) (s : State) : (Machine.store a b s).thermal = s.thermal := rfl
@[simp] theorem store_side (a : Nat) (b : Bytes) (s : State) : (Machine.store a b s).side = s.side := rfl
@[simp] theorem store_issued (a : Nat) (b : Bytes) (s : State) : (Machine.store a b s).issued = s.issued := rfl
@[simp] theorem store_out (a : Nat) (b : Bytes) (s : State) : (Machine.store a b s).out = s.out := rfl
@[simp] theorem store_free (a : Nat) (b : Bytes) (s : State) : (Machine.store a b s).free = s.free := rfl
@[simp] theorem store_pending (a : Nat) (b : Bytes) (s : State) : (Machine.store a b s).pending = s.pending := rfl

/-! ## zero -/

@[simp] theorem zero_time (a n : Nat) (s : State) : (Machine.zero a n s).time = s.time := rfl
@[simp] theorem zero_ready (a n : Nat) (s : State) : (Machine.zero a n s).ready = s.ready := rfl
@[simp] theorem zero_cnt (a n : Nat) (s : State) : (Machine.zero a n s).cnt = s.cnt := rfl
@[simp] theorem zero_fcnt (a n : Nat) (s : State) : (Machine.zero a n s).fcnt = s.fcnt := rfl
@[simp] theorem zero_pins (a n : Nat) (s : State) : (Machine.zero a n s).pins = s.pins := rfl
@[simp] theorem zero_ft (a n : Nat) (s : State) : (Machine.zero a n s).ft = s.ft := rfl
@[simp] theorem zero_brown (a n : Nat) (s : State) : (Machine.zero a n s).brown = s.brown := rfl
@[simp] theorem zero_link (a n : Nat) (s : State) : (Machine.zero a n s).link = s.link := rfl
@[simp] theorem zero_cxl (a n : Nat) (s : State) : (Machine.zero a n s).cxl = s.cxl := rfl
@[simp] theorem zero_funcs (a n : Nat) (s : State) : (Machine.zero a n s).funcs = s.funcs := rfl
@[simp] theorem zero_boot (a n : Nat) (s : State) : (Machine.zero a n s).boot = s.boot := rfl
@[simp] theorem zero_procs (a n : Nat) (s : State) : (Machine.zero a n s).procs = s.procs := rfl
@[simp] theorem zero_upd (a n : Nat) (s : State) : (Machine.zero a n s).upd = s.upd := rfl
@[simp] theorem zero_hand (a n : Nat) (s : State) : (Machine.zero a n s).hand = s.hand := rfl
@[simp] theorem zero_fuses (a n : Nat) (s : State) : (Machine.zero a n s).fuses = s.fuses := rfl
@[simp] theorem zero_sec (a n : Nat) (s : State) : (Machine.zero a n s).sec = s.sec := rfl
@[simp] theorem zero_nor (a n : Nat) (s : State) : (Machine.zero a n s).nor = s.nor := rfl
@[simp] theorem zero_prov (a n : Nat) (s : State) : (Machine.zero a n s).prov = s.prov := rfl
@[simp] theorem zero_settings (a n : Nat) (s : State) : (Machine.zero a n s).settings = s.settings := rfl
@[simp] theorem zero_hbm (a n : Nat) (s : State) : (Machine.zero a n s).hbm = s.hbm := rfl
@[simp] theorem zero_store (a n : Nat) (s : State) : (Machine.zero a n s).store = s.store := rfl
@[simp] theorem zero_bufs (a n : Nat) (s : State) : (Machine.zero a n s).bufs = s.bufs := rfl
@[simp] theorem zero_cores (a n : Nat) (s : State) : (Machine.zero a n s).cores = s.cores := rfl
@[simp] theorem zero_ctrs (a n : Nat) (s : State) : (Machine.zero a n s).ctrs = s.ctrs := rfl
@[simp] theorem zero_engines (a n : Nat) (s : State) : (Machine.zero a n s).engines = s.engines := rfl
@[simp] theorem zero_chipDma (a n : Nat) (s : State) : (Machine.zero a n s).chipDma = s.chipDma := rfl
@[simp] theorem zero_progs (a n : Nat) (s : State) : (Machine.zero a n s).progs = s.progs := rfl
@[simp] theorem zero_tasks (a n : Nat) (s : State) : (Machine.zero a n s).tasks = s.tasks := rfl
@[simp] theorem zero_nextTask (a n : Nat) (s : State) : (Machine.zero a n s).nextTask = s.nextTask := rfl
@[simp] theorem zero_turn (a n : Nat) (s : State) : (Machine.zero a n s).turn = s.turn := rfl
@[simp] theorem zero_kv (a n : Nat) (s : State) : (Machine.zero a n s).kv = s.kv := rfl
@[simp] theorem zero_serve (a n : Nat) (s : State) : (Machine.zero a n s).serve = s.serve := rfl
@[simp] theorem zero_flint (a n : Nat) (s : State) : (Machine.zero a n s).flint = s.flint := rfl
@[simp] theorem zero_fab (a n : Nat) (s : State) : (Machine.zero a n s).fab = s.fab := rfl
@[simp] theorem zero_power (a n : Nat) (s : State) : (Machine.zero a n s).power = s.power := rfl
@[simp] theorem zero_caps (a n : Nat) (s : State) : (Machine.zero a n s).caps = s.caps := rfl
@[simp] theorem zero_meter (a n : Nat) (s : State) : (Machine.zero a n s).meter = s.meter := rfl
@[simp] theorem zero_thermal (a n : Nat) (s : State) : (Machine.zero a n s).thermal = s.thermal := rfl
@[simp] theorem zero_side (a n : Nat) (s : State) : (Machine.zero a n s).side = s.side := rfl
@[simp] theorem zero_issued (a n : Nat) (s : State) : (Machine.zero a n s).issued = s.issued := rfl
@[simp] theorem zero_out (a n : Nat) (s : State) : (Machine.zero a n s).out = s.out := rfl
@[simp] theorem zero_free (a n : Nat) (s : State) : (Machine.zero a n s).free = s.free := rfl
@[simp] theorem zero_pending (a n : Nat) (s : State) : (Machine.zero a n s).pending = s.pending := rfl

/-! ## updPower -/

@[simp] theorem updPower_time (g : Power → Power) (s : State) : (updPower g s).time = s.time := rfl
@[simp] theorem updPower_ready (g : Power → Power) (s : State) : (updPower g s).ready = s.ready := rfl
@[simp] theorem updPower_cnt (g : Power → Power) (s : State) : (updPower g s).cnt = s.cnt := rfl
@[simp] theorem updPower_fcnt (g : Power → Power) (s : State) : (updPower g s).fcnt = s.fcnt := rfl
@[simp] theorem updPower_pins (g : Power → Power) (s : State) : (updPower g s).pins = s.pins := rfl
@[simp] theorem updPower_ft (g : Power → Power) (s : State) : (updPower g s).ft = s.ft := rfl
@[simp] theorem updPower_brown (g : Power → Power) (s : State) : (updPower g s).brown = s.brown := rfl
@[simp] theorem updPower_link (g : Power → Power) (s : State) : (updPower g s).link = s.link := rfl
@[simp] theorem updPower_cxl (g : Power → Power) (s : State) : (updPower g s).cxl = s.cxl := rfl
@[simp] theorem updPower_funcs (g : Power → Power) (s : State) : (updPower g s).funcs = s.funcs := rfl
@[simp] theorem updPower_boot (g : Power → Power) (s : State) : (updPower g s).boot = s.boot := rfl
@[simp] theorem updPower_procs (g : Power → Power) (s : State) : (updPower g s).procs = s.procs := rfl
@[simp] theorem updPower_upd (g : Power → Power) (s : State) : (updPower g s).upd = s.upd := rfl
@[simp] theorem updPower_hand (g : Power → Power) (s : State) : (updPower g s).hand = s.hand := rfl
@[simp] theorem updPower_fuses (g : Power → Power) (s : State) : (updPower g s).fuses = s.fuses := rfl
@[simp] theorem updPower_sec (g : Power → Power) (s : State) : (updPower g s).sec = s.sec := rfl
@[simp] theorem updPower_nor (g : Power → Power) (s : State) : (updPower g s).nor = s.nor := rfl
@[simp] theorem updPower_prov (g : Power → Power) (s : State) : (updPower g s).prov = s.prov := rfl
@[simp] theorem updPower_settings (g : Power → Power) (s : State) : (updPower g s).settings = s.settings := rfl
@[simp] theorem updPower_hbm (g : Power → Power) (s : State) : (updPower g s).hbm = s.hbm := rfl
@[simp] theorem updPower_store (g : Power → Power) (s : State) : (updPower g s).store = s.store := rfl
@[simp] theorem updPower_bufs (g : Power → Power) (s : State) : (updPower g s).bufs = s.bufs := rfl
@[simp] theorem updPower_cores (g : Power → Power) (s : State) : (updPower g s).cores = s.cores := rfl
@[simp] theorem updPower_ctrs (g : Power → Power) (s : State) : (updPower g s).ctrs = s.ctrs := rfl
@[simp] theorem updPower_engines (g : Power → Power) (s : State) : (updPower g s).engines = s.engines := rfl
@[simp] theorem updPower_chipDma (g : Power → Power) (s : State) : (updPower g s).chipDma = s.chipDma := rfl
@[simp] theorem updPower_progs (g : Power → Power) (s : State) : (updPower g s).progs = s.progs := rfl
@[simp] theorem updPower_tasks (g : Power → Power) (s : State) : (updPower g s).tasks = s.tasks := rfl
@[simp] theorem updPower_nextTask (g : Power → Power) (s : State) : (updPower g s).nextTask = s.nextTask := rfl
@[simp] theorem updPower_turn (g : Power → Power) (s : State) : (updPower g s).turn = s.turn := rfl
@[simp] theorem updPower_kv (g : Power → Power) (s : State) : (updPower g s).kv = s.kv := rfl
@[simp] theorem updPower_serve (g : Power → Power) (s : State) : (updPower g s).serve = s.serve := rfl
@[simp] theorem updPower_flint (g : Power → Power) (s : State) : (updPower g s).flint = s.flint := rfl
@[simp] theorem updPower_fab (g : Power → Power) (s : State) : (updPower g s).fab = s.fab := rfl
@[simp] theorem updPower_caps (g : Power → Power) (s : State) : (updPower g s).caps = s.caps := rfl
@[simp] theorem updPower_meter (g : Power → Power) (s : State) : (updPower g s).meter = s.meter := rfl
@[simp] theorem updPower_thermal (g : Power → Power) (s : State) : (updPower g s).thermal = s.thermal := rfl
@[simp] theorem updPower_side (g : Power → Power) (s : State) : (updPower g s).side = s.side := rfl
@[simp] theorem updPower_issued (g : Power → Power) (s : State) : (updPower g s).issued = s.issued := rfl
@[simp] theorem updPower_mem (g : Power → Power) (s : State) : (updPower g s).mem = s.mem := rfl
@[simp] theorem updPower_out (g : Power → Power) (s : State) : (updPower g s).out = s.out := rfl
@[simp] theorem updPower_free (g : Power → Power) (s : State) : (updPower g s).free = s.free := rfl
@[simp] theorem updPower_pending (g : Power → Power) (s : State) : (updPower g s).pending = s.pending := rfl

/-! ## updCaps -/

@[simp] theorem updCaps_time (g : Caps → Caps) (s : State) : (updCaps g s).time = s.time := rfl
@[simp] theorem updCaps_ready (g : Caps → Caps) (s : State) : (updCaps g s).ready = s.ready := rfl
@[simp] theorem updCaps_cnt (g : Caps → Caps) (s : State) : (updCaps g s).cnt = s.cnt := rfl
@[simp] theorem updCaps_fcnt (g : Caps → Caps) (s : State) : (updCaps g s).fcnt = s.fcnt := rfl
@[simp] theorem updCaps_pins (g : Caps → Caps) (s : State) : (updCaps g s).pins = s.pins := rfl
@[simp] theorem updCaps_ft (g : Caps → Caps) (s : State) : (updCaps g s).ft = s.ft := rfl
@[simp] theorem updCaps_brown (g : Caps → Caps) (s : State) : (updCaps g s).brown = s.brown := rfl
@[simp] theorem updCaps_link (g : Caps → Caps) (s : State) : (updCaps g s).link = s.link := rfl
@[simp] theorem updCaps_cxl (g : Caps → Caps) (s : State) : (updCaps g s).cxl = s.cxl := rfl
@[simp] theorem updCaps_funcs (g : Caps → Caps) (s : State) : (updCaps g s).funcs = s.funcs := rfl
@[simp] theorem updCaps_boot (g : Caps → Caps) (s : State) : (updCaps g s).boot = s.boot := rfl
@[simp] theorem updCaps_procs (g : Caps → Caps) (s : State) : (updCaps g s).procs = s.procs := rfl
@[simp] theorem updCaps_upd (g : Caps → Caps) (s : State) : (updCaps g s).upd = s.upd := rfl
@[simp] theorem updCaps_hand (g : Caps → Caps) (s : State) : (updCaps g s).hand = s.hand := rfl
@[simp] theorem updCaps_fuses (g : Caps → Caps) (s : State) : (updCaps g s).fuses = s.fuses := rfl
@[simp] theorem updCaps_sec (g : Caps → Caps) (s : State) : (updCaps g s).sec = s.sec := rfl
@[simp] theorem updCaps_nor (g : Caps → Caps) (s : State) : (updCaps g s).nor = s.nor := rfl
@[simp] theorem updCaps_prov (g : Caps → Caps) (s : State) : (updCaps g s).prov = s.prov := rfl
@[simp] theorem updCaps_settings (g : Caps → Caps) (s : State) : (updCaps g s).settings = s.settings := rfl
@[simp] theorem updCaps_hbm (g : Caps → Caps) (s : State) : (updCaps g s).hbm = s.hbm := rfl
@[simp] theorem updCaps_store (g : Caps → Caps) (s : State) : (updCaps g s).store = s.store := rfl
@[simp] theorem updCaps_bufs (g : Caps → Caps) (s : State) : (updCaps g s).bufs = s.bufs := rfl
@[simp] theorem updCaps_cores (g : Caps → Caps) (s : State) : (updCaps g s).cores = s.cores := rfl
@[simp] theorem updCaps_ctrs (g : Caps → Caps) (s : State) : (updCaps g s).ctrs = s.ctrs := rfl
@[simp] theorem updCaps_engines (g : Caps → Caps) (s : State) : (updCaps g s).engines = s.engines := rfl
@[simp] theorem updCaps_chipDma (g : Caps → Caps) (s : State) : (updCaps g s).chipDma = s.chipDma := rfl
@[simp] theorem updCaps_progs (g : Caps → Caps) (s : State) : (updCaps g s).progs = s.progs := rfl
@[simp] theorem updCaps_tasks (g : Caps → Caps) (s : State) : (updCaps g s).tasks = s.tasks := rfl
@[simp] theorem updCaps_nextTask (g : Caps → Caps) (s : State) : (updCaps g s).nextTask = s.nextTask := rfl
@[simp] theorem updCaps_turn (g : Caps → Caps) (s : State) : (updCaps g s).turn = s.turn := rfl
@[simp] theorem updCaps_kv (g : Caps → Caps) (s : State) : (updCaps g s).kv = s.kv := rfl
@[simp] theorem updCaps_serve (g : Caps → Caps) (s : State) : (updCaps g s).serve = s.serve := rfl
@[simp] theorem updCaps_flint (g : Caps → Caps) (s : State) : (updCaps g s).flint = s.flint := rfl
@[simp] theorem updCaps_fab (g : Caps → Caps) (s : State) : (updCaps g s).fab = s.fab := rfl
@[simp] theorem updCaps_power (g : Caps → Caps) (s : State) : (updCaps g s).power = s.power := rfl
@[simp] theorem updCaps_meter (g : Caps → Caps) (s : State) : (updCaps g s).meter = s.meter := rfl
@[simp] theorem updCaps_thermal (g : Caps → Caps) (s : State) : (updCaps g s).thermal = s.thermal := rfl
@[simp] theorem updCaps_side (g : Caps → Caps) (s : State) : (updCaps g s).side = s.side := rfl
@[simp] theorem updCaps_issued (g : Caps → Caps) (s : State) : (updCaps g s).issued = s.issued := rfl
@[simp] theorem updCaps_mem (g : Caps → Caps) (s : State) : (updCaps g s).mem = s.mem := rfl
@[simp] theorem updCaps_out (g : Caps → Caps) (s : State) : (updCaps g s).out = s.out := rfl
@[simp] theorem updCaps_free (g : Caps → Caps) (s : State) : (updCaps g s).free = s.free := rfl
@[simp] theorem updCaps_pending (g : Caps → Caps) (s : State) : (updCaps g s).pending = s.pending := rfl

/-! ## updThermal -/

@[simp] theorem updThermal_time (g : Thermal → Thermal) (s : State) : (updThermal g s).time = s.time := rfl
@[simp] theorem updThermal_ready (g : Thermal → Thermal) (s : State) : (updThermal g s).ready = s.ready := rfl
@[simp] theorem updThermal_cnt (g : Thermal → Thermal) (s : State) : (updThermal g s).cnt = s.cnt := rfl
@[simp] theorem updThermal_fcnt (g : Thermal → Thermal) (s : State) : (updThermal g s).fcnt = s.fcnt := rfl
@[simp] theorem updThermal_pins (g : Thermal → Thermal) (s : State) : (updThermal g s).pins = s.pins := rfl
@[simp] theorem updThermal_ft (g : Thermal → Thermal) (s : State) : (updThermal g s).ft = s.ft := rfl
@[simp] theorem updThermal_brown (g : Thermal → Thermal) (s : State) : (updThermal g s).brown = s.brown := rfl
@[simp] theorem updThermal_link (g : Thermal → Thermal) (s : State) : (updThermal g s).link = s.link := rfl
@[simp] theorem updThermal_cxl (g : Thermal → Thermal) (s : State) : (updThermal g s).cxl = s.cxl := rfl
@[simp] theorem updThermal_funcs (g : Thermal → Thermal) (s : State) : (updThermal g s).funcs = s.funcs := rfl
@[simp] theorem updThermal_boot (g : Thermal → Thermal) (s : State) : (updThermal g s).boot = s.boot := rfl
@[simp] theorem updThermal_procs (g : Thermal → Thermal) (s : State) : (updThermal g s).procs = s.procs := rfl
@[simp] theorem updThermal_upd (g : Thermal → Thermal) (s : State) : (updThermal g s).upd = s.upd := rfl
@[simp] theorem updThermal_hand (g : Thermal → Thermal) (s : State) : (updThermal g s).hand = s.hand := rfl
@[simp] theorem updThermal_fuses (g : Thermal → Thermal) (s : State) : (updThermal g s).fuses = s.fuses := rfl
@[simp] theorem updThermal_sec (g : Thermal → Thermal) (s : State) : (updThermal g s).sec = s.sec := rfl
@[simp] theorem updThermal_nor (g : Thermal → Thermal) (s : State) : (updThermal g s).nor = s.nor := rfl
@[simp] theorem updThermal_prov (g : Thermal → Thermal) (s : State) : (updThermal g s).prov = s.prov := rfl
@[simp] theorem updThermal_settings (g : Thermal → Thermal) (s : State) : (updThermal g s).settings = s.settings := rfl
@[simp] theorem updThermal_hbm (g : Thermal → Thermal) (s : State) : (updThermal g s).hbm = s.hbm := rfl
@[simp] theorem updThermal_store (g : Thermal → Thermal) (s : State) : (updThermal g s).store = s.store := rfl
@[simp] theorem updThermal_bufs (g : Thermal → Thermal) (s : State) : (updThermal g s).bufs = s.bufs := rfl
@[simp] theorem updThermal_cores (g : Thermal → Thermal) (s : State) : (updThermal g s).cores = s.cores := rfl
@[simp] theorem updThermal_ctrs (g : Thermal → Thermal) (s : State) : (updThermal g s).ctrs = s.ctrs := rfl
@[simp] theorem updThermal_engines (g : Thermal → Thermal) (s : State) : (updThermal g s).engines = s.engines := rfl
@[simp] theorem updThermal_chipDma (g : Thermal → Thermal) (s : State) : (updThermal g s).chipDma = s.chipDma := rfl
@[simp] theorem updThermal_progs (g : Thermal → Thermal) (s : State) : (updThermal g s).progs = s.progs := rfl
@[simp] theorem updThermal_tasks (g : Thermal → Thermal) (s : State) : (updThermal g s).tasks = s.tasks := rfl
@[simp] theorem updThermal_nextTask (g : Thermal → Thermal) (s : State) : (updThermal g s).nextTask = s.nextTask := rfl
@[simp] theorem updThermal_turn (g : Thermal → Thermal) (s : State) : (updThermal g s).turn = s.turn := rfl
@[simp] theorem updThermal_kv (g : Thermal → Thermal) (s : State) : (updThermal g s).kv = s.kv := rfl
@[simp] theorem updThermal_serve (g : Thermal → Thermal) (s : State) : (updThermal g s).serve = s.serve := rfl
@[simp] theorem updThermal_flint (g : Thermal → Thermal) (s : State) : (updThermal g s).flint = s.flint := rfl
@[simp] theorem updThermal_fab (g : Thermal → Thermal) (s : State) : (updThermal g s).fab = s.fab := rfl
@[simp] theorem updThermal_power (g : Thermal → Thermal) (s : State) : (updThermal g s).power = s.power := rfl
@[simp] theorem updThermal_caps (g : Thermal → Thermal) (s : State) : (updThermal g s).caps = s.caps := rfl
@[simp] theorem updThermal_meter (g : Thermal → Thermal) (s : State) : (updThermal g s).meter = s.meter := rfl
@[simp] theorem updThermal_side (g : Thermal → Thermal) (s : State) : (updThermal g s).side = s.side := rfl
@[simp] theorem updThermal_issued (g : Thermal → Thermal) (s : State) : (updThermal g s).issued = s.issued := rfl
@[simp] theorem updThermal_mem (g : Thermal → Thermal) (s : State) : (updThermal g s).mem = s.mem := rfl
@[simp] theorem updThermal_out (g : Thermal → Thermal) (s : State) : (updThermal g s).out = s.out := rfl
@[simp] theorem updThermal_free (g : Thermal → Thermal) (s : State) : (updThermal g s).free = s.free := rfl
@[simp] theorem updThermal_pending (g : Thermal → Thermal) (s : State) : (updThermal g s).pending = s.pending := rfl

/-! ## updPhase -/

@[simp] theorem updPhase_time (k : Nat) (g : Phase → Phase) (s : State) : (updPhase k g s).time = s.time := rfl
@[simp] theorem updPhase_ready (k : Nat) (g : Phase → Phase) (s : State) : (updPhase k g s).ready = s.ready := rfl
@[simp] theorem updPhase_cnt (k : Nat) (g : Phase → Phase) (s : State) : (updPhase k g s).cnt = s.cnt := rfl
@[simp] theorem updPhase_fcnt (k : Nat) (g : Phase → Phase) (s : State) : (updPhase k g s).fcnt = s.fcnt := rfl
@[simp] theorem updPhase_pins (k : Nat) (g : Phase → Phase) (s : State) : (updPhase k g s).pins = s.pins := rfl
@[simp] theorem updPhase_ft (k : Nat) (g : Phase → Phase) (s : State) : (updPhase k g s).ft = s.ft := rfl
@[simp] theorem updPhase_brown (k : Nat) (g : Phase → Phase) (s : State) : (updPhase k g s).brown = s.brown := rfl
@[simp] theorem updPhase_link (k : Nat) (g : Phase → Phase) (s : State) : (updPhase k g s).link = s.link := rfl
@[simp] theorem updPhase_cxl (k : Nat) (g : Phase → Phase) (s : State) : (updPhase k g s).cxl = s.cxl := rfl
@[simp] theorem updPhase_funcs (k : Nat) (g : Phase → Phase) (s : State) : (updPhase k g s).funcs = s.funcs := rfl
@[simp] theorem updPhase_boot (k : Nat) (g : Phase → Phase) (s : State) : (updPhase k g s).boot = s.boot := rfl
@[simp] theorem updPhase_procs (k : Nat) (g : Phase → Phase) (s : State) : (updPhase k g s).procs = s.procs := rfl
@[simp] theorem updPhase_upd (k : Nat) (g : Phase → Phase) (s : State) : (updPhase k g s).upd = s.upd := rfl
@[simp] theorem updPhase_hand (k : Nat) (g : Phase → Phase) (s : State) : (updPhase k g s).hand = s.hand := rfl
@[simp] theorem updPhase_fuses (k : Nat) (g : Phase → Phase) (s : State) : (updPhase k g s).fuses = s.fuses := rfl
@[simp] theorem updPhase_sec (k : Nat) (g : Phase → Phase) (s : State) : (updPhase k g s).sec = s.sec := rfl
@[simp] theorem updPhase_nor (k : Nat) (g : Phase → Phase) (s : State) : (updPhase k g s).nor = s.nor := rfl
@[simp] theorem updPhase_prov (k : Nat) (g : Phase → Phase) (s : State) : (updPhase k g s).prov = s.prov := rfl
@[simp] theorem updPhase_settings (k : Nat) (g : Phase → Phase) (s : State) : (updPhase k g s).settings = s.settings := rfl
@[simp] theorem updPhase_hbm (k : Nat) (g : Phase → Phase) (s : State) : (updPhase k g s).hbm = s.hbm := rfl
@[simp] theorem updPhase_store (k : Nat) (g : Phase → Phase) (s : State) : (updPhase k g s).store = s.store := rfl
@[simp] theorem updPhase_bufs (k : Nat) (g : Phase → Phase) (s : State) : (updPhase k g s).bufs = s.bufs := rfl
@[simp] theorem updPhase_cores (k : Nat) (g : Phase → Phase) (s : State) : (updPhase k g s).cores = s.cores := rfl
@[simp] theorem updPhase_ctrs (k : Nat) (g : Phase → Phase) (s : State) : (updPhase k g s).ctrs = s.ctrs := rfl
@[simp] theorem updPhase_engines (k : Nat) (g : Phase → Phase) (s : State) : (updPhase k g s).engines = s.engines := rfl
@[simp] theorem updPhase_chipDma (k : Nat) (g : Phase → Phase) (s : State) : (updPhase k g s).chipDma = s.chipDma := rfl
@[simp] theorem updPhase_progs (k : Nat) (g : Phase → Phase) (s : State) : (updPhase k g s).progs = s.progs := rfl
@[simp] theorem updPhase_tasks (k : Nat) (g : Phase → Phase) (s : State) : (updPhase k g s).tasks = s.tasks := rfl
@[simp] theorem updPhase_nextTask (k : Nat) (g : Phase → Phase) (s : State) : (updPhase k g s).nextTask = s.nextTask := rfl
@[simp] theorem updPhase_turn (k : Nat) (g : Phase → Phase) (s : State) : (updPhase k g s).turn = s.turn := rfl
@[simp] theorem updPhase_kv (k : Nat) (g : Phase → Phase) (s : State) : (updPhase k g s).kv = s.kv := rfl
@[simp] theorem updPhase_serve (k : Nat) (g : Phase → Phase) (s : State) : (updPhase k g s).serve = s.serve := rfl
@[simp] theorem updPhase_flint (k : Nat) (g : Phase → Phase) (s : State) : (updPhase k g s).flint = s.flint := rfl
@[simp] theorem updPhase_fab (k : Nat) (g : Phase → Phase) (s : State) : (updPhase k g s).fab = s.fab := rfl
@[simp] theorem updPhase_caps (k : Nat) (g : Phase → Phase) (s : State) : (updPhase k g s).caps = s.caps := rfl
@[simp] theorem updPhase_meter (k : Nat) (g : Phase → Phase) (s : State) : (updPhase k g s).meter = s.meter := rfl
@[simp] theorem updPhase_thermal (k : Nat) (g : Phase → Phase) (s : State) : (updPhase k g s).thermal = s.thermal := rfl
@[simp] theorem updPhase_side (k : Nat) (g : Phase → Phase) (s : State) : (updPhase k g s).side = s.side := rfl
@[simp] theorem updPhase_issued (k : Nat) (g : Phase → Phase) (s : State) : (updPhase k g s).issued = s.issued := rfl
@[simp] theorem updPhase_mem (k : Nat) (g : Phase → Phase) (s : State) : (updPhase k g s).mem = s.mem := rfl
@[simp] theorem updPhase_out (k : Nat) (g : Phase → Phase) (s : State) : (updPhase k g s).out = s.out := rfl
@[simp] theorem updPhase_free (k : Nat) (g : Phase → Phase) (s : State) : (updPhase k g s).free = s.free := rfl
@[simp] theorem updPhase_pending (k : Nat) (g : Phase → Phase) (s : State) : (updPhase k g s).pending = s.pending := rfl

/-! ## alert -/

@[simp] theorem alert_time (b : Nat) (s : State) : (alert b s).time = s.time := rfl
@[simp] theorem alert_ready (b : Nat) (s : State) : (alert b s).ready = s.ready := rfl
@[simp] theorem alert_cnt (b : Nat) (s : State) : (alert b s).cnt = s.cnt := rfl
@[simp] theorem alert_fcnt (b : Nat) (s : State) : (alert b s).fcnt = s.fcnt := rfl
@[simp] theorem alert_pins (b : Nat) (s : State) : (alert b s).pins = s.pins := rfl
@[simp] theorem alert_ft (b : Nat) (s : State) : (alert b s).ft = s.ft := rfl
@[simp] theorem alert_brown (b : Nat) (s : State) : (alert b s).brown = s.brown := rfl
@[simp] theorem alert_link (b : Nat) (s : State) : (alert b s).link = s.link := rfl
@[simp] theorem alert_cxl (b : Nat) (s : State) : (alert b s).cxl = s.cxl := rfl
@[simp] theorem alert_funcs (b : Nat) (s : State) : (alert b s).funcs = s.funcs := rfl
@[simp] theorem alert_boot (b : Nat) (s : State) : (alert b s).boot = s.boot := rfl
@[simp] theorem alert_procs (b : Nat) (s : State) : (alert b s).procs = s.procs := rfl
@[simp] theorem alert_upd (b : Nat) (s : State) : (alert b s).upd = s.upd := rfl
@[simp] theorem alert_hand (b : Nat) (s : State) : (alert b s).hand = s.hand := rfl
@[simp] theorem alert_fuses (b : Nat) (s : State) : (alert b s).fuses = s.fuses := rfl
@[simp] theorem alert_sec (b : Nat) (s : State) : (alert b s).sec = s.sec := rfl
@[simp] theorem alert_nor (b : Nat) (s : State) : (alert b s).nor = s.nor := rfl
@[simp] theorem alert_prov (b : Nat) (s : State) : (alert b s).prov = s.prov := rfl
@[simp] theorem alert_settings (b : Nat) (s : State) : (alert b s).settings = s.settings := rfl
@[simp] theorem alert_hbm (b : Nat) (s : State) : (alert b s).hbm = s.hbm := rfl
@[simp] theorem alert_store (b : Nat) (s : State) : (alert b s).store = s.store := rfl
@[simp] theorem alert_bufs (b : Nat) (s : State) : (alert b s).bufs = s.bufs := rfl
@[simp] theorem alert_cores (b : Nat) (s : State) : (alert b s).cores = s.cores := rfl
@[simp] theorem alert_ctrs (b : Nat) (s : State) : (alert b s).ctrs = s.ctrs := rfl
@[simp] theorem alert_engines (b : Nat) (s : State) : (alert b s).engines = s.engines := rfl
@[simp] theorem alert_chipDma (b : Nat) (s : State) : (alert b s).chipDma = s.chipDma := rfl
@[simp] theorem alert_progs (b : Nat) (s : State) : (alert b s).progs = s.progs := rfl
@[simp] theorem alert_tasks (b : Nat) (s : State) : (alert b s).tasks = s.tasks := rfl
@[simp] theorem alert_nextTask (b : Nat) (s : State) : (alert b s).nextTask = s.nextTask := rfl
@[simp] theorem alert_turn (b : Nat) (s : State) : (alert b s).turn = s.turn := rfl
@[simp] theorem alert_kv (b : Nat) (s : State) : (alert b s).kv = s.kv := rfl
@[simp] theorem alert_serve (b : Nat) (s : State) : (alert b s).serve = s.serve := rfl
@[simp] theorem alert_flint (b : Nat) (s : State) : (alert b s).flint = s.flint := rfl
@[simp] theorem alert_fab (b : Nat) (s : State) : (alert b s).fab = s.fab := rfl
@[simp] theorem alert_caps (b : Nat) (s : State) : (alert b s).caps = s.caps := rfl
@[simp] theorem alert_meter (b : Nat) (s : State) : (alert b s).meter = s.meter := rfl
@[simp] theorem alert_thermal (b : Nat) (s : State) : (alert b s).thermal = s.thermal := rfl
@[simp] theorem alert_side (b : Nat) (s : State) : (alert b s).side = s.side := rfl
@[simp] theorem alert_issued (b : Nat) (s : State) : (alert b s).issued = s.issued := rfl
@[simp] theorem alert_mem (b : Nat) (s : State) : (alert b s).mem = s.mem := rfl
@[simp] theorem alert_out (b : Nat) (s : State) : (alert b s).out = s.out := rfl
@[simp] theorem alert_free (b : Nat) (s : State) : (alert b s).free = s.free := rfl
@[simp] theorem alert_pending (b : Nat) (s : State) : (alert b s).pending = s.pending := rfl

/-! ## updFt -/

@[simp] theorem updFt_time (g : FabricTime → FabricTime) (s : State) : (updFt g s).time = s.time := rfl
@[simp] theorem updFt_ready (g : FabricTime → FabricTime) (s : State) : (updFt g s).ready = s.ready := rfl
@[simp] theorem updFt_cnt (g : FabricTime → FabricTime) (s : State) : (updFt g s).cnt = s.cnt := rfl
@[simp] theorem updFt_fcnt (g : FabricTime → FabricTime) (s : State) : (updFt g s).fcnt = s.fcnt := rfl
@[simp] theorem updFt_pins (g : FabricTime → FabricTime) (s : State) : (updFt g s).pins = s.pins := rfl
@[simp] theorem updFt_brown (g : FabricTime → FabricTime) (s : State) : (updFt g s).brown = s.brown := rfl
@[simp] theorem updFt_link (g : FabricTime → FabricTime) (s : State) : (updFt g s).link = s.link := rfl
@[simp] theorem updFt_cxl (g : FabricTime → FabricTime) (s : State) : (updFt g s).cxl = s.cxl := rfl
@[simp] theorem updFt_funcs (g : FabricTime → FabricTime) (s : State) : (updFt g s).funcs = s.funcs := rfl
@[simp] theorem updFt_boot (g : FabricTime → FabricTime) (s : State) : (updFt g s).boot = s.boot := rfl
@[simp] theorem updFt_procs (g : FabricTime → FabricTime) (s : State) : (updFt g s).procs = s.procs := rfl
@[simp] theorem updFt_upd (g : FabricTime → FabricTime) (s : State) : (updFt g s).upd = s.upd := rfl
@[simp] theorem updFt_hand (g : FabricTime → FabricTime) (s : State) : (updFt g s).hand = s.hand := rfl
@[simp] theorem updFt_fuses (g : FabricTime → FabricTime) (s : State) : (updFt g s).fuses = s.fuses := rfl
@[simp] theorem updFt_sec (g : FabricTime → FabricTime) (s : State) : (updFt g s).sec = s.sec := rfl
@[simp] theorem updFt_nor (g : FabricTime → FabricTime) (s : State) : (updFt g s).nor = s.nor := rfl
@[simp] theorem updFt_prov (g : FabricTime → FabricTime) (s : State) : (updFt g s).prov = s.prov := rfl
@[simp] theorem updFt_settings (g : FabricTime → FabricTime) (s : State) : (updFt g s).settings = s.settings := rfl
@[simp] theorem updFt_hbm (g : FabricTime → FabricTime) (s : State) : (updFt g s).hbm = s.hbm := rfl
@[simp] theorem updFt_store (g : FabricTime → FabricTime) (s : State) : (updFt g s).store = s.store := rfl
@[simp] theorem updFt_bufs (g : FabricTime → FabricTime) (s : State) : (updFt g s).bufs = s.bufs := rfl
@[simp] theorem updFt_cores (g : FabricTime → FabricTime) (s : State) : (updFt g s).cores = s.cores := rfl
@[simp] theorem updFt_ctrs (g : FabricTime → FabricTime) (s : State) : (updFt g s).ctrs = s.ctrs := rfl
@[simp] theorem updFt_engines (g : FabricTime → FabricTime) (s : State) : (updFt g s).engines = s.engines := rfl
@[simp] theorem updFt_chipDma (g : FabricTime → FabricTime) (s : State) : (updFt g s).chipDma = s.chipDma := rfl
@[simp] theorem updFt_progs (g : FabricTime → FabricTime) (s : State) : (updFt g s).progs = s.progs := rfl
@[simp] theorem updFt_tasks (g : FabricTime → FabricTime) (s : State) : (updFt g s).tasks = s.tasks := rfl
@[simp] theorem updFt_nextTask (g : FabricTime → FabricTime) (s : State) : (updFt g s).nextTask = s.nextTask := rfl
@[simp] theorem updFt_turn (g : FabricTime → FabricTime) (s : State) : (updFt g s).turn = s.turn := rfl
@[simp] theorem updFt_kv (g : FabricTime → FabricTime) (s : State) : (updFt g s).kv = s.kv := rfl
@[simp] theorem updFt_serve (g : FabricTime → FabricTime) (s : State) : (updFt g s).serve = s.serve := rfl
@[simp] theorem updFt_flint (g : FabricTime → FabricTime) (s : State) : (updFt g s).flint = s.flint := rfl
@[simp] theorem updFt_fab (g : FabricTime → FabricTime) (s : State) : (updFt g s).fab = s.fab := rfl
@[simp] theorem updFt_power (g : FabricTime → FabricTime) (s : State) : (updFt g s).power = s.power := rfl
@[simp] theorem updFt_caps (g : FabricTime → FabricTime) (s : State) : (updFt g s).caps = s.caps := rfl
@[simp] theorem updFt_meter (g : FabricTime → FabricTime) (s : State) : (updFt g s).meter = s.meter := rfl
@[simp] theorem updFt_thermal (g : FabricTime → FabricTime) (s : State) : (updFt g s).thermal = s.thermal := rfl
@[simp] theorem updFt_side (g : FabricTime → FabricTime) (s : State) : (updFt g s).side = s.side := rfl
@[simp] theorem updFt_issued (g : FabricTime → FabricTime) (s : State) : (updFt g s).issued = s.issued := rfl
@[simp] theorem updFt_mem (g : FabricTime → FabricTime) (s : State) : (updFt g s).mem = s.mem := rfl
@[simp] theorem updFt_out (g : FabricTime → FabricTime) (s : State) : (updFt g s).out = s.out := rfl
@[simp] theorem updFt_free (g : FabricTime → FabricTime) (s : State) : (updFt g s).free = s.free := rfl
@[simp] theorem updFt_pending (g : FabricTime → FabricTime) (s : State) : (updFt g s).pending = s.pending := rfl

/-! ## updBrown -/

@[simp] theorem updBrown_time (g : Brown → Brown) (s : State) : (updBrown g s).time = s.time := rfl
@[simp] theorem updBrown_ready (g : Brown → Brown) (s : State) : (updBrown g s).ready = s.ready := rfl
@[simp] theorem updBrown_cnt (g : Brown → Brown) (s : State) : (updBrown g s).cnt = s.cnt := rfl
@[simp] theorem updBrown_fcnt (g : Brown → Brown) (s : State) : (updBrown g s).fcnt = s.fcnt := rfl
@[simp] theorem updBrown_pins (g : Brown → Brown) (s : State) : (updBrown g s).pins = s.pins := rfl
@[simp] theorem updBrown_ft (g : Brown → Brown) (s : State) : (updBrown g s).ft = s.ft := rfl
@[simp] theorem updBrown_link (g : Brown → Brown) (s : State) : (updBrown g s).link = s.link := rfl
@[simp] theorem updBrown_cxl (g : Brown → Brown) (s : State) : (updBrown g s).cxl = s.cxl := rfl
@[simp] theorem updBrown_funcs (g : Brown → Brown) (s : State) : (updBrown g s).funcs = s.funcs := rfl
@[simp] theorem updBrown_boot (g : Brown → Brown) (s : State) : (updBrown g s).boot = s.boot := rfl
@[simp] theorem updBrown_procs (g : Brown → Brown) (s : State) : (updBrown g s).procs = s.procs := rfl
@[simp] theorem updBrown_upd (g : Brown → Brown) (s : State) : (updBrown g s).upd = s.upd := rfl
@[simp] theorem updBrown_hand (g : Brown → Brown) (s : State) : (updBrown g s).hand = s.hand := rfl
@[simp] theorem updBrown_fuses (g : Brown → Brown) (s : State) : (updBrown g s).fuses = s.fuses := rfl
@[simp] theorem updBrown_sec (g : Brown → Brown) (s : State) : (updBrown g s).sec = s.sec := rfl
@[simp] theorem updBrown_nor (g : Brown → Brown) (s : State) : (updBrown g s).nor = s.nor := rfl
@[simp] theorem updBrown_prov (g : Brown → Brown) (s : State) : (updBrown g s).prov = s.prov := rfl
@[simp] theorem updBrown_settings (g : Brown → Brown) (s : State) : (updBrown g s).settings = s.settings := rfl
@[simp] theorem updBrown_hbm (g : Brown → Brown) (s : State) : (updBrown g s).hbm = s.hbm := rfl
@[simp] theorem updBrown_store (g : Brown → Brown) (s : State) : (updBrown g s).store = s.store := rfl
@[simp] theorem updBrown_bufs (g : Brown → Brown) (s : State) : (updBrown g s).bufs = s.bufs := rfl
@[simp] theorem updBrown_cores (g : Brown → Brown) (s : State) : (updBrown g s).cores = s.cores := rfl
@[simp] theorem updBrown_ctrs (g : Brown → Brown) (s : State) : (updBrown g s).ctrs = s.ctrs := rfl
@[simp] theorem updBrown_engines (g : Brown → Brown) (s : State) : (updBrown g s).engines = s.engines := rfl
@[simp] theorem updBrown_chipDma (g : Brown → Brown) (s : State) : (updBrown g s).chipDma = s.chipDma := rfl
@[simp] theorem updBrown_progs (g : Brown → Brown) (s : State) : (updBrown g s).progs = s.progs := rfl
@[simp] theorem updBrown_tasks (g : Brown → Brown) (s : State) : (updBrown g s).tasks = s.tasks := rfl
@[simp] theorem updBrown_nextTask (g : Brown → Brown) (s : State) : (updBrown g s).nextTask = s.nextTask := rfl
@[simp] theorem updBrown_turn (g : Brown → Brown) (s : State) : (updBrown g s).turn = s.turn := rfl
@[simp] theorem updBrown_kv (g : Brown → Brown) (s : State) : (updBrown g s).kv = s.kv := rfl
@[simp] theorem updBrown_serve (g : Brown → Brown) (s : State) : (updBrown g s).serve = s.serve := rfl
@[simp] theorem updBrown_flint (g : Brown → Brown) (s : State) : (updBrown g s).flint = s.flint := rfl
@[simp] theorem updBrown_fab (g : Brown → Brown) (s : State) : (updBrown g s).fab = s.fab := rfl
@[simp] theorem updBrown_power (g : Brown → Brown) (s : State) : (updBrown g s).power = s.power := rfl
@[simp] theorem updBrown_caps (g : Brown → Brown) (s : State) : (updBrown g s).caps = s.caps := rfl
@[simp] theorem updBrown_meter (g : Brown → Brown) (s : State) : (updBrown g s).meter = s.meter := rfl
@[simp] theorem updBrown_thermal (g : Brown → Brown) (s : State) : (updBrown g s).thermal = s.thermal := rfl
@[simp] theorem updBrown_side (g : Brown → Brown) (s : State) : (updBrown g s).side = s.side := rfl
@[simp] theorem updBrown_issued (g : Brown → Brown) (s : State) : (updBrown g s).issued = s.issued := rfl
@[simp] theorem updBrown_mem (g : Brown → Brown) (s : State) : (updBrown g s).mem = s.mem := rfl
@[simp] theorem updBrown_out (g : Brown → Brown) (s : State) : (updBrown g s).out = s.out := rfl
@[simp] theorem updBrown_free (g : Brown → Brown) (s : State) : (updBrown g s).free = s.free := rfl
@[simp] theorem updBrown_pending (g : Brown → Brown) (s : State) : (updBrown g s).pending = s.pending := rfl

/-! ## updCxl -/

@[simp] theorem updCxl_time (g : Cxl → Cxl) (s : State) : (updCxl g s).time = s.time := rfl
@[simp] theorem updCxl_ready (g : Cxl → Cxl) (s : State) : (updCxl g s).ready = s.ready := rfl
@[simp] theorem updCxl_cnt (g : Cxl → Cxl) (s : State) : (updCxl g s).cnt = s.cnt := rfl
@[simp] theorem updCxl_fcnt (g : Cxl → Cxl) (s : State) : (updCxl g s).fcnt = s.fcnt := rfl
@[simp] theorem updCxl_pins (g : Cxl → Cxl) (s : State) : (updCxl g s).pins = s.pins := rfl
@[simp] theorem updCxl_ft (g : Cxl → Cxl) (s : State) : (updCxl g s).ft = s.ft := rfl
@[simp] theorem updCxl_brown (g : Cxl → Cxl) (s : State) : (updCxl g s).brown = s.brown := rfl
@[simp] theorem updCxl_link (g : Cxl → Cxl) (s : State) : (updCxl g s).link = s.link := rfl
@[simp] theorem updCxl_funcs (g : Cxl → Cxl) (s : State) : (updCxl g s).funcs = s.funcs := rfl
@[simp] theorem updCxl_boot (g : Cxl → Cxl) (s : State) : (updCxl g s).boot = s.boot := rfl
@[simp] theorem updCxl_procs (g : Cxl → Cxl) (s : State) : (updCxl g s).procs = s.procs := rfl
@[simp] theorem updCxl_upd (g : Cxl → Cxl) (s : State) : (updCxl g s).upd = s.upd := rfl
@[simp] theorem updCxl_hand (g : Cxl → Cxl) (s : State) : (updCxl g s).hand = s.hand := rfl
@[simp] theorem updCxl_fuses (g : Cxl → Cxl) (s : State) : (updCxl g s).fuses = s.fuses := rfl
@[simp] theorem updCxl_sec (g : Cxl → Cxl) (s : State) : (updCxl g s).sec = s.sec := rfl
@[simp] theorem updCxl_nor (g : Cxl → Cxl) (s : State) : (updCxl g s).nor = s.nor := rfl
@[simp] theorem updCxl_prov (g : Cxl → Cxl) (s : State) : (updCxl g s).prov = s.prov := rfl
@[simp] theorem updCxl_settings (g : Cxl → Cxl) (s : State) : (updCxl g s).settings = s.settings := rfl
@[simp] theorem updCxl_hbm (g : Cxl → Cxl) (s : State) : (updCxl g s).hbm = s.hbm := rfl
@[simp] theorem updCxl_store (g : Cxl → Cxl) (s : State) : (updCxl g s).store = s.store := rfl
@[simp] theorem updCxl_bufs (g : Cxl → Cxl) (s : State) : (updCxl g s).bufs = s.bufs := rfl
@[simp] theorem updCxl_cores (g : Cxl → Cxl) (s : State) : (updCxl g s).cores = s.cores := rfl
@[simp] theorem updCxl_ctrs (g : Cxl → Cxl) (s : State) : (updCxl g s).ctrs = s.ctrs := rfl
@[simp] theorem updCxl_engines (g : Cxl → Cxl) (s : State) : (updCxl g s).engines = s.engines := rfl
@[simp] theorem updCxl_chipDma (g : Cxl → Cxl) (s : State) : (updCxl g s).chipDma = s.chipDma := rfl
@[simp] theorem updCxl_progs (g : Cxl → Cxl) (s : State) : (updCxl g s).progs = s.progs := rfl
@[simp] theorem updCxl_tasks (g : Cxl → Cxl) (s : State) : (updCxl g s).tasks = s.tasks := rfl
@[simp] theorem updCxl_nextTask (g : Cxl → Cxl) (s : State) : (updCxl g s).nextTask = s.nextTask := rfl
@[simp] theorem updCxl_turn (g : Cxl → Cxl) (s : State) : (updCxl g s).turn = s.turn := rfl
@[simp] theorem updCxl_kv (g : Cxl → Cxl) (s : State) : (updCxl g s).kv = s.kv := rfl
@[simp] theorem updCxl_serve (g : Cxl → Cxl) (s : State) : (updCxl g s).serve = s.serve := rfl
@[simp] theorem updCxl_flint (g : Cxl → Cxl) (s : State) : (updCxl g s).flint = s.flint := rfl
@[simp] theorem updCxl_fab (g : Cxl → Cxl) (s : State) : (updCxl g s).fab = s.fab := rfl
@[simp] theorem updCxl_power (g : Cxl → Cxl) (s : State) : (updCxl g s).power = s.power := rfl
@[simp] theorem updCxl_caps (g : Cxl → Cxl) (s : State) : (updCxl g s).caps = s.caps := rfl
@[simp] theorem updCxl_meter (g : Cxl → Cxl) (s : State) : (updCxl g s).meter = s.meter := rfl
@[simp] theorem updCxl_thermal (g : Cxl → Cxl) (s : State) : (updCxl g s).thermal = s.thermal := rfl
@[simp] theorem updCxl_side (g : Cxl → Cxl) (s : State) : (updCxl g s).side = s.side := rfl
@[simp] theorem updCxl_issued (g : Cxl → Cxl) (s : State) : (updCxl g s).issued = s.issued := rfl
@[simp] theorem updCxl_mem (g : Cxl → Cxl) (s : State) : (updCxl g s).mem = s.mem := rfl
@[simp] theorem updCxl_out (g : Cxl → Cxl) (s : State) : (updCxl g s).out = s.out := rfl
@[simp] theorem updCxl_free (g : Cxl → Cxl) (s : State) : (updCxl g s).free = s.free := rfl
@[simp] theorem updCxl_pending (g : Cxl → Cxl) (s : State) : (updCxl g s).pending = s.pending := rfl

/-! ## updKv -/

@[simp] theorem updKv_time (g : Kv → Kv) (s : State) : (updKv g s).time = s.time := rfl
@[simp] theorem updKv_ready (g : Kv → Kv) (s : State) : (updKv g s).ready = s.ready := rfl
@[simp] theorem updKv_cnt (g : Kv → Kv) (s : State) : (updKv g s).cnt = s.cnt := rfl
@[simp] theorem updKv_fcnt (g : Kv → Kv) (s : State) : (updKv g s).fcnt = s.fcnt := rfl
@[simp] theorem updKv_pins (g : Kv → Kv) (s : State) : (updKv g s).pins = s.pins := rfl
@[simp] theorem updKv_ft (g : Kv → Kv) (s : State) : (updKv g s).ft = s.ft := rfl
@[simp] theorem updKv_brown (g : Kv → Kv) (s : State) : (updKv g s).brown = s.brown := rfl
@[simp] theorem updKv_link (g : Kv → Kv) (s : State) : (updKv g s).link = s.link := rfl
@[simp] theorem updKv_cxl (g : Kv → Kv) (s : State) : (updKv g s).cxl = s.cxl := rfl
@[simp] theorem updKv_funcs (g : Kv → Kv) (s : State) : (updKv g s).funcs = s.funcs := rfl
@[simp] theorem updKv_boot (g : Kv → Kv) (s : State) : (updKv g s).boot = s.boot := rfl
@[simp] theorem updKv_procs (g : Kv → Kv) (s : State) : (updKv g s).procs = s.procs := rfl
@[simp] theorem updKv_upd (g : Kv → Kv) (s : State) : (updKv g s).upd = s.upd := rfl
@[simp] theorem updKv_hand (g : Kv → Kv) (s : State) : (updKv g s).hand = s.hand := rfl
@[simp] theorem updKv_fuses (g : Kv → Kv) (s : State) : (updKv g s).fuses = s.fuses := rfl
@[simp] theorem updKv_sec (g : Kv → Kv) (s : State) : (updKv g s).sec = s.sec := rfl
@[simp] theorem updKv_nor (g : Kv → Kv) (s : State) : (updKv g s).nor = s.nor := rfl
@[simp] theorem updKv_prov (g : Kv → Kv) (s : State) : (updKv g s).prov = s.prov := rfl
@[simp] theorem updKv_settings (g : Kv → Kv) (s : State) : (updKv g s).settings = s.settings := rfl
@[simp] theorem updKv_hbm (g : Kv → Kv) (s : State) : (updKv g s).hbm = s.hbm := rfl
@[simp] theorem updKv_store (g : Kv → Kv) (s : State) : (updKv g s).store = s.store := rfl
@[simp] theorem updKv_bufs (g : Kv → Kv) (s : State) : (updKv g s).bufs = s.bufs := rfl
@[simp] theorem updKv_cores (g : Kv → Kv) (s : State) : (updKv g s).cores = s.cores := rfl
@[simp] theorem updKv_ctrs (g : Kv → Kv) (s : State) : (updKv g s).ctrs = s.ctrs := rfl
@[simp] theorem updKv_engines (g : Kv → Kv) (s : State) : (updKv g s).engines = s.engines := rfl
@[simp] theorem updKv_chipDma (g : Kv → Kv) (s : State) : (updKv g s).chipDma = s.chipDma := rfl
@[simp] theorem updKv_progs (g : Kv → Kv) (s : State) : (updKv g s).progs = s.progs := rfl
@[simp] theorem updKv_tasks (g : Kv → Kv) (s : State) : (updKv g s).tasks = s.tasks := rfl
@[simp] theorem updKv_nextTask (g : Kv → Kv) (s : State) : (updKv g s).nextTask = s.nextTask := rfl
@[simp] theorem updKv_turn (g : Kv → Kv) (s : State) : (updKv g s).turn = s.turn := rfl
@[simp] theorem updKv_serve (g : Kv → Kv) (s : State) : (updKv g s).serve = s.serve := rfl
@[simp] theorem updKv_flint (g : Kv → Kv) (s : State) : (updKv g s).flint = s.flint := rfl
@[simp] theorem updKv_fab (g : Kv → Kv) (s : State) : (updKv g s).fab = s.fab := rfl
@[simp] theorem updKv_power (g : Kv → Kv) (s : State) : (updKv g s).power = s.power := rfl
@[simp] theorem updKv_caps (g : Kv → Kv) (s : State) : (updKv g s).caps = s.caps := rfl
@[simp] theorem updKv_meter (g : Kv → Kv) (s : State) : (updKv g s).meter = s.meter := rfl
@[simp] theorem updKv_thermal (g : Kv → Kv) (s : State) : (updKv g s).thermal = s.thermal := rfl
@[simp] theorem updKv_side (g : Kv → Kv) (s : State) : (updKv g s).side = s.side := rfl
@[simp] theorem updKv_issued (g : Kv → Kv) (s : State) : (updKv g s).issued = s.issued := rfl
@[simp] theorem updKv_mem (g : Kv → Kv) (s : State) : (updKv g s).mem = s.mem := rfl
@[simp] theorem updKv_out (g : Kv → Kv) (s : State) : (updKv g s).out = s.out := rfl
@[simp] theorem updKv_free (g : Kv → Kv) (s : State) : (updKv g s).free = s.free := rfl
@[simp] theorem updKv_pending (g : Kv → Kv) (s : State) : (updKv g s).pending = s.pending := rfl

/-! ## updServe -/

@[simp] theorem updServe_time (g : Serve → Serve) (s : State) : (updServe g s).time = s.time := rfl
@[simp] theorem updServe_ready (g : Serve → Serve) (s : State) : (updServe g s).ready = s.ready := rfl
@[simp] theorem updServe_cnt (g : Serve → Serve) (s : State) : (updServe g s).cnt = s.cnt := rfl
@[simp] theorem updServe_fcnt (g : Serve → Serve) (s : State) : (updServe g s).fcnt = s.fcnt := rfl
@[simp] theorem updServe_pins (g : Serve → Serve) (s : State) : (updServe g s).pins = s.pins := rfl
@[simp] theorem updServe_ft (g : Serve → Serve) (s : State) : (updServe g s).ft = s.ft := rfl
@[simp] theorem updServe_brown (g : Serve → Serve) (s : State) : (updServe g s).brown = s.brown := rfl
@[simp] theorem updServe_link (g : Serve → Serve) (s : State) : (updServe g s).link = s.link := rfl
@[simp] theorem updServe_cxl (g : Serve → Serve) (s : State) : (updServe g s).cxl = s.cxl := rfl
@[simp] theorem updServe_funcs (g : Serve → Serve) (s : State) : (updServe g s).funcs = s.funcs := rfl
@[simp] theorem updServe_boot (g : Serve → Serve) (s : State) : (updServe g s).boot = s.boot := rfl
@[simp] theorem updServe_procs (g : Serve → Serve) (s : State) : (updServe g s).procs = s.procs := rfl
@[simp] theorem updServe_upd (g : Serve → Serve) (s : State) : (updServe g s).upd = s.upd := rfl
@[simp] theorem updServe_hand (g : Serve → Serve) (s : State) : (updServe g s).hand = s.hand := rfl
@[simp] theorem updServe_fuses (g : Serve → Serve) (s : State) : (updServe g s).fuses = s.fuses := rfl
@[simp] theorem updServe_sec (g : Serve → Serve) (s : State) : (updServe g s).sec = s.sec := rfl
@[simp] theorem updServe_nor (g : Serve → Serve) (s : State) : (updServe g s).nor = s.nor := rfl
@[simp] theorem updServe_prov (g : Serve → Serve) (s : State) : (updServe g s).prov = s.prov := rfl
@[simp] theorem updServe_settings (g : Serve → Serve) (s : State) : (updServe g s).settings = s.settings := rfl
@[simp] theorem updServe_hbm (g : Serve → Serve) (s : State) : (updServe g s).hbm = s.hbm := rfl
@[simp] theorem updServe_store (g : Serve → Serve) (s : State) : (updServe g s).store = s.store := rfl
@[simp] theorem updServe_bufs (g : Serve → Serve) (s : State) : (updServe g s).bufs = s.bufs := rfl
@[simp] theorem updServe_cores (g : Serve → Serve) (s : State) : (updServe g s).cores = s.cores := rfl
@[simp] theorem updServe_ctrs (g : Serve → Serve) (s : State) : (updServe g s).ctrs = s.ctrs := rfl
@[simp] theorem updServe_engines (g : Serve → Serve) (s : State) : (updServe g s).engines = s.engines := rfl
@[simp] theorem updServe_chipDma (g : Serve → Serve) (s : State) : (updServe g s).chipDma = s.chipDma := rfl
@[simp] theorem updServe_progs (g : Serve → Serve) (s : State) : (updServe g s).progs = s.progs := rfl
@[simp] theorem updServe_tasks (g : Serve → Serve) (s : State) : (updServe g s).tasks = s.tasks := rfl
@[simp] theorem updServe_nextTask (g : Serve → Serve) (s : State) : (updServe g s).nextTask = s.nextTask := rfl
@[simp] theorem updServe_turn (g : Serve → Serve) (s : State) : (updServe g s).turn = s.turn := rfl
@[simp] theorem updServe_kv (g : Serve → Serve) (s : State) : (updServe g s).kv = s.kv := rfl
@[simp] theorem updServe_flint (g : Serve → Serve) (s : State) : (updServe g s).flint = s.flint := rfl
@[simp] theorem updServe_fab (g : Serve → Serve) (s : State) : (updServe g s).fab = s.fab := rfl
@[simp] theorem updServe_power (g : Serve → Serve) (s : State) : (updServe g s).power = s.power := rfl
@[simp] theorem updServe_caps (g : Serve → Serve) (s : State) : (updServe g s).caps = s.caps := rfl
@[simp] theorem updServe_meter (g : Serve → Serve) (s : State) : (updServe g s).meter = s.meter := rfl
@[simp] theorem updServe_thermal (g : Serve → Serve) (s : State) : (updServe g s).thermal = s.thermal := rfl
@[simp] theorem updServe_side (g : Serve → Serve) (s : State) : (updServe g s).side = s.side := rfl
@[simp] theorem updServe_issued (g : Serve → Serve) (s : State) : (updServe g s).issued = s.issued := rfl
@[simp] theorem updServe_mem (g : Serve → Serve) (s : State) : (updServe g s).mem = s.mem := rfl
@[simp] theorem updServe_out (g : Serve → Serve) (s : State) : (updServe g s).out = s.out := rfl
@[simp] theorem updServe_free (g : Serve → Serve) (s : State) : (updServe g s).free = s.free := rfl
@[simp] theorem updServe_pending (g : Serve → Serve) (s : State) : (updServe g s).pending = s.pending := rfl

/-! ## updStore -/

@[simp] theorem updStore_time (g : Store → Store) (s : State) : (updStore g s).time = s.time := rfl
@[simp] theorem updStore_ready (g : Store → Store) (s : State) : (updStore g s).ready = s.ready := rfl
@[simp] theorem updStore_cnt (g : Store → Store) (s : State) : (updStore g s).cnt = s.cnt := rfl
@[simp] theorem updStore_fcnt (g : Store → Store) (s : State) : (updStore g s).fcnt = s.fcnt := rfl
@[simp] theorem updStore_pins (g : Store → Store) (s : State) : (updStore g s).pins = s.pins := rfl
@[simp] theorem updStore_ft (g : Store → Store) (s : State) : (updStore g s).ft = s.ft := rfl
@[simp] theorem updStore_brown (g : Store → Store) (s : State) : (updStore g s).brown = s.brown := rfl
@[simp] theorem updStore_link (g : Store → Store) (s : State) : (updStore g s).link = s.link := rfl
@[simp] theorem updStore_cxl (g : Store → Store) (s : State) : (updStore g s).cxl = s.cxl := rfl
@[simp] theorem updStore_funcs (g : Store → Store) (s : State) : (updStore g s).funcs = s.funcs := rfl
@[simp] theorem updStore_boot (g : Store → Store) (s : State) : (updStore g s).boot = s.boot := rfl
@[simp] theorem updStore_procs (g : Store → Store) (s : State) : (updStore g s).procs = s.procs := rfl
@[simp] theorem updStore_upd (g : Store → Store) (s : State) : (updStore g s).upd = s.upd := rfl
@[simp] theorem updStore_hand (g : Store → Store) (s : State) : (updStore g s).hand = s.hand := rfl
@[simp] theorem updStore_fuses (g : Store → Store) (s : State) : (updStore g s).fuses = s.fuses := rfl
@[simp] theorem updStore_sec (g : Store → Store) (s : State) : (updStore g s).sec = s.sec := rfl
@[simp] theorem updStore_nor (g : Store → Store) (s : State) : (updStore g s).nor = s.nor := rfl
@[simp] theorem updStore_prov (g : Store → Store) (s : State) : (updStore g s).prov = s.prov := rfl
@[simp] theorem updStore_settings (g : Store → Store) (s : State) : (updStore g s).settings = s.settings := rfl
@[simp] theorem updStore_hbm (g : Store → Store) (s : State) : (updStore g s).hbm = s.hbm := rfl
@[simp] theorem updStore_bufs (g : Store → Store) (s : State) : (updStore g s).bufs = s.bufs := rfl
@[simp] theorem updStore_cores (g : Store → Store) (s : State) : (updStore g s).cores = s.cores := rfl
@[simp] theorem updStore_ctrs (g : Store → Store) (s : State) : (updStore g s).ctrs = s.ctrs := rfl
@[simp] theorem updStore_engines (g : Store → Store) (s : State) : (updStore g s).engines = s.engines := rfl
@[simp] theorem updStore_chipDma (g : Store → Store) (s : State) : (updStore g s).chipDma = s.chipDma := rfl
@[simp] theorem updStore_progs (g : Store → Store) (s : State) : (updStore g s).progs = s.progs := rfl
@[simp] theorem updStore_tasks (g : Store → Store) (s : State) : (updStore g s).tasks = s.tasks := rfl
@[simp] theorem updStore_nextTask (g : Store → Store) (s : State) : (updStore g s).nextTask = s.nextTask := rfl
@[simp] theorem updStore_turn (g : Store → Store) (s : State) : (updStore g s).turn = s.turn := rfl
@[simp] theorem updStore_kv (g : Store → Store) (s : State) : (updStore g s).kv = s.kv := rfl
@[simp] theorem updStore_serve (g : Store → Store) (s : State) : (updStore g s).serve = s.serve := rfl
@[simp] theorem updStore_flint (g : Store → Store) (s : State) : (updStore g s).flint = s.flint := rfl
@[simp] theorem updStore_fab (g : Store → Store) (s : State) : (updStore g s).fab = s.fab := rfl
@[simp] theorem updStore_power (g : Store → Store) (s : State) : (updStore g s).power = s.power := rfl
@[simp] theorem updStore_caps (g : Store → Store) (s : State) : (updStore g s).caps = s.caps := rfl
@[simp] theorem updStore_meter (g : Store → Store) (s : State) : (updStore g s).meter = s.meter := rfl
@[simp] theorem updStore_thermal (g : Store → Store) (s : State) : (updStore g s).thermal = s.thermal := rfl
@[simp] theorem updStore_side (g : Store → Store) (s : State) : (updStore g s).side = s.side := rfl
@[simp] theorem updStore_issued (g : Store → Store) (s : State) : (updStore g s).issued = s.issued := rfl
@[simp] theorem updStore_mem (g : Store → Store) (s : State) : (updStore g s).mem = s.mem := rfl
@[simp] theorem updStore_out (g : Store → Store) (s : State) : (updStore g s).out = s.out := rfl
@[simp] theorem updStore_free (g : Store → Store) (s : State) : (updStore g s).free = s.free := rfl
@[simp] theorem updStore_pending (g : Store → Store) (s : State) : (updStore g s).pending = s.pending := rfl

/-! ## updCtx -/

@[simp] theorem updCtx_time (i : Nat) (g : Ctx → Ctx) (s : State) : (updCtx i g s).time = s.time := by unfold updCtx; split <;> rfl
@[simp] theorem updCtx_ready (i : Nat) (g : Ctx → Ctx) (s : State) : (updCtx i g s).ready = s.ready := by unfold updCtx; split <;> rfl
@[simp] theorem updCtx_cnt (i : Nat) (g : Ctx → Ctx) (s : State) : (updCtx i g s).cnt = s.cnt := by unfold updCtx; split <;> rfl
@[simp] theorem updCtx_fcnt (i : Nat) (g : Ctx → Ctx) (s : State) : (updCtx i g s).fcnt = s.fcnt := by unfold updCtx; split <;> rfl
@[simp] theorem updCtx_pins (i : Nat) (g : Ctx → Ctx) (s : State) : (updCtx i g s).pins = s.pins := by unfold updCtx; split <;> rfl
@[simp] theorem updCtx_ft (i : Nat) (g : Ctx → Ctx) (s : State) : (updCtx i g s).ft = s.ft := by unfold updCtx; split <;> rfl
@[simp] theorem updCtx_brown (i : Nat) (g : Ctx → Ctx) (s : State) : (updCtx i g s).brown = s.brown := by unfold updCtx; split <;> rfl
@[simp] theorem updCtx_link (i : Nat) (g : Ctx → Ctx) (s : State) : (updCtx i g s).link = s.link := by unfold updCtx; split <;> rfl
@[simp] theorem updCtx_cxl (i : Nat) (g : Ctx → Ctx) (s : State) : (updCtx i g s).cxl = s.cxl := by unfold updCtx; split <;> rfl
@[simp] theorem updCtx_funcs (i : Nat) (g : Ctx → Ctx) (s : State) : (updCtx i g s).funcs = s.funcs := by unfold updCtx; split <;> rfl
@[simp] theorem updCtx_boot (i : Nat) (g : Ctx → Ctx) (s : State) : (updCtx i g s).boot = s.boot := by unfold updCtx; split <;> rfl
@[simp] theorem updCtx_procs (i : Nat) (g : Ctx → Ctx) (s : State) : (updCtx i g s).procs = s.procs := by unfold updCtx; split <;> rfl
@[simp] theorem updCtx_upd (i : Nat) (g : Ctx → Ctx) (s : State) : (updCtx i g s).upd = s.upd := by unfold updCtx; split <;> rfl
@[simp] theorem updCtx_hand (i : Nat) (g : Ctx → Ctx) (s : State) : (updCtx i g s).hand = s.hand := by unfold updCtx; split <;> rfl
@[simp] theorem updCtx_fuses (i : Nat) (g : Ctx → Ctx) (s : State) : (updCtx i g s).fuses = s.fuses := by unfold updCtx; split <;> rfl
@[simp] theorem updCtx_sec (i : Nat) (g : Ctx → Ctx) (s : State) : (updCtx i g s).sec = s.sec := by unfold updCtx; split <;> rfl
@[simp] theorem updCtx_nor (i : Nat) (g : Ctx → Ctx) (s : State) : (updCtx i g s).nor = s.nor := by unfold updCtx; split <;> rfl
@[simp] theorem updCtx_prov (i : Nat) (g : Ctx → Ctx) (s : State) : (updCtx i g s).prov = s.prov := by unfold updCtx; split <;> rfl
@[simp] theorem updCtx_settings (i : Nat) (g : Ctx → Ctx) (s : State) : (updCtx i g s).settings = s.settings := by unfold updCtx; split <;> rfl
@[simp] theorem updCtx_hbm (i : Nat) (g : Ctx → Ctx) (s : State) : (updCtx i g s).hbm = s.hbm := by unfold updCtx; split <;> rfl
@[simp] theorem updCtx_store (i : Nat) (g : Ctx → Ctx) (s : State) : (updCtx i g s).store = s.store := by unfold updCtx; split <;> rfl
@[simp] theorem updCtx_bufs (i : Nat) (g : Ctx → Ctx) (s : State) : (updCtx i g s).bufs = s.bufs := by unfold updCtx; split <;> rfl
@[simp] theorem updCtx_cores (i : Nat) (g : Ctx → Ctx) (s : State) : (updCtx i g s).cores = s.cores := by unfold updCtx; split <;> rfl
@[simp] theorem updCtx_ctrs (i : Nat) (g : Ctx → Ctx) (s : State) : (updCtx i g s).ctrs = s.ctrs := by unfold updCtx; split <;> rfl
@[simp] theorem updCtx_engines (i : Nat) (g : Ctx → Ctx) (s : State) : (updCtx i g s).engines = s.engines := by unfold updCtx; split <;> rfl
@[simp] theorem updCtx_chipDma (i : Nat) (g : Ctx → Ctx) (s : State) : (updCtx i g s).chipDma = s.chipDma := by unfold updCtx; split <;> rfl
@[simp] theorem updCtx_progs (i : Nat) (g : Ctx → Ctx) (s : State) : (updCtx i g s).progs = s.progs := by unfold updCtx; split <;> rfl
@[simp] theorem updCtx_tasks (i : Nat) (g : Ctx → Ctx) (s : State) : (updCtx i g s).tasks = s.tasks := by unfold updCtx; split <;> rfl
@[simp] theorem updCtx_nextTask (i : Nat) (g : Ctx → Ctx) (s : State) : (updCtx i g s).nextTask = s.nextTask := by unfold updCtx; split <;> rfl
@[simp] theorem updCtx_turn (i : Nat) (g : Ctx → Ctx) (s : State) : (updCtx i g s).turn = s.turn := by unfold updCtx; split <;> rfl
@[simp] theorem updCtx_kv (i : Nat) (g : Ctx → Ctx) (s : State) : (updCtx i g s).kv = s.kv := by unfold updCtx; split <;> rfl
@[simp] theorem updCtx_flint (i : Nat) (g : Ctx → Ctx) (s : State) : (updCtx i g s).flint = s.flint := by unfold updCtx; split <;> rfl
@[simp] theorem updCtx_fab (i : Nat) (g : Ctx → Ctx) (s : State) : (updCtx i g s).fab = s.fab := by unfold updCtx; split <;> rfl
@[simp] theorem updCtx_power (i : Nat) (g : Ctx → Ctx) (s : State) : (updCtx i g s).power = s.power := by unfold updCtx; split <;> rfl
@[simp] theorem updCtx_caps (i : Nat) (g : Ctx → Ctx) (s : State) : (updCtx i g s).caps = s.caps := by unfold updCtx; split <;> rfl
@[simp] theorem updCtx_meter (i : Nat) (g : Ctx → Ctx) (s : State) : (updCtx i g s).meter = s.meter := by unfold updCtx; split <;> rfl
@[simp] theorem updCtx_thermal (i : Nat) (g : Ctx → Ctx) (s : State) : (updCtx i g s).thermal = s.thermal := by unfold updCtx; split <;> rfl
@[simp] theorem updCtx_side (i : Nat) (g : Ctx → Ctx) (s : State) : (updCtx i g s).side = s.side := by unfold updCtx; split <;> rfl
@[simp] theorem updCtx_issued (i : Nat) (g : Ctx → Ctx) (s : State) : (updCtx i g s).issued = s.issued := by unfold updCtx; split <;> rfl
@[simp] theorem updCtx_mem (i : Nat) (g : Ctx → Ctx) (s : State) : (updCtx i g s).mem = s.mem := by unfold updCtx; split <;> rfl
@[simp] theorem updCtx_out (i : Nat) (g : Ctx → Ctx) (s : State) : (updCtx i g s).out = s.out := by unfold updCtx; split <;> rfl
@[simp] theorem updCtx_free (i : Nat) (g : Ctx → Ctx) (s : State) : (updCtx i g s).free = s.free := by unfold updCtx; split <;> rfl
@[simp] theorem updCtx_pending (i : Nat) (g : Ctx → Ctx) (s : State) : (updCtx i g s).pending = s.pending := by unfold updCtx; split <;> rfl

/-! ## updProc -/

@[simp] theorem updProc_time (p : Nat) (g : Proc → Proc) (s : State) : (updProc p g s).time = s.time := rfl
@[simp] theorem updProc_ready (p : Nat) (g : Proc → Proc) (s : State) : (updProc p g s).ready = s.ready := rfl
@[simp] theorem updProc_cnt (p : Nat) (g : Proc → Proc) (s : State) : (updProc p g s).cnt = s.cnt := rfl
@[simp] theorem updProc_fcnt (p : Nat) (g : Proc → Proc) (s : State) : (updProc p g s).fcnt = s.fcnt := rfl
@[simp] theorem updProc_pins (p : Nat) (g : Proc → Proc) (s : State) : (updProc p g s).pins = s.pins := rfl
@[simp] theorem updProc_ft (p : Nat) (g : Proc → Proc) (s : State) : (updProc p g s).ft = s.ft := rfl
@[simp] theorem updProc_brown (p : Nat) (g : Proc → Proc) (s : State) : (updProc p g s).brown = s.brown := rfl
@[simp] theorem updProc_link (p : Nat) (g : Proc → Proc) (s : State) : (updProc p g s).link = s.link := rfl
@[simp] theorem updProc_cxl (p : Nat) (g : Proc → Proc) (s : State) : (updProc p g s).cxl = s.cxl := rfl
@[simp] theorem updProc_funcs (p : Nat) (g : Proc → Proc) (s : State) : (updProc p g s).funcs = s.funcs := rfl
@[simp] theorem updProc_boot (p : Nat) (g : Proc → Proc) (s : State) : (updProc p g s).boot = s.boot := rfl
@[simp] theorem updProc_upd (p : Nat) (g : Proc → Proc) (s : State) : (updProc p g s).upd = s.upd := rfl
@[simp] theorem updProc_hand (p : Nat) (g : Proc → Proc) (s : State) : (updProc p g s).hand = s.hand := rfl
@[simp] theorem updProc_fuses (p : Nat) (g : Proc → Proc) (s : State) : (updProc p g s).fuses = s.fuses := rfl
@[simp] theorem updProc_sec (p : Nat) (g : Proc → Proc) (s : State) : (updProc p g s).sec = s.sec := rfl
@[simp] theorem updProc_nor (p : Nat) (g : Proc → Proc) (s : State) : (updProc p g s).nor = s.nor := rfl
@[simp] theorem updProc_prov (p : Nat) (g : Proc → Proc) (s : State) : (updProc p g s).prov = s.prov := rfl
@[simp] theorem updProc_settings (p : Nat) (g : Proc → Proc) (s : State) : (updProc p g s).settings = s.settings := rfl
@[simp] theorem updProc_hbm (p : Nat) (g : Proc → Proc) (s : State) : (updProc p g s).hbm = s.hbm := rfl
@[simp] theorem updProc_store (p : Nat) (g : Proc → Proc) (s : State) : (updProc p g s).store = s.store := rfl
@[simp] theorem updProc_bufs (p : Nat) (g : Proc → Proc) (s : State) : (updProc p g s).bufs = s.bufs := rfl
@[simp] theorem updProc_cores (p : Nat) (g : Proc → Proc) (s : State) : (updProc p g s).cores = s.cores := rfl
@[simp] theorem updProc_ctrs (p : Nat) (g : Proc → Proc) (s : State) : (updProc p g s).ctrs = s.ctrs := rfl
@[simp] theorem updProc_engines (p : Nat) (g : Proc → Proc) (s : State) : (updProc p g s).engines = s.engines := rfl
@[simp] theorem updProc_chipDma (p : Nat) (g : Proc → Proc) (s : State) : (updProc p g s).chipDma = s.chipDma := rfl
@[simp] theorem updProc_progs (p : Nat) (g : Proc → Proc) (s : State) : (updProc p g s).progs = s.progs := rfl
@[simp] theorem updProc_tasks (p : Nat) (g : Proc → Proc) (s : State) : (updProc p g s).tasks = s.tasks := rfl
@[simp] theorem updProc_nextTask (p : Nat) (g : Proc → Proc) (s : State) : (updProc p g s).nextTask = s.nextTask := rfl
@[simp] theorem updProc_turn (p : Nat) (g : Proc → Proc) (s : State) : (updProc p g s).turn = s.turn := rfl
@[simp] theorem updProc_kv (p : Nat) (g : Proc → Proc) (s : State) : (updProc p g s).kv = s.kv := rfl
@[simp] theorem updProc_serve (p : Nat) (g : Proc → Proc) (s : State) : (updProc p g s).serve = s.serve := rfl
@[simp] theorem updProc_flint (p : Nat) (g : Proc → Proc) (s : State) : (updProc p g s).flint = s.flint := rfl
@[simp] theorem updProc_fab (p : Nat) (g : Proc → Proc) (s : State) : (updProc p g s).fab = s.fab := rfl
@[simp] theorem updProc_power (p : Nat) (g : Proc → Proc) (s : State) : (updProc p g s).power = s.power := rfl
@[simp] theorem updProc_caps (p : Nat) (g : Proc → Proc) (s : State) : (updProc p g s).caps = s.caps := rfl
@[simp] theorem updProc_meter (p : Nat) (g : Proc → Proc) (s : State) : (updProc p g s).meter = s.meter := rfl
@[simp] theorem updProc_thermal (p : Nat) (g : Proc → Proc) (s : State) : (updProc p g s).thermal = s.thermal := rfl
@[simp] theorem updProc_side (p : Nat) (g : Proc → Proc) (s : State) : (updProc p g s).side = s.side := rfl
@[simp] theorem updProc_issued (p : Nat) (g : Proc → Proc) (s : State) : (updProc p g s).issued = s.issued := rfl
@[simp] theorem updProc_mem (p : Nat) (g : Proc → Proc) (s : State) : (updProc p g s).mem = s.mem := rfl
@[simp] theorem updProc_out (p : Nat) (g : Proc → Proc) (s : State) : (updProc p g s).out = s.out := rfl
@[simp] theorem updProc_free (p : Nat) (g : Proc → Proc) (s : State) : (updProc p g s).free = s.free := rfl
@[simp] theorem updProc_pending (p : Nat) (g : Proc → Proc) (s : State) : (updProc p g s).pending = s.pending := rfl

/-! ## updFab -/

@[simp] theorem updFab_time (g : Fab → Fab) (s : State) : (updFab g s).time = s.time := rfl
@[simp] theorem updFab_ready (g : Fab → Fab) (s : State) : (updFab g s).ready = s.ready := rfl
@[simp] theorem updFab_cnt (g : Fab → Fab) (s : State) : (updFab g s).cnt = s.cnt := rfl
@[simp] theorem updFab_fcnt (g : Fab → Fab) (s : State) : (updFab g s).fcnt = s.fcnt := rfl
@[simp] theorem updFab_pins (g : Fab → Fab) (s : State) : (updFab g s).pins = s.pins := rfl
@[simp] theorem updFab_ft (g : Fab → Fab) (s : State) : (updFab g s).ft = s.ft := rfl
@[simp] theorem updFab_brown (g : Fab → Fab) (s : State) : (updFab g s).brown = s.brown := rfl
@[simp] theorem updFab_link (g : Fab → Fab) (s : State) : (updFab g s).link = s.link := rfl
@[simp] theorem updFab_cxl (g : Fab → Fab) (s : State) : (updFab g s).cxl = s.cxl := rfl
@[simp] theorem updFab_funcs (g : Fab → Fab) (s : State) : (updFab g s).funcs = s.funcs := rfl
@[simp] theorem updFab_boot (g : Fab → Fab) (s : State) : (updFab g s).boot = s.boot := rfl
@[simp] theorem updFab_procs (g : Fab → Fab) (s : State) : (updFab g s).procs = s.procs := rfl
@[simp] theorem updFab_upd (g : Fab → Fab) (s : State) : (updFab g s).upd = s.upd := rfl
@[simp] theorem updFab_hand (g : Fab → Fab) (s : State) : (updFab g s).hand = s.hand := rfl
@[simp] theorem updFab_fuses (g : Fab → Fab) (s : State) : (updFab g s).fuses = s.fuses := rfl
@[simp] theorem updFab_sec (g : Fab → Fab) (s : State) : (updFab g s).sec = s.sec := rfl
@[simp] theorem updFab_nor (g : Fab → Fab) (s : State) : (updFab g s).nor = s.nor := rfl
@[simp] theorem updFab_prov (g : Fab → Fab) (s : State) : (updFab g s).prov = s.prov := rfl
@[simp] theorem updFab_settings (g : Fab → Fab) (s : State) : (updFab g s).settings = s.settings := rfl
@[simp] theorem updFab_hbm (g : Fab → Fab) (s : State) : (updFab g s).hbm = s.hbm := rfl
@[simp] theorem updFab_store (g : Fab → Fab) (s : State) : (updFab g s).store = s.store := rfl
@[simp] theorem updFab_bufs (g : Fab → Fab) (s : State) : (updFab g s).bufs = s.bufs := rfl
@[simp] theorem updFab_cores (g : Fab → Fab) (s : State) : (updFab g s).cores = s.cores := rfl
@[simp] theorem updFab_ctrs (g : Fab → Fab) (s : State) : (updFab g s).ctrs = s.ctrs := rfl
@[simp] theorem updFab_engines (g : Fab → Fab) (s : State) : (updFab g s).engines = s.engines := rfl
@[simp] theorem updFab_chipDma (g : Fab → Fab) (s : State) : (updFab g s).chipDma = s.chipDma := rfl
@[simp] theorem updFab_progs (g : Fab → Fab) (s : State) : (updFab g s).progs = s.progs := rfl
@[simp] theorem updFab_tasks (g : Fab → Fab) (s : State) : (updFab g s).tasks = s.tasks := rfl
@[simp] theorem updFab_nextTask (g : Fab → Fab) (s : State) : (updFab g s).nextTask = s.nextTask := rfl
@[simp] theorem updFab_turn (g : Fab → Fab) (s : State) : (updFab g s).turn = s.turn := rfl
@[simp] theorem updFab_kv (g : Fab → Fab) (s : State) : (updFab g s).kv = s.kv := rfl
@[simp] theorem updFab_serve (g : Fab → Fab) (s : State) : (updFab g s).serve = s.serve := rfl
@[simp] theorem updFab_flint (g : Fab → Fab) (s : State) : (updFab g s).flint = s.flint := rfl
@[simp] theorem updFab_power (g : Fab → Fab) (s : State) : (updFab g s).power = s.power := rfl
@[simp] theorem updFab_caps (g : Fab → Fab) (s : State) : (updFab g s).caps = s.caps := rfl
@[simp] theorem updFab_meter (g : Fab → Fab) (s : State) : (updFab g s).meter = s.meter := rfl
@[simp] theorem updFab_thermal (g : Fab → Fab) (s : State) : (updFab g s).thermal = s.thermal := rfl
@[simp] theorem updFab_side (g : Fab → Fab) (s : State) : (updFab g s).side = s.side := rfl
@[simp] theorem updFab_issued (g : Fab → Fab) (s : State) : (updFab g s).issued = s.issued := rfl
@[simp] theorem updFab_mem (g : Fab → Fab) (s : State) : (updFab g s).mem = s.mem := rfl
@[simp] theorem updFab_out (g : Fab → Fab) (s : State) : (updFab g s).out = s.out := rfl
@[simp] theorem updFab_free (g : Fab → Fab) (s : State) : (updFab g s).free = s.free := rfl
@[simp] theorem updFab_pending (g : Fab → Fab) (s : State) : (updFab g s).pending = s.pending := rfl

/-! ## updPort -/

@[simp] theorem updPort_time (p : Nat) (g : Port → Port) (s : State) : (updPort p g s).time = s.time := rfl
@[simp] theorem updPort_ready (p : Nat) (g : Port → Port) (s : State) : (updPort p g s).ready = s.ready := rfl
@[simp] theorem updPort_cnt (p : Nat) (g : Port → Port) (s : State) : (updPort p g s).cnt = s.cnt := rfl
@[simp] theorem updPort_fcnt (p : Nat) (g : Port → Port) (s : State) : (updPort p g s).fcnt = s.fcnt := rfl
@[simp] theorem updPort_pins (p : Nat) (g : Port → Port) (s : State) : (updPort p g s).pins = s.pins := rfl
@[simp] theorem updPort_ft (p : Nat) (g : Port → Port) (s : State) : (updPort p g s).ft = s.ft := rfl
@[simp] theorem updPort_brown (p : Nat) (g : Port → Port) (s : State) : (updPort p g s).brown = s.brown := rfl
@[simp] theorem updPort_link (p : Nat) (g : Port → Port) (s : State) : (updPort p g s).link = s.link := rfl
@[simp] theorem updPort_cxl (p : Nat) (g : Port → Port) (s : State) : (updPort p g s).cxl = s.cxl := rfl
@[simp] theorem updPort_funcs (p : Nat) (g : Port → Port) (s : State) : (updPort p g s).funcs = s.funcs := rfl
@[simp] theorem updPort_boot (p : Nat) (g : Port → Port) (s : State) : (updPort p g s).boot = s.boot := rfl
@[simp] theorem updPort_procs (p : Nat) (g : Port → Port) (s : State) : (updPort p g s).procs = s.procs := rfl
@[simp] theorem updPort_upd (p : Nat) (g : Port → Port) (s : State) : (updPort p g s).upd = s.upd := rfl
@[simp] theorem updPort_hand (p : Nat) (g : Port → Port) (s : State) : (updPort p g s).hand = s.hand := rfl
@[simp] theorem updPort_fuses (p : Nat) (g : Port → Port) (s : State) : (updPort p g s).fuses = s.fuses := rfl
@[simp] theorem updPort_sec (p : Nat) (g : Port → Port) (s : State) : (updPort p g s).sec = s.sec := rfl
@[simp] theorem updPort_nor (p : Nat) (g : Port → Port) (s : State) : (updPort p g s).nor = s.nor := rfl
@[simp] theorem updPort_prov (p : Nat) (g : Port → Port) (s : State) : (updPort p g s).prov = s.prov := rfl
@[simp] theorem updPort_settings (p : Nat) (g : Port → Port) (s : State) : (updPort p g s).settings = s.settings := rfl
@[simp] theorem updPort_hbm (p : Nat) (g : Port → Port) (s : State) : (updPort p g s).hbm = s.hbm := rfl
@[simp] theorem updPort_store (p : Nat) (g : Port → Port) (s : State) : (updPort p g s).store = s.store := rfl
@[simp] theorem updPort_bufs (p : Nat) (g : Port → Port) (s : State) : (updPort p g s).bufs = s.bufs := rfl
@[simp] theorem updPort_cores (p : Nat) (g : Port → Port) (s : State) : (updPort p g s).cores = s.cores := rfl
@[simp] theorem updPort_ctrs (p : Nat) (g : Port → Port) (s : State) : (updPort p g s).ctrs = s.ctrs := rfl
@[simp] theorem updPort_engines (p : Nat) (g : Port → Port) (s : State) : (updPort p g s).engines = s.engines := rfl
@[simp] theorem updPort_chipDma (p : Nat) (g : Port → Port) (s : State) : (updPort p g s).chipDma = s.chipDma := rfl
@[simp] theorem updPort_progs (p : Nat) (g : Port → Port) (s : State) : (updPort p g s).progs = s.progs := rfl
@[simp] theorem updPort_tasks (p : Nat) (g : Port → Port) (s : State) : (updPort p g s).tasks = s.tasks := rfl
@[simp] theorem updPort_nextTask (p : Nat) (g : Port → Port) (s : State) : (updPort p g s).nextTask = s.nextTask := rfl
@[simp] theorem updPort_turn (p : Nat) (g : Port → Port) (s : State) : (updPort p g s).turn = s.turn := rfl
@[simp] theorem updPort_kv (p : Nat) (g : Port → Port) (s : State) : (updPort p g s).kv = s.kv := rfl
@[simp] theorem updPort_serve (p : Nat) (g : Port → Port) (s : State) : (updPort p g s).serve = s.serve := rfl
@[simp] theorem updPort_flint (p : Nat) (g : Port → Port) (s : State) : (updPort p g s).flint = s.flint := rfl
@[simp] theorem updPort_power (p : Nat) (g : Port → Port) (s : State) : (updPort p g s).power = s.power := rfl
@[simp] theorem updPort_caps (p : Nat) (g : Port → Port) (s : State) : (updPort p g s).caps = s.caps := rfl
@[simp] theorem updPort_meter (p : Nat) (g : Port → Port) (s : State) : (updPort p g s).meter = s.meter := rfl
@[simp] theorem updPort_thermal (p : Nat) (g : Port → Port) (s : State) : (updPort p g s).thermal = s.thermal := rfl
@[simp] theorem updPort_side (p : Nat) (g : Port → Port) (s : State) : (updPort p g s).side = s.side := rfl
@[simp] theorem updPort_issued (p : Nat) (g : Port → Port) (s : State) : (updPort p g s).issued = s.issued := rfl
@[simp] theorem updPort_mem (p : Nat) (g : Port → Port) (s : State) : (updPort p g s).mem = s.mem := rfl
@[simp] theorem updPort_out (p : Nat) (g : Port → Port) (s : State) : (updPort p g s).out = s.out := rfl
@[simp] theorem updPort_free (p : Nat) (g : Port → Port) (s : State) : (updPort p g s).free = s.free := rfl
@[simp] theorem updPort_pending (p : Nat) (g : Port → Port) (s : State) : (updPort p g s).pending = s.pending := rfl

/-! ## updCore -/

@[simp] theorem updCore_time (k : Nat) (g : Core → Core) (s : State) : (updCore k g s).time = s.time := rfl
@[simp] theorem updCore_ready (k : Nat) (g : Core → Core) (s : State) : (updCore k g s).ready = s.ready := rfl
@[simp] theorem updCore_cnt (k : Nat) (g : Core → Core) (s : State) : (updCore k g s).cnt = s.cnt := rfl
@[simp] theorem updCore_fcnt (k : Nat) (g : Core → Core) (s : State) : (updCore k g s).fcnt = s.fcnt := rfl
@[simp] theorem updCore_pins (k : Nat) (g : Core → Core) (s : State) : (updCore k g s).pins = s.pins := rfl
@[simp] theorem updCore_ft (k : Nat) (g : Core → Core) (s : State) : (updCore k g s).ft = s.ft := rfl
@[simp] theorem updCore_brown (k : Nat) (g : Core → Core) (s : State) : (updCore k g s).brown = s.brown := rfl
@[simp] theorem updCore_link (k : Nat) (g : Core → Core) (s : State) : (updCore k g s).link = s.link := rfl
@[simp] theorem updCore_cxl (k : Nat) (g : Core → Core) (s : State) : (updCore k g s).cxl = s.cxl := rfl
@[simp] theorem updCore_funcs (k : Nat) (g : Core → Core) (s : State) : (updCore k g s).funcs = s.funcs := rfl
@[simp] theorem updCore_boot (k : Nat) (g : Core → Core) (s : State) : (updCore k g s).boot = s.boot := rfl
@[simp] theorem updCore_procs (k : Nat) (g : Core → Core) (s : State) : (updCore k g s).procs = s.procs := rfl
@[simp] theorem updCore_upd (k : Nat) (g : Core → Core) (s : State) : (updCore k g s).upd = s.upd := rfl
@[simp] theorem updCore_hand (k : Nat) (g : Core → Core) (s : State) : (updCore k g s).hand = s.hand := rfl
@[simp] theorem updCore_fuses (k : Nat) (g : Core → Core) (s : State) : (updCore k g s).fuses = s.fuses := rfl
@[simp] theorem updCore_sec (k : Nat) (g : Core → Core) (s : State) : (updCore k g s).sec = s.sec := rfl
@[simp] theorem updCore_nor (k : Nat) (g : Core → Core) (s : State) : (updCore k g s).nor = s.nor := rfl
@[simp] theorem updCore_prov (k : Nat) (g : Core → Core) (s : State) : (updCore k g s).prov = s.prov := rfl
@[simp] theorem updCore_settings (k : Nat) (g : Core → Core) (s : State) : (updCore k g s).settings = s.settings := rfl
@[simp] theorem updCore_hbm (k : Nat) (g : Core → Core) (s : State) : (updCore k g s).hbm = s.hbm := rfl
@[simp] theorem updCore_store (k : Nat) (g : Core → Core) (s : State) : (updCore k g s).store = s.store := rfl
@[simp] theorem updCore_bufs (k : Nat) (g : Core → Core) (s : State) : (updCore k g s).bufs = s.bufs := rfl
@[simp] theorem updCore_ctrs (k : Nat) (g : Core → Core) (s : State) : (updCore k g s).ctrs = s.ctrs := rfl
@[simp] theorem updCore_engines (k : Nat) (g : Core → Core) (s : State) : (updCore k g s).engines = s.engines := rfl
@[simp] theorem updCore_chipDma (k : Nat) (g : Core → Core) (s : State) : (updCore k g s).chipDma = s.chipDma := rfl
@[simp] theorem updCore_progs (k : Nat) (g : Core → Core) (s : State) : (updCore k g s).progs = s.progs := rfl
@[simp] theorem updCore_tasks (k : Nat) (g : Core → Core) (s : State) : (updCore k g s).tasks = s.tasks := rfl
@[simp] theorem updCore_nextTask (k : Nat) (g : Core → Core) (s : State) : (updCore k g s).nextTask = s.nextTask := rfl
@[simp] theorem updCore_turn (k : Nat) (g : Core → Core) (s : State) : (updCore k g s).turn = s.turn := rfl
@[simp] theorem updCore_kv (k : Nat) (g : Core → Core) (s : State) : (updCore k g s).kv = s.kv := rfl
@[simp] theorem updCore_serve (k : Nat) (g : Core → Core) (s : State) : (updCore k g s).serve = s.serve := rfl
@[simp] theorem updCore_flint (k : Nat) (g : Core → Core) (s : State) : (updCore k g s).flint = s.flint := rfl
@[simp] theorem updCore_fab (k : Nat) (g : Core → Core) (s : State) : (updCore k g s).fab = s.fab := rfl
@[simp] theorem updCore_power (k : Nat) (g : Core → Core) (s : State) : (updCore k g s).power = s.power := rfl
@[simp] theorem updCore_caps (k : Nat) (g : Core → Core) (s : State) : (updCore k g s).caps = s.caps := rfl
@[simp] theorem updCore_meter (k : Nat) (g : Core → Core) (s : State) : (updCore k g s).meter = s.meter := rfl
@[simp] theorem updCore_thermal (k : Nat) (g : Core → Core) (s : State) : (updCore k g s).thermal = s.thermal := rfl
@[simp] theorem updCore_side (k : Nat) (g : Core → Core) (s : State) : (updCore k g s).side = s.side := rfl
@[simp] theorem updCore_issued (k : Nat) (g : Core → Core) (s : State) : (updCore k g s).issued = s.issued := rfl
@[simp] theorem updCore_mem (k : Nat) (g : Core → Core) (s : State) : (updCore k g s).mem = s.mem := rfl
@[simp] theorem updCore_out (k : Nat) (g : Core → Core) (s : State) : (updCore k g s).out = s.out := rfl
@[simp] theorem updCore_free (k : Nat) (g : Core → Core) (s : State) : (updCore k g s).free = s.free := rfl
@[simp] theorem updCore_pending (k : Nat) (g : Core → Core) (s : State) : (updCore k g s).pending = s.pending := rfl

/-! ## updSide -/

@[simp] theorem updSide_time (g : Side → Side) (s : State) : (updSide g s).time = s.time := rfl
@[simp] theorem updSide_ready (g : Side → Side) (s : State) : (updSide g s).ready = s.ready := rfl
@[simp] theorem updSide_cnt (g : Side → Side) (s : State) : (updSide g s).cnt = s.cnt := rfl
@[simp] theorem updSide_fcnt (g : Side → Side) (s : State) : (updSide g s).fcnt = s.fcnt := rfl
@[simp] theorem updSide_pins (g : Side → Side) (s : State) : (updSide g s).pins = s.pins := rfl
@[simp] theorem updSide_ft (g : Side → Side) (s : State) : (updSide g s).ft = s.ft := rfl
@[simp] theorem updSide_brown (g : Side → Side) (s : State) : (updSide g s).brown = s.brown := rfl
@[simp] theorem updSide_link (g : Side → Side) (s : State) : (updSide g s).link = s.link := rfl
@[simp] theorem updSide_cxl (g : Side → Side) (s : State) : (updSide g s).cxl = s.cxl := rfl
@[simp] theorem updSide_funcs (g : Side → Side) (s : State) : (updSide g s).funcs = s.funcs := rfl
@[simp] theorem updSide_boot (g : Side → Side) (s : State) : (updSide g s).boot = s.boot := rfl
@[simp] theorem updSide_procs (g : Side → Side) (s : State) : (updSide g s).procs = s.procs := rfl
@[simp] theorem updSide_upd (g : Side → Side) (s : State) : (updSide g s).upd = s.upd := rfl
@[simp] theorem updSide_hand (g : Side → Side) (s : State) : (updSide g s).hand = s.hand := rfl
@[simp] theorem updSide_fuses (g : Side → Side) (s : State) : (updSide g s).fuses = s.fuses := rfl
@[simp] theorem updSide_sec (g : Side → Side) (s : State) : (updSide g s).sec = s.sec := rfl
@[simp] theorem updSide_nor (g : Side → Side) (s : State) : (updSide g s).nor = s.nor := rfl
@[simp] theorem updSide_prov (g : Side → Side) (s : State) : (updSide g s).prov = s.prov := rfl
@[simp] theorem updSide_settings (g : Side → Side) (s : State) : (updSide g s).settings = s.settings := rfl
@[simp] theorem updSide_hbm (g : Side → Side) (s : State) : (updSide g s).hbm = s.hbm := rfl
@[simp] theorem updSide_store (g : Side → Side) (s : State) : (updSide g s).store = s.store := rfl
@[simp] theorem updSide_bufs (g : Side → Side) (s : State) : (updSide g s).bufs = s.bufs := rfl
@[simp] theorem updSide_cores (g : Side → Side) (s : State) : (updSide g s).cores = s.cores := rfl
@[simp] theorem updSide_ctrs (g : Side → Side) (s : State) : (updSide g s).ctrs = s.ctrs := rfl
@[simp] theorem updSide_engines (g : Side → Side) (s : State) : (updSide g s).engines = s.engines := rfl
@[simp] theorem updSide_chipDma (g : Side → Side) (s : State) : (updSide g s).chipDma = s.chipDma := rfl
@[simp] theorem updSide_progs (g : Side → Side) (s : State) : (updSide g s).progs = s.progs := rfl
@[simp] theorem updSide_tasks (g : Side → Side) (s : State) : (updSide g s).tasks = s.tasks := rfl
@[simp] theorem updSide_nextTask (g : Side → Side) (s : State) : (updSide g s).nextTask = s.nextTask := rfl
@[simp] theorem updSide_turn (g : Side → Side) (s : State) : (updSide g s).turn = s.turn := rfl
@[simp] theorem updSide_kv (g : Side → Side) (s : State) : (updSide g s).kv = s.kv := rfl
@[simp] theorem updSide_serve (g : Side → Side) (s : State) : (updSide g s).serve = s.serve := rfl
@[simp] theorem updSide_flint (g : Side → Side) (s : State) : (updSide g s).flint = s.flint := rfl
@[simp] theorem updSide_fab (g : Side → Side) (s : State) : (updSide g s).fab = s.fab := rfl
@[simp] theorem updSide_power (g : Side → Side) (s : State) : (updSide g s).power = s.power := rfl
@[simp] theorem updSide_caps (g : Side → Side) (s : State) : (updSide g s).caps = s.caps := rfl
@[simp] theorem updSide_meter (g : Side → Side) (s : State) : (updSide g s).meter = s.meter := rfl
@[simp] theorem updSide_thermal (g : Side → Side) (s : State) : (updSide g s).thermal = s.thermal := rfl
@[simp] theorem updSide_issued (g : Side → Side) (s : State) : (updSide g s).issued = s.issued := rfl
@[simp] theorem updSide_mem (g : Side → Side) (s : State) : (updSide g s).mem = s.mem := rfl
@[simp] theorem updSide_out (g : Side → Side) (s : State) : (updSide g s).out = s.out := rfl
@[simp] theorem updSide_free (g : Side → Side) (s : State) : (updSide g s).free = s.free := rfl
@[simp] theorem updSide_pending (g : Side → Side) (s : State) : (updSide g s).pending = s.pending := rfl

/-! ## updSec -/

@[simp] theorem updSec_time (g : Sec → Sec) (s : State) : (updSec g s).time = s.time := rfl
@[simp] theorem updSec_ready (g : Sec → Sec) (s : State) : (updSec g s).ready = s.ready := rfl
@[simp] theorem updSec_cnt (g : Sec → Sec) (s : State) : (updSec g s).cnt = s.cnt := rfl
@[simp] theorem updSec_fcnt (g : Sec → Sec) (s : State) : (updSec g s).fcnt = s.fcnt := rfl
@[simp] theorem updSec_pins (g : Sec → Sec) (s : State) : (updSec g s).pins = s.pins := rfl
@[simp] theorem updSec_ft (g : Sec → Sec) (s : State) : (updSec g s).ft = s.ft := rfl
@[simp] theorem updSec_brown (g : Sec → Sec) (s : State) : (updSec g s).brown = s.brown := rfl
@[simp] theorem updSec_link (g : Sec → Sec) (s : State) : (updSec g s).link = s.link := rfl
@[simp] theorem updSec_cxl (g : Sec → Sec) (s : State) : (updSec g s).cxl = s.cxl := rfl
@[simp] theorem updSec_funcs (g : Sec → Sec) (s : State) : (updSec g s).funcs = s.funcs := rfl
@[simp] theorem updSec_boot (g : Sec → Sec) (s : State) : (updSec g s).boot = s.boot := rfl
@[simp] theorem updSec_procs (g : Sec → Sec) (s : State) : (updSec g s).procs = s.procs := rfl
@[simp] theorem updSec_upd (g : Sec → Sec) (s : State) : (updSec g s).upd = s.upd := rfl
@[simp] theorem updSec_hand (g : Sec → Sec) (s : State) : (updSec g s).hand = s.hand := rfl
@[simp] theorem updSec_fuses (g : Sec → Sec) (s : State) : (updSec g s).fuses = s.fuses := rfl
@[simp] theorem updSec_nor (g : Sec → Sec) (s : State) : (updSec g s).nor = s.nor := rfl
@[simp] theorem updSec_prov (g : Sec → Sec) (s : State) : (updSec g s).prov = s.prov := rfl
@[simp] theorem updSec_settings (g : Sec → Sec) (s : State) : (updSec g s).settings = s.settings := rfl
@[simp] theorem updSec_hbm (g : Sec → Sec) (s : State) : (updSec g s).hbm = s.hbm := rfl
@[simp] theorem updSec_store (g : Sec → Sec) (s : State) : (updSec g s).store = s.store := rfl
@[simp] theorem updSec_bufs (g : Sec → Sec) (s : State) : (updSec g s).bufs = s.bufs := rfl
@[simp] theorem updSec_cores (g : Sec → Sec) (s : State) : (updSec g s).cores = s.cores := rfl
@[simp] theorem updSec_ctrs (g : Sec → Sec) (s : State) : (updSec g s).ctrs = s.ctrs := rfl
@[simp] theorem updSec_engines (g : Sec → Sec) (s : State) : (updSec g s).engines = s.engines := rfl
@[simp] theorem updSec_chipDma (g : Sec → Sec) (s : State) : (updSec g s).chipDma = s.chipDma := rfl
@[simp] theorem updSec_progs (g : Sec → Sec) (s : State) : (updSec g s).progs = s.progs := rfl
@[simp] theorem updSec_tasks (g : Sec → Sec) (s : State) : (updSec g s).tasks = s.tasks := rfl
@[simp] theorem updSec_nextTask (g : Sec → Sec) (s : State) : (updSec g s).nextTask = s.nextTask := rfl
@[simp] theorem updSec_turn (g : Sec → Sec) (s : State) : (updSec g s).turn = s.turn := rfl
@[simp] theorem updSec_kv (g : Sec → Sec) (s : State) : (updSec g s).kv = s.kv := rfl
@[simp] theorem updSec_serve (g : Sec → Sec) (s : State) : (updSec g s).serve = s.serve := rfl
@[simp] theorem updSec_flint (g : Sec → Sec) (s : State) : (updSec g s).flint = s.flint := rfl
@[simp] theorem updSec_fab (g : Sec → Sec) (s : State) : (updSec g s).fab = s.fab := rfl
@[simp] theorem updSec_power (g : Sec → Sec) (s : State) : (updSec g s).power = s.power := rfl
@[simp] theorem updSec_caps (g : Sec → Sec) (s : State) : (updSec g s).caps = s.caps := rfl
@[simp] theorem updSec_meter (g : Sec → Sec) (s : State) : (updSec g s).meter = s.meter := rfl
@[simp] theorem updSec_thermal (g : Sec → Sec) (s : State) : (updSec g s).thermal = s.thermal := rfl
@[simp] theorem updSec_side (g : Sec → Sec) (s : State) : (updSec g s).side = s.side := rfl
@[simp] theorem updSec_issued (g : Sec → Sec) (s : State) : (updSec g s).issued = s.issued := rfl
@[simp] theorem updSec_mem (g : Sec → Sec) (s : State) : (updSec g s).mem = s.mem := rfl
@[simp] theorem updSec_out (g : Sec → Sec) (s : State) : (updSec g s).out = s.out := rfl
@[simp] theorem updSec_free (g : Sec → Sec) (s : State) : (updSec g s).free = s.free := rfl
@[simp] theorem updSec_pending (g : Sec → Sec) (s : State) : (updSec g s).pending = s.pending := rfl

/-! ## updFlint -/

@[simp] theorem updFlint_time (g : Flint → Flint) (s : State) : (updFlint g s).time = s.time := rfl
@[simp] theorem updFlint_ready (g : Flint → Flint) (s : State) : (updFlint g s).ready = s.ready := rfl
@[simp] theorem updFlint_cnt (g : Flint → Flint) (s : State) : (updFlint g s).cnt = s.cnt := rfl
@[simp] theorem updFlint_fcnt (g : Flint → Flint) (s : State) : (updFlint g s).fcnt = s.fcnt := rfl
@[simp] theorem updFlint_pins (g : Flint → Flint) (s : State) : (updFlint g s).pins = s.pins := rfl
@[simp] theorem updFlint_ft (g : Flint → Flint) (s : State) : (updFlint g s).ft = s.ft := rfl
@[simp] theorem updFlint_brown (g : Flint → Flint) (s : State) : (updFlint g s).brown = s.brown := rfl
@[simp] theorem updFlint_link (g : Flint → Flint) (s : State) : (updFlint g s).link = s.link := rfl
@[simp] theorem updFlint_cxl (g : Flint → Flint) (s : State) : (updFlint g s).cxl = s.cxl := rfl
@[simp] theorem updFlint_funcs (g : Flint → Flint) (s : State) : (updFlint g s).funcs = s.funcs := rfl
@[simp] theorem updFlint_boot (g : Flint → Flint) (s : State) : (updFlint g s).boot = s.boot := rfl
@[simp] theorem updFlint_procs (g : Flint → Flint) (s : State) : (updFlint g s).procs = s.procs := rfl
@[simp] theorem updFlint_upd (g : Flint → Flint) (s : State) : (updFlint g s).upd = s.upd := rfl
@[simp] theorem updFlint_hand (g : Flint → Flint) (s : State) : (updFlint g s).hand = s.hand := rfl
@[simp] theorem updFlint_fuses (g : Flint → Flint) (s : State) : (updFlint g s).fuses = s.fuses := rfl
@[simp] theorem updFlint_sec (g : Flint → Flint) (s : State) : (updFlint g s).sec = s.sec := rfl
@[simp] theorem updFlint_nor (g : Flint → Flint) (s : State) : (updFlint g s).nor = s.nor := rfl
@[simp] theorem updFlint_prov (g : Flint → Flint) (s : State) : (updFlint g s).prov = s.prov := rfl
@[simp] theorem updFlint_settings (g : Flint → Flint) (s : State) : (updFlint g s).settings = s.settings := rfl
@[simp] theorem updFlint_hbm (g : Flint → Flint) (s : State) : (updFlint g s).hbm = s.hbm := rfl
@[simp] theorem updFlint_store (g : Flint → Flint) (s : State) : (updFlint g s).store = s.store := rfl
@[simp] theorem updFlint_bufs (g : Flint → Flint) (s : State) : (updFlint g s).bufs = s.bufs := rfl
@[simp] theorem updFlint_cores (g : Flint → Flint) (s : State) : (updFlint g s).cores = s.cores := rfl
@[simp] theorem updFlint_ctrs (g : Flint → Flint) (s : State) : (updFlint g s).ctrs = s.ctrs := rfl
@[simp] theorem updFlint_engines (g : Flint → Flint) (s : State) : (updFlint g s).engines = s.engines := rfl
@[simp] theorem updFlint_chipDma (g : Flint → Flint) (s : State) : (updFlint g s).chipDma = s.chipDma := rfl
@[simp] theorem updFlint_progs (g : Flint → Flint) (s : State) : (updFlint g s).progs = s.progs := rfl
@[simp] theorem updFlint_tasks (g : Flint → Flint) (s : State) : (updFlint g s).tasks = s.tasks := rfl
@[simp] theorem updFlint_nextTask (g : Flint → Flint) (s : State) : (updFlint g s).nextTask = s.nextTask := rfl
@[simp] theorem updFlint_turn (g : Flint → Flint) (s : State) : (updFlint g s).turn = s.turn := rfl
@[simp] theorem updFlint_kv (g : Flint → Flint) (s : State) : (updFlint g s).kv = s.kv := rfl
@[simp] theorem updFlint_serve (g : Flint → Flint) (s : State) : (updFlint g s).serve = s.serve := rfl
@[simp] theorem updFlint_fab (g : Flint → Flint) (s : State) : (updFlint g s).fab = s.fab := rfl
@[simp] theorem updFlint_power (g : Flint → Flint) (s : State) : (updFlint g s).power = s.power := rfl
@[simp] theorem updFlint_caps (g : Flint → Flint) (s : State) : (updFlint g s).caps = s.caps := rfl
@[simp] theorem updFlint_meter (g : Flint → Flint) (s : State) : (updFlint g s).meter = s.meter := rfl
@[simp] theorem updFlint_thermal (g : Flint → Flint) (s : State) : (updFlint g s).thermal = s.thermal := rfl
@[simp] theorem updFlint_side (g : Flint → Flint) (s : State) : (updFlint g s).side = s.side := rfl
@[simp] theorem updFlint_issued (g : Flint → Flint) (s : State) : (updFlint g s).issued = s.issued := rfl
@[simp] theorem updFlint_mem (g : Flint → Flint) (s : State) : (updFlint g s).mem = s.mem := rfl
@[simp] theorem updFlint_out (g : Flint → Flint) (s : State) : (updFlint g s).out = s.out := rfl
@[simp] theorem updFlint_free (g : Flint → Flint) (s : State) : (updFlint g s).free = s.free := rfl
@[simp] theorem updFlint_pending (g : Flint → Flint) (s : State) : (updFlint g s).pending = s.pending := rfl

/-! ## pldmEvent -/

@[simp] theorem pldmEvent_time (c d : Nat) (s : State) : (pldmEvent c d s).time = s.time := rfl
@[simp] theorem pldmEvent_ready (c d : Nat) (s : State) : (pldmEvent c d s).ready = s.ready := rfl
@[simp] theorem pldmEvent_cnt (c d : Nat) (s : State) : (pldmEvent c d s).cnt = s.cnt := rfl
@[simp] theorem pldmEvent_fcnt (c d : Nat) (s : State) : (pldmEvent c d s).fcnt = s.fcnt := rfl
@[simp] theorem pldmEvent_pins (c d : Nat) (s : State) : (pldmEvent c d s).pins = s.pins := rfl
@[simp] theorem pldmEvent_ft (c d : Nat) (s : State) : (pldmEvent c d s).ft = s.ft := rfl
@[simp] theorem pldmEvent_brown (c d : Nat) (s : State) : (pldmEvent c d s).brown = s.brown := rfl
@[simp] theorem pldmEvent_link (c d : Nat) (s : State) : (pldmEvent c d s).link = s.link := rfl
@[simp] theorem pldmEvent_cxl (c d : Nat) (s : State) : (pldmEvent c d s).cxl = s.cxl := rfl
@[simp] theorem pldmEvent_funcs (c d : Nat) (s : State) : (pldmEvent c d s).funcs = s.funcs := rfl
@[simp] theorem pldmEvent_boot (c d : Nat) (s : State) : (pldmEvent c d s).boot = s.boot := rfl
@[simp] theorem pldmEvent_procs (c d : Nat) (s : State) : (pldmEvent c d s).procs = s.procs := rfl
@[simp] theorem pldmEvent_upd (c d : Nat) (s : State) : (pldmEvent c d s).upd = s.upd := rfl
@[simp] theorem pldmEvent_hand (c d : Nat) (s : State) : (pldmEvent c d s).hand = s.hand := rfl
@[simp] theorem pldmEvent_fuses (c d : Nat) (s : State) : (pldmEvent c d s).fuses = s.fuses := rfl
@[simp] theorem pldmEvent_sec (c d : Nat) (s : State) : (pldmEvent c d s).sec = s.sec := rfl
@[simp] theorem pldmEvent_nor (c d : Nat) (s : State) : (pldmEvent c d s).nor = s.nor := rfl
@[simp] theorem pldmEvent_prov (c d : Nat) (s : State) : (pldmEvent c d s).prov = s.prov := rfl
@[simp] theorem pldmEvent_settings (c d : Nat) (s : State) : (pldmEvent c d s).settings = s.settings := rfl
@[simp] theorem pldmEvent_hbm (c d : Nat) (s : State) : (pldmEvent c d s).hbm = s.hbm := rfl
@[simp] theorem pldmEvent_store (c d : Nat) (s : State) : (pldmEvent c d s).store = s.store := rfl
@[simp] theorem pldmEvent_bufs (c d : Nat) (s : State) : (pldmEvent c d s).bufs = s.bufs := rfl
@[simp] theorem pldmEvent_cores (c d : Nat) (s : State) : (pldmEvent c d s).cores = s.cores := rfl
@[simp] theorem pldmEvent_ctrs (c d : Nat) (s : State) : (pldmEvent c d s).ctrs = s.ctrs := rfl
@[simp] theorem pldmEvent_engines (c d : Nat) (s : State) : (pldmEvent c d s).engines = s.engines := rfl
@[simp] theorem pldmEvent_chipDma (c d : Nat) (s : State) : (pldmEvent c d s).chipDma = s.chipDma := rfl
@[simp] theorem pldmEvent_progs (c d : Nat) (s : State) : (pldmEvent c d s).progs = s.progs := rfl
@[simp] theorem pldmEvent_tasks (c d : Nat) (s : State) : (pldmEvent c d s).tasks = s.tasks := rfl
@[simp] theorem pldmEvent_nextTask (c d : Nat) (s : State) : (pldmEvent c d s).nextTask = s.nextTask := rfl
@[simp] theorem pldmEvent_turn (c d : Nat) (s : State) : (pldmEvent c d s).turn = s.turn := rfl
@[simp] theorem pldmEvent_kv (c d : Nat) (s : State) : (pldmEvent c d s).kv = s.kv := rfl
@[simp] theorem pldmEvent_serve (c d : Nat) (s : State) : (pldmEvent c d s).serve = s.serve := rfl
@[simp] theorem pldmEvent_flint (c d : Nat) (s : State) : (pldmEvent c d s).flint = s.flint := rfl
@[simp] theorem pldmEvent_fab (c d : Nat) (s : State) : (pldmEvent c d s).fab = s.fab := rfl
@[simp] theorem pldmEvent_power (c d : Nat) (s : State) : (pldmEvent c d s).power = s.power := rfl
@[simp] theorem pldmEvent_caps (c d : Nat) (s : State) : (pldmEvent c d s).caps = s.caps := rfl
@[simp] theorem pldmEvent_meter (c d : Nat) (s : State) : (pldmEvent c d s).meter = s.meter := rfl
@[simp] theorem pldmEvent_thermal (c d : Nat) (s : State) : (pldmEvent c d s).thermal = s.thermal := rfl
@[simp] theorem pldmEvent_side (c d : Nat) (s : State) : (pldmEvent c d s).side = s.side := rfl
@[simp] theorem pldmEvent_issued (c d : Nat) (s : State) : (pldmEvent c d s).issued = s.issued := rfl
@[simp] theorem pldmEvent_mem (c d : Nat) (s : State) : (pldmEvent c d s).mem = s.mem := rfl
@[simp] theorem pldmEvent_free (c d : Nat) (s : State) : (pldmEvent c d s).free = s.free := rfl
@[simp] theorem pldmEvent_pending (c d : Nat) (s : State) : (pldmEvent c d s).pending = s.pending := rfl

end Sys2Proof.Laws
end

