-- ==== Sys2Proof/Laws/Frame.lean ====
section
/-! SUPPORT. The operations that only report: they write completions, events, interrupts and counts, and change nothing else. -/

namespace Sys2Proof.Laws

open Sys2Proof.Machine

/-- t differs from s at most in the functions' registers and queues, what has been sent, the counters and the free values. -/
def reportsOnly (s t : State) : Prop :=
  { t with funcs := s.funcs, out := s.out, cnt := s.cnt, fcnt := s.fcnt, free := s.free } = s

theorem reportsOnly.refl (s : State) : reportsOnly s s := rfl

theorem reportsOnly.trans {s t u : State} (h : reportsOnly s t) (k : reportsOnly t u) : reportsOnly s u := by
  unfold reportsOnly at *
  rw [← h]
  conv_rhs => rw [← k]

/-- A step taken over a list keeps a relation that each of its steps keeps. -/
theorem forEach_rel {α : Type} {R : State → State → Prop} (rfl' : ∀ s, R s s) (tr : ∀ {a b c}, R a b → R b c → R a c)
    (l : List α) (f : α → State → State) (h : ∀ x s, R s (f x s)) (s : State) : R s (forEach l f s) := by
  unfold forEach
  induction l generalizing s with
  | nil => exact rfl' s
  | cons x r ih => exact tr (h x s) (ih (f x s))

theorem forEach_reports {α : Type} (l : List α) (f : α → State → State) (h : ∀ x s, reportsOnly s (f x s)) (s : State) :
    reportsOnly s (forEach l f s) := forEach_rel reportsOnly.refl reportsOnly.trans l f h s

theorem emit_reports (o : Out) (s : State) : reportsOnly s (emit o s) := rfl
theorem bump_reports (f k : Nat) (s : State) : reportsOnly s (bump f k s) := rfl
theorem bumpBy_reports (f k n : Nat) (s : State) : reportsOnly s (bumpBy f k n s) := rfl
theorem bumpPart_reports (k : Nat) (s : State) : reportsOnly s (bumpPart k s) := rfl
theorem bumpPartBy_reports (k n : Nat) (s : State) : reportsOnly s (bumpPartBy k n s) := rfl
theorem tookFree_reports (s : State) : reportsOnly s (tookFree s) := rfl
theorem updFn_reports (f : Nat) (g : Func → Func) (s : State) : reportsOnly s (updFn f g s) := rfl
theorem updRing_reports (f q : Nat) (g : Ring → Ring) (s : State) : reportsOnly s (updRing f q g s) := rfl
theorem pldmEvent_reports (c d : Nat) (s : State) : reportsOnly s (pldmEvent c d s) := rfl
theorem directDone_reports (f : Nat) (e : Cqe) (s : State) : reportsOnly s (directDone f e s) := rfl
theorem directDrop_reports (f : Nat) (s : State) : reportsOnly s (directDrop f s) := rfl

theorem raiseVec_reports (f v : Nat) (s : State) : reportsOnly s (raiseVec f v s) := by
  unfold raiseVec
  simp only
  split
  · rfl
  · split <;> rfl

theorem raiseAll_reports (s : State) : reportsOnly s (raiseAll s) :=
  forEach_reports _ _ (fun f s => raiseVec_reports f 0 s) s

theorem sendPending_reports (f : Nat) (s : State) : reportsOnly s (sendPending f s) := by
  unfold sendPending
  refine forEach_reports _ _ (fun v t => ?_) s
  simp only
  split
  · exact (updFn_reports f _ t).trans (raiseVec_reports f v _)
  · rfl

theorem writeCq_reports (f q : Nat) (e : Cqe) (held : Bool) (s : State) : reportsOnly s (writeCq f q e held s) := by
  unfold writeCq
  simp only
  split
  · exact ((emit_reports _ s).trans (updRing_reports f q _ _)).trans (raiseVec_reports f _ _)
  · exact (emit_reports _ s).trans (updRing_reports f q _ _)

theorem hold_reports (f q : Nat) (e : Cqe) (s : State) : reportsOnly s (hold f q e s) := rfl

theorem post_reports (f q : Nat) (e : Cqe) (s : State) : reportsOnly s (post f q e s) := by
  unfold post
  simp only
  split
  · refine reportsOnly.trans ?_ (hold_reports f q _ _)
    split
    · exact (updRing_reports f q _ s).trans (bump_reports f _ _)
    · rfl
  · split
    · refine reportsOnly.trans ?_ (hold_reports f q _ _)
      split
      · rfl
      · exact (updRing_reports f q _ s).trans (bump_reports f _ _)
    · exact writeCq_reports f q _ _ s

theorem postEvent_reports (code : Nat) (st : Status) (detail : Nat) (s : State) : reportsOnly s (postEvent code st detail s) := by
  unfold postEvent
  exact (post_reports 0 0 _ s).trans (pldmEvent_reports _ _ _)

theorem complete_reports (f : Nat) (q : Option Nat) (e : Cqe) (s : State) : reportsOnly s (complete f q e s) := by
  unfold complete
  split
  · exact post_reports f _ e s
  · rfl

theorem answer_reports (c : Cmd) (st : Status) (h : Nat) (r : BitVec 320) (s : State) : reportsOnly s (c.answer st h r s) := by
  unfold Cmd.answer
  exact (complete_reports _ _ _ s).trans (tookFree_reports _)

theorem end_reports (c : Cmd) (st : Status) (s : State) : reportsOnly s (c.end st s) := answer_reports c st _ 0 s

theorem endRetry_reports (c : Cmd) (st : Status) (r : Nat) (s : State) : reportsOnly s (c.endRetry st r s) :=
  complete_reports _ _ _ s

theorem drop_reports (c : Cmd) (k : Nat) (s : State) : reportsOnly s (c.drop k s) := by
  unfold Cmd.drop
  simp only
  split
  · exact (bump_reports _ k s).trans (directDrop_reports _ _)
  · rfl

theorem drainHeld_reports (f q n : Nat) (s : State) : reportsOnly s (drainHeld f q n s) := by
  induction n generalizing s with
  | zero => rfl
  | succ n ih =>
    unfold drainHeld
    simp only
    split
    · rfl
    · split
      · rfl
      · exact ((updFn_reports f _ s).trans (writeCq_reports f q _ true _)).trans (ih _)

theorem flushHeld_reports (f q : Nat) (s : State) : reportsOnly s (flushHeld f q s) := drainHeld_reports f q _ s

/-- A READY_MAP change reports, beside the map itself. -/
theorem setReady_frame (b : Nat) (v : Bool) (s : State) :
    reportsOnly { s with ready := (setReady b v s).ready } (setReady b v s) := by
  unfold setReady
  split
  · rfl
  · have h : ∀ u : State, reportsOnly u (raiseAll u) := raiseAll_reports
    simp only [pldmEvent_ready]
    have e : ∀ u : State, (raiseAll u).ready = u.ready := fun u => by
      have := congrArg State.ready (h u)
      simpa using this
    rw [e]
    exact (h _).trans (pldmEvent_reports _ _ _)

end Sys2Proof.Laws
end

