-- ==== Sys2Proof/Machine/Views.lean ====
section
/-! DEFINITION. What software reads: the registers of BAR0 (22 R458 and the chapters it names) and the telemetry aperture of BAR4
(20 R436); and what SCH's tables and the device addresses hold (08 R181, 10 R223, R224, 11 R250, R254). No command of the table reads a plain register, so these are functions of the state that no meaning calls, but for the
reads of FT_NOW and of counters, which have rows of their own. -/

namespace Sys2Proof.Machine

/-- A register from (lowest bit, width, value) fields. -/
def fieldsOf (w : Nat) (l : List (Nat × Nat × Nat)) : BitVec w := l.foldl (fun v x => setBits v x.1 x.2.1 x.2.2) 0

/-! ## Status registers, the same in every function but for HOST_LINK_STATUS -/

/-- FT_STATUS (R20). -/
def State.ftStatus (s : State) : BitVec 32 :=
  let t := s.ft
  fieldsOf 32 [(16, 16, t.epoch.toNat), (8, 4, t.hops.toNat), (3, 1, t.master.toNat), (2, 1, t.holdover.toNat), (1, 1, t.locked.toNat),
    (0, 1, t.running.toNat)]

/-- HOST_LINK_STATUS of a function (R35, R47). -/
def State.hostLinkStatus (s : State) (f : Nat) : BitVec 32 :=
  let l := s.link
  let x := s.fn f
  fieldsOf 32 [(18, 2, x.fenceCause.toNat), (17, 1, x.fenceDone.toNat), (16, 1, x.fenced.toNat), (15, 1, l.degraded.toNat),
    (14, 1, l.cxlCache.toNat), (13, 1, l.cxlMem.toNat), (12, 1, l.flit.toNat), (7, 5, l.l0p.toNat), (2, 5, l.width.toNat),
    (0, 2, l.rate.toNat)]

/-- FABRIC_STATUS (R375). -/
def State.fabricStatus (s : State) : BitVec 32 :=
  let x := s.fab
  fieldsOf 32 [(28, 4, x.furlong), (16, 12, x.addr), (15, 1, x.valid.toNat), (14, 1, x.settled.toNat), (0, 13, x.parts)]

/-- The highest stretch level among the islands (R406, R413). -/
def State.topStretch (s : State) : Nat := (Tab.vals s.power.stretch).foldl max 0

/-- POWER_STATUS (R413). -/
def State.powerStatus (s : State) : BitVec 32 :=
  fieldsOf 32 [(24, 5, s.dropped), (19, 5, s.untrusted), (16, 3, s.topStretch), (15, 1, s.power.pwrbrk.toNat),
    (14, 1, s.brown.asserted.toNat), (13, 1, (decide (8 ≤ s.dropped)).toNat), (12, 1, (decide (2 ≤ s.untrusted)).toNat), (8, 4, s.power.op),
    (0, 8, s.slew)]

/-- The hottest of readings in °C, 0 where there is none, within the 8 bits of a field. -/
def hottest (l : List Int) : Nat := min 255 ((l.foldl max 0) / 8).toNat

/-- THERMAL_STATUS (20). -/
def State.thermalStatus (s : State) : BitVec 32 :=
  let x := s.thermal
  fieldsOf 32 [(24, 8, hottest (s.included.map (·.2))), (16, 8, hottest (s.judged.map (·.2))), (8, 8, hottest [x.peakDie]),
    (4, 1, x.warming.toNat), (3, 1, (s.hbm.any (fun e => e.2.throttled)).toNat), (2, 1, x.critical.toNat), (1, 1, x.throttle.toNat),
    (0, 1, x.predict.toNat)]

/-- CAP_STATUS (20). -/
def State.capStatus (s : State) : BitVec 32 :=
  fieldsOf 32 [(23, 9, s.capMw / 1000), (14, 9, s.caps.inputMw / 1000), (10, 4, s.caps.limiter), (6, 4, s.caps.gate)]

/-! ## Iarek, rings, boot channel -/

/-- IAREK_VERSION (R57). -/
def State.iarekVersion (s : State) : BitVec 32 := if s.isReady rFw then s.boot.runLevel.zeroExtend 32 else 0

/-- LEASE_CTRL and LEASE_STATUS (R57, R78). -/
def Func.leaseCtrl (x : Func) : BitVec 32 := fieldsOf 32 [(30, 2, x.policy.toNat), (0, 14, x.period.toNat)]
def Func.leaseStatus (x : Func) : BitVec 32 := fieldsOf 32 [(2, 1, x.settled.toNat), (1, 1, x.expired.toNat), (0, 1, x.armed.toNat)]

/-- RING_CFG and RING_COAL (R57). -/
def Ring.cfg (r : Ring) : BitVec 32 :=
  fieldsOf 32 [(31, 1, r.enable.toNat), (25, 6, r.vector.toNat), (21, 4, r.weight.toNat), (16, 5, r.sqLog.toNat), (11, 5, r.cqLog.toNat)]
def Ring.coal (r : Ring) : BitVec 32 := fieldsOf 32 [(8, 8, r.coalUs.toNat), (0, 8, r.coalN.toNat)]

/-- BOOT_STATUS (R84). -/
def Boot.status (b : Boot) : BitVec 32 := fieldsOf 32 [(16, 16, b.result.toNat), (0, 4, b.state.code)]

/-- PROC_STATUS (R84): a FAULTED processor leaves FAULTED with a successful FW_UPDATE only (R103). -/
def Proc.status (p : Proc) : BitVec 32 :=
  let st := if p.halted ∧ p.state ≠ .running then ProcState.faulted else p.state
  fieldsOf 32 [(20, 12, p.aepoch.toNat), (19, 1, p.slotB.toNat), (8, 8, p.restarts), (4, 4, p.lastCause), (0, 4, st.code)]

/-- 32 bits of a wide register, word k. -/
def wordAt {w : Nat} (v : BitVec w) (k : Nat) : BitVec 32 := BitVec.ofNat 32 (bits v (32 * k) 32)

/-- A register of a ring pair at an offset of its 0x40 bytes. -/
def Ring.read (r : Ring) (off : Nat) : BitVec 32 :=
  match off with
  | 0x00 => wordAt r.sqBase 0
  | 0x04 => wordAt r.sqBase 1
  | 0x08 => wordAt r.cqBase 0
  | 0x0C => wordAt r.cqBase 1
  | 0x10 => r.cfg
  | 0x14 => r.coal
  | 0x18 => BitVec.ofNat 32 r.sqHead
  | 0x1C => BitVec.ofNat 32 r.cqTail
  | _ => 0

/-- What a function reads of 32 bits of BAR0 (R458); write-only and reserved places read 0, and the boot channel exists in the PF
alone. FT_NOW is read as two live halves here; FT_NOW_READ gives the latch of R20. -/
def State.readBar0 (s : State) (f off : Nat) : BitVec 32 :=
  let x := s.fn f
  if off % 4 ≠ 0 then 0
  else if off = 0x08 then s.ready
  else if off = 0x10 then wordAt s.ftNow 0
  else if off = 0x14 then wordAt s.ftNow 1
  else if off = 0x18 then s.ftStatus
  else if off = 0x20 then s.hostLinkStatus f
  else if off = 0x28 then s.fabricStatus
  else if off = 0x30 then s.powerStatus
  else if off = 0x34 then s.power.alert.zeroExtend 32
  else if off = 0x38 then s.thermalStatus
  else if off = 0x3C then s.capStatus
  else if off = 0x100 then s.iarekVersion
  else if off = 0x104 then BitVec.ofNat 32 s.iarekCap
  else if off = 0x108 then x.leaseCtrl
  else if off = 0x10C then x.leaseStatus
  else if 0x180 ≤ off ∧ off < 0x1C0 then wordAt x.directCmd ((off - 0x180) / 4)
  else if 0x1C0 ≤ off ∧ off < 0x200 then wordAt x.directCpl ((off - 0x1C0) / 4)
  else if 0x200 ≤ off ∧ off < 0xA00 then (s.ring f ((off - 0x200) / 0x40)).read ((off - 0x200) % 0x40)
  else if f ≠ 0 then 0
  else if off = 0x8004 then s.boot.status
  else if off = 0x8008 then wordAt s.boot.src 0
  else if off = 0x800C then wordAt s.boot.src 1
  else if off = 0x8010 then s.boot.len
  else if off = 0x8014 then s.boot.runAbi ++ s.boot.runLevel
  else if off = 0x8018 then s.boot.runBuild
  else if 0x8040 ≤ off ∧ off < 0x806C then (s.proc ((off - 0x8040) / 4)).status
  else 0

/-- What a function reads of 32 bits of the lower half of BAR4 (R38, R43): its MSI-X table and its PBA. -/
def State.readMsix (s : State) (f off : Nat) : BitVec 32 :=
  let x := s.fn f
  let pba := 8 * Config.pbaOffset f
  if off % 4 ≠ 0 then 0
  else if off < 16 * vectorsOf f then
    let e := Tab.get {} x.msix (off / 16)
    match off % 16 / 4 with
    | 0 => wordAt e.addr 0
    | 1 => wordAt e.addr 1
    | 2 => e.data
    | _ => BitVec.ofNat 32 e.mask.toNat
  else if pba ≤ off ∧ off < pba + 8 then wordAt x.pba ((off - pba) / 4)
  else 0

/-! ## Device addresses (R181) -/

/-- The unit at a device address as SCH, the CCCs and the chip-level engines reach it: HBM, Basalt, and the Slate and the Grains of a
core; none where the address is reserved. -/
def State.readDevice (s : State) (a : Nat) : Option Unit64 :=
  let slate := a - 0x4100000000
  let grains := a - 0x4200000000
  if a < s.totalUnits * unitBytes4M ∨ (basaltBase ≤ a ∧ a < basaltBase + 128 * 1048576) then some (bytesUnit (memRead s.mem (a / 64 * 64) 64))
  else if 0x4100000000 ≤ a ∧ slate < 64 * 0x200000 then
    (if slate % 0x200000 < 0x180000 then some ((s.core (slate / 0x200000)).unit (slate % 0x200000 / 64)) else none)
  else if 0x4200000000 ≤ a ∧ grains < 64 * 0x10000 then
    let g := grainsAt (grains % 0x10000)
    let c := s.core (grains / 0x10000)
    some (if g.1 then c.bRow g.2.1 g.2.2 else c.aRow g.2.1 g.2.2)
  else none

/-! ## SCH's tables of the KV store -/

/-- The GMAP word (R250). -/
def Gmap.word (m : Gmap) : BitVec 32 := fieldsOf 32 [(27, 1, m.coded.toNat), (22, 5, m.grans.length), (0, 22, m.map)]

/-- The granule map entry of an index, 64 bytes: the granules it names (R250). -/
def Kv.mapEntry (k : Kv) (m : Nat) : Bytes :=
  let all := (k.frames.map (fun e => e.2.gmap) ++ k.ghosts.map (fun e => e.2.gmap))
  fit 64 (((all.find? (fun g => g.map == m)).map (fun g => (g.grans.map (toLe 4)).flatten)).getD [])

/-- TAG, REQ, LAYER, COLUMN and GMAP, as frame and ghost records begin (R223, R254). -/
def kvRecord (tag : Tag) (req : Nat) (draft : Bool) (layer col : Nat) (m : Gmap) : Bytes :=
  toLe 4 tag.word.toNat ++ toLe 2 (req + 16384 * draft.toNat) ++ toLe 1 layer ++ toLe 1 0 ++ toLe 2 col ++ toLe 2 0 ++ toLe 4 m.word.toNat

/-- The record of a frame (R223); a free one has AGENT 15, and its other fields are given as 0 (log 40). -/
def Kv.frameRecord (k : Kv) (f : Nat) : Bytes :=
  match Tab.find k.frames f with
  | none => kvRecord {} 0 false 0 0 {}
  | some x => kvRecord x.tag x.req x.draft x.layer x.col x.gmap

/-- The record of a ghost (R254). -/
def Ghost.record (g : Ghost) : Bytes := kvRecord g.tag g.req g.draft g.layer g.col g.gmap ++ toLe 8 g.dropSeq ++ toLe 8 0

/-- The HDM decoder's interleave (R49): 1, 2, 4 or 8 ways and a granularity of 256 bytes to 4 KiB. -/
def hdmOk (ways gran : Nat) : Bool := [1, 2, 4, 8].contains ways && [256, 512, 1024, 2048, 4096].contains gran

/-- The line of the coherent window behind a host offset into an interleaved range, where the part is way `way`; none where the offset is
another device's (R49). CXL_MEM_REQUEST carries the line that the decoder gives (log 61). -/
def hdmLine (ways gran way off : Nat) : Option Nat :=
  if off / gran % ways = way then some ((off / (gran * ways) * gran + off % gran) / 64) else none

/-- A page entry of a directory (R224). -/
def Page.entry (p : Page) : BitVec 64 := fieldsOf 64 [(32, 32, p.ghost), (24, 7, p.fill), (21, 3, p.st.code), (0, 21, p.frame)]

/-! ## The telemetry aperture (R436): the bytes of each block -/

/-- SEQ, VERSION and T_UPDATE. -/
def State.teleHead (s : State) : Bytes :=
  fit 64 (toLe 4 s.thermal.seq.toNat ++ toLe 2 1 ++ toLe 2 0 ++ toLe 8 s.thermal.tUpdate.toNat)

/-- The power block. -/
def State.telePower (s : State) : Bytes :=
  let c := s.caps
  fit 64 (toLe 4 c.inputMw ++ toLe 4 s.capMw ++ toLe 4 c.powLinks ++ toLe 4 c.budLinks ++ toLe 4 c.powMem ++ toLe 4 c.budMem ++
    toLe 4 c.powComp ++ toLe 4 c.budComp ++ toLe 4 c.powUncore ++ toLe 4 c.powUncore ++ toLe 1 s.power.op ++ toLe 1 c.limiter ++
    toLe 1 c.gate ++ toLe 1 s.meter.degraded.toNat ++ (c.pref.map (toLe 1)).flatten)

/-- The buckets as a function sees them: all of them in the PF; in a VF the four that are kept per function. -/
def State.teleBuckets (s : State) (f : Nat) : Bytes :=
  fit 128 (((List.range 9).map (fun b => toLe 8 (
    if f = 0 then Tab.get 0 s.meter.buckets b
    else if b = bRequests ∨ b = bLate ∨ b = bTasks ∨ b = bFlint then Tab.get 0 s.meter.funcBuckets (16 * f + b) else 0))).flatten)

/-- A temperature of 16 bits in 0.125 °C, 0x8000 for none. -/
def temp16 (t : Option Int) : Bytes :=
  toLe 2 (match t with | some v => unsgn 16 v | none => 0x8000)

/-- The thermal block. -/
def State.teleThermal (s : State) : Bytes :=
  let die := (List.range 96).map (fun k => temp16 ((s.included.find? (fun e => e.1 == k)).map (·.2)))
  let hbm := (List.range 6).map (fun h => temp16 (s.stackReading h))
  fit 256 (die.flatten ++ hbm.flatten ++ temp16 (some s.thermal.peakDie) ++ temp16 (some s.thermal.peakHbm) ++ toLe 1 s.keepWarm)

/-- A phase record; its current, temperature and duty are measurements that no command brings (log 45). -/
def State.phaseRecord (s : State) (k : Nat) : Bytes :=
  let m := Config.phaseSense k s.thermal.tUpdate
  fit 16 (toLe 1 k ++ toLe 1 (s.phase k).st ++ toLe 1 (s.phase k).cause ++ toLe 1 0 ++ fit 8 m)

/-- A PORT record (R363). -/
def State.portRecord (s : State) (p : Nat) : Bytes :=
  let x := s.port p
  toLe 1 p ++ toLe 1 x.st.code ++ toLe 1 x.mode ++ toLe 1 x.bundle ++ toLe 1 x.width ++ toLe 1 x.lanes.toNat ++
    toLe 2 (match x.partner with | some a => a % 4096 + 0x8000 | none => 0) ++ toLe 1 x.partnerPort ++
    toLe 1 (x.keyed.toNat + 2 * x.leader.toNat + 4 * x.reversed.toNat) ++ toLe 2 x.attempts ++ toLe 4 x.retrains ++ toLe 4 x.replays ++
    toLe 4 x.fecCorr ++ toLe 4 x.fecUncorr ++ toLe 4 x.pathDelay

/-- A route table entry (R384). -/
def State.routeEntry (s : State) (a : Nat) : BitVec 128 :=
  match Tab.find s.fab.routes a with
  | none => 0
  | some r => fieldsOf 128 [(127, 1, 1), (122, 5, r.hops.length), (112, 10, r.gen), (0, 96, routeBits r.hops)]

/-- A request meter, by INDEX. -/
def State.meterEntry (s : State) (f idx : Nat) : Bytes :=
  match s.serve.ctxs.find? (fun e => e.2.home && hIndex e.2.handle == idx && (f == 0 || e.2.fn == f)) with
  | none => List.replicate 16 0#8
  | some (_, c) => toLe 8 (c.meter + c.homeMeter) ++ toLe 4 (hGen c.handle) ++ toLe 1 c.fn ++ toLe 1 c.state.code ++ toLe 2 0

/-- The byte at an offset of the aperture, as a function reads it; in a VF a PF block reads 0. -/
def State.teleByte (s : State) (f off : Nat) : Byte :=
  let pf := fun (b : Byte) => if f = 0 then b else 0#8
  if off < 0x40 then s.teleHead.getD off 0
  else if off < 0x80 then pf (s.telePower.getD (off - 0x40) 0)
  else if off < 0x100 then (s.teleBuckets f).getD (off - 0x80) 0
  else if off < 0x200 then pf (s.teleThermal.getD (off - 0x100) 0)
  else if off < 0x380 then pf ((s.phaseRecord ((off - 0x200) / 16)).getD (off % 16) 0)
  else if 0x400 ≤ off ∧ off < 0x700 then pf ((s.portRecord ((off - 0x400) / 32)).getD (off % 32) 0)
  else if 0x1000 ≤ off ∧ off < 0x8000 then (toLe 8 (s.counter f ((off - 0x1000) / 8))).getD (off % 8) 0
  else if 0x10000 ≤ off ∧ off < 0x20000 then pf ((toLe 16 (s.routeEntry ((off - 0x10000) / 16)).toNat).getD (off % 16) 0)
  else if 0x20000 ≤ off ∧ off < 0x20100 then
    let g := (off - 0x20000) / 8
    if f = 0 ∨ f = g then (toLe 8 (Tab.get 0 s.meter.funcs g)).getD (off % 8) 0 else 0
  else if 0x40000 ≤ off ∧ off < 0x80000 then (s.meterEntry f ((off - 0x40000) / 16)).getD (off % 16) 0
  else 0

end Sys2Proof.Machine
end

