-- ==== Sys2Proof/WellFormed.lean ====
section
/-! DEFINITION. What a well-formed command is: the shape the spec gives its operands beyond the widths of their types. A mailbox
command's argument fields are judged by the part itself (R67), so they are no matter of form here. -/

namespace Sys2Proof

/-- A width of the host link (R35). -/
def linkWidthOk (w : BitVec 5) : Bool := w == 4 || w == 8 || w == 16

/-- A message body fits the longest message (R378): 8,192 bytes with its 32-byte header. -/
def messageFits (b : Bytes) : Bool := decide (b.length ≤ 8160)

/-- The command has the shape of its row. -/
def Instr.wf (i : Instr) : Bool :=
  match i with
  | .perstDeassert _ => true
  | .perstAssert => true
  | .provReadDone _ _ => true
  | .secRomReady => true
  | .hbmTrainingDone _ _ _ => true
  | .basaltSelftestDone _ => true
  | .cfgReady => true
  | .configRequest _ reg _ => reg.toNat % 4 == 0
  | .syncBeatDue => true
  | .syncReq _ _ _ _ _ => true
  | .syncResp _ _ _ _ _ _ _ _ _ => true
  | .syncBeatMissed _ => true
  | .ftNowRead _ _ => true
  | .vddCoreDip depth => decide (24 < depth) && decide (depth ≤ 400)
  | .brownoutWarning depth => decide (24 < depth) && decide (depth ≤ 400)
  | .brownoutReset depth => decide (48 ≤ depth) && decide (depth ≤ 400)
  | .brownoutRecovery => true
  | .hostLinkRetrain _ width => linkWidthOk width
  | .hostLinkDown => true
  | .vfEnable num _ => decide (num ≤ 31)
  | .busMasterEnableClear _ => true
  | .busMasterEnableSet _ => true
  | .d3hotEntry _ => true
  | .d0Return _ => true
  | .fenceDone _ => true
  | .initiateFlr _ => true
  | .flrComplete _ => true
  | .barAccessMalformed _ _ _ _ => true
  | .registerWrite _ _ off size64 v => off.toNat % (if size64 then 8 else 4) == 0 && (size64 || decide (v.toNat < 2 ^ 32))
  | .hostWindowRead _ off len _ => decide (0 < len) && decide (off.toNat % 4096 + len ≤ 4096)
  | .hostWindowWrite _ off data => data != [] && decide (off.toNat % 4096 + data.length ≤ 4096)
  | .secReset _ => true
  | .backInvalidateResponse _ _ => true
  | .snpData _ => true
  | .snpInv _ => true
  | .snpCur _ => true
  | .writePull _ => true
  | .evictionGo _ => true
  | .ringEnable _ _ => true
  | .ringDisable _ _ => true
  | .sqTailDb _ _ _ => true
  | .cqHeadDb _ _ _ => true
  | .coalesceTimeout _ _ => true
  | .directDb _ _ => true
  | .cancelDbLow _ _ => true
  | .cancelDb _ _ _ => true
  | .leaseHeartbeat _ => true
  | .leaseCtrlWrite _ _ => true
  | .leaseExpiry _ => true
  | .identify _ _ => true
  | .adopt _ _ => true
  | .ringCreate _ _ => true
  | .ringDelete _ _ => true
  | .list _ _ => true
  | .counters _ _ => true
  | .bufAlloc _ _ => true
  | .bufFree _ _ => true
  | .winMap _ _ => true
  | .winUnmap _ _ => true
  | .keyLoad _ _ blob => decide (blob.length ≤ 4096)
  | .modelLoad _ _ _ => true
  | .modelUnload _ _ => true
  | .adapterLoad _ _ _ => true
  | .adapterUnload _ _ => true
  | .modelQuery _ _ => true
  | .progLoad _ _ _ _ => true
  | .progUnload _ _ => true
  | .flintLoad _ _ _ => true
  | .flintUnload _ _ => true
  | .profileSet _ _ table => decide (table.length ≤ 67108864)
  | .profileFree _ _ => true
  | .poolSet _ _ => true
  | .limitSet _ _ => true
  | .phaseOpSet _ _ => true
  | .fwUpdate _ _ _ => true
  | .provStage _ _ data => decide (data.length ≤ 131072)
  | .reqSubmit _ _ prompt => decide (prompt.length ≤ 32768)
  | .reqCancel _ _ => true
  | .reqQuery _ _ => true
  | .taskRun _ _ => true
  | .flintRun _ _ => true
  | .flintRunStart _ => true
  | .bootGo _ _ => true
  | .bundleFetchComplete _ => true
  | .processorRunning _ => true
  | .watchdogExpiry _ => true
  | .processorMemoryUe _ => true
  | .trapInTrapHandler _ => true
  | .revocationDeferred _ => true
  | .pauseLimitExpiry _ => true
  | .handoffSafePoint _ _ => true
  | .fwTargetReplaced _ => true
  | .getCertificate _ slot off len _ => decide (slot < 16) && decide (off < 65536) && decide (len < 65536)
  | .challenge _ slot _ _ => decide (slot < 256)
  | .keyExchange _ slot _ _ => decide (slot < 256)
  | .getMeasurements _ op _ _ => decide (op < 256)
  | .ideKm _ stream _ _ => decide (stream < 256)
  | .keyCert _ frag frags data => decide (1 ≤ frags) && decide (frags ≤ 16) && decide (frag < frags) && data != [] && decide (data.length ≤ 984)
  | .keyShare _ _ => true
  | .keyProof _ _ => true
  | .keyDone _ _ => true
  | .rekeyDue _ => true
  | .rekey _ _ => true
  | .rekeyAck _ _ => true
  | .instructionDispatch _ => true
  | .nop _ _ => true
  | .spanLoadb _ => true
  | .spanMm _ => true
  | .spanDrain _ => true
  | .vadd _ => true
  | .vsub _ => true
  | .vmul _ => true
  | .vfma _ => true
  | .vmin _ => true
  | .vmax _ => true
  | .vcmp _ => true
  | .vsel _ => true
  | .vcvt _ => true
  | .vexp _ => true
  | .vrcp _ => true
  | .vrsq _ => true
  | .vsin _ => true
  | .vcos _ => true
  | .vmaxr _ => true
  | .vexps _ => true
  | .vresc _ => true
  | .vtopk _ => true
  | .vrot _ => true
  | .vrel _ => true
  | .vsets _ => true
  | .vmovr _ => true
  | .vfclr _ => true
  | .sld _ => true
  | .dmaGo _ => true
  | .syncWait _ => true
  | .syncAdd _ => true
  | .syncTas _ => true
  | .loop _ => true
  | .seti _ => true
  | .inc _ => true
  | .setd _ => true
  | .halt _ => true
  | .instructionComplete _ _ => true
  | .dmaDescriptorComplete _ => true
  | .bankStarvation _ _ => true
  | .taskPlaced _ => true
  | .taskEnd _ => true
  | .visionRecord _ => true
  | .hbmTempRead _ _ => true
  | .hbmScrub _ corrected uncorrectable => corrected.all (· % 64 == 0) && uncorrectable.all (· % 64 == 0)
  | .hbmStackLost _ => true
  | .uncorrectableUnit u => (match u with | .basalt o => decide (o < 128 * 1048576) | _ => true)
  | .stepBuild => true
  | .stepEnd rows => rows.all (fun r => decide (r.kv ≠ []))
  | .jasperRow _ _ _ logits => logits != []
  | .pageFetch _ _ base bias _ _ _ _ => decide (base < 24576) && decide (bias < 24576)
  | .pageFetchDone _ => true
  | .sealStart _ => true
  | .sealSwitch _ _ => true
  | .sealStarvation _ => true
  | .tierFetchDone _ _ raw => raw.all (fun b => decide (b.length ≤ 65552))
  | .poolViewDue => true
  | .poolView _ _ body => messageFits body
  | .advertDue => true
  | .advert _ _ body => messageFits body
  | .assign _ _ body => messageFits body
  | .assignAck _ _ body => messageFits body
  | .tokenSeg _ _ body => messageFits body
  | .profileSeg _ _ body => messageFits body
  | .tokens _ _ body => messageFits body
  | .cancel _ _ body => messageFits body
  | .shipOffer _ _ body => messageFits body
  | .shipAccept _ _ body => messageFits body
  | .shipRefuse _ _ body => messageFits body
  | .shipOfferRetry _ => true
  | .shipPage _ _ body => messageFits body
  | .shipEnd _ _ body => messageFits body
  | .shipDone _ _ body => messageFits body
  | .shipAbort _ _ body => messageFits body
  | .shipTimeout _ => true
  | .workRouteTimeout _ => true
  | .homeRouteTimeout _ => true
  | .loadBegin _ _ body => messageFits body
  | .weightChunk _ _ body => messageFits body
  | .loadStatus _ _ body => messageFits body
  | .loadEnd _ _ body => messageFits body
  | .repairReq _ _ body => messageFits body
  | .repairData _ _ body => messageFits body
  | .reduce _ _ body => messageFits body
  | .gather _ _ body => messageFits body
  | .flintStrobe => true
  | .flintInputWake _ => true
  | .flintLagOverflow _ _ => true
  | .flintDurationEnd _ => true
  | .ts1 _ sets => sets != []
  | .ts2 _ _ => true
  | .hold _ _ => true
  | .req _ _ => true
  | .accept _ _ => true
  | .trainingStageDone _ lanes _ => lanes != 0
  | .trainingStageTimeout _ => true
  | .trainingRetry _ => true
  | .firstSecondEnd => true
  | .frame _ _ _ _ _ _ credVc credits payload _ _ _ => (payload == [] || payload.length == 992) && decide (credVc < 8) && decide (credits < 256)
  | .laneLockLost _ _ => true
  | .fecBurst _ n => decide (0 < n)
  | .replayLimit _ => true
  | .lowModeTimer _ => true
  | .linkReq _ request target cause => decide (request < 256) && decide (target < 256) && decide (cause < 256)
  | .linkDownTimeout _ => true
  | .linkStateRecord _ body => decide (body.length ≤ 992)
  | .recordRefreshDue => true
  | .recordAgeOut _ => true
  | .settle => true
  | .addressHoldExpiry _ => true
  | .messageForward => true
  | .vcHeadStall _ _ => true
  | .mseqGapTimeout _ _ => true
  | .coreEnAssert => true
  | .vcoreGood => true
  | .coreEnDeassert => true
  | .rampSettled => true
  | .slewWindow _ => true
  | .phaseImbalance _ => true
  | .phaseProbeEnd _ _ => true
  | .senseStuck _ => true
  | .senseOutOfRange _ => true
  | .phFault _ => true
  | .stageOver140 _ => true
  | .stageHot _ => true
  | .stageCooled _ => true
  | .droopCrossing _ _ => true
  | .droopStepDown _ => true
  | .droopHoldEnd => true
  | .overshoot => true
  | .pwrbrkAssert => true
  | .pwrbrkRelease => true
  | .alertCauseWrite _ _ => true
  | .pmcUpdate m => m.points.length == 8 && m.gated.length == 7 && m.diePeak.length == 8
  | .energyWindow _ _ => true
  | .modelRefit => true
  | .meterSelfCheck _ => true
  | .meterStuck => true
  | .thermalSensorSample readings => readings.length == 96
  | .sensorExclusion _ => true
  | .criticalTimeout => true
  | .thermtrip => true
  | .sysclk25mLoss => true
  | .fabRefclkLoss => true
  | .fabRefclkReturn => true
  | .setdasa => true
  | .entdaa _ => true
  | .disec => true
  | .mctpControl _ => true
  | .pldmRequest _ => true
  | .extest => true
  | .idcode => true
  | .samplePreload _ => true
  | .clamp => true
  | .highz => true
  | .extestPulse => true
  | .extestTrain => true
  | .bypass => true
  | .trst => true
  | .telemetryCounterRead _ _ _ => true
  | .vddAuxLoss => true
  | .sysclk25mReturn => true
  | .aonReady => true
  | .ftRunning => true
  | .cxlMemRequest _ write keeps uncorrectable => write.isNone || (!keeps && !uncorrectable)
  | .l0pWidthChange width => linkWidthOk width
  | .enec => true
  | .getVersion _ _ _ _ => true
  | .getCapabilities _ _ => true
  | .negotiateAlgorithms _ _ _ => true
  | .finish _ _ _ => true
  | .endSession _ _ => true
  | .keyUpdate _ _ => true
  | .heartbeat _ _ => true
  | .vcoreGoodDeassert => true
  | .streamChunk _ data => decide (data.length ≤ 65552)
  | .norOperationDone => true

end Sys2Proof
end

