-- ==== Sys2Proof/Safety.lean ====
section
/-! DEFINITION. What the claims say of a run: that a command completes and in which state, when a mailbox command is taken from
its ring or its slot, and the invariants of the model. -/

namespace Sys2Proof.Safety

open Sys2Proof.Machine

/-- A command ends in state t, the waiting commands as they were. -/
def endsIn (c : Instr) (s t : State) : Prop := exec c s = .next { t with pending := s.pending }

/-- A command completes in a state of which a property holds. -/
def completes (c : Instr) (s : State) (P : State → Prop) : Prop := ∃ t, exec c s = .next t ∧ P t

/-- A step ends in a state of which a property holds. -/
def completesStep (s : State) (P : State → Prop) : Prop := ∃ t, step s = .next t ∧ P t

/-- The part is out of reset with its clocks running: PERST# deasserted and THERMTRIP# not latched (R434, R447). -/
abbrev awake (s : State) : Prop := s.pins.perst = false ∧ s.pins.clocksStopped = false

/-- Accesses reach a function: the part is awake, READY_MAP.CFG is set, the function exists and no FLR of it runs (R26, R40, R55). -/
abbrev reachable (f : Fn) (s : State) : Prop :=
  awake s ∧ s.isReady rCfg = true ∧ s.present f.val = true ∧ (s.fn f.val).flr = false

/-- The mailbox command with opcode `op` that a source brings and the part serves, with the state once its entry has been taken:
none where nothing is fetched, where SCH does not serve, where the entry breaks a rule on rings, opcodes, privilege, reserved fields or
a handle that must be 0 (R60, R61, R65, R67, R75, R79, R91), and where a fenced function's command waits for host memory (R47). -/
def taken (f op : Nat) (src : Src) (fields : List (Nat × Nat)) (noHandle : Bool) (s : State) : Option (Cmd × State) :=
  let ok := fun (c : Cmd) => !s.pins.perst && !s.pins.clocksStopped && s.isReady rSch && (!isPfOp op || f == 0) &&
    c.reservedOk fields && !(noHandle && decide (c.e.handle ≠ 0))
  match src with
  | .ring q e =>
    let c : Cmd := { f := f, src := src, op := op, e := e }
    if s.fetches f q.val (e.flags.getLsbD 0) && isAdminOp op == (q.val == 0) && op != opAdopt && ok c then
      some (c, fetched f q.val s)
    else none
  | .alien _ _ _ => none
  | .direct =>
    let x := s.fn f
    let c : Cmd := { f := f, src := .direct, op := op, e := sqeOf x.directCmd }
    if x.busy && bits x.directCmd 0 16 == op && s.present f && !x.flr && isAdminOp op && (s.proc agSch).state != .handoff &&
        (!x.expired || op == opIdentify || op == opAdopt) && !(x.fenced && readsHost op c.e) && ok c then some (c, s)
    else none

/-- A core runs its task, with an instruction at the front of a slot that has its event, and no bank cycle is withheld (R158, R161,
R188): it issues once its own conditions hold. -/
abbrev atFront (k : CoreId) (slot : SlotKind) (q : Queued) (s : State) : Prop :=
  awake s ∧ s.coreRuns k.val = true ∧ (s.core k.val).queue slot = q :: ((s.core k.val).queue slot).tail ∧
    (s.core k.val).starved = [] ∧ (q.instr.wt = true → 0 < Tab.get 0 (s.core k.val).ev q.instr.wev.toNat)

/-- Dispatch of a core that runs its task is at an instruction (R158). -/
abbrev atDispatch (k : CoreId) (x : TileInstr) (s : State) : Prop :=
  awake s ∧ s.coreRuns k.val = true ∧ (s.core k.val).next = some x

/-- The commands of the hardware in AON, of the sideband and of the test port, and the pins, which act whatever PERST# and
THERMTRIP# say (R396, R434, R447 to R453). -/
def actsAsleep : Instr → Bool
  | .perstDeassert _ | .perstAssert | .hostLinkDown | .vddAuxLoss | .coreEnAssert | .vcoreGood | .coreEnDeassert
  | .vcoreGoodDeassert | .rampSettled | .slewWindow _ | .phaseImbalance _ | .phaseProbeEnd _ _ | .senseStuck _
  | .senseOutOfRange _ | .phFault _ | .stageOver140 _ | .stageHot _ | .stageCooled _ | .droopCrossing _ _
  | .droopStepDown _ | .droopHoldEnd | .overshoot | .pwrbrkAssert | .pwrbrkRelease | .pmcUpdate _ | .modelRefit
  | .meterSelfCheck _ | .meterStuck | .thermalSensorSample _ | .sensorExclusion _ | .thermtrip | .sysclk25mLoss
  | .sysclk25mReturn | .setdasa | .entdaa _ | .disec | .enec | .mctpControl _ | .pldmRequest _ | .extest | .idcode
  | .samplePreload _ | .clamp | .highz | .extestPulse | .extestTrain | .bypass | .trst => true
  | _ => false

/-- What a reset of the whole part leaves (R54, R447, R462): the state of power-up, but for the fuses, the NOR and the clock of the
model. -/
def restarted (s t : State) : Prop :=
  t.ready = 0 ∧ t.cnt = [] ∧ t.fcnt = [] ∧ t.ft = {} ∧ t.brown = {} ∧ t.link = {} ∧ t.cxl = {} ∧ t.funcs = [] ∧ t.boot = {} ∧
    t.procs = [] ∧ t.upd = none ∧ t.hand = none ∧ t.prov = {} ∧ t.settings = {} ∧ t.hbm = [] ∧ t.store = {} ∧ t.bufs = [] ∧
    t.cores = [] ∧ t.ctrs = [] ∧ t.engines = [] ∧ t.progs = [] ∧ t.tasks = [] ∧ t.kv = {} ∧ t.serve = {} ∧ t.flint = {} ∧
    t.fab = {} ∧ t.caps = {} ∧ t.thermal = {} ∧ t.issued = [] ∧ t.mem = [] ∧ t.sec.keys = [] ∧ t.sec.sessions = [] ∧
    t.fuses = s.fuses ∧ t.nor = s.nor ∧ t.time = s.time ∧ t.pending = s.pending

/-- The memory is in its canonical form. -/
abbrev memOk (s : State) : Prop := Memory.wf s.mem = true

/-- Every waiting command has the form of its row. -/
abbrev queueOk (s : State) : Prop := ∀ c ∈ s.pending, c.wf = true

end Sys2Proof.Safety
end

