-- ==== Sys2Proof/Certificates/Slice0/Obligations.lean ====
section
/-! DEFINITION. The statements for the provers. Each docstring cites the rules of the spec that its statement rests on; those of them
that the model's own choices enter say so. -/

open Sys2Proof Sys2Proof.Machine Sys2Proof.Safety Sys2Proof.Laws

/-- For every command c and state s, a step of a state with c at the front of its queue is exec of c on that state with the queue's
rest. (R6) -/
def Obligations.StepRunsFrontCommand : Prop :=
  ∀ (c : Instr) (r : List Instr) (s : State), s.pending = c :: r → step s = exec c { s with pending := r }

/-- The model's choice (log 1): a step with an empty queue lets one tick pass. The model's clock advances by one; the setpoint ramps
towards its target unless THERMTRIP# has stopped the clocks; fabric time advances by its rate only while the part is out of
reset with its fabric reference; nothing else changes. (R15, R393, R395) -/
def Obligations.EmptyQueueTicks : Prop :=
  ∀ s : State, s.pending = [] →
    completesStep s (fun t => t.time = s.time + 1 ∧
      t.ft.count = (if s.pins.clocksStopped = false ∧ s.pins.perst = false ∧ s.pins.refFab = true then
        s.ft.count + s.ft.rate.zeroExtend 80 else s.ft.count) ∧
      (s.pins.clocksStopped = false → t.power.setpoint = towardsBy (if s.power.slow then 8 else 80) s.power.setpoint s.power.target) ∧
      { t with time := s.time, ft := s.ft, power := s.power } = s)

/-- Software or a partner that breaks a rule raises no fault: every command of the table answers a next state from every state
whatever, and no command changes the queue of waiting commands. (R6) -/
def Obligations.EveryCommandCompletes : Prop :=
  ∀ (c : Instr) (s : State), completes c s (fun t => t.pending = s.pending)

/-- Giving a READY_MAP bit a value leaves every other bit; where the value is the old one nothing happens; where it changes, vector
0 of every function is raised and the new map is sent as a PLDM event, and nothing else happens. (R24, R25) -/
def Obligations.ReadyMapBit : Prop :=
  ∀ (b : Nat) (v : Bool) (s : State), b < 32 →
    (∀ k, k < 32 → (setReady b v s).isReady k = if k = b then v else s.isReady k) ∧
    (s.isReady b = v → setReady b v s = s) ∧
    (s.isReady b ≠ v → ∃ r, setReady b v s = pldmEvent 0 r.toNat (raiseAll { s with ready := r }) ∧
      (setReady b v s).ready = r)

/-- PERST# deassertion samples ADDR_SEL, starts fabric time afresh and gives the pins back to the functional logic; AON, fabric
time, SEC's ROM, Basalt and configuration space each set what the rules say; the provisioning record that is chosen, or its
absence, decides the settings and the ports. The model's choices: a failed self-test of Basalt is reported by an event whose bit
stays 0 (log 31); whether the identity area is valid is a free function of the seed and the area (log 31); a NOR whose poll timed
out stays busy (log 28). (R15, R22, R23, R26, R27, R129, R198, R202, R447, R452) -/
def Obligations.BringUpEvents : Prop :=
  ∀ s : State,
    (∀ a, s.pins.perst = true → endsIn (.perstDeassert a) s { s with
      pins := { s.pins with perst := false, addrSel := a }, ft := {},
      side := if s.side.pins then { s.side with pins := false, ir := .idcode } else s.side }) ∧
    (awake s →
      endsIn .aonReady s (setReady rAon true s) ∧
      endsIn .ftRunning s { s with ft := { s.ft with running := true } } ∧
      endsIn .secRomReady s (setReady rSecRom true { s with
        side := { s.side with up := true },
        sec := { s.sec with identityOk := Config.identityValid s.fuses.deviceSeed s.nor.identity } }) ∧
      endsIn (.basaltSelftestDone true) s (setReady rBasalt true s) ∧
      endsIn (.basaltSelftestDone false) s (pldmEvent rBasalt 0 s) ∧
      (s.prov.decided = true → endsIn .cfgReady s (setReady rCfg true s)) ∧
      (s.prov.decided = false → ∀ quad,
        let u := (fun w : State => if quad then w else bumpPart cSpiSlow w)
        endsIn (.provReadDone quad true) s (startPorts none (fabricBits
          (let w := u { s with nor := { s.nor with quad := quad, busy := true } }
           { w with prov := { w.prov with decided := true, record := none, slot := 0xFF } }))) ∧
        (let w := chooseRecord (u { s with nor := { s.nor with quad := quad, busy := false } })
         w.1 ≠ 0xFF → endsIn (.provReadDone quad false) s (startPorts none (fabricBits (installRecord w.1 w.2))))))

/-- A stack that trains at the rate asked for is usable at it and its READY_MAP bit is set; one that trains only at the fallback
rate is usable at that; one that trains at neither has failed and its bit stays as it was; memory, pins, power, fabric and
serving are unchanged. (R201, R202, R203, R205) -/
def Obligations.HbmTrainingOutcome : Prop :=
  ∀ (h : StackId) (a b : Bool) (s : State), awake s → s.prov.decided = true → s.settings.hbmMask.getLsbD h.val = false →
    (Tab.get {} s.hbm h.val).usable = false → (Tab.get {} s.hbm h.val).failed = false →
    completes (.hbmTrainingDone h a b) s (fun t =>
      ((Tab.get {} t.hbm h.val).usable = (a || (s.settings.hbmRate != 0 && b))) ∧
      ((Tab.get {} t.hbm h.val).failed = !(a || (s.settings.hbmRate != 0 && b))) ∧
      (a = true → (Tab.get {} t.hbm h.val).rate = s.settings.hbmRate) ∧
      (a = false → s.settings.hbmRate ≠ 0 → b = true → (Tab.get {} t.hbm h.val).rate = 0) ∧
      t.isReady (rHbm h.val) = (s.isReady (rHbm h.val) || a || (s.settings.hbmRate != 0 && b)) ∧
      t.mem = s.mem ∧ t.pins = s.pins ∧ t.power = s.power ∧ t.fab = s.fab ∧ t.serve = s.serve)

/-- PERST#, a hot reset or link-down, and the loss of VDD_AUX leave READY_MAP, the counters, the functions, the processors, the
memories and the fabric as at power-up, and keep the fuses, the NOR and the model's clock; each leaves the pins as stated. (R54,
R447, R462) -/
def Obligations.WholePartResets : Prop :=
  ∀ s : State,
    (s.pins.perst = false → completes .perstAssert s (fun t => t.pins = { s.pins with perst := true, spiCs := true, loopsHeld := false } ∧
      restarted s t)) ∧
    (s.pins.perst = false → completes .hostLinkDown s (fun t => t.pins = { s.pins with spiCs := true, loopsHeld := false } ∧
      restarted s t)) ∧
    completes .vddAuxLoss s (fun t => t.pins.perst = true ∧ t.pins.thermtrip = false ∧ t.pins.coreEn = false ∧ t.power = {} ∧ t.side = {} ∧
      restarted s t)

/-- PERST#, hot reset and link-down set every counter to 0, in every function's view. Across an FLR, and across the faults, restarts
and handoffs of the firmware processors, a counter keeps its value or counts up, and a 64-bit counter keeps its value. (R462) -/
def Obligations.CountersKept : Prop :=
  ∀ s : State,
    let only := fun (a b : List (Nat × Nat)) => ∀ k, Tab.get 0 b k = Tab.get 0 a k ∨
      (isWide (k % 4096) = false ∧ ∃ n, Tab.get 0 b k = countUp (k % 4096) n (Tab.get 0 a k))
    let kept := fun (c : Instr) => completes c s (fun t => only s.cnt t.cnt ∧ only s.fcnt t.fcnt)
    (∀ c, (c = .perstAssert ∨ c = .hostLinkDown) → s.pins.perst = false →
      completes c s (fun t => ∀ f k, t.counter f k = 0)) ∧
    (∀ f : Fn, kept (.initiateFlr f) ∧ kept (.flrComplete f)) ∧
    (∀ p : AgentId, kept (.processorRunning p) ∧ kept (.watchdogExpiry p) ∧ kept (.processorMemoryUe p) ∧
      kept (.trapInTrapHandler p) ∧ kept (.revocationDeferred p) ∧ kept (.pauseLimitExpiry p) ∧ kept (.fwTargetReplaced p) ∧
      (∀ block, kept (.handoffSafePoint p block))) ∧
    (∀ ok, kept (.secReset ok))

/-- A 64-bit read of FT_NOW returns all of fabric time; a read of the low half returns it and latches the high half; a read of the
high half returns what is latched and lets go of it. (R20, R40) -/
def Obligations.FabricTimeRead : Prop :=
  ∀ (f : Fn) (s : State), reachable f s →
    endsIn (.ftNowRead f .full) s (emit (.read f.val s.ftNow) s) ∧
    endsIn (.ftNowRead f .low) s (emit (.read f.val (BitVec.ofNat 64 (s.ftNow.toNat % 2 ^ 32)))
      (updFn f.val (fun x => { x with ftLatch := some (BitVec.ofNat 32 (s.ftNow.toNat / 2 ^ 32)) }) s)) ∧
    (∀ h, (s.fn f.val).ftLatch = some h → endsIn (.ftNowRead f .high) s
      (emit (.read f.val (h.zeroExtend 64)) (updFn f.val (fun x => { x with ftLatch := none }) s)))

/-- A request or response with an epoch older than the receiver's view is dropped and counted in VIOL_FT_STALE, whatever else it
holds. A beat that is due goes to the parents; a fresh request is answered once a route settle has been; a fresh response that
answers the waiting request sets the delay, half the round trip less the lane skew, and steers the count after the parent or the
master after the root; any other fresh response leaves the state; the eighth missed response loses the lock. A beat with the
parent never steps a locked part, whose rate stays within 500 ppm of nominal. The model's choices (log 55): on a port to another
Furlong the view is the newest epoch that port has brought, and steering picks the rate. (R15, R16, R17, R18,
R19) -/
def Obligations.SyncBeats : Prop :=
  (∀ (p : PortId) (epoch q : BitVec 16) (s : State), awake s →
    (if s.foreign p.val then (Tab.find s.ft.peerEpoch p.val).any (epochOlder epoch) else epochOlder epoch s.epochView) = true →
    (∀ t1 t4, (s.port p.val).st = .up → endsIn (.syncReq p epoch q t1 t4) s (bumpPart cViolFtStale s)) ∧
    (∀ m hops flags t2 t3 ro, endsIn (.syncResp p epoch q m hops flags t2 t3 ro) s (bumpPart cViolFtStale s))) ∧
  (∀ s : State, awake s →
    (s.fab.everSettled = true → endsIn .syncBeatDue s
      (forEach ((s.ft.parent.toList ++ s.ft.rootParent.toList).dedup) sendBeat s)) ∧
    (s.fab.everSettled = false → endsIn .syncBeatDue s s) ∧
    (∀ (p : PortId) epoch q t1 t4, (s.port p.val).st = .up → s.staleBeat p.val epoch = false →
      (s.fab.everSettled = false → endsIn (.syncReq p epoch q t1 t4) s s) ∧
      (s.fab.everSettled = true → endsIn (.syncReq p epoch q t1 t4) s (sendLink p.val 2 (toLe 2 s.epochView.toNat ++ toLe 2 q.toNat ++
        toLe 2 (if s.ft.master then s.fab.addr else s.ft.masterAddr.toNat) ++ toLe 1 s.ft.hops.toNat ++
        toLe 1 (s.ft.locked.toNat + 2 * s.ft.holdover.toNat + 4 * s.ft.master.toNat) ++ toLe 8 s.ftNow.toNat ++
        toLe 8 s.ftNow.toNat ++ toLe 8 s.ft.rootOfs.toNat) (notePeer p.val epoch s)))) ∧
    (∀ (p : PortId) (epoch q m : BitVec 16) (hops flags : BitVec 8) (t2 t3 ro : BitVec 64), s.staleBeat p.val epoch = false →
      (∀ w, Tab.find s.ft.waiting p.val = some w → w.1 = q →
        let delay := ((s.ftNow - w.2).toInt - (t3 - t2).toInt) / 2 - Config.skewOf (s.port p.val).pathDelay
        let off := (t2 - w.2).toInt - delay
        let u := updFt (fun x => { x with
          waiting := Tab.erase x.waiting p.val, t4 := Tab.put x.t4 p.val s.ftNow, delay := Tab.put x.delay p.val delay }) (notePeer p.val epoch s)
        let v := if s.ft.parent = some p.val then followParent off (flags.getLsbD 0) (updFt (fun x => { x with
            masterEpoch := epoch, masterAddr := BitVec.ofNat 12 m.toNat, hops := BitVec.ofNat 4 (hops.toNat + 1) }) u) else u
        endsIn (.syncResp p epoch q m hops flags t2 t3 ro) s (if s.ft.rootParent = some p.val then followRoot (ro.toInt + off) v else v)) ∧
      ((∀ w, Tab.find s.ft.waiting p.val = some w → w.1 ≠ q) → endsIn (.syncResp p epoch q m hops flags t2 t3 ro) s s)) ∧
    (∀ p : PortId, Tab.has s.ft.waiting p.val = true → s.ft.parent ≠ some p.val →
      endsIn (.syncBeatMissed p) s (updFt (fun x => { x with waiting := Tab.erase x.waiting p.val }) s)) ∧
    (∀ p : PortId, Tab.has s.ft.waiting p.val = true → s.ft.parent = some p.val →
      let u := updFt (fun x => { x with waiting := Tab.erase x.waiting p.val, missed := x.missed + 1 }) s
      endsIn (.syncBeatMissed p) s
        (if 8 ≤ s.ft.missed + 1 ∧ s.ft.locked then setLocked false (updFt (fun x => { x with holdover := true }) u) else u))) ∧
  (∀ (off : Int) (pl : Bool) (s : State), s.ft.everLocked = true → s.ft.locked = true →
    let t := followParent off pl s
    t.ft.count = s.ft.count ∧ t.ft.epoch = s.ft.epoch ∧ t.ft.locked = true ∧ t.ft.missed = 0 ∧
      rateNominal - rateSpan ≤ t.ft.rate.toNat ∧ t.ft.rate.toNat ≤ rateNominal + rateSpan)

/-- What a dip, a warning, the recovery from a short dip and from a warning or a reset, the reset of the islands and the deassertion of
CORE_EN leave; BROWN# stays asserted while a cluster that was reset is awaited; a brownout reset clears the bits of all eight clusters, asserts BROWN# and leaves the contents of HBM and Basalt. (R30,
R31, R32, R393) -/
def Obligations.BrownoutResponses : Prop :=
  (∀ (d : Nat) (s : State), awake s →
    endsIn (.vddCoreDip d) s { s with brown := { s.brown with
      dip := true, recovered := false, depth := if s.brown.dip then max s.brown.depth d else d } } ∧
    (s.brown.dip = true → s.brown.warned = false → s.brown.reset = false → s.brown.asserted = false → s.power.change = none →
      completes (.brownoutWarning d) s (fun t => t.brown.asserted = true ∧ t.brown.warned = true ∧ t.brown.depth = max s.brown.depth d ∧
        t.brown.since = s.time ∧ t.cnt = Tab.upd 0 s.cnt cBrownWarn (countUp cBrownWarn 1) ∧ t.power.alert = s.power.alert ||| 1#8 ∧
        { t with brown := s.brown, cnt := s.cnt, power := s.power } = s)) ∧
    (s.brown.dip = true → s.brown.reset = false → endsIn (.brownoutReset d) s (brownReset d s)) ∧
    (s.brown.dip = true → s.pins.coreEn = true → s.brown.reset = false → s.brown.warned = false → s.brown.asserted = false →
      endsIn .brownoutRecovery s (setPoint s.power.op (updPower (fun p => { p with held := false })
        (bumpPart cBrownShort (updBrown (fun b => { b with dip := false, recovered := true, depth := 0 }) s))))) ∧
    (s.brown.dip = true → s.pins.coreEn = true → (s.brown.reset = true ∨ s.brown.warned = true) →
      let t := brownCheck (dipOver s)
      (s.brown.awaited = [] → t.brown.asserted = false) ∧
      endsIn .brownoutRecovery s
        (if t.brown.asserted then t else setPoint t.power.op (updPower (fun p => { p with held := false }) t))) ∧
    (s.pins.coreEn = true → endsIn .coreEnDeassert s (brownReset 255
      (updPower (fun p => { p with target := 0, slow := true, change := none }) { s with pins := { s.pins with coreEn := false } })))) ∧
  (∀ (d : Nat) (s : State), (∀ n, n < 8 → (brownReset d s).isReady (rCl n) = false) ∧ (brownReset d s).mem = s.mem ∧
    (brownReset d s).hbm = s.hbm ∧ (brownReset d s).brown.asserted = true)

/-- A read of a mapped slot of BAR2 returns the buffer's bytes and a write stores to them and to no other byte; a read that meets an
uncorrectable unit, whose place among the bytes read is free (log 26), returns poison and retires the unit's granule; a read of an
unmapped slot returns zeros, a write to one is ignored, and each is counted in VIOL_WIN_UNMAPPED. (R41) -/
def Obligations.HostWindow : Prop :=
  ∀ (f : Fn) (off : BitVec 34) (n : Nat) (data : Bytes) (s : State), reachable f s →
    (∀ a, s.windowAddr f.val off.toNat = some a →
      endsIn (.hostWindowRead f off n false) s (emit (.window f.val (memRead s.mem a n) false) s) ∧
      endsIn (.hostWindowRead f off n true) s (emit (.window f.val [] true) (tookFree (ueRead (a + freeNumber s % max n 1) s))) ∧
      completes (.hostWindowWrite f off data) s (fun t => { t with mem := s.mem } = s ∧
        (memOk s → memOk t ∧ ∀ x, memGet t.mem x = if a ≤ x ∧ x < a + data.length then data.getD (x - a) 0#8 else memGet s.mem x))) ∧
    (s.windowAddr f.val off.toNat = none →
      (∀ u, endsIn (.hostWindowRead f off n u) s (bump f.val cViolWinUnmapped (emit (.window f.val (List.replicate n 0#8) false) s))) ∧
      endsIn (.hostWindowWrite f off data) s (bump f.val cViolWinUnmapped s))

/-- Malformed accesses are counted and a malformed read returns 0; an aligned 32-bit write reaches the writable field at its offset
or is counted. A 64-bit read of a counter returns its whole live value, a read of the low half latches the high half until it is
read. A function under FLR ignores and counts memory requests and answers configuration requests with Request Retry Status.
(R463) -/
def Obligations.RegisterAccess : Prop :=
  (∀ (f : Fn) (bar4 : Bool) (off : BitVec 21) (v : BitVec 64) (k : Nat) (s : State), reachable f s →
    endsIn (.barAccessMalformed f bar4 false off) s (bump f.val cViolBarAccess (emit (.read f.val 0) s)) ∧
    endsIn (.barAccessMalformed f bar4 true off) s (bump f.val cViolBarAccess s) ∧
    (off.toNat % 4 = 0 →
      (∀ w, regWriter f.val bar4 off.toNat = some w → endsIn (.registerWrite f bar4 off false v) s (w (v.truncate 32) s)) ∧
      (regWriter f.val bar4 off.toNat = none → endsIn (.registerWrite f bar4 off false v) s (bump f.val cViolBarWrite s))) ∧
    endsIn (.telemetryCounterRead f k .full) s (emit (.read f.val (BitVec.ofNat 64 (s.counter f.val k))) s) ∧
    endsIn (.telemetryCounterRead f k .low) s (emit (.read f.val (BitVec.ofNat 64 (s.counter f.val k % 2 ^ 32)))
      (updFn f.val (fun x => { x with teleLatch := Tab.put x.teleLatch k (BitVec.ofNat 32 (s.counter f.val k / 2 ^ 32)) }) s)) ∧
    (∀ h, Tab.find (s.fn f.val).teleLatch k = some h → endsIn (.telemetryCounterRead f k .high) s
      (emit (.read f.val (h.zeroExtend 64)) (updFn f.val (fun x => { x with teleLatch := Tab.erase x.teleLatch k }) s)))) ∧
  (∀ (f : Fn) (s : State), awake s → s.isReady rCfg = true → s.present f.val = true → (s.fn f.val).flr = true →
    (∀ bar4 off sz v, endsIn (.registerWrite f bar4 off sz v) s (bump f.val cViolBarAccess s)) ∧
    (∀ off n u, endsIn (.hostWindowRead f off n u) s (bump f.val cViolBarAccess s)) ∧
    (∀ off d, endsIn (.hostWindowWrite f off d) s (bump f.val cViolBarAccess s)) ∧
    (∀ p, endsIn (.ftNowRead f p) s (bump f.val cViolBarAccess s)) ∧
    (∀ r w, endsIn (.configRequest f r w) s (emit (.cfgRetry f.val) s)) ∧
    endsIn (.initiateFlr f) s (emit (.cfgRetry f.val) s) ∧ endsIn (.busMasterEnableClear f) s (emit (.cfgRetry f.val) s) ∧
    endsIn (.busMasterEnableSet f) s (emit (.cfgRetry f.val) s) ∧ endsIn (.d3hotEntry f) s (emit (.cfgRetry f.val) s) ∧
    endsIn (.d0Return f) s (emit (.cfgRetry f.val) s) ∧
    (f.val = 0 → (∀ n e, endsIn (.vfEnable n e) s (emit (.cfgRetry 0) s)) ∧ ∀ ok, endsIn (.secReset ok) s (emit (.cfgRetry 0) s)))

/-- Once CFG is set, configuration requests are answered and a write sets the field it names (which registers stand where is the
model's choice, log 61); retraining sets the link's rate and width and, below 32 GT/s, ends CXL; an
L0p change sets the width in use; enabling VFs sets READY_MAP.VF and clearing VF Enable ends them. (R26, R34, R35, R37) -/
def Obligations.HostLinkConfiguration : Prop :=
  ∀ s : State, awake s →
    (∀ (f : Fn) r, s.isReady rCfg = true → s.present f.val = true → (s.fn f.val).flr = false →
      endsIn (.configRequest f r none) s (tookFree (emit (.cfgDone f.val (some (configRead f.val r.toNat s))) s)) ∧
      (∀ v, endsIn (.configRequest f r (some v)) s (configSet f.val r.toNat v (emit (.cfgDone f.val none) s)))) ∧
    (∀ (r : BitVec 2) (w : BitVec 5), linkWidthOk w = true → 2 ≤ r.toNat →
      completes (.hostLinkRetrain r w) s (fun t => t.link.rate = r ∧ t.link.width = w ∧
        { t with link := s.link, funcs := s.funcs, out := s.out } = s)) ∧
    (∀ (r : BitVec 2) (w : BitVec 5), linkWidthOk w = true → r.toNat < 2 →
      completes (.hostLinkRetrain r w) s (fun t => t.link.cxlOff = true ∧ t.link.cxlMem = false ∧ t.link.cxlCache = false ∧ t.cxl = {})) ∧
    (∀ w : BitVec 5, linkWidthOk w = true → w.toNat ≤ s.link.width.toNat →
      completes (.l0pWidthChange w) s (fun t => t.link = { s.link with l0p := w } ∧
        { t with link := s.link, funcs := s.funcs, out := s.out } = s)) ∧
    (∀ n, s.isReady rCfg = true → (s.fn 0).flr = false → s.link.vfEnable = false → n ≤ 31 →
      endsIn (.vfEnable n true) s (setReady rVf true { s with link := { s.link with numVfs := n, vfEnable := true } })) ∧
    (∀ n, s.isReady rCfg = true → (s.fn 0).flr = false → s.link.vfEnable = true → endsIn (.vfEnable n false) s (endVfs s))

/-- Bus Master Enable cleared, D3hot with work active and lease expiry begin a fence, which is lifted where its cause ends and no
other holds. An FLR begins, and its completion leaves the function neither fenced nor expired, with no ring, slot, held entry or
key. SEC_RESET restarts SEC with cause 5, and while it is busy is counted. (R44, R47, R54, R55, R78, R81, R102) -/
def Obligations.FunctionFencesAndResets : Prop :=
  (∀ (f : Fn) (s : State), awake s →
    (reachable f s → (s.fn f.val).bme = true → (f.val = 0 → s.boot.fetching = false) →
      endsIn (.busMasterEnableClear f) s (fence f.val 2 (updFn f.val (fun x => { x with bme := false }) s))) ∧
    (reachable f s → (s.fn f.val).fenced = false → endsIn (.busMasterEnableSet f) s (updFn f.val (fun x => { x with bme := true }) s)) ∧
    (reachable f s → (s.fn f.val).fenced = true → (s.fn f.val).fenceCause = 2#2 → (s.fn f.val).d3 = false →
      endsIn (.busMasterEnableSet f) s (liftFence f.val (updFn f.val (fun x => { x with bme := true }) s))) ∧
    (reachable f s → (s.fn f.val).d3 = false → s.busyFn f.val = true →
      endsIn (.d3hotEntry f) s (fence f.val 3 (bump f.val cViolD3Active (updFn f.val (fun x => { x with d3 := true }) s)))) ∧
    (reachable f s → (s.fn f.val).d3 = false → s.busyFn f.val = false → endsIn (.d3hotEntry f) s (updFn f.val (fun x => { x with d3 := true }) s)) ∧
    (reachable f s → (s.fn f.val).fenced = true → (s.fn f.val).fenceCause = 3#2 → (s.fn f.val).bme = true →
      endsIn (.d0Return f) s (liftFence f.val (updFn f.val (fun x => { x with d3 := false }) s))) ∧
    ((s.fn f.val).fenced = true → (s.fn f.val).fenceDone = false →
      endsIn (.fenceDone f) s (raiseVec f.val 0 (updFn f.val (fun x => { x with fenceDone := true }) s))) ∧
    ((s.fn f.val).armed = true → (s.fn f.val).expired = false →
      endsIn (.leaseExpiry f) s (fence f.val 1 (updFn f.val (fun x => { x with expired := true }) s)))) ∧
  (∀ (f : Fn) (s : State),
    (reachable f s → endsIn (.initiateFlr f) s (updFn f.val (fun x => { x with flr := true }) s)) ∧
    (awake s → (s.fn f.val).flr = true →
      let t := resumeLoads (functionReset f.val s)
      endsIn (.flrComplete f) s (if f.val = 0 ∧ t.link.vfEnable = true then endVfs t else t)) ∧
    (let x := (functionReset f.val s).fn f.val
     x.flr = false ∧ x.fenced = false ∧ x.expired = false ∧ x.armed = false ∧ x.policy = 0 ∧ x.period = 0x00FA#14 ∧
       x.slots = [] ∧ x.rings = [] ∧ x.held = [] ∧ x.msix = [] ∧ x.pba = 0 ∧ x.directCmd = 0 ∧ x.directCpl = 0) ∧
    (∀ e ∈ (functionReset f.val s).sec.keys, e.2.owner.fn ≠ f.val)) ∧
  (∀ (ok : Bool) (s : State), awake s → s.isReady rCfg = true → (s.fn 0).flr = false →
    (s.link.secResetBusy = true → endsIn (.secReset ok) s (bump 0 cViolCfgWrite s)) ∧
    (s.link.secResetBusy = false → completes (.secReset ok) s (fun t => t.link.secResetBusy = true ∧
      (t.proc 0).state = .restarting ∧ (t.proc 0).lastCause = 5 ∧ t.upd = none ∧ t.sec.sessions = [] ∧ t.mem = s.mem ∧
      t.isReady rSecRom = false)))

/-- A CXL.mem write stores 64 bytes at the line's device address; a read returns them, or poison with a count, the unit's granule
retired; a back-invalidate's
answer stores what the host wrote back. Snoops answer from the line's state and leave it as the snoop says; a dirty eviction
answers a write pull, Bogus once snooped, and is freed at GO. (R51, R52, R53) -/
def Obligations.CxlMemory : Prop :=
  (∀ (line : Nat) (d : Unit64) (s : State), awake s →
    (s.link.cxlMem = true → line < s.link.winUnits * 4194304 →
      completes (.cxlMemRequest line (some d) false false) s (fun t =>
        t.cxl = { s.cxl with snoop := s.cxl.snoop.erase line } ∧ t.out = s.out ++ [.cxlMem line none false] ∧
        t.mem = memWrite s.mem (s.winAddr line) (unitBytes d) ∧ { t with cxl := s.cxl, out := s.out, mem := s.mem } = s) ∧
      endsIn (.cxlMemRequest line none false false) s (emit (.cxlMem line (some (bytesUnit (memRead s.mem (s.winAddr line) 64))) false) s) ∧
      endsIn (.cxlMemRequest line none false true) s (bumpPart cHbmPoison (emit (.cxlMem line none true) (ueRead (s.winAddr line) s)))) ∧
    (line ∈ s.cxl.waiting →
      let u := updCxl (fun x => { x with waiting := x.waiting.erase line, snoop := x.snoop.erase line }) s
      endsIn (.backInvalidateResponse line none) s u ∧
      endsIn (.backInvalidateResponse line (some d)) s (Machine.store (s.winAddr line) (unitBytes d) u))) ∧
  (∀ (line : Nat) (s : State), awake s →
    (s.link.cxlCache = true → s.cxl.evict.find? (fun e => e.line == line) = none →
      (∀ c, Tab.find s.cxl.lines line = some c → c.state ≠ .i →
        endsIn (.snpData line) s (emit (.cxlSnp line (if c.state = .m then some c.data else none) .s)
          (updCxl (fun x => { x with lines := Tab.put x.lines line { c with state := .s } }) s)) ∧
        endsIn (.snpInv line) s (emit (.cxlSnp line (if c.state = .m then some c.data else none) .i)
          (updCxl (fun x => { x with lines := Tab.erase x.lines line }) s)) ∧
        endsIn (.snpCur line) s (emit (.cxlSnp line (if c.state = .m then some c.data else none) c.state)
          (updCxl (fun x => { x with lines := Tab.put x.lines line { c with state := c.state } }) s))) ∧
      (Tab.find s.cxl.lines line = none → endsIn (.snpData line) s (emit (.cxlSnp line none .i) s) ∧
        endsIn (.snpInv line) s (emit (.cxlSnp line none .i) s) ∧ endsIn (.snpCur line) s (emit (.cxlSnp line none .i) s))) ∧
    (∀ e, s.cxl.evict.find? (fun e => e.line == line) = some e → e.kind = .dirty →
      endsIn (.writePull line) s (emit (.cxlPull line e.data e.snooped) s)) ∧
    completes (.evictionGo line) s (fun t => (∀ e ∈ t.cxl.evict, e.line ≠ line) ∧ (∀ e ∈ s.cxl.evict, e.line ≠ line → e ∈ t.cxl.evict) ∧
      { t with cxl := { t.cxl with evict := s.cxl.evict } } = s))

/-- GO in the wait or refused state, with the PF's bus mastering on and a valid buffer, starts the fetch and otherwise is counted; a
bundle that fails its checks is refused with its code; one that passes is loaded into slot A, every processor has its image, and
READY_MAP.FW is set; where SEC alone waits for a bundle after SEC_RESET, one of the interface that runs goes to SEC alone. (R84,
R85, R86, R87, R88) -/
def Obligations.BootChannel : Prop :=
  ∀ s : State,
    (reachable 0 s → ∀ v : BitVec 32, v.getLsbD 0 = true →
      let ok := (s.boot.state = .wait ∨ s.boot.state = .refused) ∧ s.boot.src.toNat % 4096 = 0 ∧ 1024 ≤ s.boot.len.toNat ∧
        s.boot.len.toNat ≤ 4194304 ∧ (s.fn 0).bme = true
      (ok → endsIn (.bootGo 0 v) s { s with boot := { s.boot with state := .fetch, fetching := true } }) ∧
      (¬ ok → endsIn (.bootGo 0 v) s (bumpPart cViolBootChannel s))) ∧
    (awake s → s.boot.fetching = true → s.isReady rBasalt = true → ∀ bundle,
      (∀ st, checkBundle s.fuses.keyRevoke s.fwFloor s.boot.len.toNat bundle = .error st →
        endsIn (.bundleFetchComplete bundle) s { s with boot := { s.boot with state := .refused, result := st, fetching := false } }) ∧
      (∀ b, checkBundle s.fuses.keyRevoke s.fwFloor s.boot.len.toNat bundle = .ok b → s.boot.secOnly = false →
        completes (.bundleFetchComplete bundle) s (fun t => t.boot.slotA = some b ∧ t.boot.state = .running ∧ t.boot.runLevel = b.level ∧
          t.boot.runBuild = b.build ∧ t.boot.fetching = false ∧ t.isReady rFw = true ∧
          ∀ p : AgentId, (t.proc p.val).state = .loading ∧ (t.proc p.val).imaged = true)) ∧
      (∀ b, checkBundle s.fuses.keyRevoke s.fwFloor s.boot.len.toNat bundle = .ok b → s.boot.secOnly = true →
        (b.abi ≠ s.boot.runAbi → endsIn (.bundleFetchComplete bundle) s { s with boot := { s.boot with
          state := .refused, result := eLevel, fetching := false } }) ∧
        (b.abi = s.boot.runAbi → completes (.bundleFetchComplete bundle) s (fun t => t.boot = { s.boot with
            state := .running, result := stOk, fetching := false, secOnly := false } ∧
          (t.proc 0).pushed = true ∧ { t with boot := s.boot, procs := s.procs } = s))))

/-- A bundle that passes has a key that is not revoked, interface level 3.x, an SVN not below the floor, a length that holds it, a
length within 4 MiB, a signature that verifies and images whose digests are right; one that fails gives E_SIG or E_LEVEL. (R86, R106) -/
def Obligations.BundleChecks : Prop :=
  ∀ (rev : BitVec 4) (floor len : Nat) (b : Bytes),
    (∀ x, checkBundle rev floor len (some b) = .ok x → x = bundleOf b ∧ rev.getLsbD x.keyIdx = false ∧ x.level.toNat / 256 = 3 ∧
      floor ≤ x.svn ∧ len ≤ b.length ∧ len ≤ 4194304 ∧ Config.verify (Config.fwKey x.keyIdx) (b.take 0x300) (slice b 0x300 96) = true ∧
      ∀ i ∈ x.images, Config.sha384 (slice b i.off (i.codeLen + i.dataLen)) = i.digest) ∧
    (∀ e, checkBundle rev floor len (some b) = .error e → e = eSig ∨ e = eLevel) ∧
    checkBundle rev floor len none = .error eSig

/-- A watchdog, an uncorrectable memory error and a trap in the trap handler take the fault path with cause 2, 3 and 4; the
processor stops and its READY_MAP bit falls; the third fault within a second halts it. A revocation advances the agent's epoch
by one, and never twice within 1 ms. (R97, R98, R99, R103) -/
def Obligations.ProcessorFaults : Prop :=
  (∀ (p : AgentId) (s : State), awake s → s.mayFault p.val = true →
    endsIn (.watchdogExpiry p) s (faultOf p.val 2 s) ∧ endsIn (.processorMemoryUe p) s (faultOf p.val 3 s) ∧
    endsIn (.trapInTrapHandler p) s (faultOf p.val 4 s) ∧
    (∀ cause, let t := procFault p.val cause s
      let n := (s.time :: (s.proc p.val).faults.filter (fun a => decide (s.time < a + ticksS))).length
      (t.proc p.val).state = (if 3 ≤ n ∨ (s.proc p.val).halted = true then .faulted else .restarting) ∧ (t.proc p.val).lastCause = cause ∧
      t.isReady (procReady p.val) = false ∧ (s.serve.step = none → t.mem = s.mem))) ∧
  (∀ (p cause : Nat) (s : State), p < 11 →
    ((revokeNow p cause s).proc p).aepoch = (s.proc p).aepoch + 1 ∧ ((revokeNow p cause s).proc p).lastAdv = some s.time ∧
    (∀ a, (s.proc p).lastAdv = some a → s.time < a + ticksMs →
      ((revoke p cause s).proc p).aepoch = (s.proc p).aepoch ∧ ((revoke p cause s).proc p).deferred = some cause) ∧
    (∀ q, q ≠ p → ((revokeNow p cause s).proc q).aepoch = (s.proc q).aepoch))

/-- An image runs; a deferred revocation is done once 1 ms has passed; a new image that has not run in time is rolled back; at the
safe point the handoff block is taken; a replaced target passes on to the next. FW_UPDATE whose checks pass puts the bundle into
the free slot and takes the first target in hand. (R90, R91, R92, R93, R94, R95, R98) -/
def Obligations.FirmwareReplacement : Prop :=
  (∀ (p : AgentId) (s : State), awake s →
    (s.mayRun p.val = true → (s.proc p.val).imaged = true → completes (.processorRunning p) s (fun t =>
      (t.proc p.val).state = .running ∧ t.pins = s.pins)) ∧
    (∀ c a, (s.proc p.val).deferred = some c → (s.proc p.val).lastAdv = some a → a + ticksMs ≤ s.time →
      endsIn (.revocationDeferred p) s (revokeNow p.val c s)) ∧
    ((s.proc p.val).fresh.isSome = true → (s.proc p.val).state ≠ .running → s.upd.bind (·.cur) = some p.val →
      endsIn (.pauseLimitExpiry p) s (rollBack p.val false s)) ∧
    (∀ u block, s.upd = some u → u.cur = some p.val → (s.proc p.val).state = .handoff → (s.proc p.val).fresh = none →
      block.length ≤ (procMem p.val).2 → completes (.handoffSafePoint p block) s (fun t =>
        (t.hand.map (·.block)) = some block ∧ (t.proc p.val).slotB = u.toB ∧ (t.proc p.val).fresh = some true ∧
        { t with hand := s.hand, procs := s.procs } = s)) ∧
    (∀ h, (s.proc p.val).fresh = some h → s.upd.bind (·.cur) = some p.val → (s.proc p.val).state = .running →
      s.secRuns = true → endsIn (.fwTargetReplaced p) s (nextTarget (replaced p.val h s)))) ∧
  (∀ (f : Fn) (src : Src) (bundle : Option Bytes) (s t : State) (c : Cmd) (b : Bundle),
    taken f.val opFwUpdate src [(0x10, 8), (0x18, 4), (0x1C, 2), (0x1E, 1)] true s = some (c, t) →
    let todo := ([3, 4, 5, 6, 7, 8, 9, 10, 2, 1, 0] : List Nat).filter (fun p => (c.arg 0x1C 2).testBit p)
    let fmtOf := fun (x : Option Bundle) p => (x.bind (·.image p)).map (·.fmt)
    0 < c.arg 0x1C 2 → c.arg 0x1C 2 < 2048 →
    (c.arg 0x1E 1 = 0 ∨ c.arg 0x1E 1 = 1 ∧ t.boot.cap.getLsbD capHandoff = true ∧
      (List.range 6).any (fun h => (Tab.get {} t.hbm h).usable) = true ∧
      ∀ p ∈ todo, ∃ n, n ≠ 0 ∧ fmtOf (some b) p = some n ∧ fmtOf (t.bundleOf p) p = some n) →
    (t.proc agSec).state = .running → t.upd = none →
    (List.range 11).any (fun p => (t.proc p).state == .restarting) = false → t.prov.stage = none →
    (t.slotUsed false && t.slotUsed true) = false →
    checkBundle t.fuses.keyRevoke t.fwFloor (c.arg 0x18 4) bundle = .ok b → b.abi = t.boot.runAbi →
    let toB := t.slotUsed false
    endsIn (.fwUpdate f src bundle) s (nextTarget { t with
      upd := some { fn := f.val, q := srcQ c.src, tag := c.e.tag, cur := none, handoff := c.arg 0x1E 1 == 1, toB := toB, orphan := false,
                    todo := todo },
      boot := { t.boot with
        state := .updating, slotA := if toB then t.boot.slotA else some b, slotB := if toB then some b else t.boot.slotB,
        bad := t.boot.bad.filter (·.1 != toB) } }))

/-- An argument out of range is dropped; while SEC does not run, or another stage, an update or the NOR is busy, PROV_STAGE ends
E_BUSY; a download from IDLE, DOWNLOADED, VERIFIED or INVALID, a verify from DOWNLOADED, an activate from VERIFIED and a confirm
from TRIAL of the record that runs begin with their journal entry, a download with the free slot erased too; from any other state
a stage is dropped and counted. The end of the NOR operation finishes the stage: the slot's contents and DOWNLOADED; VERIFIED, or
INVALID and E_SIG where the record fails or its SEQ does not exceed the running one; TRIAL, or INVALID and E_SIG; the fuses and
IDLE. It completes to the function that asked, unless an FLR ended that; while SEC does not run it leaves the state. The model's
choices (log 28): the order of the checks, a NOR still busy from the boot's poll, and what the end of an operation finds. (R126,
R128, R131) -/
def Obligations.ProvisioningStages : Prop :=
  (∀ (f : Fn) (src : Src) (data : Bytes) (c : Cmd) (s t : State),
    taken f.val opProvStage src [(0x10, 1), (0x18, 8), (0x20, 4)] true s = some (c, t) →
    let stage := c.arg 0x10 1
    let len := c.arg 0x20 4
    (3 < stage ∨ stage = 0 ∧ (len = 0 ∨ 131072 < len) → endsIn (.provStage f src data) s (c.drop cViolIarekField t)) ∧
    (stage ≤ 3 → (stage = 0 → 0 < len ∧ len ≤ 131072) →
      (t.secTakes = false → endsIn (.provStage f src data) s (c.endRetry eBusy 0 t)) ∧
      (t.secTakes = true → t.prov.stage.isSome = true ∨ t.upd.isSome = true ∨ t.nor.busy = true →
        endsIn (.provStage f src data) s (c.end eBusy t)) ∧
      (t.secTakes = true → t.prov.stage = none → t.upd = none → t.nor.busy = false →
        (t.inForce = none → endsIn (.provStage f src data) s (c.drop cViolProvOrder t)) ∧
        (∀ e, t.inForce = some e →
          let begins := fun (u : State) => { u with prov := { u.prov with
            stage := some (stage, f.val, srcQ c.src, c.e.tag, fit len data) } }
          let allowed := stage = 0 ∧ (e.state = .idle ∨ e.state = .downloaded ∨ e.state = .verified ∨ e.state = .invalid) ∨
            stage = 1 ∧ e.state = .downloaded ∨ stage = 2 ∧ e.state = .verified ∨ stage = 3 ∧ e.state = .trial ∧ e.slot = t.prov.slot
          (¬ allowed → endsIn (.provStage f src data) s (c.drop cViolProvOrder t)) ∧
          (allowed → endsIn (.provStage f src data) s (begins (
            if stage = 0 then putSlot t.freeSlot [] (journal .downloading t.freeSlot t.prov.slot 0 (putSlot t.freeSlot (fit len data) t))
            else journal (if stage = 1 then .verifying else if stage = 2 then .activating else .confirming) e.slot e.xslot 0 t))))))) ∧
  (∀ s : State,
    (s.prov.stage = none → endsIn .norOperationDone s s) ∧ ((s.proc agSec).state ≠ .running → endsIn .norOperationDone s s) ∧
    (awake s → (s.proc agSec).state = .running → ∀ (stage f : Nat) q tag data e, s.prov.stage = some (stage, f, q, tag, data) →
      stage ≤ 3 → s.inForce = some e →
      let good := recordOk s.fuses false (s.slot e.slot) = true
      let newer := ((s.prov.record.map (·.seq)).getD 0) < rdBV 32 (s.slot e.slot) 8
      let ends := fun st (u : State) =>
        let t := { u with prov := { u.prov with stage := none } }
        endsIn .norOperationDone s (if f < 32 then
          complete f q { kind := 0, status := st, tag := tag, result := slotResult e.slot, opcode := opProvStage } t else t)
      (stage = 0 → ends stOk (journal .downloaded e.slot e.xslot 0 (putSlot e.slot data s))) ∧
      (stage = 1 → good ∧ newer → ends stOk (journal .verified e.slot e.xslot 0 s)) ∧
      (stage = 1 → ¬ (good ∧ newer) → ends eSig (journal .invalid e.slot e.xslot 0 s)) ∧
      (stage = 2 → good → ends stOk (journal .trial e.slot e.xslot 0 s)) ∧
      (stage = 2 → ¬ good → ends eSig (journal .invalid e.slot e.xslot 0 s)) ∧
      (stage = 3 → ends stOk (journal .idle e.slot e.slot 0 (programFuses (s.slot e.slot) s)))))

/-- GET_VERSION, GET_CAPABILITIES and NEGOTIATE_ALGORITHMS answer in that order and move their transport's connection on. Once
algorithms are agreed the chain, the signed challenge, a session and the measurements are given; a fifth session is turned down;
with the identity area failed the chain's requests answer Unspecified. A malformed or out-of-sequence request receives an ERROR
and is counted. (R108, R109, R110, R111) -/
def Obligations.SpdmConnection : Prop :=
  (∀ (mctp : Bool) (s : State), awake s → s.answers mctp = true →
    let only := fun (t : State) => { t with sec := s.sec, out := s.out } = s
    (∀ v12 v13, (v12 || v13) = true → completes (.getVersion mctp v12 v13 true) s (fun t => t.sec.phase mctp = .version ∧
      t.sec.phase (!mctp) = s.sec.phase (!mctp) ∧ (if mctp then t.sec.verMctp else t.sec.verDoe) = (if v13 then 0x13 else 0x12) ∧
      t.out = s.out ++ [.spdm mctp 0x04 [0x12, 0x13]] ∧ only t)) ∧
    (s.sec.phase mctp = .version → completes (.getCapabilities mctp true) s (fun t => t.sec.phase mctp = .capabilities ∧
      t.out = s.out ++ [.spdm mctp 0x61 (toLe 4 0x262F6)] ∧ only t)) ∧
    (s.sec.phase mctp = .capabilities → completes (.negotiateAlgorithms mctp true true) s (fun t => t.sec.phase mctp = .algorithms ∧ only t))) ∧
  (∀ (mctp : Bool) (s : State), awake s → s.answers mctp = true → s.sec.phase mctp = .algorithms →
    (s.sec.identityOk = true → s.sec.akReady = true →
      let chain := Config.certChain s.fuses.deviceSeed s.sec.ak s.sec.akSvn
      (∀ off len, off ≤ chain.length → endsIn (.getCertificate mctp 0 off len true) s (emit (.spdm mctp 0x02 (slice chain off len)) s)) ∧
      (∀ nonce, endsIn (.challenge mctp 0 nonce true) s
        (emit (.spdm mctp 0x03 (Config.akSign s.sec.ak (toLe 32 nonce.toNat ++ toLe 48 (Config.sha384 chain).toNat))) s)) ∧
      (∀ share, s.sec.sessions.length < 4 → endsIn (.keyExchange mctp 0 share true) s
        (emit (.spdm mctp 0x64 (toLe 2 s.sec.newSession ++ Config.akSign s.sec.ak share)) (updSec (fun x => { x with sessions := x.sessions ++
          [{ id := s.sec.newSession, via := if mctp then .mctp else .doe, established := false, updates := 0 }] }) s))) ∧
      (∀ share, 4 ≤ s.sec.sessions.length → endsIn (.keyExchange mctp 0 share true) s (emit (.spdm mctp 0x7F [0x0A#8]) s)) ∧
      (let signed := fun (l : Bytes) (nonce : BitVec 256) =>
         emit (.spdm mctp 0x60 (l ++ toLe 32 nonce.toNat ++ Config.akSign s.sec.ak (l ++ toLe 32 nonce.toNat))) s
       let block := fun k => let v := measurement k s
         toLe 1 k ++ toLe 1 1 ++ toLe 2 (v.length + 3) ++ toLe 1 (measurementType k) ++ toLe 2 v.length ++ v
       ∀ nonce, endsIn (.getMeasurements mctp 0 nonce true) s (signed [17] nonce) ∧
         (∀ k, 1 ≤ k → k ≤ 17 → endsIn (.getMeasurements mctp k nonce true) s (signed (block k) nonce)) ∧
         endsIn (.getMeasurements mctp 0xFF nonce true) s (signed (((List.range 17).map (fun k => block (k + 1))).flatten) nonce))) ∧
    (s.sec.identityOk = false → ∀ slot off len nonce share,
      endsIn (.getCertificate mctp slot off len true) s (emit (.spdm mctp 0x7F [0x05#8]) s) ∧
      endsIn (.challenge mctp slot nonce true) s (emit (.spdm mctp 0x7F [0x05#8]) s) ∧
      endsIn (.keyExchange mctp slot share true) s (emit (.spdm mctp 0x7F [0x05#8]) s))) ∧
  (∀ (mctp : Bool) (s : State), awake s → s.answers mctp = true →
    let bad := fun code => emit (.spdm mctp 0x7F [BitVec.ofNat 8 code]) (bumpPart cViolSpdm s)
    (∀ a b, endsIn (.getVersion mctp a b false) s (bad 1)) ∧ endsIn (.getCapabilities mctp false) s (bad 1) ∧
    (∀ a, endsIn (.negotiateAlgorithms mctp a false) s (bad 1)) ∧ (∀ a b c, endsIn (.getCertificate mctp a b c false) s (bad 1)) ∧
    (∀ a b, endsIn (.challenge mctp a b false) s (bad 1)) ∧ (∀ a b, endsIn (.keyExchange mctp a b false) s (bad 1)) ∧
    (∀ a b, endsIn (.getMeasurements mctp a b false) s (bad 1)) ∧
    (s.sec.phase mctp ≠ .version → endsIn (.getCapabilities mctp true) s (bad 4)) ∧
    (s.sec.phase mctp ≠ .capabilities → ∀ a, endsIn (.negotiateAlgorithms mctp a true) s (bad 4)) ∧
    (s.sec.phase mctp ≠ .algorithms → ∀ a b, endsIn (.challenge mctp a b true) s (bad 4) ∧ endsIn (.keyExchange mctp a [] true) s (bad 4) ∧
      endsIn (.getMeasurements mctp a b true) s (bad 4)))

/-- FINISH establishes a session; KEY_UPDATE, HEARTBEAT and END_SESSION serve an established one; over DOE, IDE_KM programs stream
keys and then sets them going. (R109, R110, R112) -/
def Obligations.SpdmSessions : Prop :=
  ∀ (id : Nat) (x : Session) (s : State), awake s → s.sec.session id = some x → s.answers (x.via == .mctp) = true →
    let mctp := x.via == .mctp
    (x.established = false → completes (.finish id true true) s (fun t => t.out = s.out ++ [.spdm mctp 0x65 []] ∧
      (t.sec.session id).map (·.established) = some true ∧ t.sec.sessions.length = s.sec.sessions.length ∧
      { t with sec := s.sec, out := s.out } = s)) ∧
    (x.established = true →
      completes (.keyUpdate id true) s (fun t => t.out = s.out ++ [.spdm mctp 0x69 []] ∧
        (t.sec.session id).map (·.updates) = some (x.updates + 1) ∧ { t with sec := s.sec, out := s.out } = s) ∧
      endsIn (.heartbeat id true) s (emit (.spdm mctp 0x68 []) s) ∧
      completes (.endSession id true) s (fun t => t.sec.session id = none ∧ t.out = s.out ++ [.spdm mctp 0x6C []] ∧
        { t with sec := s.sec, out := s.out } = s) ∧
      (mctp = false → ∀ n, n ≤ 32 →
        completes (.ideKm id n false true) s (fun t => Tab.find t.sec.ide n = some (.programmed, s.free) ∧
          { t with sec := s.sec, out := s.out, free := s.free } = s) ∧
        (∀ e, Tab.find s.sec.ide n = some e → completes (.ideKm id n true true) s (fun t => Tab.find t.sec.ide n = some (.active, e.2) ∧
          { t with sec := s.sec, out := s.out } = s))))

/-- Fragments of the partner's chain, its ephemeral key, its proof and its word that the exchange is done; a proof that does not
verify is counted and the partner rejected. A rekey asks for the next phase, the receiver takes the new key and keeps the old
one, and the acknowledgement retires it. (R119, R120, R352) -/
def Obligations.LinkKeyExchange : Prop :=
  (∀ (p : PortId) (s : State), awake s → s.exchanges p.val = true →
    let x := s.port p.val
    (∀ frag frags data, frag < frags → frags ≤ 16 → data ≠ [] → data.length ≤ 984 → frag = x.certs.length → x.certsDone = false →
      endsIn (.keyCert p frag frags data) s
        (updPort p.val (fun x => { x with certs := x.certs ++ [data], certsDone := frag + 1 == frags }) s)) ∧
    (∀ pub, x.partnerPub = none → endsIn (.keyShare p pub) s
      (sendProof p.val (updPort p.val (fun x => { x with partnerPub := some (fit 97 pub) }) s))) ∧
    (∀ sig, x.accept = false → x.rejected = false → x.ephNo ≠ 0 → s.secRuns = true →
      let chain := x.certs.flatten
      let pub := x.partnerPub.getD []
      let good := x.certsDone = true ∧ x.partnerPub.isSome = true ∧ (∃ v, Config.chainSvn chain = some v ∧ s.fwFloor ≤ v) ∧
        Config.verify (Config.chainKey chain) (pub ++ Config.ephPub x.ephNo ++ toLe 8 x.partnerNonce.toNat ++ toLe 8 x.nonce.toNat)
          (fit 96 sig) = true
      (good → endsIn (.keyProof p sig) s (keysInForce p.val (sendLink p.val 6 (toLe 4 0) (updPort p.val (fun y => { y with
        accept := true, partnerId := Config.chainPart chain,
        keyTx := Config.hkdf (Config.ecdh x.ephNo pub) (linkInfo x.nonce x.partnerNonce),
        keyRx := Config.hkdf (Config.ecdh x.ephNo pub) (linkInfo x.partnerNonce x.nonce) }) s)))) ∧
      (¬ good → endsIn (.keyProof p sig) s (portEvent p.val x.mode 4 (bumpPart cLinkAuthFail
        (updPort p.val (fun y => { y with rejected := true }) s))))) ∧
    (∀ sig, x.accept = false → x.rejected = false → x.ephNo ≠ 0 → s.secRuns = false →
      endsIn (.keyProof p sig) s (updPort p.val (fun x => { x with proofIn := some sig }) s)) ∧
    endsIn (.keyDone p 0) s (keysInForce p.val (updPort p.val (fun x => { x with doneSeen := true }) s))) ∧
  (∀ (p : PortId) (s : State), awake s → (s.port p.val).st = .up → (s.port p.val).keyed = true →
    let x := s.port p.val
    (x.rekeying = false → s.secRuns = true → endsIn (.rekeyDue p) s (sendLink p.val 7 (toLe 4 (x.phaseTx + 1).toNat)
      (updPort p.val (fun x => { x with rekeying := true }) s))) ∧
    endsIn (.rekey p (x.phaseRx + 1)) s (sendLink p.val 8 (toLe 4 (x.phaseRx + 1).toNat) (updPort p.val (fun y => { y with
      keyRxOld := some x.keyRx, keyRx := nextKey x.keyRx (x.phaseRx + 1), phaseRx := x.phaseRx + 1 }) s)) ∧
    (x.rekeying = true → endsIn (.rekeyAck p (x.phaseTx + 1)) s (updPort p.val (fun y => { y with
      rekeying := false, keyTx := nextKey x.keyTx (x.phaseTx + 1), phaseTx := x.phaseTx + 1, framesTx := 0, wrapsTx := 0 }) s)) ∧
    (∀ phase, phase ≠ x.phaseRx + 1 → endsIn (.rekey p phase) s s))

/-- A write of RING_CFG with a valid configuration starts a fresh ring, one that clears ENABLE stops it, and a bad configuration or
a second enable is counted. A tail that leaves the queue at most full, or a head up to the tail, is taken, the first arming the
lease where it is the admin ring's and the second letting held entries flow; on a disabled ring, or with a value beyond the
size, the room or the tail, it is counted; after expiry both are late. The end of the coalescing time raises the vector where
entries wait for it. The model's choices (log 29): a bad configuration leaves its other fields in the register, and the lease
arms on a doorbell that is taken. (R57, R58, R59, R64, R78, R79) -/
def Obligations.RingsByRegister : Prop :=
  (∀ (f : Fn) (v : BitVec 32) (s : State), reachable f s →
    let cfg := { s.ring f.val 0 with vector := BitVec.ofNat 6 (bits v 25 6), weight := BitVec.ofNat 4 (bits v 21 4),
                                     sqLog := BitVec.ofNat 5 (bits v 16 5), cqLog := BitVec.ofNat 5 (bits v 11 5) }
    (v.getLsbD 31 = true → (s.ring f.val 0).enable = false → ringOk f.val cfg = true →
      endsIn (.ringEnable f v) s (startRing f.val 0 (fun _ => cfg) s)) ∧
    (v.getLsbD 31 = true → (s.ring f.val 0).enable = false → ringOk f.val cfg = false →
      endsIn (.ringEnable f v) s (bump f.val cViolIarekRing (updRing f.val 0 (fun _ => cfg) s))) ∧
    (v.getLsbD 31 = true → (s.ring f.val 0).enable = true → endsIn (.ringEnable f v) s (bump f.val cViolIarekRing s)) ∧
    (v.getLsbD 31 = false → (s.ring f.val 0).enable = true → endsIn (.ringDisable f v) s (stopRing f.val 0 s)) ∧
    (v.getLsbD 31 = false → (s.ring f.val 0).enable = false → endsIn (.ringDisable f v) s (updRing f.val 0 (fun _ => cfg) s))) ∧
  (∀ (f : Fn) (q : RingId) (v : BitVec 32) (s : State), reachable f s →
    let r := s.ring f.val q.val
    ((s.fn f.val).expired = true → endsIn (.sqTailDb f q v) s (bump f.val cViolLeaseLate s) ∧
      endsIn (.cqHeadDb f q v) s (bump f.val cViolLeaseLate s)) ∧
    ((s.fn f.val).expired = false → r.enable = false ∨ r.sqSize ≤ v.toNat → endsIn (.sqTailDb f q v) s (bump f.val cViolIarekDoorbell s)) ∧
    ((s.fn f.val).expired = false → r.enable = true → v.toNat < r.sqSize →
      (v.toNat + r.sqSize - r.sqTail) % r.sqSize + (r.sqTail + r.sqSize - r.sqHead) % r.sqSize < r.sqSize →
      endsIn (.sqTailDb f q v) s (updFn f.val (fun x => { x with armed := x.armed || q.val == 0 })
        (updRing f.val q.val (fun r => { r with sqTail := v.toNat }) s))) ∧
    ((s.fn f.val).expired = false → r.enable = true → v.toNat < r.sqSize →
      r.sqSize ≤ (v.toNat + r.sqSize - r.sqTail) % r.sqSize + (r.sqTail + r.sqSize - r.sqHead) % r.sqSize →
      endsIn (.sqTailDb f q v) s (bump f.val cViolIarekDoorbell s)) ∧
    ((s.fn f.val).expired = false → r.enable = false ∨ r.cqSize ≤ v.toNat ∨
        (r.cqTail + r.cqSize - r.cqHead) % r.cqSize < (v.toNat + r.cqSize - r.cqHead) % r.cqSize →
      endsIn (.cqHeadDb f q v) s (bump f.val cViolIarekDoorbell s)) ∧
    ((s.fn f.val).expired = false → r.enable = true → v.toNat < r.cqSize →
      (v.toNat + r.cqSize - r.cqHead) % r.cqSize ≤ (r.cqTail + r.cqSize - r.cqHead) % r.cqSize →
      endsIn (.cqHeadDb f q v) s (pauseNow (flushHeld f.val q.val (updRing f.val q.val (fun r => { r with cqHead := v.toNat }) s)))) ∧
    (r.unsig ≠ 0 → endsIn (.coalesceTimeout f q) s
      (raiseVec f.val r.vector.toNat (updRing f.val q.val (fun r => { r with unsig := 0 }) s))) ∧
    (r.unsig = 0 → endsIn (.coalesceTimeout f q) s s))

/-- DIRECT_DB sets BUSY for an admin command, is counted while BUSY and drops another opcode; CANCEL_DB in one or two writes cancels
the handle, a lone high half being counted; LEASE_CTRL takes a period of 10 to 10,000 ms, and after expiry writes and heartbeats
are counted. (R65, R66, R74, R78, R79) -/
def Obligations.SlotCancelLease : Prop :=
  ∀ (f : Fn) (s : State), reachable f s →
    ((s.fn f.val).busy = true → ∀ v, endsIn (.directDb f v) s (bump f.val cViolIarekDoorbell s)) ∧
    ((s.fn f.val).busy = false → isAdminOp (bits (s.fn f.val).directCmd 0 16) = true →
      endsIn (.directDb f 1) s (updFn f.val (fun x => { x with directCpl := x.directCpl ||| BitVec.ofNat 512 (2 ^ 505) }) s)) ∧
    ((s.fn f.val).busy = false → isAdminOp (bits (s.fn f.val).directCmd 0 16) = false →
      endsIn (.directDb f 1) s (bump f.val cViolIarekOpcode s)) ∧
    (∀ v, endsIn (.cancelDbLow f v) s (updFn f.val (fun x => { x with cancelLow := some v }) s)) ∧
    (∀ h, endsIn (.cancelDb f false h) s (cancelHandle f.val h (updFn f.val (fun x => { x with cancelLow := none }) s))) ∧
    (∀ (l : BitVec 32) (h : BitVec 64), (s.fn f.val).cancelLow = some l → endsIn (.cancelDb f true h) s
      (cancelHandle f.val (h.truncate 32 ++ l) (updFn f.val (fun x => { x with cancelLow := none }) s))) ∧
    (∀ h, (s.fn f.val).cancelLow = none → endsIn (.cancelDb f true h) s (bump f.val cViolBarAccess s)) ∧
    ((s.fn f.val).expired = true → endsIn (.leaseHeartbeat f) s (bump f.val cViolLeaseLate s) ∧
      ∀ v, endsIn (.leaseCtrlWrite f v) s (bump f.val cViolBarWrite s)) ∧
    ((s.fn f.val).expired = false → endsIn (.leaseHeartbeat f) s s ∧
      ∀ v : BitVec 32, 10 ≤ bits v 0 14 → bits v 0 14 ≤ 10000 → completes (.leaseCtrlWrite f v) s (fun t =>
        (t.fn f.val).policy = BitVec.ofNat 2 (bits v 30 2) ∧ (t.fn f.val).period = BitVec.ofNat 14 (bits v 0 14) ∧ { t with funcs := s.funcs } = s))

/-- Each answers OK with the result the rules state and writes the page, the counters or the records; ADOPT of a function that has
not expired ends E_BUSY; of one that has, the lease is armed, every ring disabled, and the fence lifted where bus mastering is on and
the function is in D0; otherwise that cause goes on. (R76, R77, R80, R461) -/
def Obligations.AdminReports : Prop :=
  ∀ (f : Fn) (src : Src) (s t : State) (c : Cmd),
    (taken f.val opIdentify src [(0x10, 8)] true s = some (c, t) →
      endsIn (.identify f src) s (c.answer stOk 0 (result [(0, 2, t.boot.runLevel.toNat), (2, 1, 32), (4, 4, t.iarekCap)])
        (if c.arg 0x10 8 = 0 then t else c.write (c.arg 0x10 8) (identifyPage f.val t) t))) ∧
    (taken f.val opAdopt src [(0x10, 4), (0x14, 1)] true s = some (c, t) → 10 ≤ c.arg 0x10 4 → c.arg 0x10 4 ≤ 10000 → c.arg 0x14 1 ≤ 3 →
      ((t.fn f.val).expired = false → endsIn (.adopt f src) s (c.end eBusy t)) ∧
      ((t.fn f.val).expired = true →
        let u := updFn f.val (fun y => { y with
          expired := false, settled := false, armed := true, period := BitVec.ofNat 14 (c.arg 0x10 4), policy := BitVec.ofNat 2 (c.arg 0x14 1),
          rings := Tab.mapVals y.rings (fun _ r => { r with enable := false, tag := { r.tag with agent := 15 } }) }) t
        let still := fun (cause : BitVec 2) => raiseVec f.val 0 (updFn f.val (fun y => { y with fenceCause := cause }) u)
        endsIn (.adopt f src) s (c.answer stOk 0
          (result [(0, 4, (t.homeOf f.val).length), (4, 4, (t.fn f.val).held.length), (8, 1, (t.fn f.val).fenceCause.toNat)])
          (if (t.fn f.val).bme = false then still 2 else if (t.fn f.val).d3 = true then still 3 else liftFence f.val u)))) ∧
    (taken f.val opCounters src [(0x10, 8), (0x18, 1)] true s = some (c, t) → c.arg 0x18 1 ≤ 1 →
      let u := c.write (c.arg 0x10 8) (((List.range counterCount).map (fun k => toLe 8 (t.counter f.val k))).flatten) t
      endsIn (.counters f src) s (c.answer stOk 0 (result [(0, 4, 8 * counterCount)])
        (if c.arg 0x18 1 = 1 then clearCounters f.val u else u))) ∧
    (taken f.val opList src [(0x10, 8), (0x18, 4), (0x1C, 1)] true s = some (c, t) → c.arg 0x18 4 % 64 = 0 → 64 ≤ c.arg 0x18 4 →
      c.arg 0x1C 1 ≤ 7 →
      let all := (listOf f.val (c.arg 0x1C 1) t).foldr (insertBy (fun a b => decide (hIndex a.1 < hIndex b.1))) []
      let some_ := if srcQ c.src = none then [] else all.take (c.arg 0x18 4 / 64)
      endsIn (.list f src) s (c.answer stOk 0 (result [(0, 4, some_.length), (4, 4, all.length)])
        (c.write (c.arg 0x10 8) ((some_.map (fun e => fit 64 e.2)).flatten) t)))

/-- With arguments in range, RING_CREATE starts a fresh ring, RING_DELETE stops one that nothing uses, LIMIT_SET sets or withdraws
the driver's limit and answers both values and the one in force, and PHASE_OP_SET replaces one preference. Of two limits on one
quantity the more restrictive applies, and withdrawing one leaves the other. (R9, R58, R69, R402, R416) -/
def Obligations.RingsAndLimits : Prop :=
  (∀ (f : Fn) (src : Src) (s t : State) (c : Cmd),
    (taken f.val opRingCreate src [(0x10, 1), (0x11, 1), (0x12, 1), (0x13, 1), (0x14, 1), (0x18, 8), (0x20, 8)] true s = some (c, t) →
      let q := c.arg 0x10 1
      let cfg := fun (r : Ring) => { r with
        sqBase := BitVec.ofNat 64 (c.arg 0x18 8), cqBase := BitVec.ofNat 64 (c.arg 0x20 8),
        vector := BitVec.ofNat 6 (c.arg 0x13 1), weight := BitVec.ofNat 4 (c.arg 0x14 1 - 1),
        sqLog := BitVec.ofNat 5 (c.arg 0x11 1), cqLog := BitVec.ofNat 5 (c.arg 0x12 1) }
      0 < q → q ≤ 31 → 0 < c.arg 0x14 1 → c.arg 0x14 1 ≤ 16 → c.arg 0x11 1 ≤ 31 → c.arg 0x12 1 ≤ 31 → c.arg 0x13 1 ≤ 63 →
      (t.ring f.val q).enable = false → ringOk f.val (cfg (t.ring f.val q)) = true →
      endsIn (.ringCreate f src) s (c.end stOk (startRing f.val q cfg t))) ∧
    (taken f.val opRingDelete src [(0x10, 1)] true s = some (c, t) → 0 < c.arg 0x10 1 → c.arg 0x10 1 ≤ 31 →
      endsIn (.ringDelete f src) s (if t.usesRing f.val (c.arg 0x10 1) then c.end eBusy t else c.end stOk (stopRing f.val (c.arg 0x10 1) t))) ∧
    (taken f.val opLimitSet src [(0x10, 1), (0x11, 1), (0x14, 4)] true s = some (c, t) → c.arg 0x10 1 ≤ 2 → c.arg 0x11 1 ≤ 2 →
      (c.arg 0x11 1 = 1 → limitOk (c.arg 0x10 1) (c.arg 0x14 4) = true) →
      let q := c.arg 0x10 1
      let u := if c.arg 0x11 1 = 1 then setLimit false q (some (c.arg 0x14 4)) t
        else if c.arg 0x11 1 = 2 then setLimit false q none t else t
      let w := limitValues q u
      endsIn (.limitSet f src) s (c.answer stOk 0 (result [(0, 4, w.1), (4, 4, w.2.1), (8, 4, w.2.2)]) u)) ∧
    (taken f.val opPhaseOpSet src [(0x10, 1), (0x11, 1)] true s = some (c, t) → c.arg 0x10 1 ≤ 4 → c.arg 0x11 1 ≤ 7 →
      t.isReady rPmc = true →
      endsIn (.phaseOpSet f src) s (c.answer stOk 0 (result [(0, 1, t.power.op)])
        (updCaps (fun x => { x with pref := x.pref.set (c.arg 0x10 1) (c.arg 0x11 1) }) t)))) ∧
  (∀ (a b : Nat) (s : State),
    (setLimit true 1 (some b) (setLimit false 1 (some a) s)).slew = min a b ∧
    (setLimit true 1 none (setLimit false 1 (some a) s)).slew = a ∧
    (setLimit true 1 none (setLimit false 1 none s)).slew = 50 ∧
    (setLimit true 0 (some b) (setLimit false 0 (some a) s)).capMw = min
      (if s.power.pwrbrk then min (min a b * 100) (s.settings.pwrbrkCap * 1000) else min a b * 100) 275000 * (24 - s.dropped) / 24)

/-- BUF_ALLOC grants units under a fresh handle or ends E_NOMEM, and waits, with the columns it has dropped, where only pinned columns
leave no room; BUF_FREE ends E_BUSY while the buffer is in use and otherwise frees
it; WIN_MAP maps one unit into a free slot, and one in the coherent window is counted; WIN_UNMAP unmaps. (R41, R69, R265) -/
def Obligations.BuffersAndWindows : Prop :=
  ∀ (f : Fn) (src : Src) (s t : State) (c : Cmd),
    (taken f.val opBufAlloc src [(0x10, 4)] true s = some (c, t) → 0 < c.arg 0x10 4 → c.arg 0x10 4 ≤ 4096 →
      t.hbmLost = false → t.hbmNone = false →
      (∀ us u, grantUnits .buffer (t.tagOf agSch f.val) (c.arg 0x10 4) t = .got us u →
        let i := issue f.val kBuffer (Tab.keys u.bufs) u
        endsIn (.bufAlloc f src) s (c.answer stOk i.1 0 { i.2 with bufs := Tab.put i.2.bufs i.1 { fn := f.val, units := us } })) ∧
      (grantUnits .buffer (t.tagOf agSch f.val) (c.arg 0x10 4) t = .short → endsIn (.bufAlloc f src) s (c.end eNoMem t)) ∧
      (∀ u, grantUnits .buffer (t.tagOf agSch f.val) (c.arg 0x10 4) t = .waits u →
        endsIn (.bufAlloc f src) s { u with funcs := s.funcs, turn := s.turn, cxl := s.cxl })) ∧
    (let h := c.e.handle.toNat
     taken f.val opBufFree src [] false s = some (c, t) → handleIs t f.val kBuffer h (Tab.has t.bufs h) = .live →
      endsIn (.bufFree f src) s (if t.slotsOf f.val h + t.tasksOn h + t.runsOn h ≠ 0 then c.end eBusy t else c.end stOk (dropBuf h t))) ∧
    (let h := c.e.handle.toNat
     taken f.val opWinMap src [(0x10, 2), (0x14, 4)] false s = some (c, t) → handleIs t f.val kBuffer h (Tab.has t.bufs h) = .live →
      ∀ b u, Tab.find t.bufs h = some b → b.units[c.arg 0x14 4]? = some u → c.arg 0x10 2 < 4096 →
      (t.topUnit ≤ u → endsIn (.winMap f src) s (c.drop cViolWinAlias t)) ∧
      (u < t.topUnit → Tab.has (t.fn f.val).slots (c.arg 0x10 2) = false →
        endsIn (.winMap f src) s (c.end stOk (updFn f.val (fun x => { x with
          slots := Tab.put x.slots (c.arg 0x10 2) { buf := h, unit := c.arg 0x14 4 } }) t)))) ∧
    (taken f.val opWinUnmap src [(0x10, 2)] true s = some (c, t) → c.arg 0x10 2 < 4096 →
      endsIn (.winUnmap f src) s (c.end stOk (updFn f.val (fun x => { x with slots := Tab.erase x.slots (c.arg 0x10 2) }) t)))

/-- A handle is never issued twice between whole-part resets while fewer than 2^23 have been issued, carries its function and kind,
and is bad for every other function; issuing changes nothing else. (R66) -/
def Obligations.HandlesAreFresh : Prop :=
  ∀ (f kind : Nat) (live : List Nat) (s : State), f < 32 → kind < 8 → s.issued.length < 2 ^ 23 →
    let r := issue f kind live s
    r.1 ∉ s.issued ∧ hFunc r.1 = f ∧ hKind r.1 = kind ∧ r.2.issued = r.1 :: s.issued ∧
      (∀ g, g ≠ f → handleIs r.2 g kind r.1 true = .bad) ∧ { r.2 with issued := s.issued, free := s.free } = s

/-- KEY_LOAD of a blob that opens gives a key under a fresh handle and otherwise ends E_SIG. A load begins under a live key, at most
four at once, and holds one of SCH's engines; a stream whose key does not permit it is refused. A model or adapter in use is not
unloaded, one that is not ends, a copy over the Rod with a message to its members; MODEL_QUERY writes the record. (R114, R115, R116, R117, R262, R263, R269, R270, R275, R280) -/
def Obligations.KeysModelsAdapters : Prop :=
  (∀ (f : Fn) (src : Src) (blob : Bytes) (s t : State) (c : Cmd),
    taken f.val opKeyLoad src [(0x10, 8), (0x18, 4)] true s = some (c, t) → 64 ≤ c.arg 0x18 4 → c.arg 0x18 4 ≤ 4096 →
    (t.proc agSec).state = .running →
    let b := fit (c.arg 0x18 4) blob
    (unwrap f.val b t = none → endsIn (.keyLoad f src blob) s (c.end eSig t)) ∧
    (∀ k, unwrap f.val b t = some k → t.sec.keys.length < 256 → (t.sec.keys.filter (fun e => e.2.owner.fn == f.val)).length < 16 →
      let i := issue f.val kKey (Tab.keys t.sec.keys) t
      endsIn (.keyLoad f src blob) s (c.answer stOk i.1 0 { i.2 with sec := { i.2.sec with keys := Tab.put i.2.sec.keys i.1 {
        use := rd b 6 1, fnByte := rd b 7 1, kwkId := rdBV 64 b 8, modelId := rdBV 128 b 0x10, key := k,
        owner := t.tagOf agSec f.val } } }))) ∧
  (∀ (f : Fn) (src : Src) (header : Bytes) (s t : State) (c : Cmd),
    let h := c.e.handle.toNat
    (taken f.val opModelLoad src [(0x10, 8), (0x18, 8), (0x20, 1), (0x21, 1), (0x22, 2)] false s = some (c, t) →
      handleIs t f.val kKey h (Tab.has t.sec.keys h) = .live → c.arg 0x20 1 ≤ 1 → c.arg 0x21 1 ≤ 1 → c.arg 0x22 2 ≤ c.arg 0x21 1 →
      (f.val = 0 ∨ c.arg 0x21 1 = 0) → t.hbmLost = false → t.hbmNone = false → t.secTakes = true →
      endsIn (.modelLoad f src header) s (if 4 ≤ t.serve.loads.length then c.end eBusy t else
        beginLoad c .model h 0 header (c.arg 0x10 8) (c.arg 0x18 8) (c.arg 0x20 1 == 0) (c.arg 0x21 1 == 1) (c.arg 0x22 2 == 1) t)) ∧
    (taken f.val opAdapterLoad src [(0x10, 8), (0x18, 8), (0x20, 8)] false s = some (c, t) →
      handleIs t f.val kModel h (t.modelLive h) = .live →
      handleIs t f.val kKey (c.arg 0x20 8) (Tab.has t.sec.keys (c.arg 0x20 8)) = .live → t.hbmLost = false → t.hbmNone = false →
      t.secTakes = true → ∀ cp, (Tab.find t.serve.models h).bind (fun x => t.copy x.copy) = some cp → cp.share = false → cp.spread = false →
      t.adapterCount (fun _ => true) < 1024 → t.adapterCount (· == f.val) < 64 →
      endsIn (.adapterLoad f src header) s (if 4 ≤ t.serve.loads.length then c.end eBusy t else
        beginLoad c (.adapter h) (c.arg 0x20 8) 1 header (c.arg 0x10 8) (c.arg 0x18 8) false false false t)) ∧
    (taken f.val opModelUnload src [] false s = some (c, t) → handleIs t f.val kModel h (Tab.has t.serve.models h) = .live →
      ∀ m, Tab.find t.serve.models h = some m →
      (t.modelBusy h m = true → endsIn (.modelUnload f src) s (c.end eBusy t)) ∧
      let u := releaseModel h true t
      (t.modelBusy h m = false → t.copy m.copy = none ∨ (u.copy m.copy).isSome = true →
        endsIn (.modelUnload f src) s (c.end stOk u)) ∧
      (∀ x, t.modelBusy h m = false → t.copy m.copy = some x → u.copy m.copy = none →
        (x.rodId = none → endsIn (.modelUnload f src) s (c.end stOk (poolChanged u))) ∧
        (∀ id, x.rodId = some id → endsIn (.modelUnload f src) s (c.end stOk (poolChanged (sendLoadEnd f.val id.2 t.rodMembers false u)))))) ∧
    (taken f.val opAdapterUnload src [] false s = some (c, t) → handleIs t f.val kAdapter h (Tab.has t.serve.adapters h) = .live →
      endsIn (.adapterUnload f src) s (if t.serve.ctxs.any (fun e => e.2.home && e.2.adapter == h && e.2.state != .ended) then c.end eBusy t
        else c.end stOk (dropAdapter h t))) ∧
    (taken f.val opModelQuery src [(0x10, 8), (0x18, 4)] false s = some (c, t) →
      handleIs t f.val kModel h (Tab.has t.serve.models h) = .live → ∀ m, Tab.find t.serve.models h = some m → 64 ≤ c.arg 0x18 4 →
      endsIn (.modelQuery f src) s (c.answer stOk h (result [(0, 4, 64)]) (c.write (c.arg 0x10 8) (modelRecord f.val h m t) t)))) ∧
  (∀ (c : Cmd) (kind : LoadKind) (key bit : Nat) (header : Bytes) (src len : Nat) (tier share spread : Bool) (k : KeyRec) (s : State),
    Tab.find s.sec.keys key = some k → allZero (slice (fit 64 header) 0x18 40) = true → 64 + 17 ≤ len →
    let t := beginLoad c kind key bit header src len tier share spread s
    (k.permits bit (rdBV 128 (fit 64 header) 0) = true → t.serve.loads.length = s.serve.loads.length + 1 ∧ t.serve.copies = s.serve.copies ∧
      t.serve.models = s.serve.models ∧ { t with serve := s.serve, chipDma := s.chipDma } = s) ∧
    (k.permits bit (rdBV 128 (fit 64 header) 0) = false → t.serve = s.serve ∧ reportsOnly s t))

/-- What passes its checks is kept under a fresh handle, what fails ends E_NOFIT with the first failure, and what is in use is not
unloaded or freed. (R66, R69, R215, R217, R305, R336) -/
def Obligations.ProgramsNetworksProfiles : Prop :=
  ∀ (f : Fn) (src : Src) (a b : Bytes) (s t : State) (c : Cmd),
    let h := c.e.handle.toNat
    (taken f.val opProgLoad src [(0x10, 8), (0x18, 8), (0x20, 4)] true s = some (c, t) →
      ∀ streams, imageStreams (b.take (c.arg 0x20 4)) = some streams →
      let p := programOf f.val a (b.take (c.arg 0x20 4)) streams
      (∀ r d, admission a p t = some (r, d) → endsIn (.progLoad f src a b) s (c.answer eNoFit 0 (result [(0, 2, r), (4, 4, d)]) t)) ∧
      (admission a p t = none →
        let i := issue f.val kProgram (Tab.keys t.progs) t
        endsIn (.progLoad f src a b) s (c.answer stOk i.1 0 { i.2 with progs := Tab.put i.2.progs i.1 p }))) ∧
    (taken f.val opProgUnload src [] false s = some (c, t) → handleIs t f.val kProgram h (Tab.has t.progs h) = .live →
      endsIn (.progUnload f src) s (if ((t.prog h).map (·.builtin)).getD false || t.tasks.any (fun e => e.2.prog == h) then c.end eBusy t
        else c.end stOk { t with progs := Tab.erase t.progs h })) ∧
    (taken f.val opFlintLoad src [(0x10, 8), (0x18, 4)] true s = some (c, t) → t.boot.cap.getLsbD 1 = true → t.isReady rFlint = true →
      let g := a.take (c.arg 0x18 4)
      (∀ r d, flintFault g (c.arg 0x18 4) = some (r, d) → endsIn (.flintLoad f src a) s (c.answer eNoFit 0 (result [(0, 2, r), (4, 4, d)]) t)) ∧
      (flintFault g (c.arg 0x18 4) = none → rd g 6 1 ≤ t.freeTiles.length →
        let i := issue f.val kNetwork (Tab.keys t.flint.nets) t
        let tiles := t.freeTiles.take (rd g 6 1)
        endsIn (.flintLoad f src a) s (c.answer stOk i.1 0 (updFlint (fun x => { x with
          nets := Tab.put x.nets i.1 (netOf f.val g tiles),
          tiles := tiles.foldl (fun tab k => Tab.put tab k (t.tagOf agSch f.val)) x.tiles }) i.2)))) ∧
    (taken f.val opFlintUnload src [] false s = some (c, t) → handleIs t f.val kNetwork h (Tab.has t.flint.nets h) = .live →
      ∀ g, Tab.find t.flint.nets h = some g →
      endsIn (.flintUnload f src) s (if t.flint.runs.any (·.net == h) then c.end eBusy t
        else c.end stOk (updFlint (fun x => { x with nets := Tab.erase x.nets h, tiles := g.granted.foldl Tab.erase x.tiles }) t))) ∧
    (taken f.val opProfileSet src [(0x10, 8), (0x18, 4)] true s = some (c, t) → c.arg 0x18 4 ≤ 67108864 →
      let g := fit (c.arg 0x18 4) a
      (∀ r d, profFault g = some (r, d) → endsIn (.profileSet f src a) s (c.answer eNoFit 0 (result [(0, 2, r), (4, 4, d)]) t)) ∧
      (profFault g = none → (profOf g).isTree = false → t.serve.profs.length < 256 →
        (t.serve.profs.filter (fun e => e.2.fn == f.val)).length < 32 →
        (t.serve.profs.map (fun e => e.2.bytes)).sum + c.arg 0x18 4 ≤ 268435456 →
        let i := issue f.val kProfile (Tab.keys t.serve.profs) t
        endsIn (.profileSet f src a) s (c.answer stOk i.1 0 (updServe (fun x => { x with
          profs := Tab.put x.profs i.1 { fn := f.val, prof := profOf g, bytes := c.arg 0x18 4, table := g } }) i.2)))) ∧
    (taken f.val opProfileFree src [] false s = some (c, t) → handleIs t f.val kProfile h (Tab.has t.serve.profs h) = .live →
      endsIn (.profileFree f src) s (if t.profUsers h ≠ 0 then c.end eBusy t
        else c.end stOk (updServe (fun x => { x with profs := Tab.erase x.profs h }) t)))

/-- A request that passes its checks gets a context, its acceptance and a working part, or ends E_EVICTED where its model's copy is
damaged; a task and a Flint run wait; REQ_CANCEL ends the request with E_CANCELLED; REQ_QUERY reports it; POOL_SET gives the part its
role and pool, and ends E_FABRIC without a fabric, E_BUSY where the roles clash, where a role would change under another part's
requests and during a load over the Rod. (R71, R217, R281, R283, R284,
R285, R297, R341) -/
def Obligations.RequestsTasksRuns : Prop :=
  ∀ (f : Fn) (src : Src) (prompt : List (BitVec 32)) (s t : State) (c : Cmd),
    let h := c.e.handle.toNat
    (taken f.val opReqSubmit src [(0x10, 8), (0x18, 4), (0x1C, 4), (0x20, 8), (0x28, 8), (0x30, 8), (0x38, 8)] false s = some (c, t) →
      handleIs t f.val kModel h (t.modelLive h) = .live →
      ∀ cp q, t.copyOf h = some cp → srcQ c.src = some q → submitFault c prompt cp t = none → t.hbmLost = false →
      t.thermal.critical = false → t.freeCtxs ≠ 0 →
      let idx := t.serve.ctxs.fresh
      let i := issueAt f.val kRequest idx t
      let u := post f.val q (c.entry false stOk i.1 0 i.2)
        (updServe (fun y => { y with ctxs := Tab.put y.ctxs idx (homeCtx c q i.1 prompt cp i.2) }) (tookFree i.2))
      endsIn (.reqSubmit f src prompt) s
        (if cp.state = .damaged ∨ (t.copyOf (c.arg 0x38 8)).any (fun d => d.state == .damaged) = true then endRequest idx eEvicted u
         else tryAssign idx u)) ∧
    (taken f.val opReqCancel src [] false s = some (c, t) → ∀ k, t.liveRequest f.val h = some k →
      handleIs t f.val kRequest h true = .live → endsIn (.reqCancel f src) s (c.end stOk (endRequest k eCancelled t))) ∧
    (taken f.val opReqQuery src [] false s = some (c, t) → ∀ k x, t.liveRequest f.val h = some k → t.ctx k = some x →
      handleIs t f.val kRequest h true = .live → endsIn (.reqQuery f src) s (c.answer stOk h (requestResult x false 0) t)) ∧
    (taken f.val opPoolSet src [(0x10, 1), (0x11, 1)] true s = some (c, t) → c.arg 0x10 1 ≤ 3 → c.arg 0x11 1 ≤ 15 →
      let role := c.arg 0x10 1
      let pool := c.arg 0x11 1
      let has := fun r => ∃ e ∈ t.rod, e.1 ≠ t.fab.addr ∧ e.2.pool = pool ∧ e.2.role = r
      let busy := role = 3 ∧ (has 1 ∨ has 2) ∨ (role = 1 ∨ role = 2) ∧ has 3 ∨
        role ≠ t.serve.role ∧ (∃ e ∈ t.serve.ctxs, e.2.work = true ∧ e.2.home = false) ∨ t.rodLoading = true
      (t.isReady rFabricAny = false → endsIn (.poolSet f src) s (c.end eFabric t)) ∧
      (t.isReady rFabricAny = true → busy → endsIn (.poolSet f src) s (c.end eBusy t)) ∧
      (t.isReady rFabricAny = true → ¬ busy →
        endsIn (.poolSet f src) s (c.end stOk (poolChanged (updServe (fun x => { x with role := role, pool := pool }) t))))) ∧
    (taken f.val opTaskRun src [(0x10, 8), (0x18, 8), (0x20, 8), (0x28, 1)] false s = some (c, t) →
      handleIs t f.val kProgram h (Tab.has t.progs h) = .live → ∀ p q, t.prog h = some p → srcQ c.src = some q → c.arg 0x28 1 ≤ 4 →
      (∀ k, k < 3 → bufArg f.val (c.arg (0x10 + 8 * k) 8) (p.uses k) t = .fine) → t.hbmLost = false → t.thermal.critical = false →
      endsIn (.taskRun f src) s { t with nextTask := t.nextTask + 1, tasks := Tab.put t.tasks t.nextTask {
        fn := f.val, q := q, tag := c.e.tag, prog := h, buf0 := c.arg 0x10 8, buf1 := c.arg 0x18 8, buf2 := c.arg 0x20 8,
        cls := c.arg 0x28 1, prio := c.prio, order := t.nextTask } }) ∧
    (taken f.val opFlintRun src [(0x10, 8), (0x18, 8), (0x20, 4)] false s = some (c, t) → t.boot.cap.getLsbD 1 = true →
      handleIs t f.val kNetwork h (Tab.has t.flint.nets h) = .live → ∀ q, srcQ c.src = some q →
      handleIs t f.val kBuffer (c.arg 0x10 8) (Tab.has t.bufs (c.arg 0x10 8)) = .live →
      handleIs t f.val kBuffer (c.arg 0x18 8) (Tab.has t.bufs (c.arg 0x18 8)) = .live →
      endsIn (.flintRun f src) s (updFlint (fun x => { x with runs := x.runs ++ [{
        fn := f.val, q := q, tag := c.e.tag, net := h, inBuf := c.arg 0x10 8, outBuf := c.arg 0x18 8, duration := c.arg 0x20 4 }] }) t))

/-- VDD_CORE comes up at OP0, is good, goes down, and settles at a point; a governor window moves the current by at most the slew
limit, which does not bind while an island is stretched, in a brownout, in reset and after THERMTRIP#; overshoot and PWRBRK# set their bits; ALERT_CAUSE is write-1-to-clear in the PF but for SEC_FAULT, and has no writable
field in a VF. (R40, R392, R393, R395, R402, R404, R409, R411, R412) -/
def Obligations.PowerRailEvents : Prop :=
  ∀ s : State,
    (s.pins.coreEn = false → s.pins.thermtrip = false → endsIn .coreEnAssert s { s with
      pins := { s.pins with coreEn := true, phasesMid := false },
      power := { s.power with target := 5600000, slow := true, op := 0, freqOp := 0, change := none } }) ∧
    (s.pins.coreEn = true → s.pins.vcoreGood = false → s.pins.thermtrip = false → endsIn .vcoreGood s { s with
      pins := { s.pins with vcoreGood := true }, power := { s.power with setpoint := s.power.target, slow := false } }) ∧
    (s.pins.coreEn = false → endsIn .vcoreGoodDeassert s { s with
      pins := { s.pins with vcoreGood := false, phasesMid := true },
      power := { s.power with setpoint := 0, target := 0, amps := 0 } }) ∧
    (∀ c, s.power.change = some c → endsIn .rampSettled s { s with
      power := { s.power with setpoint := s.power.target, freqOp := c.dst, change := none } }) ∧
    (s.power.change = none → endsIn .rampSettled s s) ∧ (s.power.pwrbrk = true → endsIn .pwrbrkAssert s s) ∧
    (s.pins.coreEn = true ∨ s.pins.thermtrip = true → endsIn .coreEnAssert s s) ∧
    (s.pins.coreEn = false ∨ s.pins.vcoreGood = true ∨ s.pins.thermtrip = true → endsIn .vcoreGood s s) ∧
    (∀ want, completes (.slewWindow want) s (fun t =>
      { t with power := { t.power with amps := s.power.amps, slewWin := s.power.slewWin } } = s ∧ t.power.slewWin = s.slew ∧
      (s.brown.asserted = true ∨ s.pins.perst = true ∨ s.pins.thermtrip = true ∨ (∃ e ∈ s.power.stretch, 0 < e.2) →
        t.power.amps = want) ∧
      (s.brown.asserted = false ∧ s.pins.perst = false ∧ s.pins.thermtrip = false ∧ (∀ e ∈ s.power.stretch, e.2 = 0) →
        (t.power.amps - s.power.amps) + (s.power.amps - t.power.amps) =
          min ((want - s.power.amps) + (s.power.amps - want)) (s.slew * 1000)))) ∧
    completes .overshoot s (fun t => t.power.overshoot = true ∧ t.power.alert = s.power.alert ||| 0x40#8 ∧
      t.cnt = Tab.upd 0 s.cnt cVcoreOvershoot (countUp cVcoreOvershoot 1) ∧ { t with power := s.power, cnt := s.cnt } = s) ∧
    (s.power.pwrbrk = false → completes .pwrbrkAssert s (fun t => t.power.pwrbrk = true ∧ t.power.op = 0 ∧ t.power.freqOp = 0 ∧
      t.power.target = 5600000 ∧ t.power.change = none ∧ t.power.alert = s.power.alert ||| 0x20#8 ∧ t.capMw ≤ s.settings.pwrbrkCap * 1000 ∧
      { t with power := s.power, cnt := s.cnt } = s)) ∧
    endsIn .pwrbrkRelease s { s with power := { s.power with pwrbrk := false } } ∧
    (∀ (f : Fn) v, reachable f s → f.val = 0 → completes (.alertCauseWrite f v) s (fun t => { t with power := s.power } = s ∧
      ∀ b, b < 8 → t.power.alert.getLsbD b = (s.power.alert.getLsbD b && (b == 7 || !v.getLsbD b)))) ∧
    (∀ (f : Fn) v, reachable f s → f.val ≠ 0 → endsIn (.alertCauseWrite f v) s (bump f.val cViolBarWrite s))

/-- A probe starts only while no island is stretched, BROWN# is deasserted and no other phase is probed; a probe's end, a stuck or
out-of-range sense, a stage fault, a stage over 140 °C and a hot or cooled stage leave what the rules say, with the event and
its DETAIL. A dropped phase cuts the cap, permits no point above OP3 from two untrusted phases and none above OP0 from eight
dropped. (R397, R398, R399, R400, R401) -/
def Obligations.PhaseFailures : Prop :=
  (∀ (k : PhaseId) (s : State),
    let failed := fun (st cause bit : Nat) (key : Nat) (t : State) =>
      t.phase k.val = { s.phase k.val with st := st, cause := cause, probing := false } ∧ (∀ j, j ≠ k.val → t.phase j = s.phase j) ∧
      t.power.alert.getLsbD bit = true ∧ (t.phaseCeiling < s.phaseCeiling → t.power.alert.getLsbD 4 = true) ∧
      (∃ u, t = postEvent evPhase stOk (k.val + cause * 2 ^ 5 + t.dropped * 2 ^ 8 + t.untrusted * 2 ^ 13) u ∧
        u.cnt = Tab.upd 0 s.cnt key (countUp key 1) ∧ { u with power := s.power, cnt := s.cnt } = s)
    (s.power.stretch.any (fun e => decide (0 < e.2)) = false → s.brown.asserted = false → s.power.phases.any (·.2.probing) = false →
      (s.phase k.val).st = 0 → endsIn (.phaseImbalance k) s (updPhase k.val (fun p => { p with probing := true }) s)) ∧
    (s.power.stretch.any (fun e => decide (0 < e.2)) = true ∨ s.brown.asserted = true ∨ s.power.phases.any (·.2.probing) = true →
      endsIn (.phaseImbalance k) s s) ∧
    ((s.phase k.val).probing = true → (s.phase k.val).st = 0 → completes (.phaseProbeEnd k true) s (failed 1 5 2 cPhaseSenseFail)) ∧
    ((s.phase k.val).probing = true → (s.phase k.val).st ≠ 2 → completes (.phaseProbeEnd k false) s (failed 2 0 1 cPhaseDrop)) ∧
    ((s.phase k.val).probing = false → (s.phase k.val).st = 0 →
      completes (.senseStuck k) s (failed 1 3 2 cPhaseSenseFail) ∧ completes (.senseOutOfRange k) s (failed 1 4 2 cPhaseSenseFail)) ∧
    ((s.phase k.val).st ≠ 2 → completes (.phFault k) s (failed 2 1 1 cPhaseDrop) ∧ completes (.stageOver140 k) s (failed 2 2 1 cPhaseDrop)) ∧
    ((s.phase k.val).st = 2 → endsIn (.phFault k) s s ∧ endsIn (.stageOver140 k) s s) ∧
    ((s.phase k.val).hot = false → (s.phase k.val).st ≠ 2 → completes (.stageHot k) s (fun t =>
      t.phase k.val = { s.phase k.val with hot := true } ∧ t.power.alert = s.power.alert ||| 0x08#8 ∧
      t.cnt = Tab.upd 0 s.cnt cPhaseHot (countUp cPhaseHot 1) ∧ { t with power := s.power, cnt := s.cnt } = s)) ∧
    completes (.stageCooled k) s (fun t => t.phase k.val = { s.phase k.val with hot := false } ∧ { t with power := s.power } = s)) ∧
  (∀ (k : PhaseId) (cause : Nat) (s : State), (s.phase k.val).st ≠ 2 →
    let t := dropPhase k.val cause s
    t.dropped = s.dropped + 1 ∧ s.untrusted ≤ t.untrusted ∧ t.capMw ≤ s.capMw ∧ t.phaseCeiling ≤ s.phaseCeiling ∧
      (8 ≤ t.dropped → t.phaseCeiling = 0) ∧ (2 ≤ t.untrusted → t.phaseCeiling ≤ 3))

/-- A crossing of a higher level stretches its island alone, abandons an upward change where the setpoint stands, and holds it; once
the supply has stayed within 2 % for 1 µs the island steps down one level, at each further such time again, and no other island
moves; a held change is asked for again once nothing holds it. (R407) -/
def Obligations.DroopResponses : Prop :=
  ∀ (k : IslandId) (s : State),
    (∀ level : Fin 4, Tab.get 0 s.power.stretch k.val < level.val → completes (.droopCrossing k level) s (fun t =>
      Tab.get 0 t.power.stretch k.val = level.val ∧ (∀ j, j ≠ k.val → Tab.get 0 t.power.stretch j = Tab.get 0 s.power.stretch j) ∧
      t.power.change = none ∧ (s.power.change ≠ none → t.power.held = true ∧ t.power.target = s.power.setpoint) ∧
      (s.power.change = none → t.power.target = s.power.target) ∧ t.power.setpoint = s.power.setpoint ∧
      t.power.freqOp = s.power.freqOp ∧ { t with power := s.power, cnt := s.cnt } = s)) ∧
    (∀ level : Fin 4, level.val ≤ Tab.get 0 s.power.stretch k.val → endsIn (.droopCrossing k level) s s) ∧
    completes (.droopStepDown k) s (fun t => Tab.get 0 t.power.stretch k.val = Tab.get 0 s.power.stretch k.val - 1 ∧
      (∀ j, j ≠ k.val → Tab.get 0 t.power.stretch j = Tab.get 0 s.power.stretch j) ∧
      { t with power := { t.power with stretch := s.power.stretch } } = s) ∧
    (s.power.held = true → s.brown.asserted = false → s.power.stretch.any (fun e => decide (0 < e.2)) = false →
      endsIn .droopHoldEnd s (setPoint s.power.op (updPower (fun p => { p with held := false }) s))) ∧
    (s.power.held = true → s.brown.asserted = true ∨ s.power.stretch.any (fun e => decide (0 < e.2)) = true →
      endsIn .droopHoldEnd s s)

/-- Every window adds its measured energy, or once the monitor has failed its estimate, to INPUT, and what it adds to the other
buckets sums to the same. A failed check degrades the meter once and is counted; PMC refits only while it runs and the meter is
not degraded. (R424, R425, R426, R427, R428) -/
def Obligations.EnergyIsDivided : Prop :=
  ∀ s : State,
    (∀ input shares, awake s → completes (.energyWindow input shares) s (fun t =>
      t.meter.degraded = (s.meter.degraded || input.isNone) ∧
      ∃ total, (t.meter.degraded = false → input = some total) ∧
        (t.meter.degraded = true → total = (shares.map (·.2)).sum) ∧
        Tab.get 0 t.meter.buckets bInput % 2 ^ 64 = (Tab.get 0 s.meter.buckets bInput + total) % 2 ^ 64 ∧
        (((List.range 8).map (fun b => Tab.get 0 t.meter.buckets (b + 1))).sum) % 2 ^ 64 =
          (((List.range 8).map (fun b => Tab.get 0 s.meter.buckets (b + 1))).sum + total) % 2 ^ 64 ∧
        t.mem = s.mem ∧ t.fab = s.fab ∧ t.kv = s.kv ∧ t.power = s.power)) ∧
    (s.meter.degraded = false → ∀ c, (c = .meterStuck ∨ c = .meterSelfCheck false) → completes c s (fun t =>
      t.meter = { s.meter with degraded := true } ∧ t.cnt = Tab.upd 0 s.cnt cMeterFail (countUp cMeterFail 1) ∧
      { t with meter := s.meter, cnt := s.cnt, out := s.out } = s)) ∧
    (s.meter.degraded = true → endsIn .meterStuck s s ∧ endsIn (.meterSelfCheck false) s s) ∧
    endsIn (.meterSelfCheck true) s s ∧
    (s.isReady rPmc = true → s.meter.degraded = false →
      endsIn .modelRefit s { s with meter := { s.meter with refits := s.meter.refits + 1 } })

/-- The point in force is at most the requested point and the phase ceiling, OP0 in the critical state and under PWRBRK#, at most
OP3 with two untrusted phases or more than 8 sensors excluded, one lower while a sensor is at 105 °C; LIMITER is 0 exactly when
the requested point stands; the three budgets share the smaller of cap and 258 W less the uncore power exactly; SEQ counts the
update. A part whose PMC does not run makes none. (R400, R417, R419, R421, R433, R436) -/
def Obligations.OperatingPointUpdate : Prop :=
  ∀ (m : PmcSample) (s : State),
    (s.isReady rPmc = true → completes (.pmcUpdate m) s (fun t =>
      t.power.op ≤ s.requested ∧ t.power.op ≤ s.phaseCeiling ∧
      (s.thermal.critical = true ∨ s.power.pwrbrk = true → t.power.op = 0) ∧
      (2 ≤ s.untrusted ∨ 8 < s.thermal.excluded.length → t.power.op ≤ 3) ∧
      (s.thermal.throttle = true → (∃ e ∈ s.included, 840 ≤ e.2) → t.power.op ≤ s.power.op - 1) ∧
      (t.caps.limiter = 0 ↔ t.power.op = s.requested) ∧
      (s.thermal.critical = true → t.caps.gate = 12) ∧
      t.caps.budLinks + (budgets s m).getD 1 0 + t.caps.budComp = min s.capMw 258000 - m.uncore ∧
      t.thermal.seq = s.thermal.seq + 1#32 ∧ t.thermal.tUpdate = s.ftNow ∧
      { t with power := s.power, caps := s.caps, thermal := s.thermal, cnt := s.cnt } = s)) ∧
    (s.isReady rPmc = false → endsIn (.pmcUpdate m) s s)

/-- Readings are taken and an implausible sensor is excluded for good; throttle and critical begin at their thresholds and throttle
ends only after 1 ms at 102 °C or below; the critical state takes OP0 and g = 12; THERMTRIP# stops the clocks; after 1 s in the
critical state every request the part works on and every task ends E_THERMAL. (R429, R432, R433, R434) -/
def Obligations.ThermalThresholds : Prop :=
  ∀ s : State,
    (∀ readings : List Int, readings.length ≤ 96 → completes (.thermalSensorSample readings) s (fun t =>
      (∀ k r, readings[k]? = some r → Tab.find t.thermal.die k = some r ∧ (r < -320 ∨ 1200 < r → k ∈ t.thermal.excluded)) ∧
      (∀ k ∈ s.thermal.excluded, k ∈ t.thermal.excluded) ∧
      ((∃ e ∈ t.included, 840 ≤ e.2) → t.thermal.throttle = true) ∧
      (s.thermal.throttle = true → t.thermal.throttle = false → (∀ e ∈ t.included, e.2 ≤ 816) ∧ 51 ≤ t.thermal.coolFor) ∧
      ((∃ e ∈ t.included, 880 ≤ e.2) ∨ (∃ e ∈ t.judged, 840 ≤ e.2) → t.thermal.critical = true) ∧
      (s.thermal.critical = false → t.thermal.critical = true → t.power.op = 0 ∧ t.caps.gate = 12 ∧ t.thermal.critEnded = false) ∧
      t.mem = s.mem ∧ t.serve = s.serve ∧ t.tasks = s.tasks ∧ t.fab = s.fab ∧ t.pins = s.pins ∧ t.hbm = s.hbm)) ∧
    (∀ k : SensorId, s.thermal.excluded.contains k.val = false → completes (.sensorExclusion k) s (fun t =>
      t.thermal = { s.thermal with excluded := k.val :: s.thermal.excluded } ∧
      t.cnt = Tab.upd 0 s.cnt cSensorFail (countUp cSensorFail 1) ∧ { t with thermal := s.thermal, cnt := s.cnt } = s)) ∧
    (∀ k : SensorId, s.thermal.excluded.contains k.val = true → endsIn (.sensorExclusion k) s s) ∧
    endsIn .thermtrip s { s with pins := { s.pins with thermtrip := true, clocksStopped := true, phasesMid := true },
                                 power := { s.power with amps := 0 } } ∧
    (awake s → s.thermal.critical = true → s.thermal.critEnded = false →
      let u := updThermal (fun x => { x with critEnded := true }) s
      let v := forEach (Tab.keys (u.serve.ctxs.filter (fun e => e.2.work))) (fun i => endRequest i eThermal) u
      endsIn .criticalTimeout s (forEach (Tab.keys v.tasks) (fun n => endTask n eThermal false) v))

/-- Addresses, in-band interrupts, MCTP control messages, the PLDM values, the management controller's limits and the clearing of
ALERT_CAUSE; a reading of an excluded sensor or of none is unavailable; what is malformed is counted; before SEC's ROM is up the
target answers nothing. The MCTP version words, the UUID and the FRU data are constants without a value (log 14). (R9, R27, R412, R448, R449) -/
def Obligations.SidebandRequests : Prop :=
  ∀ s : State,
    (s.side.up = true →
      endsIn .setdasa s { s with side := { s.side with dyn := some (0x30#7 + s.pins.addrSel.setWidth 7) } } ∧
      (∀ a, endsIn (.entdaa a) s { s with side := { s.side with dyn := some a } }) ∧
      endsIn .disec s { s with side := { s.side with ibi := false } } ∧
      endsIn .enec s { s with side := { s.side with ibi := true } } ∧
      (∀ e, endsIn (.mctpControl (.setEid e)) s (emit (.mctp 0 [e]) { s with side := { s.side with eid := e } })) ∧
      endsIn (.mctpControl .getEid) s (emit (.mctp 0 [s.side.eid]) s) ∧
      endsIn (.mctpControl .types) s (emit (.mctp 0 [0x00#8, 0x01#8, 0x05#8, 0x06#8]) s) ∧
      endsIn (.mctpControl .versions) s (emit (.mctp 0 (toLe 4 Config.mctpVersions.toNat)) s) ∧
      endsIn (.mctpControl .uuid) s (emit (.mctp 0 (toLe 16 Config.mctpUuid.toNat)) s) ∧
      endsIn (.pldmRequest .fru) s (emit (.pldmReply Config.fruData) s) ∧
      (∀ k, s.thermal.excluded.contains k.val = true ∨ Tab.find s.thermal.die k.val = none →
        endsIn (.pldmRequest (.die k)) s (emit (.pldmReply []) s)) ∧
      (∀ h, endsIn (.pldmRequest (.stack h)) s (emit (.pldmReply (s.stackReading h.val).toList) s)) ∧
      (∀ (k : Fin 5) v, [s.caps.inputMw, s.caps.powLinks, s.caps.powMem, s.caps.powComp, s.caps.powUncore][k.val]? = some v →
        endsIn (.pldmRequest (.power k)) s (emit (.pldmReply [(v : Int)]) s)) ∧
      (∀ q : Fin 3, let v := limitValues q.val s
        endsIn (.pldmRequest (.limit q)) s (emit (.pldmReply [(v.1 : Int), (v.2.1 : Int), (v.2.2 : Int)]) s)) ∧
      endsIn (.mctpControl .malformed) s (bumpPart cViolMctp s) ∧ endsIn (.pldmRequest .malformed) s (bumpPart cViolMctp s) ∧
      endsIn (.pldmRequest .base) s (emit (.pldmReply [0, 2, 4]) s) ∧
      endsIn (.pldmRequest .readyMap) s (emit (.pldmReply [(s.ready.toNat : Int)]) s) ∧
      (∀ k r, s.thermal.excluded.contains k.val = false → Tab.find s.thermal.die k.val = some r →
        endsIn (.pldmRequest (.die k)) s (emit (.pldmReply [r]) s)) ∧
      (∀ q v, limitOk q.val v = true → completes (.pldmRequest (.setLimit q (some v))) s (fun t =>
        { t with power := s.power, caps := s.caps, thermal := s.thermal, out := s.out } = s ∧
        (limitValues q.val t).2.1 = v ∧ (limitValues q.val t).1 = (limitValues q.val s).1 ∧
        (∀ j, j < 3 → j ≠ q.val → limitValues j t = limitValues j s))) ∧
      (∀ q v, limitOk q.val v = false → endsIn (.pldmRequest (.setLimit q (some v))) s (emit (.pldmReply []) s)) ∧
      (∀ q, endsIn (.pldmRequest (.setLimit q none)) s (let t := setLimit true q.val none s
        emit (.pldmReply [((limitValues q.val t).1 : Int), 0xFFFFFFFF, ((limitValues q.val t).2.2 : Int)]) t)) ∧
      (∀ mask : BitVec 8, completes (.pldmRequest (.clearAlert mask)) s (fun t =>
        { t with power := s.power, out := s.out } = s ∧
        ∀ b, b < 8 → t.power.alert.getLsbD b = (s.power.alert.getLsbD b && (b == 7 || !mask.getLsbD b))))) ∧
    (s.side.up = false → ∀ c, (c = .setdasa ∨ (∃ a, c = .entdaa a) ∨ c = .disec ∨ c = .enec ∨ (∃ r, c = .mctpControl r) ∨
      (∃ r, c = .pldmRequest r)) → endsIn c s s)

/-- EXTEST, CLAMP, HIGHZ, EXTEST_PULSE and EXTEST_TRAIN take the pins only while PERST# is asserted, and otherwise act as BYPASS,
leave the pins and are counted; PERST# deasserted while one holds them returns the pins and loads IDCODE. BYPASS, TRST#,
SAMPLE/PRELOAD and IDCODE leave the pins to the functional logic; IDCODE shifts out the identification register. (R452) -/
def Obligations.TestAccessPort : Prop :=
  ∀ s : State,
    (∀ e ∈ [(Instr.extest, Jtag.extest), (.clamp, .clamp), (.highz, .highz), (.extestPulse, .extestPulse),
        (.extestTrain, .extestTrain)],
      (s.pins.perst = true → endsIn e.1 s { s with side := { s.side with ir := e.2, pins := true } }) ∧
      (s.pins.perst = false → completes e.1 s (fun t => t.side = { s.side with ir := .bypass, pins := false } ∧
        t.cnt = Tab.upd 0 s.cnt cViolJtagMode (countUp cViolJtagMode 1) ∧ { t with side := s.side, cnt := s.cnt } = s))) ∧
    endsIn .bypass s { s with side := { s.side with ir := .bypass, pins := false } } ∧
    endsIn .trst s { s with side := { s.side with ir := .idcode, pins := false } } ∧
    (∀ levels, endsIn (.samplePreload levels) s
      { s with side := { s.side with ir := .sample, pins := false, boundary := levels } }) ∧
    (∃ v : BitVec 32, v.getLsbD 0 = true ∧ v.toNat / 2 ^ 28 = 1 ∧ v.toNat / 2 ^ 12 % 2 ^ 16 = 0x6400 ∧
      endsIn .idcode s (emit (.jtag v) { s with side := { s.side with ir := .idcode, pins := false } })) ∧
    (s.pins.perst = true → s.side.pins = true → ∀ a : BitVec 2, completes (.perstDeassert a) s (fun t =>
      t.side = { s.side with ir := .idcode, pins := false } ∧ t.pins = { s.pins with perst := false, addrSel := a } ∧
      { t with side := s.side, pins := s.pins, ft := s.ft } = s))

/-- The loss of the 25 MHz reference holds the loops and is counted and reported; its return trims them again. The loss of the
fabric reference takes the ports that are up down to train again, in the first second from HOLD, and stops fabric time; its return makes a locked part that is no time master
regain its lock. (R18, R362, R446) -/
def Obligations.ReferenceLoss : Prop :=
  ∀ s : State,
    (s.pins.refSys = true → endsIn .sysclk25mLoss s
      (pldmEvent cRefclkLoss 0 (bumpPart cRefclkLoss { s with pins := { s.pins with refSys := false, loopsHeld := true } }))) ∧
    (s.pins.refSys = false → endsIn .sysclk25mLoss s s) ∧
    endsIn .sysclk25mReturn s { s with pins := { s.pins with refSys := true, loopsHeld := false } } ∧
    (awake s → completes .fabRefclkLoss s (fun t => t.pins = { s.pins with refFab := false } ∧ t.ft = s.ft ∧
      (∀ p, p < 8 → ((s.port p).st = .up → (t.port p).st = (if s.fab.freePacing then .training else .hold) ∧ (t.port p).stage = .detect ∧
          (t.port p).linkDown = true) ∧
        ((s.port p).st ≠ .up → t.port p = s.port p)) ∧ { t with pins := s.pins, fab := s.fab } = s)) ∧
    (awake s → s.pins.refFab = true → endsIn .fabRefclkReturn s s) ∧
    (awake s → s.pins.refFab = false → completes .fabRefclkReturn s (fun t => t.pins = { s.pins with refFab := true } ∧
      t.ft.count = s.ft.count ∧
      (s.ft.master = false → s.ft.everLocked = true → t.ft.locked = false ∧ t.ft.holdover = true ∧ t.isReady rFtLock = false) ∧
      (s.ft.master = true ∨ s.ft.everLocked = false → t.ft = s.ft ∧ t.ready = s.ready)))

/-- Ordered sets, stages, failed attempts and retries move the port as stated; a held port ignores and counts TS1 unless it listens
and a slot is free; a port wired to the part itself is found out. Before the first second has ended, giving out free slots keeps
at most four ports in training. (R29, R353, R354, R355, R356, R358, R359) -/
def Obligations.PortTraining : Prop :=
  (∀ (p : PortId) (s : State), awake s → s.allots p.val = true → s.pins.refFab = true →
    let x := s.port p.val
    (∀ sets, x.st = .hold → (x.listens = false ∨ s.slotFree = false) → endsIn (.ts1 p sets) s (bumpPart cViolFabHold s)) ∧
    (∀ sets, x.st = .hold → x.listens = true → s.slotFree = true → endsIn (.ts1 p sets) s (takeTs1 p.val sets (startAttempt p.val s))) ∧
    (∀ sets, x.st = .training → x.stage = .detect ∨ x.stage = .lock → endsIn (.ts1 p sets) s (takeTs1 p.val sets s)) ∧
    (∀ sets, x.st ≠ .hold → ¬ (x.st = .training ∧ (x.stage = .detect ∨ x.stage = .lock)) → endsIn (.ts1 p sets) s s) ∧
    (∀ k o, x.st = .training → x.stage = .detect ∨ x.stage = .lock → s.ownNonce o.nonce = false → endsIn (.ts1 p [(k, o)]) s
      (bumpPartBy cViolLinkWiring 0 (updPort p.val (fun x => { learnPartner o x with
        laneOk := BitVec.ofNat 8 (2 ^ k.val), reversed := o.lane.toNat != k.val }) s))) ∧
    (∀ k o, x.st = .training → x.stage = .detect ∨ x.stage = .lock → s.ownNonce o.nonce = true → endsIn (.ts1 p [(k, o)]) s
      (selfWired p.val s)) ∧
    (∀ o : OrdSet, x.st = .training → x.stage = .identify → x.attempt = 1 → (s.fab.valid && o.addrValid) = false → o.nonce = x.nonce →
      completes (.ts2 p o) s (fun t => (t.port p.val).nonce = freeWord 64 s ∧ t.free = s.free + 1)) ∧
    (∀ o : OrdSet, x.st = .training → x.stage = .identify → x.attempt = 1 → (s.fab.valid && o.addrValid) = true →
      o.addr.toNat ≤ s.fab.addr → o.target.toNat ≠ 0 → (lanesFor (modeWidth o.target.toNat) ({ learnPartner o x with partnerOk := o.laneOk }).bothOk).isSome = true →
      completes (.ts2 p o) s (fun t => (t.port p.val).leader = false ∧ (t.port p.val).mode = o.target.toNat ∧ (t.port p.val).accepted = true)) ∧
    (∀ o : OrdSet, x.st = .training ∨ x.st = .retrain → x.stage = .identify ∨ x.stage = .equalize →
      x.stage = .equalize ∨ (s.fab.valid && o.addrValid) = true ∨ o.nonce ≠ x.nonce →
      let lead := if x.attempt ≠ 1 then x.leader
        else if s.fab.valid && o.addrValid then decide (s.fab.addr < o.addr.toNat) else decide (x.nonce.toNat < o.nonce.toNat)
      let t := updPort p.val (fun x => { learnPartner o x with partnerOk := o.laneOk, leader := lead }) s
      let y := t.port p.val
      (lead = true → endsIn (.ts2 p o) s (if x.stage = .identify ∨ y.lanes &&& y.bothOk ≠ y.lanes then leadMode p.val t else t)) ∧
      (lead = false → o.target = 0 ∨ lanesFor (modeWidth o.target.toNat) y.bothOk = none → endsIn (.ts2 p o) s t) ∧
      (∀ l, lead = false → o.target ≠ 0 → lanesFor (modeWidth o.target.toNat) y.bothOk = some l → endsIn (.ts2 p o) s
        (sendSet p.val 5 0 o.target.toNat (updPort p.val (fun x => { x with mode := o.target.toNat, lanes := l, accepted := true }) t)))) ∧
    (∀ o, ¬ ((x.st = .training ∨ x.st = .retrain) ∧ (x.stage = .identify ∨ x.stage = .equalize)) → endsIn (.ts2 p o) s s) ∧
    (∀ o, x.st = .training → endsIn (.hold p o) s (startPorts (some p.val) (sendSet p.val 3 0 0 (updPort p.val (fun x => { x with
      st := .hold, listens := true, attempt := 0, accepted := false }) s)))) ∧
    (∀ o, x.leader = true → x.st = .training ∨ x.st = .retrain → o.target.toNat = x.mode →
      endsIn (.accept p o) s (updPort p.val (fun x => { x with accepted := true }) s)) ∧
    (∀ o, x.st ≠ .training → endsIn (.hold p o) s s) ∧
    (∀ o, x.leader = false ∨ (x.st ≠ .training ∧ x.st ≠ .retrain) ∨ o.target.toNat ≠ x.mode → endsIn (.accept p o) s s) ∧
    (∀ pass delay, x.st = .training → x.stage = .detect →
      endsIn (.trainingStageDone p pass delay) s (updPort p.val (fun x => { x with stage := .lock }) s)) ∧
    (∀ pass delay, x.st = .training → x.stage = .lock →
      endsIn (.trainingStageDone p pass delay) s (if x.laneOk &&& pass = 0 then s else
        sendSet p.val 2 0 0 (updPort p.val (fun x => { x with stage := .identify })
          (updPort p.val (fun x => { x with laneOk := x.laneOk &&& pass }) s)))) ∧
    (∀ pass delay, x.st = .training → (x.stage = .identify ∨ x.stage = .equalize) → x.accepted = false →
      endsIn (.trainingStageDone p pass delay) s s) ∧
    (∀ pass delay, x.st = .training → x.stage = .equalize → x.accepted = true → x.lanes &&& (x.laneOk &&& pass) ≠ x.lanes →
      endsIn (.trainingStageDone p pass delay) s (
        let t := updPort p.val (fun x => { x with laneOk := x.laneOk &&& pass }) s
        if x.leader then leadMode p.val t else sendSet p.val 2 0 0 (updPort p.val (fun x => { x with accepted := false }) t))) ∧
    (∀ pass delay, x.st = .training ∨ x.st = .retrain → x.stage = .linkInit ∨ (x.stage = .deskew ∧ x.attempt = 3) → x.deferred ≠ some 1 →
      endsIn (.trainingStageDone p pass delay) s (portUp p.val (if x.stage = .linkInit then s
        else updPort p.val (fun x => { x with pathDelay := delay }) s))) ∧
    (∀ pass delay, x.st ≠ .training → x.st ≠ .retrain → endsIn (.trainingStageDone p pass delay) s s ∧
      endsIn (.trainingStageTimeout p) s s) ∧
    (∀ pass delay, x.st = .training → x.stage = .identify → x.accepted = true →
      endsIn (.trainingStageDone p pass delay) s (updPort p.val (fun x => { x with stage := .equalize }) s)) ∧
    (∀ pass delay, x.st = .training → x.stage = .equalize → x.accepted = true → x.lanes &&& (x.laneOk &&& pass) = x.lanes →
      completes (.trainingStageDone p pass delay) s (fun t => t.port p.val = { x with laneOk := x.laneOk &&& pass, stage := .deskew })) ∧
    (∀ pass delay, x.st = .training → x.stage = .deskew → x.attempt ≠ 3 →
      completes (.trainingStageDone p pass delay) s (fun t => t.port p.val = { x with pathDelay := delay, stage := .linkInit })) ∧
    (x.st = .training → endsIn (.trainingStageTimeout p) s (failAttempt p.val s)) ∧
    (x.st = .retrain → endsIn (.trainingStageTimeout p) s (requestAction p.val 1 0 0 x.cause s)) ∧
    (x.st ≠ .down ∨ x.selfWired = true → endsIn (.trainingRetry p) s s) ∧
    (x.st = .down → x.selfWired = false → s.slotFree = true → endsIn (.trainingRetry p) s (startAttempt p.val s)) ∧
    (x.st = .down → x.selfWired = false → s.slotFree = false → endsIn (.trainingRetry p) s
      (sendSet p.val 3 0 0 (updPort p.val (fun x => { x with st := .hold }) s))) ∧
    endsIn .firstSecondEnd s (startPorts none { s with fab := { s.fab with freePacing := true } })) ∧
  (∀ (skip : Option Nat) (s : State), s.fab.freePacing = false →
    (s.fab.ports.filter (fun e => e.2.st = .training)).length ≤ 4 →
    ((startPorts skip s).fab.ports.filter (fun e => e.2.st = .training)).length ≤ 4 ∧ (startPorts skip s).fab.freePacing = false ∧
      (∀ p, (∀ e ∈ s.fab.ports, e.1 = p → e.2.st ≠ .hold) → (startPorts skip s).port p = s.port p))

/-- What an UP port does when a lane loses lock, at more than 16 uncorrectable codewords, at eight resends, at the leader after 600 s
below its mode, and on its partner's request, which a leader that retrains itself counts as a race and a follower then follows; a
port that 5 ms after link-down is not UP is DOWN, with its credits counted and its queued frames handed back. In every other
state of the port each leaves the state. The model's choice (log 33): a request for another mode after 600 s carries cause 0.
(R352, R360, R361, R362) -/
def Obligations.LinkRecovery : Prop :=
  ∀ (p : PortId) (s : State), awake s → s.allots p.val = true →
    let x := s.port p.val
    (∀ lane : Fin 8, x.st = .up → x.lanes.getLsbD lane.val = false → endsIn (.laneLockLost p lane) s
      (updPort p.val (fun x => { x with laneOk := x.laneOk &&& ~~~ BitVec.ofNat 8 (2 ^ lane.val) }) s)) ∧
    (∀ lane : Fin 8, x.st = .up → x.lanes.getLsbD lane.val = true → endsIn (.laneLockLost p lane) s
      (narrow p.val (updPort p.val (fun x => { x with laneOk := x.laneOk &&& ~~~ BitVec.ofNat 8 (2 ^ lane.val) }) s))) ∧
    (∀ n, x.st = .up → endsIn (.fecBurst p n) s (if 16 < n then requestAction p.val 2 x.mode x.lanes 2 s else s)) ∧
    (x.st = .up → endsIn (.replayLimit p) s
      (if x.replay.any (fun e => decide (8 ≤ e.2)) then requestAction p.val 2 x.mode x.lanes 3 s else s)) ∧
    (x.st = .up → x.leader = true → x.mode < x.allotted s.settings.linkNrz → completes (.lowModeTimer p) s (fun t =>
      (t.port p.val).st = .retrain ∧ (t.port p.val).attempt = 2 ∧ (t.port p.val).mode = x.allotted s.settings.linkNrz)) ∧
    (x.st ≠ .up ∨ x.leader = false ∨ x.allotted s.settings.linkNrz ≤ x.mode → endsIn (.lowModeTimer p) s s) ∧
    (x.st ≠ .up → (∀ lane, endsIn (.laneLockLost p lane) s s) ∧ (∀ n, endsIn (.fecBurst p n) s s) ∧ endsIn (.replayLimit p) s s) ∧
    (∀ request target cause, (x.st = .up ∨ (x.st = .retrain ∧ x.request ≠ 0)) → request = 0 ∨ 3 < request ∨ 6 < target →
      endsIn (.linkReq p request target cause) s s) ∧
    (∀ request target cause, ¬ (x.st = .up ∨ (x.st = .retrain ∧ x.request ≠ 0)) → endsIn (.linkReq p request target cause) s s) ∧
    (∀ request target cause, x.st = .up ∨ (x.st = .retrain ∧ x.request ≠ 0) → 0 < request → request ≤ 3 → target ≤ 6 →
      endsIn (.linkReq p request target cause) s (updPort p.val (fun x => { x with reqCause := cause }) s)) ∧
    (∀ o, x.st = .up → o.request ≠ 0 → endsIn (.req p o) s (followReq p.val o s)) ∧
    (∀ o, x.st = .retrain → o.request ≠ 0 → x.request ≠ 0 → x.leader = true → endsIn (.req p o) s (bumpPart cViolLinkRace s)) ∧
    (∀ o, x.st = .retrain → o.request ≠ 0 → x.request ≠ 0 → x.leader = false → endsIn (.req p o) s
      (followReq p.val o (updPort p.val (fun x => { x with request := 0, deferred := some x.cause }) (bumpPart cViolLinkRace s)))) ∧
    (∀ o, o.request = 0 ∨ (x.st ≠ .up ∧ x.st ≠ .retrain) ∨ (x.st = .retrain ∧ x.request = 0) → endsIn (.req p o) s s) ∧
    (x.linkDown = true → x.st ≠ .up →
      let t := bumpPartBy cLinkCreditReclaim (Tab.vals x.used).sum (bumpPart cLinkDown (updPort p.val (fun x => { x with
        st := .down, attempt := 0, linkDown := false, keyed := false, replay := [], used := [], owed := [], partial_ := [],
        mode := 0, lanes := 0, request := 0, accepted := false }) s))
      endsIn (.linkDownTimeout p) s (startPorts none (renew (portEvent p.val 0 0 (handBack p.val t))))) ∧
    (x.st = .up ∨ x.linkDown = false → endsIn (.linkDownTimeout p) s s)

/-- A bad frame and one out of order are discarded with a NAK, a frame received before is discarded, a frame without payload only
acknowledges; the next frame in order, where a key in force opens it or, before keys, on VC 0, takes its SEQ, acknowledgement and
payload and is acknowledged, and otherwise is discarded with a NAK; on a port with a level clash only VC 0 is delivered. A gap in MSEQ that lasts
is skipped. (R348, R349, R350, R351, R387) -/
def Obligations.FramesAndOrder : Prop :=
  ∀ (p : PortId) (s : State), awake s →
    let x := s.port p.val
    let sat := fun v => min (2 ^ 32 - 1) v
    let u := fun corr uncorr => updPort p.val (fun x => { x with fecCorr := sat (x.fecCorr + corr), fecUncorr := sat (x.fecUncorr + uncorr) }) s
    (s.allots p.val = false ∨ x.st ≠ .up →
      ∀ seq ack vc nak ph cv c pl corr uncorr ok, endsIn (.frame p seq ack vc nak ph cv c pl corr uncorr ok) s s) ∧
    (s.allots p.val = true → x.st = .up →
      (∀ seq ack vc nak ph cv c pl corr uncorr ok, uncorr ≠ 0 ∨ ok = false →
        endsIn (.frame p seq ack vc nak ph cv c pl corr uncorr ok) s (sendAck p.val true (u corr uncorr))) ∧
      (∀ seq ack vc nak ph cv c corr, endsIn (.frame p seq ack vc nak ph cv c [] corr 0 true) s
        (flushPort p.val (takeAck p.val ack nak cv c (u corr 0)))) ∧
      (∀ seq ack vc nak ph cv c pl corr, pl ≠ [] → 32768 ≤ (seq - (x.seqRx + 1)).toNat →
        endsIn (.frame p seq ack vc nak ph cv c pl corr 0 true) s (u corr 0)) ∧
      (∀ seq ack vc nak ph cv c pl corr, pl ≠ [] → seq ≠ x.seqRx + 1 → (seq - (x.seqRx + 1)).toNat < 32768 →
        endsIn (.frame p seq ack vc nak ph cv c pl corr 0 true) s (sendAck p.val true (u corr 0))) ∧
      (∀ ack (vc : Fin 8) nak ph cv c pl corr, pl ≠ [] →
        let opens := if x.keyed then ph = x.phaseRx.getLsbD 0 ∨ x.keyRxOld.isSome = true else vc = 0
        let t := takeAck p.val ack nak cv c (updPort p.val (fun y => { y with
          seqRx := x.seqRx + 1, keyRxOld := if ph = y.phaseRx.getLsbD 0 then none else y.keyRxOld }) (u corr 0))
        (opens → endsIn (.frame p (x.seqRx + 1) ack vc nak ph cv c pl corr 0 true) s (flushPort p.val (sendAck p.val false
          (if vc ≠ 0 ∧ x.levelBad = true then oweCredits p.val vc.val 1 t else rxPayload p.val vc.val pl t)))) ∧
        (¬ opens → endsIn (.frame p (x.seqRx + 1) ack vc nak ph cv c pl corr 0 true) s (sendAck p.val true (u corr 0)))) ∧
      (∀ ack nak ph cv c pl corr, pl ≠ [] → x.keyed = false →
        let t := takeAck p.val ack nak cv c (updPort p.val (fun y => { y with
          seqRx := x.seqRx + 1, keyRxOld := if ph = y.phaseRx.getLsbD 0 then none else y.keyRxOld }) (u corr 0))
        endsIn (.frame p (x.seqRx + 1) ack 0 nak ph cv c pl corr 0 true) s
          (flushPort p.val (sendAck p.val false (rxLink p.val pl (oweCredits p.val 0 1 t)))))) ∧
    (∀ src cls, (s.msgOrder (orderKey cls src.toNat)).held.isEmpty = false →
      endsIn (.mseqGapTimeout src cls) s (skipGap (orderKey cls src.toNat) s)) ∧
    (∀ src cls, (s.msgOrder (orderKey cls src.toNat)).held.isEmpty = true → endsIn (.mseqGapTimeout src cls) s s)

/-- A record from an UP keyed port whose level agrees is stored and passed on where it is newer, and counted where it is malformed;
a refresh sends the part's own with the next SEQ; an age-out marks a record; a hold that expires frees the address of a record
that is aged or gone. A settle computes the routes and ends what the parts no longer reached had in hand. A message is forwarded
on its hop and counted, rerouted where that port is not UP, counted where it has no hop left; a message at the head of a VC that
has no credit is dropped and counted, but never on VC 0 and VC 7. (R370, R371, R372, R374, R385, R386) -/
def Obligations.RecordsAndForwarding : Prop :=
  ∀ s : State, awake s →
    (∀ (p : PortId) body,
      let x := s.port p.val
      let takes := s.isReady rFw = true ∧ x.st = .up ∧ x.keyed = true ∧ x.levelBad = false
      (¬ takes → endsIn (.linkStateRecord p body) s s) ∧
      (takes → lsRecord body = none → endsIn (.linkStateRecord p body) s (bumpPart cViolFabMsg s)) ∧
      (takes → ∀ r, lsRecord body = some r →
        (r.id = Config.partId ∨ (∃ y, s.recordOf r.id = some y ∧ r.seq.toNat ≤ y.seq.toNat) → endsIn (.linkStateRecord p body) s s) ∧
        (r.id ≠ Config.partId → (∀ y, s.recordOf r.id = some y → y.seq.toNat < r.seq.toNat) →
          (∀ q, (storeRecord r s).clashes q r = false ∨ (storeRecord r s).levelClash q = true) →
          endsIn (.linkStateRecord p body) s (sendRecord r (some p.val) (bumpPartBy cViolFabLevel 0 (storeRecord r s)))) ∧
        (r.id ≠ Config.partId → (∀ y, s.recordOf r.id = some y → y.seq.toNat < r.seq.toNat) →
          completes (.linkStateRecord p body) s (fun t => t.recordOf r.id = some r)))) ∧
    (s.isReady rFw = false → endsIn .recordRefreshDue s s ∧ endsIn .settle s s) ∧
    (s.isReady rFw = true →
      let r := s.ownRecord (s.fab.seq + 1)
      endsIn .recordRefreshDue s (sendRecord r none (storeRecord r { s with fab := { s.fab with seq := s.fab.seq + 1 } })) ∧
      let t := if (s.recordOf Config.partId).isSome then s else storeRecord (s.ownRecord s.fab.seq) s
      endsIn .settle s (repairsLost (loadsLost (shipsLost (renew (settle t)))))) ∧
    endsIn (.recordAgeOut Config.partId) s s ∧
    (∀ id, id ≠ Config.partId → completes (.recordAgeOut id) s (fun t => { t with fab := s.fab } = s ∧
      (∀ r ∈ t.fab.db, r.id = id → r.aged = true) ∧ t.fab.db.filter (fun r => r.id ≠ id) = s.fab.db.filter (fun r => r.id ≠ id))) ∧
    (∀ a : BitVec 12,
      (Tab.find s.fab.holds a.toNat = none → endsIn (.addressHoldExpiry a) s s) ∧
      (∀ id, Tab.find s.fab.holds a.toNat = some id →
        (s.recordOf id = none → endsIn (.addressHoldExpiry a) s { s with fab := { s.fab with holds := Tab.erase s.fab.holds a.toNat } }) ∧
        (∀ r, s.recordOf id = some r →
          (r.aged = false → endsIn (.addressHoldExpiry a) s s) ∧
          (r.aged = true → endsIn (.addressHoldExpiry a) s { s with fab := { s.fab with
            holds := Tab.erase s.fab.holds a.toNat, db := s.fab.db.filter (fun r => r.id ≠ id) } })))) ∧
    (s.fab.fwd = [] → endsIn .messageForward s s) ∧
    (∀ p v m r, s.fab.fwd = (p, v, m) :: r →
      let t := updPort p (fun x => { x with owed := Tab.upd 0 x.owed v (· + m.frames) }) { s with fab := { s.fab with fwd := r } }
      let y := t.port (routeHop m.hdr.route m.hdr.hop).2
      (s.fab.valid = false → endsIn .messageForward s t) ∧
      (s.fab.valid = true → m.hdr.hops ≤ m.hdr.hop → endsIn .messageForward s (bumpPart cViolFabMsg t)) ∧
      (s.fab.valid = true → m.hdr.hop < m.hdr.hops → y.st = .up ∨ y.linkDown = true →
        endsIn .messageForward s (sendHop m (bumpPartBy cFabForward m.frames t))) ∧
      (s.fab.valid = true → m.hdr.hop < m.hdr.hops → y.st ≠ .up → y.linkDown = false →
        endsIn .messageForward s (reroute m m.hdr.hop t))) ∧
    (∀ (p : PortId) (vc : Fin 8),
      let q := Tab.get [] (s.port p.val).queues vc.val
      (q = [] ∨ vc = 0 ∨ vc = 7 ∨ (s.port p.val).hasCredit vc.val = true → endsIn (.vcHeadStall p vc) s s) ∧
      (∀ b r, vc ≠ 0 → vc ≠ 7 → q = b :: r → (s.port p.val).hasCredit vc.val = false →
        let left := Tab.get 0 (s.port p.val).txLeft vc.val
        let n := if left = 0 then (rd b 10 2 + 991) / 992 else left
        endsIn (.vcHeadStall p vc) s (bumpPart cFabStallDrop (flushPort p.val (updPort p.val (fun x => { x with
          queues := Tab.put x.queues vc.val ((b :: r).drop n), txLeft := Tab.put x.txLeft vc.val 0 }) s)))))

/-- For every state, every route that a settle computes has from 1 to 16 hops, and once a hop is on the upper VC every later one is.
(R383, R384) -/
def Obligations.RoutesKeepTheirShape : Prop :=
  let shape := fun (l : List (Bool × Nat)) =>
    ∀ i j : Nat, i ≤ j → (∃ q, l[i]? = some (true, q)) → ∀ h, l[j]? = some h → h.1 = true
  (∀ (g : Graph) (me dest : BitVec 64) (n : Nat) l, g.route me 0 n dest = some l → l.length ≤ n ∧ (dest ≠ me → 1 ≤ l.length) ∧ shape l) ∧
  (∀ (s : State) (a : Nat) (r : Route), Tab.find (settle s).fab.routes a = some r →
    1 ≤ r.hops.length ∧ r.hops.length ≤ 16 ∧ shape r.hops)

/-- Decoding the word of a well-formed instruction gives it back with every operand, and every word that decodes is the word of its
instruction, which is well-formed; so no two words mean the same. (R164, R165, R166, R167, R168, R169, R170, R171, R172, R173,
R174, R177) -/
def Obligations.TileWordsRoundTrip : Prop :=
  (∀ x : TileInstr, x.wf = true → decodeTile (encodeTile x) = some x) ∧
    (∀ (w : BitVec 64) (x : TileInstr), decodeTile w = some x → encodeTile x = w ∧ x.wf = true)

/-- A word for a slot enters its queue, its address resolved, while there is room for 32; a control word acts on the core at once:
NOP, LOOP, SETI, INC, SETD and HALT. No other core and nothing else changes. (R158, R169, R177) -/
def Obligations.TileDispatch : Prop :=
  ∀ (k : CoreId) (x : TileInstr) (s : State), atDispatch k x s →
    let c := s.core k.val
    (∀ sl, x.op.slot = some sl → (c.queue sl).length < 32 → completes (.instructionDispatch k) s (fun t =>
      (t.core k.val).queue sl = c.queue sl ++ [c.resolve x] ∧ (∀ j, j ≠ k.val → t.core j = s.core j) ∧
      { t with cores := s.cores } = s)) ∧
    (∀ sl, x.op.slot = some sl → 32 ≤ (c.queue sl).length → endsIn (.instructionDispatch k) s s) ∧
    (x.op = .ctlNop → endsIn (.nop k none) s (updCore k.val Core.advance s)) ∧
    (∀ n b, x.op = .loop n b → completes (.loop k) s (fun t =>
      t.core k.val = { c with pc := c.pc + 1, loops := { first := c.pc + 1, last := c.pc + 1 + b.toNat, left := n.toNat } :: c.loops } ∧
      (∀ j, j ≠ k.val → t.core j = s.core j) ∧ { t with cores := s.cores } = s)) ∧
    (∀ r v, x.op = .seti r v → completes (.seti k) s (fun t =>
      Tab.get 0#32 (t.core k.val).ix r.toNat = v ∧ (∀ i, i ≠ r.toNat → Tab.get 0#32 (t.core k.val).ix i = Tab.get 0#32 c.ix i) ∧
      (∀ j, j ≠ k.val → t.core j = s.core j) ∧ { t with cores := s.cores } = s)) ∧
    (∀ r v, x.op = .inc r v → completes (.inc k) s (fun t =>
      Tab.get 0#32 (t.core k.val).ix r.toNat = Tab.get 0#32 c.ix r.toNat + v ∧
      (∀ i, i ≠ r.toNat → Tab.get 0#32 (t.core k.val).ix i = Tab.get 0#32 c.ix i) ∧
      (∀ j, j ≠ k.val → t.core j = s.core j) ∧ { t with cores := s.cores } = s)) ∧
    (∀ f, x.op = .setd f → completes (.setd k) s (fun t =>
      Tab.get {} (t.core k.val).vd f.vd.toNat =
        ⟨f.kind, f.fmt, sgn 32 (c.effective f.base.toNat f.ix.toNat), f.stride.toInt, f.auto⟩ ∧
      (∀ j, j ≠ k.val → t.core j = s.core j) ∧ { t with cores := s.cores } = s)) ∧
    (x.op = .halt → completes (.halt k) s (fun t => t.core k.val = { c with halted := true } ∧ (t.core k.val).next = none ∧
      (∀ j, j ≠ k.val → t.core j = s.core j) ∧ { t with cores := s.cores } = s))

/-- Of each of the 19 vector forms: one against the form its operation states retires counted in VIOL_TILE_FIELD, and so does an
operand no format of the operation reads; one outside the data region retires counted in VIOL_TILE_BOUNDS; it waits for an operand
that is not ready and for a place that an instruction in flight still writes; otherwise it leaves the queue with its results still to be
written, those that the rules give the operation. Reciprocals, exponential, sine and cosine have the stated special cases, and
elsewhere are the nearest FP32 value or lie within the stated number of ulp of the exact one. Which value within the bound it is,
the cases of a minimum that IEEE 754 leaves open, whether a difference or a product is rounded first, and the functions of an
infinity or of −0 that no rule gives are free values (log 35). (R149, R150, R151, R152, R153, R160, R171) -/
def Obligations.VectorIssue : Prop :=
  (expOf 0xFF800000#32 = 0 ∧ rcpOf 0#32 = 0x7F800000#32 ∧ rcpOf 0x80000000#32 = 0xFF800000#32 ∧ rsqOf 0#32 = 0x7F800000#32 ∧
    ∀ (a : BitVec 32) (s : Bool) (m : Nat) (e : Int), num32 a = .fin s m e →
      let near := fun (n : Nat) (r : BitVec 32) (v : Machine.Num) => r = (code32 false v).1 ∨
        ∃ s m e, v = .fin s m e ∧ m ≠ 0 ∧ (code32 false v).2 = false ∧ withinUlp n s m e (num32 r) = true
      ((code32 false (expNum s m e)).2 = true → expOf a = 0x7F800000#32) ∧ near 2 (expOf a) (expNum s m e) ∧
      (m ≠ 0 → near 1 (rcpOf a) (rcpNum s m e)) ∧
      (m ≠ 0 → if s then rsqOf a = nan32 else near 1 (rsqOf a) (rsqNum m e)) ∧
      near 2 (sinOf 0 a) (sinNum 0 s m e) ∧ near 2 (sinOf 1 a) (sinNum 1 s m e)) ∧
  (∀ (k : CoreId) (q : Queued) (x : VecFields) (s : State), atFront k .vec q s →
    let c := s.core k.val
    let retires := fun (i : Instr) (v : Nat) => endsIn i s (finishInstr k.val q.instr (tileViol k.val v (popIssued k.val .vec q s)))
    let cycles := fun (rows : Rows) => (List.range x.count).map (fun j =>
      slateUnits ((rows.filter (fun e => min e.2 (x.count - 1) == j)).map (fun e => (e.1.locs e.2).getD [])).flatten)
    let elem := fun (i : Instr) (op : VecOp) (n : Nat) (f : VecFields → BitVec 32 → BitVec 32 → BitVec 32 → BitVec 32 × Bool) =>
      (i, op, elemSrcs n x q, elemDsts x q, elemForm n x q, elemCompute n f c x q)
    ∀ e ∈ ([elem (.vadd k) .vadd 2 (fun _ a b _ => code32 false ((num32 a).add (num32 b))),
        elem (.vsub k) .vsub 2 (fun _ a b _ => code32 false ((num32 a).add (num32 b).neg)),
        elem (.vmul k) .vmul 2 (fun _ a b _ => code32 false ((num32 a).mul (num32 b))),
        elem (.vfma k) .vfma 3 (fun _ a b c => code32 false (((num32 a).mul (num32 b)).add (num32 c))),
        elem (.vmin k) .vmin 2 (fun _ a b _ => (minOf a b, false)), elem (.vmax k) .vmax 2 (fun _ a b _ => (maxOf a b, false)),
        elem (.vcmp k) .vcmp 2 (fun x a b _ => (if compareOf x.mod.toNat (num32 a) (num32 b) then 0x3F800000#32 else 0, false)),
        elem (.vsel k) .vsel 3 (fun _ a b c => (if (num32 c).isZero then b else a, false)),
        elem (.vexp k) .vexp 1 (fun _ a _ _ => (expOf a, overflowed a (expOf a))),
        elem (.vrcp k) .vrcp 1 (fun _ a _ _ => (rcpOf a, !(num32 a).isZero && overflowed a (rcpOf a))),
        elem (.vrsq k) .vrsq 1 (fun _ a _ _ => (rsqOf a, false))] ++
        [elem (.vsin k) .vsin 1 (fun _ a _ _ => (sinOf 0 a, false)), elem (.vcos k) .vcos 1 (fun _ a _ _ => (sinOf 1 a, false)),
        (.vcvt k, .vcvt, rowsOf q.a x.count, rowsOf q.d x.count, true, cvtRows c x q),
        (.vmaxr k, .vmaxr, rowsOf q.a x.count ++ row0 q.b, row0 q.d, q.d.computes && q.a.computes && q.b.computes, maxRow c x q),
        (.vexps k, .vexps, rowsOf q.a x.count ++ row0 q.b ++ row0 q.c, rowsOf q.d x.count ++ row0 q.c,
          q.d.computes && q.a.computes && q.b.computes && q.c.computes, expRows c x q),
        (.vresc k, .vresc, rowsOf q.a x.count ++ row0 q.b ++ row0 q.c, rowsOf q.d x.count,
          q.d.computes && q.a.computes && q.b.computes && q.c.computes, rescaleRows c x q),
        (.vtopk k, .vtopk, rowsOf q.a x.count, rowsOf q.d 2, q.a.fmt == .fp32 && q.d.fmt == .fp32 && q.a.kind != 3#2, topRows c x q),
        (.vrot k, .vrot, rowsOf q.a x.count ++ rowsOf q.b ((bits x.mod 2 2 + 2) / 2), rowsOf q.d x.count,
          q.d.computes && q.a.computes && q.b.computes && x.count % (bits x.mod 2 2 + 1) == 0, rotRows c x q)] :
          List (Instr × VecOp × Rows × Rows × Bool × List Write × BitVec 5)),
      let (i, op, srcs, dsts, form, writes, flags) := e
      let state := OpState.all (srcs.map (fun e => c.source e.1 e.2) ++ dsts.map (fun e => c.dest e.1 e.2))
      let waits := c.hazard (op.scalars x ++ ((srcs ++ dsts).map (fun e => (e.1.locs e.2).getD [])).flatten)
      q.instr.op = .vec op x →
      (form = false → retires i cViolTileField) ∧ (form = true → state = .field → retires i cViolTileField) ∧
      (form = true → state = .bounds → retires i cViolTileBounds) ∧
      (form = true → state = .waits ∨ state = .ready ∧ waits = true → endsIn i s s) ∧
      (form = true → state = .ready → waits = false → endsIn i s (goesOn k.val .vec q
        (writes ++ (if flags = 0 then [] else [.flag flags]) ++ presenceOf writes) 0 (cycles (srcs ++ dsts)) s s)))

/-- SPAN.MM accepts exactly the listed pairs of formats and any other retires without effect, counted. NOP, LOADB, MM, DRAIN, SLD,
DMA.GO, SYNC.WAIT, SYNC.ADD, SYNC.TAS, VREL, VSETS, VMOVR and VFCLR do what the rules say where their conditions hold; SYNC.TAS
waits where the counter is not 0 or does not take the task's tag. (R142) -/
def Obligations.SpanTransferSync : Prop :=
  ((∀ a b : Fmt, pairOk a b = true ↔ (a = .int8 ∧ b = .int8) ∨ (a = .int4 ∧ b = .int4) ∨
    (a ∈ [Fmt.mxint8, .e4m3, .e5m2, .e3m2] ∧ b ∈ [Fmt.mxint8, .e4m3, .e5m2, .e3m2]) ∨ (a = .e2m1 ∧ b = .e2m1) ∨
    (a ∈ [Fmt.bf16, .fp16] ∧ b ∈ [Fmt.bf16, .fp16])) ∧
  (∀ a b : Fmt, pairOk a b = true → a.bits = 6 ∨ b.bits = 6 → geometry a = (64, 64)) ∧
  (∀ (k : CoreId) (q : Queued) (x : MmFields) (s : State), atFront k .span q s → q.instr.op = .mm x → pairOk x.fmtA x.fmtB = false →
    endsIn (.spanMm k) s (finishInstr k.val q.instr (tileViol k.val cViolSpanFormat (popIssued k.val .span q s))))) ∧
  (∀ (k : CoreId) (q : Queued) (s : State),
    let c := s.core k.val
    (∀ sl, atFront k sl q s → q.instr.op = .nop sl → endsIn (.nop k (some sl)) s (finishInstr k.val q.instr (popIssued k.val sl q s))) ∧
    (∀ rel st bf tl, atFront k .span q s → q.instr.op = .loadb rel st bf tl → c.hasB bf.toNat tl.toNat = true →
      completes (.spanLoadb k) s (fun t => (∀ r, r < 64 → (t.core k.val).setRow st.toNat r = c.bRow bf.toNat (64 * tl.toNat + r) ∧
        (t.core k.val).setSide st.toNat r = c.bSide bf.toNat (64 * tl.toNat + r)) ∧
        (t.core k.val).hasB bf.toNat tl.toNat = !rel ∧ (t.core k.val).qs = c.qs.tail ∧ { t with cores := s.cores } = s)) ∧
    (∀ x : MmFields, atFront k .span q s → q.instr.op = .mm x → pairOk x.fmtA x.fmtB = true → q.addr + x.rowsM1.toNat + 1 ≤ 256 →
      x.d0.toNat + x.rowsM1.toNat + 1 ≤ 64 → c.planeSt x.p.toNat = .free ∨ c.planeSt x.p.toNat = .accumulating →
      c.inflight.any (fun f => f.writes.contains (.planeTo x.p.toNat .full)) = false → (∀ g, g < 16 → c.hasA x.abuf.toNat g = true) →
      (x.first = true ∨ c.planeSt x.p.toNat = .accumulating) →
      completes (.spanMm k) s (fun t => (t.core k.val).planeSt x.p.toNat = .accumulating ∧
        (t.core k.val).isInt x.p.toNat = x.fmtA.isInt ∧ (t.core k.val).qs = c.qs.tail ∧
        (t.core k.val).plane = (c.mmRun x q.addr (x.rowsM1.toNat + 1)).plane ∧ { t with cores := s.cores } = s)) ∧
    (∀ x : DrainFields, atFront k .span q s → q.instr.op = .drain x → c.planeSt x.p.toNat = .full →
      c.inflight.any (fun f => f.writes.contains (.planeTo x.p.toNat .full)) = false → x.fmt.rowUnits ≤ x.pitch.toNat →
      drainOk (c.isInt x.p.toNat) x.fmt x.acc = true →
      completes (.spanDrain k) s (fun t => (t.core k.val).planeSt x.p.toNat = .draining ∧ (t.core k.val).qs = c.qs.tail ∧
        (∃ f, (t.core k.val).inflight = c.inflight ++ [f] ∧
          f.writes = ((List.range 64).map (c.drainWrites x q.addr)).flatten ++ [.planeTo x.p.toNat .free]) ∧
        { t with cores := s.cores, cnt := s.cnt, fcnt := s.fcnt } = s)) ∧
    (∀ x : DrainFields, atFront k .span q s → q.instr.op = .drain x → c.planeSt x.p.toNat ≠ .full →
      c.inflight.any (fun f => f.writes.contains (.planeTo x.p.toNat .full)) = false →
      endsIn (.spanDrain k) s (finishInstr k.val q.instr (tileViol k.val cViolSpanPlane (popIssued k.val .span q s)))) ∧
    (∀ x : SldFields, atFront k .xfer q s → q.instr.op = .sld x →
      (x.sideB = true → x.rowsM1 = 63) → (x.tr = true → x.rowsM1 = 63) → (x.sideB = false → x.dslot.toNat + x.rowsM1.toNat + 1 ≤ 256) →
      (∀ r, r ≤ x.rowsM1.toNat → q.addr + r * x.pitch.toNat < c.dataUnits) →
      ∃ groups, endsIn (.sld k) s (goesOn k.val .xfer q (c.sldWrites x q.addr) 0 groups s s)) ∧
    (∀ (x : GoFields) t p e, atFront k .xfer q s → q.instr.op = .dmaGo x → s.coreTask k.val = some t → t.place = some p →
      p.engine k.val x.engine.toNat = some e → q.addr + x.countM1.toNat + 1 ≤ c.dataUnits →
      (Tab.get {} s.engines e).queue.length + x.countM1.toNat + 1 ≤ 64 →
      let eng := Tab.get {} s.engines e
      let sig := if x.sig then (p.counter x.counter.toNat).map (fun h => (h, s.counterTag t.fn h)) else none
      completes (.dmaGo k) s (fun u => (Tab.get {} u.engines e).queue = eng.queue ++
          (List.range (x.countM1.toNat + 1)).map (fun i => {
            core := k.val, go := q.word + 16384 * c.nextId, desc := c.unit (q.addr + i), sig := sig,
            tag := s.tagOf (agCcc (k.val / 8)) t.fn, grant := eng.grant }) ∧
        (u.core k.val).qx = c.qx.tail ∧ { u with cores := s.cores, engines := s.engines } = s)) ∧
    (∀ eq i v h, atFront k .xfer q s → q.instr.op = .syncWait eq i v → s.boundCounter k.val i.toNat = some h →
      endsIn (.syncWait k) s (let a := (Tab.get {} s.ctrs h).value
        if (if eq then a == v else decide (v.toNat ≤ a.toNat)) then finishInstr k.val q.instr (popIssued k.val .xfer q s) else s)) ∧
    (∀ i v h t, atFront k .xfer q s → q.instr.op = .syncAdd i v → s.boundCounter k.val i.toNat = some h → s.coreTask k.val = some t →
      endsIn (.syncAdd k) s (finishInstr k.val q.instr (popIssued k.val .xfer q (addCounter (s.counterTag t.fn h) h v.toInt s)))) ∧
    (∀ i h x, atFront k .xfer q s → q.instr.op = .syncTas i → s.boundCounter k.val i.toNat = some h → s.coreTask k.val = some x →
      let takes := (Tab.get {} s.ctrs h).value = 0 ∧ s.counterTakes (s.counterTag x.fn h) h = true
      (takes → completes (.syncTas k) s (fun t => (Tab.get {} t.ctrs h).value = 1 ∧
        (∀ j, j ≠ h → Tab.get {} t.ctrs j = Tab.get {} s.ctrs j) ∧
        ∀ (k2 : CoreId) q2 i2, (t.core k2.val).queue .xfer = q2 :: ((t.core k2.val).queue .xfer).tail → q2.instr.op = .syncTas i2 →
          t.boundCounter k2.val i2.toNat = some h → endsIn (.syncTas k2) t t)) ∧
      (¬ takes → endsIn (.syncTas k) s s)) ∧
    (∀ x, atFront k .vec q s → q.instr.op = .vec .vrel x → c.planeSt (bits x.mod 0 1) = .full →
      c.inflight.any (fun f => f.writes.contains (.planeTo (bits x.mod 0 1) .full)) = false →
      c.hazard ((List.range 64).map (fun r => .plane (bits x.mod 0 1) r)) = false →
      endsIn (.vrel k) s (goesOn k.val .vec q [.planeTo (bits x.mod 0 1) .free] 0 [] s s)) ∧
    (∀ r v, atFront k .vec q s → q.instr.op = .vsets r v → c.hazard [.scalar r.toNat] = false →
      endsIn (.vsets k) s (goesOn k.val .vec q [.scalar r.toNat v] 0 [] s s)) ∧
    (∀ r src, atFront k .vec q s → q.instr.op = .vmovr r src → c.hazard [.scalar r.toNat] = false →
      let now := s.ftNow.toNat
      let hi := BitVec.ofNat 32 (now / 2 ^ 32)
      (src = 0 → endsIn (.vmovr k) s (goesOn k.val .vec q [.scalar r.toNat (c.flags.zeroExtend 32)] 0 [] s s)) ∧
      (src = 1 → endsIn (.vmovr k) s (goesOn k.val .vec q [.scalar r.toNat (BitVec.ofNat 32 now)] 0 [] s
        (updCore k.val (fun c => { c with ftLatch := some hi }) s))) ∧
      (src = 2 → endsIn (.vmovr k) s (goesOn k.val .vec q [.scalar r.toNat (c.ftLatch.getD hi)] 0 [] s
        (updCore k.val (fun c => { c with ftLatch := none }) s))) ∧
      (src = 3 → endsIn (.vmovr k) s (goesOn k.val .vec q [.scalar r.toNat (BitVec.ofNat 32 k.val)] 0 [] s s)) ∧
      (src = 4 → endsIn (.vmovr k) s (goesOn k.val .vec q [.scalar r.toNat (BitVec.ofNat 32 c.localIdx)] 0 [] s s))) ∧
    (∀ x, atFront k .vec q s → q.instr.op = .vec .vfclr x → completes (.vfclr k) s (fun t =>
      (∀ b, b < 5 → (t.core k.val).flags.getLsbD b = (c.flags.getLsbD b && !x.mod.getLsbD b)) ∧ { t with cores := s.cores } = s)))

/-- An issue takes the instruction from its queue and writes no result; the results come at its completion, which waits for its
descriptors and, where it accumulates into Slate, for what was issued before it and accumulates too; a write into a segment whose
presence is set is dropped and counted; a descriptor completes at the front of its engine's queue, and one that its engine does
not take, for its tag or for a grant that has ended, is discarded and counted. (R97, R138, R161, R174, R188, R193) -/
def Obligations.TileCompletions : Prop :=
  (∀ (k : Nat) slot q writes descs groups (s : State),
    let t := goesOn k slot q writes descs groups s s
    (t.core k).queue slot = ((s.core k).queue slot).tail ∧ (t.core k).inflight.length = (s.core k).inflight.length + 1 ∧
      (t.core k).slate = (s.core k).slate ∧ (t.core k).plane = (s.core k).plane ∧ (t.core k).aRows = (s.core k).aRows ∧
      (t.core k).bRows = (s.core k).bRows ∧ (∀ j, j ≠ k → t.core j = s.core j) ∧
      { t with cores := s.cores, cnt := s.cnt, fcnt := s.fcnt } = s) ∧
  (∀ (k : CoreId) n f (s : State), awake s → (s.core k.val).inflight[n]? = some f →
    let waits := 0 < f.descs ∨ f.accumulates = true ∧ ((s.core k.val).inflight.take n).any InFlight.accumulates = true
    let u := forEach f.writes (applyWrite k.val) (updCore k.val (fun c => { c with inflight := c.inflight.eraseIdx n }) s)
    (waits → endsIn (.instructionComplete k n) s s) ∧
    (¬ waits → endsIn (.instructionComplete k n) s (if f.st then raiseEvent k.val f.sev u else u))) ∧
  (∀ (k b r : Nat) v (s : State), ((s.core k).hasA b (r / 16) = true → applyWrite k (.aRow b r v) s = tileViol k cViolGrainsOverwrite s) ∧
    ((s.core k).hasA b (r / 16) = false → ((applyWrite k (.aRow b r v) s).core k).aRow b r = v) ∧
    ((applyWrite k (.slate r v) s).core k).unit r = v ∧
    ∀ j, j ≠ r → ((applyWrite k (.slate r v) s).core k).unit j = (s.core k).unit j) ∧
  (∀ (e : EngineId) d r (s : State), awake s → (Tab.get {} s.engines e.val).queue = d :: r →
    let u := { s with engines := Tab.upd {} s.engines e.val (fun x => { x with queue := x.queue.tail }) }
    let takes := s.engineTakes (Tab.get {} s.engines e.val) d
    (takes = false → endsIn (.dmaDescriptorComplete e) s (descDone d.core d.go (bumpPart cViolEpochStale u))) ∧
    (takes = true → d.sig = none → endsIn (.dmaDescriptorComplete e) s (descDone d.core d.go (transfer d.core d.desc u))) ∧
    (∀ h i, takes = true → d.sig = some (h, i) → endsIn (.dmaDescriptorComplete e) s
      (descDone d.core d.go (addCounter i h 1 (transfer d.core d.desc u))))) ∧
  (∀ (k : CoreId) (b : Fin 32) (s : State), awake s → completes (.bankStarvation k b) s (fun t =>
    b.val ∈ (t.core k.val).starved ∧ (∀ x ∈ (s.core k.val).starved, x ∈ (t.core k.val).starved) ∧ { t with cores := s.cores } = s))

/-- A waiting task that nothing holds back is placed as found, with fresh cores, or ends where the usable clusters cannot hold it, a
vision task with the cores and the records that its list's header states; one whose list states none, or whose header is not good,
ends with every record it claims skipped and counted; a placed task ends when its cores have nothing left; a vision record is skipped and counted or its result is written. (R163, R217, R320,
R321, R332, R433) -/
def Obligations.TasksAndVision : Prop :=
  ∀ (n : Nat) (x : Task) (s : State), awake s → Tab.find s.tasks n = some x →
    (∀ p, s.prog x.prog = some p → x.place = none → x.paused = false → s.schRuns = true →
      s.thermal.critical = false → s.tasks.any (fun e => e.2.before x) = false →
      let hdr := bufRead (s.bufUnits x.buf2) 0 64 s
      let y := if p.builtin = true ∧ x.visCount = 0 ∧ listHeaderOk hdr = true then
          { x with visCores := rd hdr 6 1, visCount := rd hdr 8 4, visOff := rd hdr 0x10 8 } else x
      let cores := if p.builtin then y.visCores else p.cores
      let none_ := p.builtin = true ∧ y.visCount = 0
      (none_ → endsIn (.taskPlaced n) s (endTask n stOk false (bumpBy x.fn cViolVisionParam (rd hdr 8 4)
        { s with tasks := Tab.put s.tasks n { y with visSkipped := rd hdr 8 4, visFirst := 0 } }))) ∧
      (¬ none_ → s.couldPlace p cores = false → endsIn (.taskPlaced n) s (endTask n eNotReady false s)) ∧
      (¬ none_ → s.couldPlace p cores = true → s.serve.step ≠ none ∨ s.findPlace p cores = none → endsIn (.taskPlaced n) s s) ∧
      (¬ none_ → s.couldPlace p cores = true → s.serve.step = none → ∀ pl, s.findPlace p cores = some pl →
        let t := startTask n y p pl s
        endsIn (.taskPlaced n) s t ∧ Tab.find t.tasks n = some { y with place := some pl } ∧
        (∀ m, m ≠ n → Tab.find t.tasks m = Tab.find s.tasks m) ∧ (∀ k, k ∉ pl.cores → t.core k = s.core k) ∧
        (∀ k ∈ pl.cores, (t.core k).task = some n ∧ (t.core k).pc = 0 ∧ (t.core k).flags = 0 ∧ (t.core k).inflight = []) ∧
        (∀ a, a < basaltBase → memGet t.mem a = memGet s.mem a))) ∧
    (x.place ≠ none → endsIn (.taskPlaced n) s s) ∧
    (∀ pl, x.place = some pl → pl.cores.all (fun k => (s.core k).idle) = true → x.visCount ≤ x.visNext →
      endsIn (.taskEnd n) s (endTask n stOk false s)) ∧
    (∀ pl, x.place = some pl → pl.cores.all (fun k => (s.core k).idle) = false → endsIn (.taskEnd n) s s) ∧
    (∀ pl, x.place = some pl → x.paused = false → x.visNext < x.visCount → pl.cores.all (fun k => s.isReady (rCl (k / 8))) = true →
      let handle := fun (b : Nat) => if b = 0 then x.buf0 else if b = 1 then x.buf1 else x.buf2
      let units := fun (b : Nat) => s.bufUnits (handle b)
      let get : Reader := fun b off k => leNat (bufRead (units b) off k s)
      let off := x.visOff + 128 * x.visNext
      let r := visRec (bufRead (units 2) off 128 s)
      let runs := if off + 128 ≤ (units 2).length * unitBytes4M then
          r.runs (fun b => (units b).length * unitBytes4M) (fun a b => handle a == handle b) else none
      (runs = none → endsIn (.visionRecord n) s (bump x.fn cViolVisionParam { s with tasks := Tab.put s.tasks n { x with
        visNext := x.visNext + 1, visSkipped := x.visSkipped + 1, visFirst := if x.visSkipped = 0 then x.visNext else x.visFirst } })) ∧
      (∀ fi fo, runs = some (fi, fo) → completes (.visionRecord n) s (fun t =>
        Tab.find t.tasks n = some { x with visNext := x.visNext + 1, visDone := x.visDone + 1 } ∧
        t.mem = (forEach (r.result get fi fo).1 (fun (o, b) u => bufWrite (units r.outBuf) o b u) s).mem ∧
        { t with tasks := s.tasks, mem := s.mem, cnt := s.cnt, fcnt := s.fcnt } = s)))

/-- A stack's reading, or its silence, sets refresh and throttle; scrubbing retires the granules with uncorrectable units of that
stack; the loss of a stack ends every request, task, run and load; an uncorrectable unit of Grains, Slate or Basalt reads zeros and
is counted for its owner, and interrupts the step where the step used it; one in a firmware slot spoils the image it holds. What a
position outside the memory does is the model's choice (log 26). (R204, R205, R206, R207, R430, R432) -/
def Obligations.MemoryErrors : Prop :=
  ∀ s : State, awake s →
    (∀ (h : StackId) (v : Int), (s.stack h.val).usable = true → (s.stack h.val).failed = false → (s.stack h.val).lost = false →
      s.settings.hbmMask.getLsbD h.val = false → completes (.hbmTempRead h (some v)) s (fun t =>
        (t.stack h.val).temp = some (8 * v) ∧ (t.stack h.val).silent = false ∧
        (85 ≤ v → (t.stack h.val).halved = true) ∧ (v ≤ 83 → (t.stack h.val).halved = false) ∧
        (83 < v → v < 85 → (t.stack h.val).halved = (s.stack h.val).halved) ∧
        (95 ≤ v → (t.stack h.val).throttled = true) ∧ (v ≤ 92 → (t.stack h.val).throttled = false) ∧
        (105 ≤ v → t.thermal.critical = true) ∧ t.mem = s.mem ∧ t.kv = s.kv)) ∧
    (∀ h : StackId, (s.stack h.val).usable = true → (s.stack h.val).failed = false → (s.stack h.val).lost = false →
      s.settings.hbmMask.getLsbD h.val = false → completes (.hbmTempRead h none) s (fun t =>
        (t.stack h.val).silent = true ∧ (t.stack h.val).halved = true ∧ (t.stack h.val).throttled = true)) ∧
    (∀ (h : StackId) cs us, (s.stack h.val).usable = true → completes (.hbmScrub h cs us) s (fun t =>
      (∀ a ∈ us, a < s.totalUnits * unitBytes4M → (s.hbmPlace a).1 = h.val → a / 4096 ∈ t.store.retired) ∧
      (∀ g ∈ s.store.retired, g ∈ t.store.retired) ∧
      (us = [] → { t with cnt := s.cnt, fcnt := s.fcnt } = s))) ∧
    (∀ (h : StackId) cs us, (s.stack h.val).usable = false → endsIn (.hbmScrub h cs us) s s) ∧
    (∀ h : StackId, (s.stack h.val).usable = true →
      let a := postEvent evHbm stOk h.val (setReady (rHbm h.val) false (updStack h.val (fun y => { y with
        usable := false, lost := true, silent := false, throttled := false, halved := false }) s))
      let b := forEach (Tab.keys a.serve.ctxs) (fun i => endRequest i eEvicted) a
      let c := forEach (Tab.keys b.tasks) (fun n => endTask n eCancelled false) b
      let d := forEach c.flint.runs (fun r => endRun r eCancelled false) c
      (a.stack h.val).usable = false ∧ (a.stack h.val).lost = true ∧ a.isReady (rHbm h.val) = false ∧
      endsIn (.hbmStackLost h) s (forEach d.serve.loads (fun l t =>
        complete l.fn l.q { kind := 0, status := eNotReady, tag := l.tag, retry := 0,
                            opcode := match l.kind with | .model => opModelLoad | .adapter _ => opAdapterLoad } (dropLoad l t)) d)) ∧
    (∀ (k : CoreId) (b : Fin 2),
      let ends := fun (u : UeAt) (count : Nat) (zeroed : Core → Core) =>
        (∀ x, s.coreTask k.val = some x → endsIn (.uncorrectableUnit u) s (bump x.fn count (updCore k.val zeroed s))) ∧
        (s.coreTask k.val = none → endsIn (.uncorrectableUnit u) s (stepUe (bumpPart count (updCore k.val zeroed s))))
      (∀ r : Fin 256, ends (.aRow k b r) cGrainsUe (fun c => { c with aRows := Tab.put c.aRows (256 * b.val + r.val) 0 }) ∧
        ends (.bRow k b r) cGrainsUe (fun c => { c with bRows := Tab.put c.bRows (256 * b.val + r.val) 0 }) ∧
        ends (.plane k b r) cGrainsUe (fun c => { c with
          plane := Tab.put c.plane (64 * b.val + r.val / 4) (setBits (c.planeRow b.val (r.val / 4)) (512 * (r.val % 4)) 512 0) })) ∧
      (∀ i : Fin 16, ends (.aSide k b i) cGrainsUe (fun c => { c with aScale := zero16 c.aScale (16 * b.val + i.val) }) ∧
        ends (.bSide k b i) cGrainsUe (fun c => { c with bScale := zero16 c.bScale (16 * b.val + i.val) })) ∧
      (∀ i : Fin 1536, ends (.shadow k i) cSlateUe (fun c => { c with shadow := zero16 c.shadow i.val })) ∧
      (∀ n : Fin 24576, ends (.slate k n) cSlateUe (fun c => c.slateUe n.val)) ∧
      ∀ (c : Core) (n : Nat), (c.slateUe n).unit n = 0 ∧ n ∈ (c.slateUe n).bad ∧ ∀ j, j ≠ n → (c.slateUe n).unit j = c.unit j) ∧
    (∀ off, off < 120 * 1048576 →
      let u := { zero (basaltBase + off / 64 * 64) 64 s with store := { s.store with
        basaltBad := off / 64 :: s.store.basaltBad.filter (· != off / 64) } }
      (∀ n, Tab.find s.store.basalt (off / 1048576) = some n →
        endsIn (.uncorrectableUnit (.basalt off)) s (bumpOwner ((Tab.find s.tasks n).map (·.fn)) cBasaltUe u)) ∧
      (Tab.find s.store.basalt (off / 1048576) = none → endsIn (.uncorrectableUnit (.basalt off)) s (stepUe (bumpPart cBasaltUe u)))) ∧
    (∀ off, 120 * 1048576 ≤ off → off < 128 * 1048576 → endsIn (.uncorrectableUnit (.basalt off)) s
      (bumpPart cBasaltUe { s with boot := { s.boot with
        bad := (decide (124 * 1048576 ≤ off), off % (4 * 1048576) / 64 * 64) :: s.boot.bad } })) ∧
    (∀ a, a < s.totalUnits * unitBytes4M → endsIn (.uncorrectableUnit (.hbm a)) s (hbmUe a s))

/-- Steps begin, and end once every row is chosen and written, every tier read and no cluster missing; Jasper chooses from the row;
Mica's engines start, switch and are hurried; pages are fetched into a core of no other function, and one that fails its check loses
its column; a step's tiers are fetched once each; stream chunks open and are placed, or fail the load, and wait while the function is
fenced; views and adverts are sent; and the timers of shipments and routes act as stated. (R226, R245, R249, R251, R263, R268, R287, R290, R292, R299, R301, R380) -/
def Obligations.ServingEvents : Prop :=
  ∀ s : State, awake s →
    (s.schRuns = true → s.serve.step = none →
      endsIn .stepBuild s (buildStep (forEach s.serve.rod (memberStep none) (retryAssigns s)))) ∧
    (s.schRuns = false ∨ s.serve.step ≠ none → endsIn .stepBuild s s) ∧
    (∀ rows, s.serve.step = none → endsIn (.stepEnd rows) s s) ∧
    (∀ rows st, s.serve.step = some st →
      let whole := st.lost = [] ∧ (∀ n, n < 8 → (s.proc (n + 3)).deferred = none) ∧ s.sampled st = true ∧ s.rowsWhole st rows = true ∧
        s.weightsRead st = true ∧ s.schRuns = true
      (whole → endsIn (.stepEnd rows) s (endStep st rows s)) ∧ (¬ whole → endsIn (.stepEnd rows) s s)) ∧
    (∀ idx logits c st r k cp, s.ctx idx = some c → s.serve.step = some st → st.kind = .prefill →
      st.reqs.find? (fun r => r.idx == idx) = some r → r.masked = false → r.discard = false → r.recompute = false → st.lost = [] →
      r.pos + r.rows = c.promptLen → c.copy = some k → s.copy k = some cp → logits.length = cp.hdr.vocab → cp.hdr.vocab ≠ 0 →
      Tab.has c.samples 0 = false → endsIn (.jasperRow idx false 0 logits) s (updCtx idx (fun x => { x with
        samples := Tab.put x.samples 0 (c.prof.choose c.seed c.promptLen (c.prof.row (c.at 0).1 (c.at 0).2 logits)) })
        (countRow c.fn logits s))) ∧
    (∀ (eng : ClusterId) x, s.kv.fetches.find? (fun x => x.eng == eng.val) = some x →
      endsIn (.pageFetchDone eng) s { s with kv := { s.kv with
        fetches := s.kv.fetches.erase x, old := fetchOver x s.kv.old } }) ∧
    (∀ eng : ClusterId, s.kv.fetches.find? (fun x => x.eng == eng.val) = none → endsIn (.pageFetchDone eng) s s) ∧
    (∀ (eng : ClusterId) x, s.kv.seals.find? (fun x => !x.running && (x.eng == eng.val || !s.engineUp x.eng)) = some x →
      s.engineUp eng.val = true → (s.kv.seals.filter (fun x => x.eng == eng.val && x.running)).length < 2 →
      (x.urgent = true ∨ s.kv.fetches.any (fun f => f.eng == eng.val) = false) →
      let g := match s.sealGrans x.key with
        | none => ([], s)
        | some n => grantGrans n (s.ctxTag (keyIdx x.key)) false s
      endsIn (.sealStart eng) s { g.2 with kv := { g.2.kv with seals := g.2.kv.seals.map (fun y =>
        if y.key = x.key then { y with running := true, eng := eng.val, grans := g.1 } else y) } }) ∧
    (∀ (eng : ClusterId) (second : Bool) x,
      (s.kv.seals.filter (fun x => x.eng == eng.val && x.running))[if second then 1 else 0]? = some x →
      (∀ c m, s.ctx (keyIdx x.key) = some c → (s.ctxModels c).find? (fun m => m.1 == keyDraft x.key) = some m →
        endsIn (.sealSwitch eng second) s (shipOn (keyIdx x.key) (tryOffer (keyIdx x.key) (switchPage x.key x.grans m.2 s)))) ∧
      (s.ctx (keyIdx x.key) = none →
        endsIn (.sealSwitch eng second) s { s with kv := { s.kv with seals := s.kv.seals.filter (·.key != x.key) } })) ∧
    (∀ (eng : ClusterId) x, s.kv.seals.find? (fun x => x.eng == eng.val && !x.urgent) = some x →
      completes (.sealStarvation eng) s (fun t => (∃ y ∈ t.kv.seals, y.key = x.key ∧ y.urgent = true) ∧
        t.kv.seals.map (·.key) = s.kv.seals.map (·.key) ∧ { t with kv := s.kv } = s)) ∧
    (∀ (eng : ClusterId) (k : CoreId) base bias idx draft layer col c st x r cp md img,
      s.ctx idx = some c → s.serve.step = some st → (s.ctxModels c).find? (fun x => x.1 == draft) = some x →
      st.reqs.find? (fun r => r.idx == idx) = some r → (if draft then c.draft else c.copy) = some md → s.copy md = some cp →
      s.engineUp eng.val = true → k.val / 8 = eng.val → (s.core k.val).task = none → layer < x.2.layers → col < 2048 →
      let p := s.page (pageKey idx draft layer col)
      let qs := queries (st.kind == .decode) r.pos r.rows c.nodes
      let rows := if qs.all (fun q => (List.range 64).all (fun j => q (64 * col + j))) then []
        else (qs.map (fun q => biasRow (fun j => q (64 * col + j)))).flatten
      p.st = .opened ∨ p.st = .sealed ∨ p.st = .shipping → base + x.2.pageUnits ≤ 24576 → bias + rows.length ≤ 24576 →
      (s.pageImage x.2 p.frame = some img → completes (.pageFetch eng k base bias idx draft layer col) s (fun t =>
        t.kv.fetches = s.kv.fetches ++ [{ eng := eng.val, key := pageKey idx draft layer col }] ∧
        (t.core k.val).owner = { c.tag with agent := 15 } ∧ (∀ i v, rows[i]? = some v → (t.core k.val).unit (bias + i) = v) ∧
        (∀ j, j ≠ k.val → t.core j = s.core j) ∧ { t with cores := s.cores, kv := s.kv, free := s.free } = s)) ∧
      (s.pageImage x.2 p.frame = none → endsIn (.pageFetch eng k base bias idx draft layer col) s
        (crcFail c idx col (((Tab.find s.kv.frames p.frame).map (·.gmap.grans)).getD []) s))) ∧
    (∀ k n raw c st y, s.copy k = some c → s.serve.step = some st → c.tensors[n]? = some y → y.tiered = true →
      k ∈ s.stepCopies st → raw.length = (y.len + 65535) / 65536 →
      ((s.fn c.loader).fenced = true ∨ st.tiers.contains (k, n) = true → endsIn (.tierFetchDone k n raw) s s) ∧
      ((s.fn c.loader).fenced = false → st.tiers.contains (k, n) = false →
      let u := updCopy k (fun c => { c with tierFetched := c.tierFetched + (raw.map (·.length)).sum, half := !c.half })
        (updServe (fun x => { x with step := some { st with tiers := st.tiers ++ [(k, n)] } }) s)
      (∀ b, openTensor c y raw = some b →
        endsIn (.tierFetchDone k n raw) s (regionWrite c.units (c.hbmBytes + if c.half then c.stageBytes / 2 else 0) b u)) ∧
      (openTensor c y raw = none → endsIn (.tierFetchDone k n raw) s (damageCopy k (bump c.loader cViolTierSource
        (updServe (fun x => { x with step := x.step.map (fun p => { p with discard := true }) }) u)))))) ∧
    (∀ n data l, s.serve.loads[n]? = some l → (l.waits.bind s.copy) = none → l.next < chunkCount l.length →
      ((s.fn l.fn).fenced = true → endsIn (.streamChunk n data) s s) ∧
      ((s.fn l.fn).fenced = false → l.read = false →
        let want := min chunkBytes (l.length - 64 - chunkBytes * l.next)
        (data.length ≠ want ∨ openChunk l.key l.nonce l.modelId l.next data = none →
          endsIn (.streamChunk n data) s (resumeLoads (failLoad l eSig 1 l.next s))) ∧
        (∀ p, data.length = want → openChunk l.key l.nonce l.modelId l.next data = some p →
          let m := { l with next := l.next + 1, plain := l.plain ++ p, waits := none, read := decide (chunkCount l.length ≤ l.next + 1) }
          let t := putLoad l m s
          (∀ h, l.kind = .adapter h → endsIn (.streamChunk n data) s (if m.read then (finishAdapter m h t).1 else t)) ∧
          (l.kind = .model →
            let r := modelStep m (if l.copy = 0 then t else spendChunk m l.next p t)
            endsIn (.streamChunk n data) s (if r.2 then resumeLoads r.1 else r.1))))) ∧
    (s.fab.valid = true → s.schRuns = true → endsIn .poolViewDue s (sendView s)) ∧
    (s.fab.valid = true → s.schRuns = true →
      let b := toLe 4 s.framesFree ++ toLe 4 s.freeCtxs ++ toLe 4 s.queuedRows ++ toLe 1 s.power.op ++ toLe 3 0
      endsIn .advertDue s (forEach ((s.rod.filter (fun e => e.1 != s.fab.addr && e.2.pool == s.serve.pool)).map (·.1))
        (fun a t => sendMsg a 1 2 (t.tagOf agSch 0).word b t) s)) ∧
    (∀ idx m, s.ship idx = some m → m.st = .refusedAll → endsIn (.shipOfferRetry idx) s (offerTo idx [] s)) ∧
    (∀ idx m c, s.ship idx = some m → s.ctx idx = some c → m.st = .waitDone →
      endsIn (.shipTimeout idx) s (abandonOut idx (sendAbort c m 1 s))) ∧
    (∀ idx c a, s.ctx idx = some c → c.workAddr = some a → c.home = true → c.work = false → c.state ≠ .ended → s.reaches a = false →
      (0 < c.failovers → endsIn (.workRouteTimeout idx) s (endRequest idx eFabric s)) ∧
      (c.failovers = 0 → endsIn (.workRouteTimeout idx) s (tryAssign idx (bump c.fn cReqFailover
        (updCtx idx (fun c => { c with failovers := c.failovers + 1, workAddr := none }) s))))) ∧
    (∀ idx c, s.ctx idx = some c → c.home = false → c.state ≠ .ended → s.reaches c.homeAddr = false →
      endsIn (.homeRouteTimeout idx) s
        (freeProfiles (dropWork idx eFabric (bump c.fn cServeOrphaned (updCtx idx (fun c => { c with state := .ended }) s)))))

/-- Each message is handed to its handler while the part is awake; a message shorter than its type requires changes nothing but a
counter, the function's VIOL_SERVE_MSG or VIOL_FAB_MSG; a CANCEL under an old tag is discarded and counted; the handlers of the
shortest messages are stated in full. (R97, R276, R282, R289, R290, R291, R292, R293, R298, R379, R380, R382) -/
def Obligations.MessageHandlers : Prop :=
  (∀ (src : BitVec 12) (tag : BitVec 32) (b : Bytes) (s : State), awake s →
    (∀ e ∈ [(Instr.poolView src tag b, rxPoolView src.toNat b s), (.advert src tag b, rxAdvert src.toNat b s),
        (.assign src tag b, rxAssign src.toNat tag b s), (.assignAck src tag b, rxAssignAck src.toNat tag b s),
        (.tokenSeg src tag b, rxTokenSeg src.toNat tag b s), (.profileSeg src tag b, rxProfileSeg b s),
        (.tokens src tag b, rxTokens src.toNat tag b s), (.cancel src tag b, rxCancel src.toNat tag b s),
        (.shipOffer src tag b, rxShipOffer src.toNat tag b s), (.shipAccept src tag b, rxShipAccept src.toNat tag b s),
        (.shipRefuse src tag b, rxShipRefuse src.toNat tag b s), (.shipPage src tag b, rxShipPage src.toNat tag b s),
        (.shipEnd src tag b, rxShipEnd src.toNat tag b s), (.shipDone src tag b, rxShipDone src.toNat tag b s),
        (.shipAbort src tag b, rxShipAbort src.toNat tag b s), (.loadBegin src tag b, rxLoadBegin src.toNat b s),
        (.weightChunk src tag b, rxWeightChunk src.toNat b s), (.loadStatus src tag b, rxLoadStatus src.toNat b s),
        (.loadEnd src tag b, rxLoadEnd src.toNat b s), (.repairReq src tag b, rxRepairReq src.toNat b s),
        (.repairData src tag b, rxRepairData b s), (.reduce src tag b, rxPartial true src.toNat b s),
        (.gather src tag b, rxPartial false src.toNat b s)], endsIn e.1 s e.2) ∧
    (bodyOk b 0x10 [(0x2D, 3)] = true → ∃ u : State,
      (Tab.get {} u.serve.members src.toNat).frames = mfield b 0x20 4 ∧ (Tab.get {} u.serve.members src.toNat).ctxs = mfield b 0x24 4 ∧
      (Tab.get {} u.serve.members src.toNat).queued = mfield b 0x28 4 ∧ { u with serve := s.serve } = s ∧
      endsIn (.advert src tag b) s (forEach (Tab.keys u.serve.ctxs) tryAssign u)) ∧
    (∀ i c, bodyOk b 0x10 [(0x2A, 6)] = true → BitVec.ofNat 16 (mfield b 0x28 2) = eCancelled ∨ BitVec.ofNat 16 (mfield b 0x28 2) = eLease →
      s.findCtx src.toNat (mfield b 0x20 8) = some i → s.ctx i = some c →
      (c.tag.word ≠ tag → endsIn (.cancel src tag b) s (bump (tagOfWord tag.toNat).fn cViolEpochStale s)) ∧
      (c.tag.word = tag → c.home = false → c.state ≠ .ended → endsIn (.cancel src tag b) s
        (freeProfiles (dropWork i (BitVec.ofNat 16 (mfield b 0x28 2)) (updCtx i (fun c => { c with state := .ended, late := true }) s))))) ∧
    (∀ i c m, bodyOk b 0x10 [] = true → s.outShip src.toNat (mfield b 0x20 8) (mfield b 0x28 4) = some i → s.ctx i = some c →
      c.tag.word = tag → s.ship i = some m → m.st = .waitDone → m.pages ≠ mfield b 0x2C 4 →
      endsIn (.shipDone src tag b) s (abandonOut i (sendAbort c m 2 s))) ∧
    (∀ r l, bodyOk b 0x08 [(0x25, 3)] = true → mfield b 0x24 1 = 1 →
      s.serve.copies.find? (fun e => e.2.rodId == some (src.toNat, mfield b 0x20 4)) = some (r, l) →
      endsIn (.loadEnd src tag b) s (resumeLoads (poolChanged (updCopy r (fun c => { c with state := if c.state = .damaged then .damaged else .ready })
        (updServe (fun x => { x with rod := x.rod.filter (fun r => !(r.id == mfield b 0x20 4 && r.loader == src.toNat)) }) s))))) ∧
    (bodyOk b 0x20 [(0x29, 1), (0x34, 12)] = true → mfield b 0x25 1 = 4 → mfield b 0x27 1 < mfield b 0x28 1 → s.serve.step ≠ none →
      endsIn (.reduce src tag b) s { s with serve := { s.serve with sums := s.serve.sums ++ [{ reduce := true, src := src.toNat, body := b }] } })) ∧
  (∀ (src : BitVec 12) (tag : BitVec 32) (b : Bytes) (s : State), awake s →
    (∀ e ∈ [(Instr.assign src tag b, 0x60), (.assignAck src tag b, 0x10), (.tokenSeg src tag b, 0x10), (.tokens src tag b, 0x44),
        (.cancel src tag b, 0x10), (.shipOffer src tag b, 0x68), (.shipAccept src tag b, 0x18), (.shipRefuse src tag b, 0x10),
        (.shipPage src tag b, 0x20), (.shipEnd src tag b, 0x28), (.shipDone src tag b, 0x10), (.shipAbort src tag b, 0x10)],
      b.length < e.2 → endsIn e.1 s (bump (tagOfWord tag.toNat).fn cViolServeMsg s)) ∧
    (∀ e ∈ [(Instr.poolView src tag b, 0x10), (.advert src tag b, 0x10), (.profileSeg src tag b, 0x20), (.loadBegin src tag b, 0x20),
        (.weightChunk src tag b, 0x20), (.loadStatus src tag b, 0x0C), (.loadEnd src tag b, 0x08), (.repairReq src tag b, 0x28),
        (.repairData src tag b, 0x20), (.reduce src tag b, 0x20), (.gather src tag b, 0x20)],
      b.length < e.2 → endsIn e.1 s (bumpPart cViolFabMsg s)))

/-- A neuron fires exactly when it is not refractory and its value reaches the threshold, its value stays in 24 bits; a run starts,
reads its inputs, closes steps at a strobe, drops its oldest slot at 64 steps of lag, and ends at its duration. (R337, R338,
R339, R340, R341) -/
def Obligations.FlintEvents : Prop :=
  (∀ (x : Neuron) (st : NState) (n : Nat) (acc : Int), -8388608 ≤ st.v → st.v ≤ 8388607 → x.decay < 65536 →
    let r := neuronStep x st n acc
    let v := decayed st.v x.decay (n - st.last)
    (r.2 = true ↔ st.refEnd ≤ n ∧ (x.thr : Int) ≤ clampI (-8388608) 8388607 (v + acc)) ∧
    (r.2 = true → r.1.refEnd = n + 1 + x.refrac ∧ (x.resetSub = false → r.1.v = 0)) ∧
    (n < st.refEnd → r.1.v = v) ∧ r.1.last = n ∧ -8388608 ≤ r.1.v ∧ r.1.v ≤ 8388607) ∧
  (∀ s : State, awake s →
    (∀ net r, s.activeRun net = none → s.flint.runs.find? (fun r => r.net == net && !r.started && r.ended.isNone) = some r →
      endsIn (.flintRunStart net) s (putRun r { r with started := true, tStart := s.ftNow } s)) ∧
    (s.pins.refFab = false → endsIn .flintStrobe s s) ∧
    (s.pins.refFab = true → endsIn .flintStrobe s (forEach (Tab.keys s.flint.nets) (fun net t =>
      match t.activeRun net, Tab.find t.flint.nets net with
      | some r, some g =>
        let r' := { r with strobes := r.strobes + 1 }
        closeSteps g net (r'.strobes - r'.step) ((List.range g.tiles).foldl (fun tab k => Tab.put tab k tileRate) []) r' (putRun r r' t)
      | _, _ => t) s)) ∧
    (∀ net r g n, s.activeRun net = some r → Tab.find s.flint.nets net = some g → ringRecords (s.bufUnits r.inBuf) s = some n →
      let u := s.bufUnits r.inBuf
      let l := (List.range ((ringWr u n s + n - ringRd u n s) % n)).map (fun i => bufRead u (64 + 8 * ((ringRd u n s + i) % n)) 8 s)
      let x := l.foldl (fun x b => takeInput g.inputs.length b x) (r, s)
      endsIn (.flintInputWake net) s (bufWrite u 4 (toLe 4 (ringWr u n s)) (putRun r x.1 x.2))) ∧
    (∀ net tile r g, s.activeRun net = some r → Tab.find s.flint.nets net = some g → r.step + 64 ≤ r.strobes →
      Tab.get 0 r.spent tile < r.dueIn tile →
      let r' := { r with wheel := r.wheel.filter (fun e => !(e.tile == tile && e.due == r.step)), drops := r.drops + r.dueIn tile }
      r'.dueIn tile = 0 ∧
      endsIn (.flintLagOverflow net tile) s (closeSteps g net 65 [] r' (bumpBy r.fn cFlintLagDrop (r.dueIn tile) (putRun r r' s)))) ∧
    (∀ net r, s.activeRun net = some r → r.duration ≠ 0 → r.duration ≤ r.step →
      endsIn (.flintDurationEnd net) s (endRun r stOk false s)) ∧
    (∀ net r, s.activeRun net = some r → (r.duration = 0 ∨ r.step < r.duration) → endsIn (.flintDurationEnd net) s s))

/-- For every state whose memory lists strictly rising addresses and no byte that reads as an unlisted one, a step that answers a
next state keeps that form. (R41, R121, R187, R195) -/
def Obligations.MemoryStaysCanonical : Prop :=
  ∀ s t : State, memOk s → step s = .next t → memOk t

/-- Nothing is ready, every counter, energy bucket and fabric time are 0, no handle is live, the slew limit is 50 A/µs, the cap
275.0 W, the preferences as R416 states, no alert; the queue is empty; the memory is in its canonical form and every byte of it
reads 0, which is the model's choice (log 6). (R22, R24, R40, R402, R412, R416, R418, R426, R434, R451, R462) -/
def Obligations.ResetState : Prop :=
  let s := State.reset
  s.ready = 0 ∧ s.pins.perst = true ∧ s.pins.clocksStopped = false ∧ s.pins.thermtrip = false ∧ s.cnt = [] ∧ s.fcnt = [] ∧ s.ftNow = 0 ∧
    s.ft.epoch = 0 ∧ s.ft.locked = false ∧ s.brown.asserted = false ∧ s.slew = 50 ∧ s.capMw = 275000 ∧ s.caps.pref = [3, 3, 3, 1, 0] ∧
    s.power.alert = 0 ∧ s.power.op = 0 ∧ s.meter.buckets = [] ∧ s.meter.degraded = false ∧ s.thermal.excluded = [] ∧ s.side.ir = .idcode ∧
    s.side.dyn = none ∧ s.issued = [] ∧ s.tasks = [] ∧ s.progs = [] ∧ s.bufs = [] ∧ s.serve.ctxs = [] ∧ s.flint.runs = [] ∧
    s.fab.valid = false ∧ s.fab.settled = false ∧ s.pending = [] ∧ memOk s ∧ ∀ a, memGet s.mem a = 0

/-- While PERST# is asserted or THERMTRIP# has stopped the clocks, a command changes nothing, but for those of the hardware in AON,
of the sideband and of the test port and the pins. (R396, R434, R447, R448, R451) -/
def Obligations.AsleepPartIgnoresCommands : Prop :=
  ∀ (c : Instr) (s : State), (s.pins.perst = true ∨ s.pins.clocksStopped = true) → actsAsleep c = false → exec c s = .next s
end

