-- ==== Sys2Proof/Laws/Command.lean ====
section
/-! SUPPORT. What the ends of meanings and a mailbox command do, once: the lemmas proofs cite instead of unfolding them. -/

namespace Sys2Proof.Laws

open Sys2Proof.Machine Sys2Proof.Safety

/-- `done` answers the next state with the queue as it was. -/
theorem done_eq (s t : State) : done s t = .next { t with pending := s.pending } := rfl

/-- While the part is awake, `live` is `done`. -/
theorem live_awake {s : State} (h : awake s) (t : State) : live s t = .next { t with pending := s.pending } := by
  simp [live, h.1, h.2, done]

/-- While PERST# is asserted or the clocks are stopped, `live` changes nothing. -/
theorem live_asleep {s : State} (h : ¬ awake s) (t : State) : live s t = .next s := by
  have h' : s.pins.perst = true ∨ s.pins.clocksStopped = true := by
    unfold awake at h
    cases hp : s.pins.perst <;> cases hc : s.pins.clocksStopped <;> simp_all
  rcases h' with h' | h' <;> simp [live, h', done]

/-- A mailbox command that is taken runs its meaning on its entry. -/
theorem command_taken {f op : Nat} {src : Src} {fields : List (Nat × Nat)} {noHandle : Bool} {s t : State} {c : Cmd}
    (run : Cmd → State → State) (h : taken f op src fields noHandle s = some (c, t)) :
    command f op src fields noHandle run s = .next { run c t with pending := s.pending } := by
  cases src with
  | ring q e =>
    simp only [taken, Option.ite_none_right_eq_some, Option.some.injEq, Prod.mk.injEq, Bool.and_eq_true, bne_iff_ne, beq_iff_eq,
      Bool.not_eq_true', ne_eq] at h
    obtain ⟨⟨⟨⟨hf, ha⟩, ho⟩, ⟨⟨⟨⟨hp, hc⟩, hs⟩, hpf⟩, hr⟩, hh⟩, rfl, rfl⟩ := h
    have hp' : (isPfOp op && f != 0) = false := by
      cases h1 : isPfOp op <;> simp_all
    simp only [command, hf, ha, hs, hr, hh, hp', live, hp, hc, done]
    simp [ho]
  | direct =>
    simp only [taken, Option.ite_none_right_eq_some, Option.some.injEq, Prod.mk.injEq, Bool.and_eq_true, bne_iff_ne, beq_iff_eq,
      Bool.not_eq_true', ne_eq] at h
    obtain ⟨⟨⟨⟨⟨⟨⟨⟨⟨hb, hop⟩, hpr⟩, hfl⟩, ha⟩, hst⟩, hex⟩, hfe⟩, ⟨⟨⟨⟨hp, hc⟩, hs⟩, hpf⟩, hr⟩, hh⟩, rfl, rfl⟩ := h
    have hp' : (isPfOp op && f != 0) = false := by
      cases h1 : isPfOp op <;> simp_all
    have he : ((s.fn f).expired && op != opIdentify && op != opAdopt) = false := by
      cases h1 : (s.fn f).expired <;> simp_all
      omega
    simp only [command, hb, hop, hpr, hfl, ha, hs, hr, hh, hp', he, hfe, live, hp, hc, done]
    simp [hst]
  | alien q e op' => simp [taken] at h

/-- The command that is taken is the function's, from the source, with the opcode. -/
theorem taken_cmd {f op : Nat} {src : Src} {fields : List (Nat × Nat)} {noHandle : Bool} {s t : State} {c : Cmd}
    (h : taken f op src fields noHandle s = some (c, t)) : c.f = f ∧ c.src = src ∧ c.op = op := by
  cases src with
  | ring q e =>
    simp only [taken, Option.ite_none_right_eq_some, Option.some.injEq, Prod.mk.injEq] at h
    obtain ⟨-, rfl, -⟩ := h
    exact ⟨rfl, rfl, rfl⟩
  | direct =>
    simp only [taken, Option.ite_none_right_eq_some, Option.some.injEq, Prod.mk.injEq] at h
    obtain ⟨-, rfl, -⟩ := h
    exact ⟨rfl, rfl, rfl⟩
  | alien q e op' => simp [taken] at h

/-- The device cache gives up a line: the cache and a request leave the rest alone. -/
theorem evictLine_frame (line : Nat) (s : State) : { evictLine line s with cxl := s.cxl, out := s.out } = s := by
  unfold evictLine
  split
  · rfl
  · rfl

/-- The device cache takes a line: the cache, a request to evict another and the free values leave the rest alone. -/
theorem takeLine_frame (line : Nat) (c : CacheLine) (s : State) :
    { takeLine line c s with cxl := s.cxl, out := s.out, free := s.free } = s := by
  unfold takeLine
  simp only
  split
  · rfl
  · split
    · rfl
    · split
      · rfl
      · generalize (List.getD _ _ _ : Nat) = k
        exact congrArg (fun t : State => { t with free := s.free }) (evictLine_frame k s)

/-- What a use of the device cache changes: the cache, a request to evict a line, and the free values. -/
theorem useCache_frame (s : State) :
    { useCache s with cxl := s.cxl, out := s.out, free := s.free } = s := by
  unfold useCache
  split
  · rfl
  · exact congrArg (fun t : State => { t with free := s.free }) (takeLine_frame (freeNumber s) (freeLine s) { s with free := s.free + 3 })

/-- What the fetch of an entry changes: its ring, the turn, and the device cache with its reports. -/
theorem fetched_frame (f q : Nat) (s : State) :
    { fetched f q s with funcs := s.funcs, turn := s.turn, cxl := s.cxl, out := s.out, free := s.free } = s := by
  have h := useCache_frame (updRing f q (fun r => { r with sqHead := (r.sqHead + 1) % r.sqSize }) s)
  have g := congrArg (fun t : State => { t with funcs := s.funcs, turn := s.turn, cxl := s.cxl, out := s.out, free := s.free }) h
  unfold fetched
  simp only
  split
  · exact g
  · exact g

/-- What the functions hold after the fetch of an entry: SQ_HEAD of its ring has passed it. -/
theorem fetched_funcs (f q : Nat) (s : State) :
    (fetched f q s).funcs = (updRing f q (fun r => { r with sqHead := (r.sqHead + 1) % r.sqSize }) s).funcs := by
  have h := congrArg State.funcs (useCache_frame (updRing f q (fun r => { r with sqHead := (r.sqHead + 1) % r.sqSize }) s))
  unfold fetched
  simp only
  split
  · exact h
  · exact h

/-- A command whose handle is live runs. -/
theorem withHandle_live {c : Cmd} {kind : Nat} {live free : Bool} {run : State → State} {s : State}
    (h : handleIs s c.f kind c.e.handle.toNat live = .live) : c.withHandle kind live free run s = run s := by
  simp [Cmd.withHandle, h]

end Sys2Proof.Laws
end

