-- ==== Sys2Proof/Laws/Memory.lean ====
section
/-! SUPPORT. Device memory: every operation keeps the canonical form, and what a byte reads as after each. -/

namespace Sys2Proof.Laws

open Sys2Proof.Machine

/-- Every address listed is at least a. -/
def above (a : Nat) (m : List Host.Cell) : Prop := ∀ c ∈ m, a ≤ c.1

theorem wf_cons {i : Nat} {b : Byte} {r : List Host.Cell} :
    Memory.wf ((i, b) :: r) = true ↔ b ≠ 0#8 ∧ above (i + 1) r ∧ Memory.wf r = true := by
  induction r generalizing i b with
  | nil => simp [Memory.wf, above]
  | cons c r ih =>
    obtain ⟨j, d⟩ := c
    have ih' := @ih j d
    simp only [Memory.wf, Bool.and_eq_true, decide_eq_true_eq, bne_iff_ne, ne_eq]
    constructor
    · rintro ⟨⟨hb, hij⟩, hr⟩
      refine ⟨hb, ?_, hr⟩
      have h2 := (ih'.1 hr).2.1
      intro c hc
      rcases List.mem_cons.1 hc with rfl | hc
      · simpa using hij
      · have := h2 c hc; omega
    · rintro ⟨hb, ha, hr⟩
      exact ⟨⟨hb, by have := ha (j, d) (by simp); simpa using this⟩, hr⟩

theorem memGet_above {a x : Nat} {m : List Host.Cell} (h : above a m) (hx : x < a) : memGet m x = 0#8 := by
  induction m with
  | nil => rfl
  | cons c r ih =>
    obtain ⟨i, b⟩ := c
    have h1 : a ≤ i := h (i, b) (by simp)
    have : i ≠ x := by omega
    simp only [memGet, this, if_false]
    exact ih (fun c hc => h c (by simp [hc]))

theorem memSet_above {a x : Nat} {b : Byte} {m : List Host.Cell} (h : above x m) (ha : x ≤ a) : above x (memSet m a b) := by
  induction m with
  | nil =>
    intro c hc
    simp only [memSet] at hc
    split at hc <;> simp_all
  | cons c r ih =>
    obtain ⟨i, d⟩ := c
    have h1 : x ≤ i := h (i, d) (by simp)
    have h2 : above x r := fun c hc => h c (by simp [hc])
    intro c hc
    simp only [memSet] at hc
    split at hc
    · split at hc
      · exact h c hc
      · rcases List.mem_cons.1 hc with rfl | hc
        · exact ha
        · exact h c hc
    · split at hc
      · split at hc
        · exact h2 c hc
        · rcases List.mem_cons.1 hc with rfl | hc
          · exact ha
          · exact h2 c hc
      · rcases List.mem_cons.1 hc with rfl | hc
        · exact h1
        · exact ih h2 c hc

/-- A write of one byte keeps the canonical form. -/
theorem memSet_wf {a : Nat} {b : Byte} {m : List Host.Cell} (h : Memory.wf m = true) : Memory.wf (memSet m a b) = true := by
  induction m with
  | nil =>
    simp only [memSet]
    split
    · rfl
    · simpa [Memory.wf] using ‹_›
  | cons c r ih =>
    obtain ⟨i, d⟩ := c
    have ⟨hd, ha, hr⟩ := wf_cons.1 h
    simp only [memSet]
    split
    · split
      · exact h
      · rename_i hlt hb
        exact wf_cons.2 ⟨hb, fun c hc => by
          rcases List.mem_cons.1 hc with rfl | hc
          · exact hlt
          · have := ha c hc; omega, h⟩
    · split
      · rename_i heq
        subst heq
        split
        · exact hr
        · rename_i hb
          exact wf_cons.2 ⟨hb, ha, hr⟩
      · exact wf_cons.2 ⟨hd, memSet_above ha (by omega), ih hr⟩

/-- What a byte reads as after a write of one byte. -/
theorem memSet_get {a x : Nat} {b : Byte} {m : List Host.Cell} (h : Memory.wf m = true) :
    memGet (memSet m a b) x = if x = a then b else memGet m x := by
  induction m with
  | nil =>
    simp only [memSet]
    by_cases hb : b = 0#8 <;> by_cases hx : x = a <;> simp [hb, hx, memGet]
    exact fun e => absurd e.symm hx
  | cons c r ih =>
    obtain ⟨i, d⟩ := c
    have ⟨hd, ha, hr⟩ := wf_cons.1 h
    simp only [memSet]
    split
    · rename_i hlt
      by_cases hx : x = a
      · subst hx
        have hz : memGet r x = 0#8 := memGet_above ha (by omega)
        have : i ≠ x := by omega
        by_cases hb : b = 0#8 <;> simp [hb, memGet, this, hz]
      · by_cases hb : b = 0#8 <;> simp [hb, memGet, hx, Ne.symm hx]
    · split
      · rename_i _ heq
        subst heq
        by_cases hx : x = a
        · subst hx
          have hz : memGet r x = 0#8 := memGet_above ha (by omega)
          by_cases hb : b = 0#8 <;> simp [hb, memGet, hz]
        · by_cases hb : b = 0#8 <;> simp [hb, memGet, hx, Ne.symm hx]
      · rename_i hne
        by_cases hx : x = i
        · subst hx
          simp [memGet, Ne.symm hne]
        · simp only [memGet, Ne.symm hx, if_false]
          exact ih hr

/-- A write of bytes keeps the canonical form. -/
theorem memWrite_wf {a : Nat} {b : Bytes} {m : List Host.Cell} (h : Memory.wf m = true) : Memory.wf (memWrite m a b) = true := by
  induction b generalizing a m with
  | nil => exact h
  | cons v r ih => exact ih (memSet_wf h)

/-- What a byte reads as after a write of bytes: inside them what was written, elsewhere what stood there. -/
theorem memWrite_get {a x : Nat} {b : Bytes} {m : List Host.Cell} (h : Memory.wf m = true) :
    memGet (memWrite m a b) x = if a ≤ x ∧ x < a + b.length then b.getD (x - a) 0#8 else memGet m x := by
  induction b generalizing a m with
  | nil => simp [memWrite]
  | cons v r ih =>
    simp only [memWrite, ih (memSet_wf h), memSet_get h, List.length_cons]
    by_cases h1 : x = a
    · subst h1
      simp
    · by_cases h2 : a + 1 ≤ x ∧ x < a + 1 + r.length
      · have h3 : a ≤ x ∧ x < a + (r.length + 1) := by omega
        have h4 : x - a = (x - (a + 1)) + 1 := by omega
        rw [if_pos h2, if_pos h3, h4, List.getD_cons_succ]
      · have h3 : ¬ (a ≤ x ∧ x < a + (r.length + 1)) := by omega
        rw [if_neg h2, if_neg h3, if_neg h1]

/-- Zeroing a range keeps the canonical form. -/
theorem filter_wf {m : List Host.Cell} (p : Host.Cell → Bool) (h : Memory.wf m = true) : Memory.wf (m.filter p) = true := by
  induction m with
  | nil => rfl
  | cons c r ih =>
    obtain ⟨i, d⟩ := c
    have ⟨hd, ha, hr⟩ := wf_cons.1 h
    simp only [List.filter_cons]
    split
    · exact wf_cons.2 ⟨hd, fun c hc => ha c (List.mem_of_mem_filter hc), ih hr⟩
    · exact ih hr

theorem memClear_wf {a n : Nat} {m : List Host.Cell} (h : Memory.wf m = true) : Memory.wf (memClear m a n) = true :=
  filter_wf _ h

/-- What a byte reads as after a range has been zeroed. -/
theorem memClear_get {a n x : Nat} {m : List Host.Cell} :
    memGet (memClear m a n) x = if a ≤ x ∧ x < a + n then 0#8 else memGet m x := by
  induction m with
  | nil => simp [memClear, memGet]
  | cons c r ih =>
    obtain ⟨i, d⟩ := c
    simp only [memClear, List.filter_cons] at ih ⊢
    by_cases hi : i < a ∨ a + n ≤ i
    · by_cases hx : i = x
      · subst hx
        have : ¬ (a ≤ i ∧ i < a + n) := by omega
        simp [hi, memGet, this]
      · simp [hi, memGet, hx, ih]
    · by_cases hx : i = x
      · subst hx
        have : a ≤ i ∧ i < a + n := by omega
        rw [if_pos this]
        simp [hi, ih, this]
      · simp [hi, memGet, hx, ih]

theorem store_wf {a : Nat} {b : Bytes} {s : State} (h : Memory.wf s.mem = true) : Memory.wf (Machine.store a b s).mem = true :=
  memWrite_wf h

theorem zero_wf {a n : Nat} {s : State} (h : Memory.wf s.mem = true) : Memory.wf (Machine.zero a n s).mem = true :=
  memClear_wf h

end Sys2Proof.Laws
end

