-- ==== Sys2Proof/Laws/Reports.lean ====
section
/-! SUPPORT. The fields that the reporting operations leave alone, one lemma for each field and operation. -/

namespace Sys2Proof.Laws

open Sys2Proof.Machine

theorem reportsOnly.time {s t : State} (h : reportsOnly s t) : t.time = s.time := by
  have := congrArg State.time h
  exact this
theorem reportsOnly.ready {s t : State} (h : reportsOnly s t) : t.ready = s.ready := by
  have := congrArg State.ready h
  exact this
theorem reportsOnly.pins {s t : State} (h : reportsOnly s t) : t.pins = s.pins := by
  have := congrArg State.pins h
  exact this
theorem reportsOnly.ft {s t : State} (h : reportsOnly s t) : t.ft = s.ft := by
  have := congrArg State.ft h
  exact this
theorem reportsOnly.brown {s t : State} (h : reportsOnly s t) : t.brown = s.brown := by
  have := congrArg State.brown h
  exact this
theorem reportsOnly.link {s t : State} (h : reportsOnly s t) : t.link = s.link := by
  have := congrArg State.link h
  exact this
theorem reportsOnly.cxl {s t : State} (h : reportsOnly s t) : t.cxl = s.cxl := by
  have := congrArg State.cxl h
  exact this
theorem reportsOnly.boot {s t : State} (h : reportsOnly s t) : t.boot = s.boot := by
  have := congrArg State.boot h
  exact this
theorem reportsOnly.procs {s t : State} (h : reportsOnly s t) : t.procs = s.procs := by
  have := congrArg State.procs h
  exact this
theorem reportsOnly.upd {s t : State} (h : reportsOnly s t) : t.upd = s.upd := by
  have := congrArg State.upd h
  exact this
theorem reportsOnly.hand {s t : State} (h : reportsOnly s t) : t.hand = s.hand := by
  have := congrArg State.hand h
  exact this
theorem reportsOnly.fuses {s t : State} (h : reportsOnly s t) : t.fuses = s.fuses := by
  have := congrArg State.fuses h
  exact this
theorem reportsOnly.sec {s t : State} (h : reportsOnly s t) : t.sec = s.sec := by
  have := congrArg State.sec h
  exact this
theorem reportsOnly.nor {s t : State} (h : reportsOnly s t) : t.nor = s.nor := by
  have := congrArg State.nor h
  exact this
theorem reportsOnly.prov {s t : State} (h : reportsOnly s t) : t.prov = s.prov := by
  have := congrArg State.prov h
  exact this
theorem reportsOnly.settings {s t : State} (h : reportsOnly s t) : t.settings = s.settings := by
  have := congrArg State.settings h
  exact this
theorem reportsOnly.hbm {s t : State} (h : reportsOnly s t) : t.hbm = s.hbm := by
  have := congrArg State.hbm h
  exact this
theorem reportsOnly.store {s t : State} (h : reportsOnly s t) : t.store = s.store := by
  have := congrArg State.store h
  exact this
theorem reportsOnly.bufs {s t : State} (h : reportsOnly s t) : t.bufs = s.bufs := by
  have := congrArg State.bufs h
  exact this
theorem reportsOnly.cores {s t : State} (h : reportsOnly s t) : t.cores = s.cores := by
  have := congrArg State.cores h
  exact this
theorem reportsOnly.ctrs {s t : State} (h : reportsOnly s t) : t.ctrs = s.ctrs := by
  have := congrArg State.ctrs h
  exact this
theorem reportsOnly.engines {s t : State} (h : reportsOnly s t) : t.engines = s.engines := by
  have := congrArg State.engines h
  exact this
theorem reportsOnly.chipDma {s t : State} (h : reportsOnly s t) : t.chipDma = s.chipDma := by
  have := congrArg State.chipDma h
  exact this
theorem reportsOnly.progs {s t : State} (h : reportsOnly s t) : t.progs = s.progs := by
  have := congrArg State.progs h
  exact this
theorem reportsOnly.tasks {s t : State} (h : reportsOnly s t) : t.tasks = s.tasks := by
  have := congrArg State.tasks h
  exact this
theorem reportsOnly.nextTask {s t : State} (h : reportsOnly s t) : t.nextTask = s.nextTask := by
  have := congrArg State.nextTask h
  exact this
theorem reportsOnly.turn {s t : State} (h : reportsOnly s t) : t.turn = s.turn := by
  have := congrArg State.turn h
  exact this
theorem reportsOnly.kv {s t : State} (h : reportsOnly s t) : t.kv = s.kv := by
  have := congrArg State.kv h
  exact this
theorem reportsOnly.serve {s t : State} (h : reportsOnly s t) : t.serve = s.serve := by
  have := congrArg State.serve h
  exact this
theorem reportsOnly.flint {s t : State} (h : reportsOnly s t) : t.flint = s.flint := by
  have := congrArg State.flint h
  exact this
theorem reportsOnly.fab {s t : State} (h : reportsOnly s t) : t.fab = s.fab := by
  have := congrArg State.fab h
  exact this
theorem reportsOnly.power {s t : State} (h : reportsOnly s t) : t.power = s.power := by
  have := congrArg State.power h
  exact this
theorem reportsOnly.caps {s t : State} (h : reportsOnly s t) : t.caps = s.caps := by
  have := congrArg State.caps h
  exact this
theorem reportsOnly.meter {s t : State} (h : reportsOnly s t) : t.meter = s.meter := by
  have := congrArg State.meter h
  exact this
theorem reportsOnly.thermal {s t : State} (h : reportsOnly s t) : t.thermal = s.thermal := by
  have := congrArg State.thermal h
  exact this
theorem reportsOnly.side {s t : State} (h : reportsOnly s t) : t.side = s.side := by
  have := congrArg State.side h
  exact this
theorem reportsOnly.issued {s t : State} (h : reportsOnly s t) : t.issued = s.issued := by
  have := congrArg State.issued h
  exact this
theorem reportsOnly.mem {s t : State} (h : reportsOnly s t) : t.mem = s.mem := by
  have := congrArg State.mem h
  exact this
theorem reportsOnly.pending {s t : State} (h : reportsOnly s t) : t.pending = s.pending := by
  have := congrArg State.pending h
  exact this

@[simp] theorem raiseVec_time (f v : Nat) (s : State) : (raiseVec f v s).time = s.time := (raiseVec_reports f v s).time
@[simp] theorem raiseVec_ready (f v : Nat) (s : State) : (raiseVec f v s).ready = s.ready := (raiseVec_reports f v s).ready
@[simp] theorem raiseVec_pins (f v : Nat) (s : State) : (raiseVec f v s).pins = s.pins := (raiseVec_reports f v s).pins
@[simp] theorem raiseVec_ft (f v : Nat) (s : State) : (raiseVec f v s).ft = s.ft := (raiseVec_reports f v s).ft
@[simp] theorem raiseVec_brown (f v : Nat) (s : State) : (raiseVec f v s).brown = s.brown := (raiseVec_reports f v s).brown
@[simp] theorem raiseVec_link (f v : Nat) (s : State) : (raiseVec f v s).link = s.link := (raiseVec_reports f v s).link
@[simp] theorem raiseVec_cxl (f v : Nat) (s : State) : (raiseVec f v s).cxl = s.cxl := (raiseVec_reports f v s).cxl
@[simp] theorem raiseVec_boot (f v : Nat) (s : State) : (raiseVec f v s).boot = s.boot := (raiseVec_reports f v s).boot
@[simp] theorem raiseVec_procs (f v : Nat) (s : State) : (raiseVec f v s).procs = s.procs := (raiseVec_reports f v s).procs
@[simp] theorem raiseVec_upd (f v : Nat) (s : State) : (raiseVec f v s).upd = s.upd := (raiseVec_reports f v s).upd
@[simp] theorem raiseVec_hand (f v : Nat) (s : State) : (raiseVec f v s).hand = s.hand := (raiseVec_reports f v s).hand
@[simp] theorem raiseVec_fuses (f v : Nat) (s : State) : (raiseVec f v s).fuses = s.fuses := (raiseVec_reports f v s).fuses
@[simp] theorem raiseVec_sec (f v : Nat) (s : State) : (raiseVec f v s).sec = s.sec := (raiseVec_reports f v s).sec
@[simp] theorem raiseVec_nor (f v : Nat) (s : State) : (raiseVec f v s).nor = s.nor := (raiseVec_reports f v s).nor
@[simp] theorem raiseVec_prov (f v : Nat) (s : State) : (raiseVec f v s).prov = s.prov := (raiseVec_reports f v s).prov
@[simp] theorem raiseVec_settings (f v : Nat) (s : State) : (raiseVec f v s).settings = s.settings := (raiseVec_reports f v s).settings
@[simp] theorem raiseVec_hbm (f v : Nat) (s : State) : (raiseVec f v s).hbm = s.hbm := (raiseVec_reports f v s).hbm
@[simp] theorem raiseVec_store (f v : Nat) (s : State) : (raiseVec f v s).store = s.store := (raiseVec_reports f v s).store
@[simp] theorem raiseVec_bufs (f v : Nat) (s : State) : (raiseVec f v s).bufs = s.bufs := (raiseVec_reports f v s).bufs
@[simp] theorem raiseVec_cores (f v : Nat) (s : State) : (raiseVec f v s).cores = s.cores := (raiseVec_reports f v s).cores
@[simp] theorem raiseVec_ctrs (f v : Nat) (s : State) : (raiseVec f v s).ctrs = s.ctrs := (raiseVec_reports f v s).ctrs
@[simp] theorem raiseVec_engines (f v : Nat) (s : State) : (raiseVec f v s).engines = s.engines := (raiseVec_reports f v s).engines
@[simp] theorem raiseVec_chipDma (f v : Nat) (s : State) : (raiseVec f v s).chipDma = s.chipDma := (raiseVec_reports f v s).chipDma
@[simp] theorem raiseVec_progs (f v : Nat) (s : State) : (raiseVec f v s).progs = s.progs := (raiseVec_reports f v s).progs
@[simp] theorem raiseVec_tasks (f v : Nat) (s : State) : (raiseVec f v s).tasks = s.tasks := (raiseVec_reports f v s).tasks
@[simp] theorem raiseVec_nextTask (f v : Nat) (s : State) : (raiseVec f v s).nextTask = s.nextTask := (raiseVec_reports f v s).nextTask
@[simp] theorem raiseVec_turn (f v : Nat) (s : State) : (raiseVec f v s).turn = s.turn := (raiseVec_reports f v s).turn
@[simp] theorem raiseVec_kv (f v : Nat) (s : State) : (raiseVec f v s).kv = s.kv := (raiseVec_reports f v s).kv
@[simp] theorem raiseVec_serve (f v : Nat) (s : State) : (raiseVec f v s).serve = s.serve := (raiseVec_reports f v s).serve
@[simp] theorem raiseVec_flint (f v : Nat) (s : State) : (raiseVec f v s).flint = s.flint := (raiseVec_reports f v s).flint
@[simp] theorem raiseVec_fab (f v : Nat) (s : State) : (raiseVec f v s).fab = s.fab := (raiseVec_reports f v s).fab
@[simp] theorem raiseVec_power (f v : Nat) (s : State) : (raiseVec f v s).power = s.power := (raiseVec_reports f v s).power
@[simp] theorem raiseVec_caps (f v : Nat) (s : State) : (raiseVec f v s).caps = s.caps := (raiseVec_reports f v s).caps
@[simp] theorem raiseVec_meter (f v : Nat) (s : State) : (raiseVec f v s).meter = s.meter := (raiseVec_reports f v s).meter
@[simp] theorem raiseVec_thermal (f v : Nat) (s : State) : (raiseVec f v s).thermal = s.thermal := (raiseVec_reports f v s).thermal
@[simp] theorem raiseVec_side (f v : Nat) (s : State) : (raiseVec f v s).side = s.side := (raiseVec_reports f v s).side
@[simp] theorem raiseVec_issued (f v : Nat) (s : State) : (raiseVec f v s).issued = s.issued := (raiseVec_reports f v s).issued
@[simp] theorem raiseVec_mem (f v : Nat) (s : State) : (raiseVec f v s).mem = s.mem := (raiseVec_reports f v s).mem
@[simp] theorem raiseVec_pending (f v : Nat) (s : State) : (raiseVec f v s).pending = s.pending := (raiseVec_reports f v s).pending

@[simp] theorem raiseAll_time (s : State) : (raiseAll s).time = s.time := (raiseAll_reports s).time
@[simp] theorem raiseAll_ready (s : State) : (raiseAll s).ready = s.ready := (raiseAll_reports s).ready
@[simp] theorem raiseAll_pins (s : State) : (raiseAll s).pins = s.pins := (raiseAll_reports s).pins
@[simp] theorem raiseAll_ft (s : State) : (raiseAll s).ft = s.ft := (raiseAll_reports s).ft
@[simp] theorem raiseAll_brown (s : State) : (raiseAll s).brown = s.brown := (raiseAll_reports s).brown
@[simp] theorem raiseAll_link (s : State) : (raiseAll s).link = s.link := (raiseAll_reports s).link
@[simp] theorem raiseAll_cxl (s : State) : (raiseAll s).cxl = s.cxl := (raiseAll_reports s).cxl
@[simp] theorem raiseAll_boot (s : State) : (raiseAll s).boot = s.boot := (raiseAll_reports s).boot
@[simp] theorem raiseAll_procs (s : State) : (raiseAll s).procs = s.procs := (raiseAll_reports s).procs
@[simp] theorem raiseAll_upd (s : State) : (raiseAll s).upd = s.upd := (raiseAll_reports s).upd
@[simp] theorem raiseAll_hand (s : State) : (raiseAll s).hand = s.hand := (raiseAll_reports s).hand
@[simp] theorem raiseAll_fuses (s : State) : (raiseAll s).fuses = s.fuses := (raiseAll_reports s).fuses
@[simp] theorem raiseAll_sec (s : State) : (raiseAll s).sec = s.sec := (raiseAll_reports s).sec
@[simp] theorem raiseAll_nor (s : State) : (raiseAll s).nor = s.nor := (raiseAll_reports s).nor
@[simp] theorem raiseAll_prov (s : State) : (raiseAll s).prov = s.prov := (raiseAll_reports s).prov
@[simp] theorem raiseAll_settings (s : State) : (raiseAll s).settings = s.settings := (raiseAll_reports s).settings
@[simp] theorem raiseAll_hbm (s : State) : (raiseAll s).hbm = s.hbm := (raiseAll_reports s).hbm
@[simp] theorem raiseAll_store (s : State) : (raiseAll s).store = s.store := (raiseAll_reports s).store
@[simp] theorem raiseAll_bufs (s : State) : (raiseAll s).bufs = s.bufs := (raiseAll_reports s).bufs
@[simp] theorem raiseAll_cores (s : State) : (raiseAll s).cores = s.cores := (raiseAll_reports s).cores
@[simp] theorem raiseAll_ctrs (s : State) : (raiseAll s).ctrs = s.ctrs := (raiseAll_reports s).ctrs
@[simp] theorem raiseAll_engines (s : State) : (raiseAll s).engines = s.engines := (raiseAll_reports s).engines
@[simp] theorem raiseAll_chipDma (s : State) : (raiseAll s).chipDma = s.chipDma := (raiseAll_reports s).chipDma
@[simp] theorem raiseAll_progs (s : State) : (raiseAll s).progs = s.progs := (raiseAll_reports s).progs
@[simp] theorem raiseAll_tasks (s : State) : (raiseAll s).tasks = s.tasks := (raiseAll_reports s).tasks
@[simp] theorem raiseAll_nextTask (s : State) : (raiseAll s).nextTask = s.nextTask := (raiseAll_reports s).nextTask
@[simp] theorem raiseAll_turn (s : State) : (raiseAll s).turn = s.turn := (raiseAll_reports s).turn
@[simp] theorem raiseAll_kv (s : State) : (raiseAll s).kv = s.kv := (raiseAll_reports s).kv
@[simp] theorem raiseAll_serve (s : State) : (raiseAll s).serve = s.serve := (raiseAll_reports s).serve
@[simp] theorem raiseAll_flint (s : State) : (raiseAll s).flint = s.flint := (raiseAll_reports s).flint
@[simp] theorem raiseAll_fab (s : State) : (raiseAll s).fab = s.fab := (raiseAll_reports s).fab
@[simp] theorem raiseAll_power (s : State) : (raiseAll s).power = s.power := (raiseAll_reports s).power
@[simp] theorem raiseAll_caps (s : State) : (raiseAll s).caps = s.caps := (raiseAll_reports s).caps
@[simp] theorem raiseAll_meter (s : State) : (raiseAll s).meter = s.meter := (raiseAll_reports s).meter
@[simp] theorem raiseAll_thermal (s : State) : (raiseAll s).thermal = s.thermal := (raiseAll_reports s).thermal
@[simp] theorem raiseAll_side (s : State) : (raiseAll s).side = s.side := (raiseAll_reports s).side
@[simp] theorem raiseAll_issued (s : State) : (raiseAll s).issued = s.issued := (raiseAll_reports s).issued
@[simp] theorem raiseAll_mem (s : State) : (raiseAll s).mem = s.mem := (raiseAll_reports s).mem
@[simp] theorem raiseAll_pending (s : State) : (raiseAll s).pending = s.pending := (raiseAll_reports s).pending

@[simp] theorem sendPending_time (f : Nat) (s : State) : (sendPending f s).time = s.time := (sendPending_reports f s).time
@[simp] theorem sendPending_ready (f : Nat) (s : State) : (sendPending f s).ready = s.ready := (sendPending_reports f s).ready
@[simp] theorem sendPending_pins (f : Nat) (s : State) : (sendPending f s).pins = s.pins := (sendPending_reports f s).pins
@[simp] theorem sendPending_ft (f : Nat) (s : State) : (sendPending f s).ft = s.ft := (sendPending_reports f s).ft
@[simp] theorem sendPending_brown (f : Nat) (s : State) : (sendPending f s).brown = s.brown := (sendPending_reports f s).brown
@[simp] theorem sendPending_link (f : Nat) (s : State) : (sendPending f s).link = s.link := (sendPending_reports f s).link
@[simp] theorem sendPending_cxl (f : Nat) (s : State) : (sendPending f s).cxl = s.cxl := (sendPending_reports f s).cxl
@[simp] theorem sendPending_boot (f : Nat) (s : State) : (sendPending f s).boot = s.boot := (sendPending_reports f s).boot
@[simp] theorem sendPending_procs (f : Nat) (s : State) : (sendPending f s).procs = s.procs := (sendPending_reports f s).procs
@[simp] theorem sendPending_upd (f : Nat) (s : State) : (sendPending f s).upd = s.upd := (sendPending_reports f s).upd
@[simp] theorem sendPending_hand (f : Nat) (s : State) : (sendPending f s).hand = s.hand := (sendPending_reports f s).hand
@[simp] theorem sendPending_fuses (f : Nat) (s : State) : (sendPending f s).fuses = s.fuses := (sendPending_reports f s).fuses
@[simp] theorem sendPending_sec (f : Nat) (s : State) : (sendPending f s).sec = s.sec := (sendPending_reports f s).sec
@[simp] theorem sendPending_nor (f : Nat) (s : State) : (sendPending f s).nor = s.nor := (sendPending_reports f s).nor
@[simp] theorem sendPending_prov (f : Nat) (s : State) : (sendPending f s).prov = s.prov := (sendPending_reports f s).prov
@[simp] theorem sendPending_settings (f : Nat) (s : State) : (sendPending f s).settings = s.settings := (sendPending_reports f s).settings
@[simp] theorem sendPending_hbm (f : Nat) (s : State) : (sendPending f s).hbm = s.hbm := (sendPending_reports f s).hbm
@[simp] theorem sendPending_store (f : Nat) (s : State) : (sendPending f s).store = s.store := (sendPending_reports f s).store
@[simp] theorem sendPending_bufs (f : Nat) (s : State) : (sendPending f s).bufs = s.bufs := (sendPending_reports f s).bufs
@[simp] theorem sendPending_cores (f : Nat) (s : State) : (sendPending f s).cores = s.cores := (sendPending_reports f s).cores
@[simp] theorem sendPending_ctrs (f : Nat) (s : State) : (sendPending f s).ctrs = s.ctrs := (sendPending_reports f s).ctrs
@[simp] theorem sendPending_engines (f : Nat) (s : State) : (sendPending f s).engines = s.engines := (sendPending_reports f s).engines
@[simp] theorem sendPending_chipDma (f : Nat) (s : State) : (sendPending f s).chipDma = s.chipDma := (sendPending_reports f s).chipDma
@[simp] theorem sendPending_progs (f : Nat) (s : State) : (sendPending f s).progs = s.progs := (sendPending_reports f s).progs
@[simp] theorem sendPending_tasks (f : Nat) (s : State) : (sendPending f s).tasks = s.tasks := (sendPending_reports f s).tasks
@[simp] theorem sendPending_nextTask (f : Nat) (s : State) : (sendPending f s).nextTask = s.nextTask := (sendPending_reports f s).nextTask
@[simp] theorem sendPending_turn (f : Nat) (s : State) : (sendPending f s).turn = s.turn := (sendPending_reports f s).turn
@[simp] theorem sendPending_kv (f : Nat) (s : State) : (sendPending f s).kv = s.kv := (sendPending_reports f s).kv
@[simp] theorem sendPending_serve (f : Nat) (s : State) : (sendPending f s).serve = s.serve := (sendPending_reports f s).serve
@[simp] theorem sendPending_flint (f : Nat) (s : State) : (sendPending f s).flint = s.flint := (sendPending_reports f s).flint
@[simp] theorem sendPending_fab (f : Nat) (s : State) : (sendPending f s).fab = s.fab := (sendPending_reports f s).fab
@[simp] theorem sendPending_power (f : Nat) (s : State) : (sendPending f s).power = s.power := (sendPending_reports f s).power
@[simp] theorem sendPending_caps (f : Nat) (s : State) : (sendPending f s).caps = s.caps := (sendPending_reports f s).caps
@[simp] theorem sendPending_meter (f : Nat) (s : State) : (sendPending f s).meter = s.meter := (sendPending_reports f s).meter
@[simp] theorem sendPending_thermal (f : Nat) (s : State) : (sendPending f s).thermal = s.thermal := (sendPending_reports f s).thermal
@[simp] theorem sendPending_side (f : Nat) (s : State) : (sendPending f s).side = s.side := (sendPending_reports f s).side
@[simp] theorem sendPending_issued (f : Nat) (s : State) : (sendPending f s).issued = s.issued := (sendPending_reports f s).issued
@[simp] theorem sendPending_mem (f : Nat) (s : State) : (sendPending f s).mem = s.mem := (sendPending_reports f s).mem
@[simp] theorem sendPending_pending (f : Nat) (s : State) : (sendPending f s).pending = s.pending := (sendPending_reports f s).pending

@[simp] theorem post_time (f q : Nat) (e : Cqe) (s : State) : (post f q e s).time = s.time := (post_reports f q e s).time
@[simp] theorem post_ready (f q : Nat) (e : Cqe) (s : State) : (post f q e s).ready = s.ready := (post_reports f q e s).ready
@[simp] theorem post_pins (f q : Nat) (e : Cqe) (s : State) : (post f q e s).pins = s.pins := (post_reports f q e s).pins
@[simp] theorem post_ft (f q : Nat) (e : Cqe) (s : State) : (post f q e s).ft = s.ft := (post_reports f q e s).ft
@[simp] theorem post_brown (f q : Nat) (e : Cqe) (s : State) : (post f q e s).brown = s.brown := (post_reports f q e s).brown
@[simp] theorem post_link (f q : Nat) (e : Cqe) (s : State) : (post f q e s).link = s.link := (post_reports f q e s).link
@[simp] theorem post_cxl (f q : Nat) (e : Cqe) (s : State) : (post f q e s).cxl = s.cxl := (post_reports f q e s).cxl
@[simp] theorem post_boot (f q : Nat) (e : Cqe) (s : State) : (post f q e s).boot = s.boot := (post_reports f q e s).boot
@[simp] theorem post_procs (f q : Nat) (e : Cqe) (s : State) : (post f q e s).procs = s.procs := (post_reports f q e s).procs
@[simp] theorem post_upd (f q : Nat) (e : Cqe) (s : State) : (post f q e s).upd = s.upd := (post_reports f q e s).upd
@[simp] theorem post_hand (f q : Nat) (e : Cqe) (s : State) : (post f q e s).hand = s.hand := (post_reports f q e s).hand
@[simp] theorem post_fuses (f q : Nat) (e : Cqe) (s : State) : (post f q e s).fuses = s.fuses := (post_reports f q e s).fuses
@[simp] theorem post_sec (f q : Nat) (e : Cqe) (s : State) : (post f q e s).sec = s.sec := (post_reports f q e s).sec
@[simp] theorem post_nor (f q : Nat) (e : Cqe) (s : State) : (post f q e s).nor = s.nor := (post_reports f q e s).nor
@[simp] theorem post_prov (f q : Nat) (e : Cqe) (s : State) : (post f q e s).prov = s.prov := (post_reports f q e s).prov
@[simp] theorem post_settings (f q : Nat) (e : Cqe) (s : State) : (post f q e s).settings = s.settings := (post_reports f q e s).settings
@[simp] theorem post_hbm (f q : Nat) (e : Cqe) (s : State) : (post f q e s).hbm = s.hbm := (post_reports f q e s).hbm
@[simp] theorem post_store (f q : Nat) (e : Cqe) (s : State) : (post f q e s).store = s.store := (post_reports f q e s).store
@[simp] theorem post_bufs (f q : Nat) (e : Cqe) (s : State) : (post f q e s).bufs = s.bufs := (post_reports f q e s).bufs
@[simp] theorem post_cores (f q : Nat) (e : Cqe) (s : State) : (post f q e s).cores = s.cores := (post_reports f q e s).cores
@[simp] theorem post_ctrs (f q : Nat) (e : Cqe) (s : State) : (post f q e s).ctrs = s.ctrs := (post_reports f q e s).ctrs
@[simp] theorem post_engines (f q : Nat) (e : Cqe) (s : State) : (post f q e s).engines = s.engines := (post_reports f q e s).engines
@[simp] theorem post_chipDma (f q : Nat) (e : Cqe) (s : State) : (post f q e s).chipDma = s.chipDma := (post_reports f q e s).chipDma
@[simp] theorem post_progs (f q : Nat) (e : Cqe) (s : State) : (post f q e s).progs = s.progs := (post_reports f q e s).progs
@[simp] theorem post_tasks (f q : Nat) (e : Cqe) (s : State) : (post f q e s).tasks = s.tasks := (post_reports f q e s).tasks
@[simp] theorem post_nextTask (f q : Nat) (e : Cqe) (s : State) : (post f q e s).nextTask = s.nextTask := (post_reports f q e s).nextTask
@[simp] theorem post_turn (f q : Nat) (e : Cqe) (s : State) : (post f q e s).turn = s.turn := (post_reports f q e s).turn
@[simp] theorem post_kv (f q : Nat) (e : Cqe) (s : State) : (post f q e s).kv = s.kv := (post_reports f q e s).kv
@[simp] theorem post_serve (f q : Nat) (e : Cqe) (s : State) : (post f q e s).serve = s.serve := (post_reports f q e s).serve
@[simp] theorem post_flint (f q : Nat) (e : Cqe) (s : State) : (post f q e s).flint = s.flint := (post_reports f q e s).flint
@[simp] theorem post_fab (f q : Nat) (e : Cqe) (s : State) : (post f q e s).fab = s.fab := (post_reports f q e s).fab
@[simp] theorem post_power (f q : Nat) (e : Cqe) (s : State) : (post f q e s).power = s.power := (post_reports f q e s).power
@[simp] theorem post_caps (f q : Nat) (e : Cqe) (s : State) : (post f q e s).caps = s.caps := (post_reports f q e s).caps
@[simp] theorem post_meter (f q : Nat) (e : Cqe) (s : State) : (post f q e s).meter = s.meter := (post_reports f q e s).meter
@[simp] theorem post_thermal (f q : Nat) (e : Cqe) (s : State) : (post f q e s).thermal = s.thermal := (post_reports f q e s).thermal
@[simp] theorem post_side (f q : Nat) (e : Cqe) (s : State) : (post f q e s).side = s.side := (post_reports f q e s).side
@[simp] theorem post_issued (f q : Nat) (e : Cqe) (s : State) : (post f q e s).issued = s.issued := (post_reports f q e s).issued
@[simp] theorem post_mem (f q : Nat) (e : Cqe) (s : State) : (post f q e s).mem = s.mem := (post_reports f q e s).mem
@[simp] theorem post_pending (f q : Nat) (e : Cqe) (s : State) : (post f q e s).pending = s.pending := (post_reports f q e s).pending

@[simp] theorem postEvent_time (c : Nat) (st : Status) (d : Nat) (s : State) : (postEvent c st d s).time = s.time := (postEvent_reports c st d s).time
@[simp] theorem postEvent_ready (c : Nat) (st : Status) (d : Nat) (s : State) : (postEvent c st d s).ready = s.ready := (postEvent_reports c st d s).ready
@[simp] theorem postEvent_pins (c : Nat) (st : Status) (d : Nat) (s : State) : (postEvent c st d s).pins = s.pins := (postEvent_reports c st d s).pins
@[simp] theorem postEvent_ft (c : Nat) (st : Status) (d : Nat) (s : State) : (postEvent c st d s).ft = s.ft := (postEvent_reports c st d s).ft
@[simp] theorem postEvent_brown (c : Nat) (st : Status) (d : Nat) (s : State) : (postEvent c st d s).brown = s.brown := (postEvent_reports c st d s).brown
@[simp] theorem postEvent_link (c : Nat) (st : Status) (d : Nat) (s : State) : (postEvent c st d s).link = s.link := (postEvent_reports c st d s).link
@[simp] theorem postEvent_cxl (c : Nat) (st : Status) (d : Nat) (s : State) : (postEvent c st d s).cxl = s.cxl := (postEvent_reports c st d s).cxl
@[simp] theorem postEvent_boot (c : Nat) (st : Status) (d : Nat) (s : State) : (postEvent c st d s).boot = s.boot := (postEvent_reports c st d s).boot
@[simp] theorem postEvent_procs (c : Nat) (st : Status) (d : Nat) (s : State) : (postEvent c st d s).procs = s.procs := (postEvent_reports c st d s).procs
@[simp] theorem postEvent_upd (c : Nat) (st : Status) (d : Nat) (s : State) : (postEvent c st d s).upd = s.upd := (postEvent_reports c st d s).upd
@[simp] theorem postEvent_hand (c : Nat) (st : Status) (d : Nat) (s : State) : (postEvent c st d s).hand = s.hand := (postEvent_reports c st d s).hand
@[simp] theorem postEvent_fuses (c : Nat) (st : Status) (d : Nat) (s : State) : (postEvent c st d s).fuses = s.fuses := (postEvent_reports c st d s).fuses
@[simp] theorem postEvent_sec (c : Nat) (st : Status) (d : Nat) (s : State) : (postEvent c st d s).sec = s.sec := (postEvent_reports c st d s).sec
@[simp] theorem postEvent_nor (c : Nat) (st : Status) (d : Nat) (s : State) : (postEvent c st d s).nor = s.nor := (postEvent_reports c st d s).nor
@[simp] theorem postEvent_prov (c : Nat) (st : Status) (d : Nat) (s : State) : (postEvent c st d s).prov = s.prov := (postEvent_reports c st d s).prov
@[simp] theorem postEvent_settings (c : Nat) (st : Status) (d : Nat) (s : State) : (postEvent c st d s).settings = s.settings := (postEvent_reports c st d s).settings
@[simp] theorem postEvent_hbm (c : Nat) (st : Status) (d : Nat) (s : State) : (postEvent c st d s).hbm = s.hbm := (postEvent_reports c st d s).hbm
@[simp] theorem postEvent_store (c : Nat) (st : Status) (d : Nat) (s : State) : (postEvent c st d s).store = s.store := (postEvent_reports c st d s).store
@[simp] theorem postEvent_bufs (c : Nat) (st : Status) (d : Nat) (s : State) : (postEvent c st d s).bufs = s.bufs := (postEvent_reports c st d s).bufs
@[simp] theorem postEvent_cores (c : Nat) (st : Status) (d : Nat) (s : State) : (postEvent c st d s).cores = s.cores := (postEvent_reports c st d s).cores
@[simp] theorem postEvent_ctrs (c : Nat) (st : Status) (d : Nat) (s : State) : (postEvent c st d s).ctrs = s.ctrs := (postEvent_reports c st d s).ctrs
@[simp] theorem postEvent_engines (c : Nat) (st : Status) (d : Nat) (s : State) : (postEvent c st d s).engines = s.engines := (postEvent_reports c st d s).engines
@[simp] theorem postEvent_chipDma (c : Nat) (st : Status) (d : Nat) (s : State) : (postEvent c st d s).chipDma = s.chipDma := (postEvent_reports c st d s).chipDma
@[simp] theorem postEvent_progs (c : Nat) (st : Status) (d : Nat) (s : State) : (postEvent c st d s).progs = s.progs := (postEvent_reports c st d s).progs
@[simp] theorem postEvent_tasks (c : Nat) (st : Status) (d : Nat) (s : State) : (postEvent c st d s).tasks = s.tasks := (postEvent_reports c st d s).tasks
@[simp] theorem postEvent_nextTask (c : Nat) (st : Status) (d : Nat) (s : State) : (postEvent c st d s).nextTask = s.nextTask := (postEvent_reports c st d s).nextTask
@[simp] theorem postEvent_turn (c : Nat) (st : Status) (d : Nat) (s : State) : (postEvent c st d s).turn = s.turn := (postEvent_reports c st d s).turn
@[simp] theorem postEvent_kv (c : Nat) (st : Status) (d : Nat) (s : State) : (postEvent c st d s).kv = s.kv := (postEvent_reports c st d s).kv
@[simp] theorem postEvent_serve (c : Nat) (st : Status) (d : Nat) (s : State) : (postEvent c st d s).serve = s.serve := (postEvent_reports c st d s).serve
@[simp] theorem postEvent_flint (c : Nat) (st : Status) (d : Nat) (s : State) : (postEvent c st d s).flint = s.flint := (postEvent_reports c st d s).flint
@[simp] theorem postEvent_fab (c : Nat) (st : Status) (d : Nat) (s : State) : (postEvent c st d s).fab = s.fab := (postEvent_reports c st d s).fab
@[simp] theorem postEvent_power (c : Nat) (st : Status) (d : Nat) (s : State) : (postEvent c st d s).power = s.power := (postEvent_reports c st d s).power
@[simp] theorem postEvent_caps (c : Nat) (st : Status) (d : Nat) (s : State) : (postEvent c st d s).caps = s.caps := (postEvent_reports c st d s).caps
@[simp] theorem postEvent_meter (c : Nat) (st : Status) (d : Nat) (s : State) : (postEvent c st d s).meter = s.meter := (postEvent_reports c st d s).meter
@[simp] theorem postEvent_thermal (c : Nat) (st : Status) (d : Nat) (s : State) : (postEvent c st d s).thermal = s.thermal := (postEvent_reports c st d s).thermal
@[simp] theorem postEvent_side (c : Nat) (st : Status) (d : Nat) (s : State) : (postEvent c st d s).side = s.side := (postEvent_reports c st d s).side
@[simp] theorem postEvent_issued (c : Nat) (st : Status) (d : Nat) (s : State) : (postEvent c st d s).issued = s.issued := (postEvent_reports c st d s).issued
@[simp] theorem postEvent_mem (c : Nat) (st : Status) (d : Nat) (s : State) : (postEvent c st d s).mem = s.mem := (postEvent_reports c st d s).mem
@[simp] theorem postEvent_pending (c : Nat) (st : Status) (d : Nat) (s : State) : (postEvent c st d s).pending = s.pending := (postEvent_reports c st d s).pending

@[simp] theorem complete_time (f : Nat) (q : Option Nat) (e : Cqe) (s : State) : (complete f q e s).time = s.time := (complete_reports f q e s).time
@[simp] theorem complete_ready (f : Nat) (q : Option Nat) (e : Cqe) (s : State) : (complete f q e s).ready = s.ready := (complete_reports f q e s).ready
@[simp] theorem complete_pins (f : Nat) (q : Option Nat) (e : Cqe) (s : State) : (complete f q e s).pins = s.pins := (complete_reports f q e s).pins
@[simp] theorem complete_ft (f : Nat) (q : Option Nat) (e : Cqe) (s : State) : (complete f q e s).ft = s.ft := (complete_reports f q e s).ft
@[simp] theorem complete_brown (f : Nat) (q : Option Nat) (e : Cqe) (s : State) : (complete f q e s).brown = s.brown := (complete_reports f q e s).brown
@[simp] theorem complete_link (f : Nat) (q : Option Nat) (e : Cqe) (s : State) : (complete f q e s).link = s.link := (complete_reports f q e s).link
@[simp] theorem complete_cxl (f : Nat) (q : Option Nat) (e : Cqe) (s : State) : (complete f q e s).cxl = s.cxl := (complete_reports f q e s).cxl
@[simp] theorem complete_boot (f : Nat) (q : Option Nat) (e : Cqe) (s : State) : (complete f q e s).boot = s.boot := (complete_reports f q e s).boot
@[simp] theorem complete_procs (f : Nat) (q : Option Nat) (e : Cqe) (s : State) : (complete f q e s).procs = s.procs := (complete_reports f q e s).procs
@[simp] theorem complete_upd (f : Nat) (q : Option Nat) (e : Cqe) (s : State) : (complete f q e s).upd = s.upd := (complete_reports f q e s).upd
@[simp] theorem complete_hand (f : Nat) (q : Option Nat) (e : Cqe) (s : State) : (complete f q e s).hand = s.hand := (complete_reports f q e s).hand
@[simp] theorem complete_fuses (f : Nat) (q : Option Nat) (e : Cqe) (s : State) : (complete f q e s).fuses = s.fuses := (complete_reports f q e s).fuses
@[simp] theorem complete_sec (f : Nat) (q : Option Nat) (e : Cqe) (s : State) : (complete f q e s).sec = s.sec := (complete_reports f q e s).sec
@[simp] theorem complete_nor (f : Nat) (q : Option Nat) (e : Cqe) (s : State) : (complete f q e s).nor = s.nor := (complete_reports f q e s).nor
@[simp] theorem complete_prov (f : Nat) (q : Option Nat) (e : Cqe) (s : State) : (complete f q e s).prov = s.prov := (complete_reports f q e s).prov
@[simp] theorem complete_settings (f : Nat) (q : Option Nat) (e : Cqe) (s : State) : (complete f q e s).settings = s.settings := (complete_reports f q e s).settings
@[simp] theorem complete_hbm (f : Nat) (q : Option Nat) (e : Cqe) (s : State) : (complete f q e s).hbm = s.hbm := (complete_reports f q e s).hbm
@[simp] theorem complete_store (f : Nat) (q : Option Nat) (e : Cqe) (s : State) : (complete f q e s).store = s.store := (complete_reports f q e s).store
@[simp] theorem complete_bufs (f : Nat) (q : Option Nat) (e : Cqe) (s : State) : (complete f q e s).bufs = s.bufs := (complete_reports f q e s).bufs
@[simp] theorem complete_cores (f : Nat) (q : Option Nat) (e : Cqe) (s : State) : (complete f q e s).cores = s.cores := (complete_reports f q e s).cores
@[simp] theorem complete_ctrs (f : Nat) (q : Option Nat) (e : Cqe) (s : State) : (complete f q e s).ctrs = s.ctrs := (complete_reports f q e s).ctrs
@[simp] theorem complete_engines (f : Nat) (q : Option Nat) (e : Cqe) (s : State) : (complete f q e s).engines = s.engines := (complete_reports f q e s).engines
@[simp] theorem complete_chipDma (f : Nat) (q : Option Nat) (e : Cqe) (s : State) : (complete f q e s).chipDma = s.chipDma := (complete_reports f q e s).chipDma
@[simp] theorem complete_progs (f : Nat) (q : Option Nat) (e : Cqe) (s : State) : (complete f q e s).progs = s.progs := (complete_reports f q e s).progs
@[simp] theorem complete_tasks (f : Nat) (q : Option Nat) (e : Cqe) (s : State) : (complete f q e s).tasks = s.tasks := (complete_reports f q e s).tasks
@[simp] theorem complete_nextTask (f : Nat) (q : Option Nat) (e : Cqe) (s : State) : (complete f q e s).nextTask = s.nextTask := (complete_reports f q e s).nextTask
@[simp] theorem complete_turn (f : Nat) (q : Option Nat) (e : Cqe) (s : State) : (complete f q e s).turn = s.turn := (complete_reports f q e s).turn
@[simp] theorem complete_kv (f : Nat) (q : Option Nat) (e : Cqe) (s : State) : (complete f q e s).kv = s.kv := (complete_reports f q e s).kv
@[simp] theorem complete_serve (f : Nat) (q : Option Nat) (e : Cqe) (s : State) : (complete f q e s).serve = s.serve := (complete_reports f q e s).serve
@[simp] theorem complete_flint (f : Nat) (q : Option Nat) (e : Cqe) (s : State) : (complete f q e s).flint = s.flint := (complete_reports f q e s).flint
@[simp] theorem complete_fab (f : Nat) (q : Option Nat) (e : Cqe) (s : State) : (complete f q e s).fab = s.fab := (complete_reports f q e s).fab
@[simp] theorem complete_power (f : Nat) (q : Option Nat) (e : Cqe) (s : State) : (complete f q e s).power = s.power := (complete_reports f q e s).power
@[simp] theorem complete_caps (f : Nat) (q : Option Nat) (e : Cqe) (s : State) : (complete f q e s).caps = s.caps := (complete_reports f q e s).caps
@[simp] theorem complete_meter (f : Nat) (q : Option Nat) (e : Cqe) (s : State) : (complete f q e s).meter = s.meter := (complete_reports f q e s).meter
@[simp] theorem complete_thermal (f : Nat) (q : Option Nat) (e : Cqe) (s : State) : (complete f q e s).thermal = s.thermal := (complete_reports f q e s).thermal
@[simp] theorem complete_side (f : Nat) (q : Option Nat) (e : Cqe) (s : State) : (complete f q e s).side = s.side := (complete_reports f q e s).side
@[simp] theorem complete_issued (f : Nat) (q : Option Nat) (e : Cqe) (s : State) : (complete f q e s).issued = s.issued := (complete_reports f q e s).issued
@[simp] theorem complete_mem (f : Nat) (q : Option Nat) (e : Cqe) (s : State) : (complete f q e s).mem = s.mem := (complete_reports f q e s).mem
@[simp] theorem complete_pending (f : Nat) (q : Option Nat) (e : Cqe) (s : State) : (complete f q e s).pending = s.pending := (complete_reports f q e s).pending

@[simp] theorem answer_time (c : Cmd) (st : Status) (h : Nat) (r : BitVec 320) (s : State) : (c.answer st h r s).time = s.time := (answer_reports c st h r s).time
@[simp] theorem answer_ready (c : Cmd) (st : Status) (h : Nat) (r : BitVec 320) (s : State) : (c.answer st h r s).ready = s.ready := (answer_reports c st h r s).ready
@[simp] theorem answer_pins (c : Cmd) (st : Status) (h : Nat) (r : BitVec 320) (s : State) : (c.answer st h r s).pins = s.pins := (answer_reports c st h r s).pins
@[simp] theorem answer_ft (c : Cmd) (st : Status) (h : Nat) (r : BitVec 320) (s : State) : (c.answer st h r s).ft = s.ft := (answer_reports c st h r s).ft
@[simp] theorem answer_brown (c : Cmd) (st : Status) (h : Nat) (r : BitVec 320) (s : State) : (c.answer st h r s).brown = s.brown := (answer_reports c st h r s).brown
@[simp] theorem answer_link (c : Cmd) (st : Status) (h : Nat) (r : BitVec 320) (s : State) : (c.answer st h r s).link = s.link := (answer_reports c st h r s).link
@[simp] theorem answer_cxl (c : Cmd) (st : Status) (h : Nat) (r : BitVec 320) (s : State) : (c.answer st h r s).cxl = s.cxl := (answer_reports c st h r s).cxl
@[simp] theorem answer_boot (c : Cmd) (st : Status) (h : Nat) (r : BitVec 320) (s : State) : (c.answer st h r s).boot = s.boot := (answer_reports c st h r s).boot
@[simp] theorem answer_procs (c : Cmd) (st : Status) (h : Nat) (r : BitVec 320) (s : State) : (c.answer st h r s).procs = s.procs := (answer_reports c st h r s).procs
@[simp] theorem answer_upd (c : Cmd) (st : Status) (h : Nat) (r : BitVec 320) (s : State) : (c.answer st h r s).upd = s.upd := (answer_reports c st h r s).upd
@[simp] theorem answer_hand (c : Cmd) (st : Status) (h : Nat) (r : BitVec 320) (s : State) : (c.answer st h r s).hand = s.hand := (answer_reports c st h r s).hand
@[simp] theorem answer_fuses (c : Cmd) (st : Status) (h : Nat) (r : BitVec 320) (s : State) : (c.answer st h r s).fuses = s.fuses := (answer_reports c st h r s).fuses
@[simp] theorem answer_sec (c : Cmd) (st : Status) (h : Nat) (r : BitVec 320) (s : State) : (c.answer st h r s).sec = s.sec := (answer_reports c st h r s).sec
@[simp] theorem answer_nor (c : Cmd) (st : Status) (h : Nat) (r : BitVec 320) (s : State) : (c.answer st h r s).nor = s.nor := (answer_reports c st h r s).nor
@[simp] theorem answer_prov (c : Cmd) (st : Status) (h : Nat) (r : BitVec 320) (s : State) : (c.answer st h r s).prov = s.prov := (answer_reports c st h r s).prov
@[simp] theorem answer_settings (c : Cmd) (st : Status) (h : Nat) (r : BitVec 320) (s : State) : (c.answer st h r s).settings = s.settings := (answer_reports c st h r s).settings
@[simp] theorem answer_hbm (c : Cmd) (st : Status) (h : Nat) (r : BitVec 320) (s : State) : (c.answer st h r s).hbm = s.hbm := (answer_reports c st h r s).hbm
@[simp] theorem answer_store (c : Cmd) (st : Status) (h : Nat) (r : BitVec 320) (s : State) : (c.answer st h r s).store = s.store := (answer_reports c st h r s).store
@[simp] theorem answer_bufs (c : Cmd) (st : Status) (h : Nat) (r : BitVec 320) (s : State) : (c.answer st h r s).bufs = s.bufs := (answer_reports c st h r s).bufs
@[simp] theorem answer_cores (c : Cmd) (st : Status) (h : Nat) (r : BitVec 320) (s : State) : (c.answer st h r s).cores = s.cores := (answer_reports c st h r s).cores
@[simp] theorem answer_ctrs (c : Cmd) (st : Status) (h : Nat) (r : BitVec 320) (s : State) : (c.answer st h r s).ctrs = s.ctrs := (answer_reports c st h r s).ctrs
@[simp] theorem answer_engines (c : Cmd) (st : Status) (h : Nat) (r : BitVec 320) (s : State) : (c.answer st h r s).engines = s.engines := (answer_reports c st h r s).engines
@[simp] theorem answer_chipDma (c : Cmd) (st : Status) (h : Nat) (r : BitVec 320) (s : State) : (c.answer st h r s).chipDma = s.chipDma := (answer_reports c st h r s).chipDma
@[simp] theorem answer_progs (c : Cmd) (st : Status) (h : Nat) (r : BitVec 320) (s : State) : (c.answer st h r s).progs = s.progs := (answer_reports c st h r s).progs
@[simp] theorem answer_tasks (c : Cmd) (st : Status) (h : Nat) (r : BitVec 320) (s : State) : (c.answer st h r s).tasks = s.tasks := (answer_reports c st h r s).tasks
@[simp] theorem answer_nextTask (c : Cmd) (st : Status) (h : Nat) (r : BitVec 320) (s : State) : (c.answer st h r s).nextTask = s.nextTask := (answer_reports c st h r s).nextTask
@[simp] theorem answer_turn (c : Cmd) (st : Status) (h : Nat) (r : BitVec 320) (s : State) : (c.answer st h r s).turn = s.turn := (answer_reports c st h r s).turn
@[simp] theorem answer_kv (c : Cmd) (st : Status) (h : Nat) (r : BitVec 320) (s : State) : (c.answer st h r s).kv = s.kv := (answer_reports c st h r s).kv
@[simp] theorem answer_serve (c : Cmd) (st : Status) (h : Nat) (r : BitVec 320) (s : State) : (c.answer st h r s).serve = s.serve := (answer_reports c st h r s).serve
@[simp] theorem answer_flint (c : Cmd) (st : Status) (h : Nat) (r : BitVec 320) (s : State) : (c.answer st h r s).flint = s.flint := (answer_reports c st h r s).flint
@[simp] theorem answer_fab (c : Cmd) (st : Status) (h : Nat) (r : BitVec 320) (s : State) : (c.answer st h r s).fab = s.fab := (answer_reports c st h r s).fab
@[simp] theorem answer_power (c : Cmd) (st : Status) (h : Nat) (r : BitVec 320) (s : State) : (c.answer st h r s).power = s.power := (answer_reports c st h r s).power
@[simp] theorem answer_caps (c : Cmd) (st : Status) (h : Nat) (r : BitVec 320) (s : State) : (c.answer st h r s).caps = s.caps := (answer_reports c st h r s).caps
@[simp] theorem answer_meter (c : Cmd) (st : Status) (h : Nat) (r : BitVec 320) (s : State) : (c.answer st h r s).meter = s.meter := (answer_reports c st h r s).meter
@[simp] theorem answer_thermal (c : Cmd) (st : Status) (h : Nat) (r : BitVec 320) (s : State) : (c.answer st h r s).thermal = s.thermal := (answer_reports c st h r s).thermal
@[simp] theorem answer_side (c : Cmd) (st : Status) (h : Nat) (r : BitVec 320) (s : State) : (c.answer st h r s).side = s.side := (answer_reports c st h r s).side
@[simp] theorem answer_issued (c : Cmd) (st : Status) (h : Nat) (r : BitVec 320) (s : State) : (c.answer st h r s).issued = s.issued := (answer_reports c st h r s).issued
@[simp] theorem answer_mem (c : Cmd) (st : Status) (h : Nat) (r : BitVec 320) (s : State) : (c.answer st h r s).mem = s.mem := (answer_reports c st h r s).mem
@[simp] theorem answer_pending (c : Cmd) (st : Status) (h : Nat) (r : BitVec 320) (s : State) : (c.answer st h r s).pending = s.pending := (answer_reports c st h r s).pending

@[simp] theorem end_time (c : Cmd) (st : Status) (s : State) : (c.end st s).time = s.time := (end_reports c st s).time
@[simp] theorem end_ready (c : Cmd) (st : Status) (s : State) : (c.end st s).ready = s.ready := (end_reports c st s).ready
@[simp] theorem end_pins (c : Cmd) (st : Status) (s : State) : (c.end st s).pins = s.pins := (end_reports c st s).pins
@[simp] theorem end_ft (c : Cmd) (st : Status) (s : State) : (c.end st s).ft = s.ft := (end_reports c st s).ft
@[simp] theorem end_brown (c : Cmd) (st : Status) (s : State) : (c.end st s).brown = s.brown := (end_reports c st s).brown
@[simp] theorem end_link (c : Cmd) (st : Status) (s : State) : (c.end st s).link = s.link := (end_reports c st s).link
@[simp] theorem end_cxl (c : Cmd) (st : Status) (s : State) : (c.end st s).cxl = s.cxl := (end_reports c st s).cxl
@[simp] theorem end_boot (c : Cmd) (st : Status) (s : State) : (c.end st s).boot = s.boot := (end_reports c st s).boot
@[simp] theorem end_procs (c : Cmd) (st : Status) (s : State) : (c.end st s).procs = s.procs := (end_reports c st s).procs
@[simp] theorem end_upd (c : Cmd) (st : Status) (s : State) : (c.end st s).upd = s.upd := (end_reports c st s).upd
@[simp] theorem end_hand (c : Cmd) (st : Status) (s : State) : (c.end st s).hand = s.hand := (end_reports c st s).hand
@[simp] theorem end_fuses (c : Cmd) (st : Status) (s : State) : (c.end st s).fuses = s.fuses := (end_reports c st s).fuses
@[simp] theorem end_sec (c : Cmd) (st : Status) (s : State) : (c.end st s).sec = s.sec := (end_reports c st s).sec
@[simp] theorem end_nor (c : Cmd) (st : Status) (s : State) : (c.end st s).nor = s.nor := (end_reports c st s).nor
@[simp] theorem end_prov (c : Cmd) (st : Status) (s : State) : (c.end st s).prov = s.prov := (end_reports c st s).prov
@[simp] theorem end_settings (c : Cmd) (st : Status) (s : State) : (c.end st s).settings = s.settings := (end_reports c st s).settings
@[simp] theorem end_hbm (c : Cmd) (st : Status) (s : State) : (c.end st s).hbm = s.hbm := (end_reports c st s).hbm
@[simp] theorem end_store (c : Cmd) (st : Status) (s : State) : (c.end st s).store = s.store := (end_reports c st s).store
@[simp] theorem end_bufs (c : Cmd) (st : Status) (s : State) : (c.end st s).bufs = s.bufs := (end_reports c st s).bufs
@[simp] theorem end_cores (c : Cmd) (st : Status) (s : State) : (c.end st s).cores = s.cores := (end_reports c st s).cores
@[simp] theorem end_ctrs (c : Cmd) (st : Status) (s : State) : (c.end st s).ctrs = s.ctrs := (end_reports c st s).ctrs
@[simp] theorem end_engines (c : Cmd) (st : Status) (s : State) : (c.end st s).engines = s.engines := (end_reports c st s).engines
@[simp] theorem end_chipDma (c : Cmd) (st : Status) (s : State) : (c.end st s).chipDma = s.chipDma := (end_reports c st s).chipDma
@[simp] theorem end_progs (c : Cmd) (st : Status) (s : State) : (c.end st s).progs = s.progs := (end_reports c st s).progs
@[simp] theorem end_tasks (c : Cmd) (st : Status) (s : State) : (c.end st s).tasks = s.tasks := (end_reports c st s).tasks
@[simp] theorem end_nextTask (c : Cmd) (st : Status) (s : State) : (c.end st s).nextTask = s.nextTask := (end_reports c st s).nextTask
@[simp] theorem end_turn (c : Cmd) (st : Status) (s : State) : (c.end st s).turn = s.turn := (end_reports c st s).turn
@[simp] theorem end_kv (c : Cmd) (st : Status) (s : State) : (c.end st s).kv = s.kv := (end_reports c st s).kv
@[simp] theorem end_serve (c : Cmd) (st : Status) (s : State) : (c.end st s).serve = s.serve := (end_reports c st s).serve
@[simp] theorem end_flint (c : Cmd) (st : Status) (s : State) : (c.end st s).flint = s.flint := (end_reports c st s).flint
@[simp] theorem end_fab (c : Cmd) (st : Status) (s : State) : (c.end st s).fab = s.fab := (end_reports c st s).fab
@[simp] theorem end_power (c : Cmd) (st : Status) (s : State) : (c.end st s).power = s.power := (end_reports c st s).power
@[simp] theorem end_caps (c : Cmd) (st : Status) (s : State) : (c.end st s).caps = s.caps := (end_reports c st s).caps
@[simp] theorem end_meter (c : Cmd) (st : Status) (s : State) : (c.end st s).meter = s.meter := (end_reports c st s).meter
@[simp] theorem end_thermal (c : Cmd) (st : Status) (s : State) : (c.end st s).thermal = s.thermal := (end_reports c st s).thermal
@[simp] theorem end_side (c : Cmd) (st : Status) (s : State) : (c.end st s).side = s.side := (end_reports c st s).side
@[simp] theorem end_issued (c : Cmd) (st : Status) (s : State) : (c.end st s).issued = s.issued := (end_reports c st s).issued
@[simp] theorem end_mem (c : Cmd) (st : Status) (s : State) : (c.end st s).mem = s.mem := (end_reports c st s).mem
@[simp] theorem end_pending (c : Cmd) (st : Status) (s : State) : (c.end st s).pending = s.pending := (end_reports c st s).pending

@[simp] theorem endRetry_time (c : Cmd) (st : Status) (r : Nat) (s : State) : (c.endRetry st r s).time = s.time := (endRetry_reports c st r s).time
@[simp] theorem endRetry_ready (c : Cmd) (st : Status) (r : Nat) (s : State) : (c.endRetry st r s).ready = s.ready := (endRetry_reports c st r s).ready
@[simp] theorem endRetry_pins (c : Cmd) (st : Status) (r : Nat) (s : State) : (c.endRetry st r s).pins = s.pins := (endRetry_reports c st r s).pins
@[simp] theorem endRetry_ft (c : Cmd) (st : Status) (r : Nat) (s : State) : (c.endRetry st r s).ft = s.ft := (endRetry_reports c st r s).ft
@[simp] theorem endRetry_brown (c : Cmd) (st : Status) (r : Nat) (s : State) : (c.endRetry st r s).brown = s.brown := (endRetry_reports c st r s).brown
@[simp] theorem endRetry_link (c : Cmd) (st : Status) (r : Nat) (s : State) : (c.endRetry st r s).link = s.link := (endRetry_reports c st r s).link
@[simp] theorem endRetry_cxl (c : Cmd) (st : Status) (r : Nat) (s : State) : (c.endRetry st r s).cxl = s.cxl := (endRetry_reports c st r s).cxl
@[simp] theorem endRetry_boot (c : Cmd) (st : Status) (r : Nat) (s : State) : (c.endRetry st r s).boot = s.boot := (endRetry_reports c st r s).boot
@[simp] theorem endRetry_procs (c : Cmd) (st : Status) (r : Nat) (s : State) : (c.endRetry st r s).procs = s.procs := (endRetry_reports c st r s).procs
@[simp] theorem endRetry_upd (c : Cmd) (st : Status) (r : Nat) (s : State) : (c.endRetry st r s).upd = s.upd := (endRetry_reports c st r s).upd
@[simp] theorem endRetry_hand (c : Cmd) (st : Status) (r : Nat) (s : State) : (c.endRetry st r s).hand = s.hand := (endRetry_reports c st r s).hand
@[simp] theorem endRetry_fuses (c : Cmd) (st : Status) (r : Nat) (s : State) : (c.endRetry st r s).fuses = s.fuses := (endRetry_reports c st r s).fuses
@[simp] theorem endRetry_sec (c : Cmd) (st : Status) (r : Nat) (s : State) : (c.endRetry st r s).sec = s.sec := (endRetry_reports c st r s).sec
@[simp] theorem endRetry_nor (c : Cmd) (st : Status) (r : Nat) (s : State) : (c.endRetry st r s).nor = s.nor := (endRetry_reports c st r s).nor
@[simp] theorem endRetry_prov (c : Cmd) (st : Status) (r : Nat) (s : State) : (c.endRetry st r s).prov = s.prov := (endRetry_reports c st r s).prov
@[simp] theorem endRetry_settings (c : Cmd) (st : Status) (r : Nat) (s : State) : (c.endRetry st r s).settings = s.settings := (endRetry_reports c st r s).settings
@[simp] theorem endRetry_hbm (c : Cmd) (st : Status) (r : Nat) (s : State) : (c.endRetry st r s).hbm = s.hbm := (endRetry_reports c st r s).hbm
@[simp] theorem endRetry_store (c : Cmd) (st : Status) (r : Nat) (s : State) : (c.endRetry st r s).store = s.store := (endRetry_reports c st r s).store
@[simp] theorem endRetry_bufs (c : Cmd) (st : Status) (r : Nat) (s : State) : (c.endRetry st r s).bufs = s.bufs := (endRetry_reports c st r s).bufs
@[simp] theorem endRetry_cores (c : Cmd) (st : Status) (r : Nat) (s : State) : (c.endRetry st r s).cores = s.cores := (endRetry_reports c st r s).cores
@[simp] theorem endRetry_ctrs (c : Cmd) (st : Status) (r : Nat) (s : State) : (c.endRetry st r s).ctrs = s.ctrs := (endRetry_reports c st r s).ctrs
@[simp] theorem endRetry_engines (c : Cmd) (st : Status) (r : Nat) (s : State) : (c.endRetry st r s).engines = s.engines := (endRetry_reports c st r s).engines
@[simp] theorem endRetry_chipDma (c : Cmd) (st : Status) (r : Nat) (s : State) : (c.endRetry st r s).chipDma = s.chipDma := (endRetry_reports c st r s).chipDma
@[simp] theorem endRetry_progs (c : Cmd) (st : Status) (r : Nat) (s : State) : (c.endRetry st r s).progs = s.progs := (endRetry_reports c st r s).progs
@[simp] theorem endRetry_tasks (c : Cmd) (st : Status) (r : Nat) (s : State) : (c.endRetry st r s).tasks = s.tasks := (endRetry_reports c st r s).tasks
@[simp] theorem endRetry_nextTask (c : Cmd) (st : Status) (r : Nat) (s : State) : (c.endRetry st r s).nextTask = s.nextTask := (endRetry_reports c st r s).nextTask
@[simp] theorem endRetry_turn (c : Cmd) (st : Status) (r : Nat) (s : State) : (c.endRetry st r s).turn = s.turn := (endRetry_reports c st r s).turn
@[simp] theorem endRetry_kv (c : Cmd) (st : Status) (r : Nat) (s : State) : (c.endRetry st r s).kv = s.kv := (endRetry_reports c st r s).kv
@[simp] theorem endRetry_serve (c : Cmd) (st : Status) (r : Nat) (s : State) : (c.endRetry st r s).serve = s.serve := (endRetry_reports c st r s).serve
@[simp] theorem endRetry_flint (c : Cmd) (st : Status) (r : Nat) (s : State) : (c.endRetry st r s).flint = s.flint := (endRetry_reports c st r s).flint
@[simp] theorem endRetry_fab (c : Cmd) (st : Status) (r : Nat) (s : State) : (c.endRetry st r s).fab = s.fab := (endRetry_reports c st r s).fab
@[simp] theorem endRetry_power (c : Cmd) (st : Status) (r : Nat) (s : State) : (c.endRetry st r s).power = s.power := (endRetry_reports c st r s).power
@[simp] theorem endRetry_caps (c : Cmd) (st : Status) (r : Nat) (s : State) : (c.endRetry st r s).caps = s.caps := (endRetry_reports c st r s).caps
@[simp] theorem endRetry_meter (c : Cmd) (st : Status) (r : Nat) (s : State) : (c.endRetry st r s).meter = s.meter := (endRetry_reports c st r s).meter
@[simp] theorem endRetry_thermal (c : Cmd) (st : Status) (r : Nat) (s : State) : (c.endRetry st r s).thermal = s.thermal := (endRetry_reports c st r s).thermal
@[simp] theorem endRetry_side (c : Cmd) (st : Status) (r : Nat) (s : State) : (c.endRetry st r s).side = s.side := (endRetry_reports c st r s).side
@[simp] theorem endRetry_issued (c : Cmd) (st : Status) (r : Nat) (s : State) : (c.endRetry st r s).issued = s.issued := (endRetry_reports c st r s).issued
@[simp] theorem endRetry_mem (c : Cmd) (st : Status) (r : Nat) (s : State) : (c.endRetry st r s).mem = s.mem := (endRetry_reports c st r s).mem
@[simp] theorem endRetry_pending (c : Cmd) (st : Status) (r : Nat) (s : State) : (c.endRetry st r s).pending = s.pending := (endRetry_reports c st r s).pending

@[simp] theorem drop_time (c : Cmd) (k : Nat) (s : State) : (c.drop k s).time = s.time := (drop_reports c k s).time
@[simp] theorem drop_ready (c : Cmd) (k : Nat) (s : State) : (c.drop k s).ready = s.ready := (drop_reports c k s).ready
@[simp] theorem drop_pins (c : Cmd) (k : Nat) (s : State) : (c.drop k s).pins = s.pins := (drop_reports c k s).pins
@[simp] theorem drop_ft (c : Cmd) (k : Nat) (s : State) : (c.drop k s).ft = s.ft := (drop_reports c k s).ft
@[simp] theorem drop_brown (c : Cmd) (k : Nat) (s : State) : (c.drop k s).brown = s.brown := (drop_reports c k s).brown
@[simp] theorem drop_link (c : Cmd) (k : Nat) (s : State) : (c.drop k s).link = s.link := (drop_reports c k s).link
@[simp] theorem drop_cxl (c : Cmd) (k : Nat) (s : State) : (c.drop k s).cxl = s.cxl := (drop_reports c k s).cxl
@[simp] theorem drop_boot (c : Cmd) (k : Nat) (s : State) : (c.drop k s).boot = s.boot := (drop_reports c k s).boot
@[simp] theorem drop_procs (c : Cmd) (k : Nat) (s : State) : (c.drop k s).procs = s.procs := (drop_reports c k s).procs
@[simp] theorem drop_upd (c : Cmd) (k : Nat) (s : State) : (c.drop k s).upd = s.upd := (drop_reports c k s).upd
@[simp] theorem drop_hand (c : Cmd) (k : Nat) (s : State) : (c.drop k s).hand = s.hand := (drop_reports c k s).hand
@[simp] theorem drop_fuses (c : Cmd) (k : Nat) (s : State) : (c.drop k s).fuses = s.fuses := (drop_reports c k s).fuses
@[simp] theorem drop_sec (c : Cmd) (k : Nat) (s : State) : (c.drop k s).sec = s.sec := (drop_reports c k s).sec
@[simp] theorem drop_nor (c : Cmd) (k : Nat) (s : State) : (c.drop k s).nor = s.nor := (drop_reports c k s).nor
@[simp] theorem drop_prov (c : Cmd) (k : Nat) (s : State) : (c.drop k s).prov = s.prov := (drop_reports c k s).prov
@[simp] theorem drop_settings (c : Cmd) (k : Nat) (s : State) : (c.drop k s).settings = s.settings := (drop_reports c k s).settings
@[simp] theorem drop_hbm (c : Cmd) (k : Nat) (s : State) : (c.drop k s).hbm = s.hbm := (drop_reports c k s).hbm
@[simp] theorem drop_store (c : Cmd) (k : Nat) (s : State) : (c.drop k s).store = s.store := (drop_reports c k s).store
@[simp] theorem drop_bufs (c : Cmd) (k : Nat) (s : State) : (c.drop k s).bufs = s.bufs := (drop_reports c k s).bufs
@[simp] theorem drop_cores (c : Cmd) (k : Nat) (s : State) : (c.drop k s).cores = s.cores := (drop_reports c k s).cores
@[simp] theorem drop_ctrs (c : Cmd) (k : Nat) (s : State) : (c.drop k s).ctrs = s.ctrs := (drop_reports c k s).ctrs
@[simp] theorem drop_engines (c : Cmd) (k : Nat) (s : State) : (c.drop k s).engines = s.engines := (drop_reports c k s).engines
@[simp] theorem drop_chipDma (c : Cmd) (k : Nat) (s : State) : (c.drop k s).chipDma = s.chipDma := (drop_reports c k s).chipDma
@[simp] theorem drop_progs (c : Cmd) (k : Nat) (s : State) : (c.drop k s).progs = s.progs := (drop_reports c k s).progs
@[simp] theorem drop_tasks (c : Cmd) (k : Nat) (s : State) : (c.drop k s).tasks = s.tasks := (drop_reports c k s).tasks
@[simp] theorem drop_nextTask (c : Cmd) (k : Nat) (s : State) : (c.drop k s).nextTask = s.nextTask := (drop_reports c k s).nextTask
@[simp] theorem drop_turn (c : Cmd) (k : Nat) (s : State) : (c.drop k s).turn = s.turn := (drop_reports c k s).turn
@[simp] theorem drop_kv (c : Cmd) (k : Nat) (s : State) : (c.drop k s).kv = s.kv := (drop_reports c k s).kv
@[simp] theorem drop_serve (c : Cmd) (k : Nat) (s : State) : (c.drop k s).serve = s.serve := (drop_reports c k s).serve
@[simp] theorem drop_flint (c : Cmd) (k : Nat) (s : State) : (c.drop k s).flint = s.flint := (drop_reports c k s).flint
@[simp] theorem drop_fab (c : Cmd) (k : Nat) (s : State) : (c.drop k s).fab = s.fab := (drop_reports c k s).fab
@[simp] theorem drop_power (c : Cmd) (k : Nat) (s : State) : (c.drop k s).power = s.power := (drop_reports c k s).power
@[simp] theorem drop_caps (c : Cmd) (k : Nat) (s : State) : (c.drop k s).caps = s.caps := (drop_reports c k s).caps
@[simp] theorem drop_meter (c : Cmd) (k : Nat) (s : State) : (c.drop k s).meter = s.meter := (drop_reports c k s).meter
@[simp] theorem drop_thermal (c : Cmd) (k : Nat) (s : State) : (c.drop k s).thermal = s.thermal := (drop_reports c k s).thermal
@[simp] theorem drop_side (c : Cmd) (k : Nat) (s : State) : (c.drop k s).side = s.side := (drop_reports c k s).side
@[simp] theorem drop_issued (c : Cmd) (k : Nat) (s : State) : (c.drop k s).issued = s.issued := (drop_reports c k s).issued
@[simp] theorem drop_mem (c : Cmd) (k : Nat) (s : State) : (c.drop k s).mem = s.mem := (drop_reports c k s).mem
@[simp] theorem drop_pending (c : Cmd) (k : Nat) (s : State) : (c.drop k s).pending = s.pending := (drop_reports c k s).pending

@[simp] theorem flushHeld_time (f q : Nat) (s : State) : (flushHeld f q s).time = s.time := (flushHeld_reports f q s).time
@[simp] theorem flushHeld_ready (f q : Nat) (s : State) : (flushHeld f q s).ready = s.ready := (flushHeld_reports f q s).ready
@[simp] theorem flushHeld_pins (f q : Nat) (s : State) : (flushHeld f q s).pins = s.pins := (flushHeld_reports f q s).pins
@[simp] theorem flushHeld_ft (f q : Nat) (s : State) : (flushHeld f q s).ft = s.ft := (flushHeld_reports f q s).ft
@[simp] theorem flushHeld_brown (f q : Nat) (s : State) : (flushHeld f q s).brown = s.brown := (flushHeld_reports f q s).brown
@[simp] theorem flushHeld_link (f q : Nat) (s : State) : (flushHeld f q s).link = s.link := (flushHeld_reports f q s).link
@[simp] theorem flushHeld_cxl (f q : Nat) (s : State) : (flushHeld f q s).cxl = s.cxl := (flushHeld_reports f q s).cxl
@[simp] theorem flushHeld_boot (f q : Nat) (s : State) : (flushHeld f q s).boot = s.boot := (flushHeld_reports f q s).boot
@[simp] theorem flushHeld_procs (f q : Nat) (s : State) : (flushHeld f q s).procs = s.procs := (flushHeld_reports f q s).procs
@[simp] theorem flushHeld_upd (f q : Nat) (s : State) : (flushHeld f q s).upd = s.upd := (flushHeld_reports f q s).upd
@[simp] theorem flushHeld_hand (f q : Nat) (s : State) : (flushHeld f q s).hand = s.hand := (flushHeld_reports f q s).hand
@[simp] theorem flushHeld_fuses (f q : Nat) (s : State) : (flushHeld f q s).fuses = s.fuses := (flushHeld_reports f q s).fuses
@[simp] theorem flushHeld_sec (f q : Nat) (s : State) : (flushHeld f q s).sec = s.sec := (flushHeld_reports f q s).sec
@[simp] theorem flushHeld_nor (f q : Nat) (s : State) : (flushHeld f q s).nor = s.nor := (flushHeld_reports f q s).nor
@[simp] theorem flushHeld_prov (f q : Nat) (s : State) : (flushHeld f q s).prov = s.prov := (flushHeld_reports f q s).prov
@[simp] theorem flushHeld_settings (f q : Nat) (s : State) : (flushHeld f q s).settings = s.settings := (flushHeld_reports f q s).settings
@[simp] theorem flushHeld_hbm (f q : Nat) (s : State) : (flushHeld f q s).hbm = s.hbm := (flushHeld_reports f q s).hbm
@[simp] theorem flushHeld_store (f q : Nat) (s : State) : (flushHeld f q s).store = s.store := (flushHeld_reports f q s).store
@[simp] theorem flushHeld_bufs (f q : Nat) (s : State) : (flushHeld f q s).bufs = s.bufs := (flushHeld_reports f q s).bufs
@[simp] theorem flushHeld_cores (f q : Nat) (s : State) : (flushHeld f q s).cores = s.cores := (flushHeld_reports f q s).cores
@[simp] theorem flushHeld_ctrs (f q : Nat) (s : State) : (flushHeld f q s).ctrs = s.ctrs := (flushHeld_reports f q s).ctrs
@[simp] theorem flushHeld_engines (f q : Nat) (s : State) : (flushHeld f q s).engines = s.engines := (flushHeld_reports f q s).engines
@[simp] theorem flushHeld_chipDma (f q : Nat) (s : State) : (flushHeld f q s).chipDma = s.chipDma := (flushHeld_reports f q s).chipDma
@[simp] theorem flushHeld_progs (f q : Nat) (s : State) : (flushHeld f q s).progs = s.progs := (flushHeld_reports f q s).progs
@[simp] theorem flushHeld_tasks (f q : Nat) (s : State) : (flushHeld f q s).tasks = s.tasks := (flushHeld_reports f q s).tasks
@[simp] theorem flushHeld_nextTask (f q : Nat) (s : State) : (flushHeld f q s).nextTask = s.nextTask := (flushHeld_reports f q s).nextTask
@[simp] theorem flushHeld_turn (f q : Nat) (s : State) : (flushHeld f q s).turn = s.turn := (flushHeld_reports f q s).turn
@[simp] theorem flushHeld_kv (f q : Nat) (s : State) : (flushHeld f q s).kv = s.kv := (flushHeld_reports f q s).kv
@[simp] theorem flushHeld_serve (f q : Nat) (s : State) : (flushHeld f q s).serve = s.serve := (flushHeld_reports f q s).serve
@[simp] theorem flushHeld_flint (f q : Nat) (s : State) : (flushHeld f q s).flint = s.flint := (flushHeld_reports f q s).flint
@[simp] theorem flushHeld_fab (f q : Nat) (s : State) : (flushHeld f q s).fab = s.fab := (flushHeld_reports f q s).fab
@[simp] theorem flushHeld_power (f q : Nat) (s : State) : (flushHeld f q s).power = s.power := (flushHeld_reports f q s).power
@[simp] theorem flushHeld_caps (f q : Nat) (s : State) : (flushHeld f q s).caps = s.caps := (flushHeld_reports f q s).caps
@[simp] theorem flushHeld_meter (f q : Nat) (s : State) : (flushHeld f q s).meter = s.meter := (flushHeld_reports f q s).meter
@[simp] theorem flushHeld_thermal (f q : Nat) (s : State) : (flushHeld f q s).thermal = s.thermal := (flushHeld_reports f q s).thermal
@[simp] theorem flushHeld_side (f q : Nat) (s : State) : (flushHeld f q s).side = s.side := (flushHeld_reports f q s).side
@[simp] theorem flushHeld_issued (f q : Nat) (s : State) : (flushHeld f q s).issued = s.issued := (flushHeld_reports f q s).issued
@[simp] theorem flushHeld_mem (f q : Nat) (s : State) : (flushHeld f q s).mem = s.mem := (flushHeld_reports f q s).mem
@[simp] theorem flushHeld_pending (f q : Nat) (s : State) : (flushHeld f q s).pending = s.pending := (flushHeld_reports f q s).pending

@[simp] theorem directDone_time (f : Nat) (e : Cqe) (s : State) : (directDone f e s).time = s.time := (directDone_reports f e s).time
@[simp] theorem directDone_ready (f : Nat) (e : Cqe) (s : State) : (directDone f e s).ready = s.ready := (directDone_reports f e s).ready
@[simp] theorem directDone_pins (f : Nat) (e : Cqe) (s : State) : (directDone f e s).pins = s.pins := (directDone_reports f e s).pins
@[simp] theorem directDone_ft (f : Nat) (e : Cqe) (s : State) : (directDone f e s).ft = s.ft := (directDone_reports f e s).ft
@[simp] theorem directDone_brown (f : Nat) (e : Cqe) (s : State) : (directDone f e s).brown = s.brown := (directDone_reports f e s).brown
@[simp] theorem directDone_link (f : Nat) (e : Cqe) (s : State) : (directDone f e s).link = s.link := (directDone_reports f e s).link
@[simp] theorem directDone_cxl (f : Nat) (e : Cqe) (s : State) : (directDone f e s).cxl = s.cxl := (directDone_reports f e s).cxl
@[simp] theorem directDone_boot (f : Nat) (e : Cqe) (s : State) : (directDone f e s).boot = s.boot := (directDone_reports f e s).boot
@[simp] theorem directDone_procs (f : Nat) (e : Cqe) (s : State) : (directDone f e s).procs = s.procs := (directDone_reports f e s).procs
@[simp] theorem directDone_upd (f : Nat) (e : Cqe) (s : State) : (directDone f e s).upd = s.upd := (directDone_reports f e s).upd
@[simp] theorem directDone_hand (f : Nat) (e : Cqe) (s : State) : (directDone f e s).hand = s.hand := (directDone_reports f e s).hand
@[simp] theorem directDone_fuses (f : Nat) (e : Cqe) (s : State) : (directDone f e s).fuses = s.fuses := (directDone_reports f e s).fuses
@[simp] theorem directDone_sec (f : Nat) (e : Cqe) (s : State) : (directDone f e s).sec = s.sec := (directDone_reports f e s).sec
@[simp] theorem directDone_nor (f : Nat) (e : Cqe) (s : State) : (directDone f e s).nor = s.nor := (directDone_reports f e s).nor
@[simp] theorem directDone_prov (f : Nat) (e : Cqe) (s : State) : (directDone f e s).prov = s.prov := (directDone_reports f e s).prov
@[simp] theorem directDone_settings (f : Nat) (e : Cqe) (s : State) : (directDone f e s).settings = s.settings := (directDone_reports f e s).settings
@[simp] theorem directDone_hbm (f : Nat) (e : Cqe) (s : State) : (directDone f e s).hbm = s.hbm := (directDone_reports f e s).hbm
@[simp] theorem directDone_store (f : Nat) (e : Cqe) (s : State) : (directDone f e s).store = s.store := (directDone_reports f e s).store
@[simp] theorem directDone_bufs (f : Nat) (e : Cqe) (s : State) : (directDone f e s).bufs = s.bufs := (directDone_reports f e s).bufs
@[simp] theorem directDone_cores (f : Nat) (e : Cqe) (s : State) : (directDone f e s).cores = s.cores := (directDone_reports f e s).cores
@[simp] theorem directDone_ctrs (f : Nat) (e : Cqe) (s : State) : (directDone f e s).ctrs = s.ctrs := (directDone_reports f e s).ctrs
@[simp] theorem directDone_engines (f : Nat) (e : Cqe) (s : State) : (directDone f e s).engines = s.engines := (directDone_reports f e s).engines
@[simp] theorem directDone_chipDma (f : Nat) (e : Cqe) (s : State) : (directDone f e s).chipDma = s.chipDma := (directDone_reports f e s).chipDma
@[simp] theorem directDone_progs (f : Nat) (e : Cqe) (s : State) : (directDone f e s).progs = s.progs := (directDone_reports f e s).progs
@[simp] theorem directDone_tasks (f : Nat) (e : Cqe) (s : State) : (directDone f e s).tasks = s.tasks := (directDone_reports f e s).tasks
@[simp] theorem directDone_nextTask (f : Nat) (e : Cqe) (s : State) : (directDone f e s).nextTask = s.nextTask := (directDone_reports f e s).nextTask
@[simp] theorem directDone_turn (f : Nat) (e : Cqe) (s : State) : (directDone f e s).turn = s.turn := (directDone_reports f e s).turn
@[simp] theorem directDone_kv (f : Nat) (e : Cqe) (s : State) : (directDone f e s).kv = s.kv := (directDone_reports f e s).kv
@[simp] theorem directDone_serve (f : Nat) (e : Cqe) (s : State) : (directDone f e s).serve = s.serve := (directDone_reports f e s).serve
@[simp] theorem directDone_flint (f : Nat) (e : Cqe) (s : State) : (directDone f e s).flint = s.flint := (directDone_reports f e s).flint
@[simp] theorem directDone_fab (f : Nat) (e : Cqe) (s : State) : (directDone f e s).fab = s.fab := (directDone_reports f e s).fab
@[simp] theorem directDone_power (f : Nat) (e : Cqe) (s : State) : (directDone f e s).power = s.power := (directDone_reports f e s).power
@[simp] theorem directDone_caps (f : Nat) (e : Cqe) (s : State) : (directDone f e s).caps = s.caps := (directDone_reports f e s).caps
@[simp] theorem directDone_meter (f : Nat) (e : Cqe) (s : State) : (directDone f e s).meter = s.meter := (directDone_reports f e s).meter
@[simp] theorem directDone_thermal (f : Nat) (e : Cqe) (s : State) : (directDone f e s).thermal = s.thermal := (directDone_reports f e s).thermal
@[simp] theorem directDone_side (f : Nat) (e : Cqe) (s : State) : (directDone f e s).side = s.side := (directDone_reports f e s).side
@[simp] theorem directDone_issued (f : Nat) (e : Cqe) (s : State) : (directDone f e s).issued = s.issued := (directDone_reports f e s).issued
@[simp] theorem directDone_mem (f : Nat) (e : Cqe) (s : State) : (directDone f e s).mem = s.mem := (directDone_reports f e s).mem
@[simp] theorem directDone_pending (f : Nat) (e : Cqe) (s : State) : (directDone f e s).pending = s.pending := (directDone_reports f e s).pending

@[simp] theorem setReady_time (b : Nat) (v : Bool) (s : State) : (setReady b v s).time = s.time := (setReady_frame b v s).time
@[simp] theorem setReady_pins (b : Nat) (v : Bool) (s : State) : (setReady b v s).pins = s.pins := (setReady_frame b v s).pins
@[simp] theorem setReady_ft (b : Nat) (v : Bool) (s : State) : (setReady b v s).ft = s.ft := (setReady_frame b v s).ft
@[simp] theorem setReady_brown (b : Nat) (v : Bool) (s : State) : (setReady b v s).brown = s.brown := (setReady_frame b v s).brown
@[simp] theorem setReady_link (b : Nat) (v : Bool) (s : State) : (setReady b v s).link = s.link := (setReady_frame b v s).link
@[simp] theorem setReady_cxl (b : Nat) (v : Bool) (s : State) : (setReady b v s).cxl = s.cxl := (setReady_frame b v s).cxl
@[simp] theorem setReady_boot (b : Nat) (v : Bool) (s : State) : (setReady b v s).boot = s.boot := (setReady_frame b v s).boot
@[simp] theorem setReady_procs (b : Nat) (v : Bool) (s : State) : (setReady b v s).procs = s.procs := (setReady_frame b v s).procs
@[simp] theorem setReady_upd (b : Nat) (v : Bool) (s : State) : (setReady b v s).upd = s.upd := (setReady_frame b v s).upd
@[simp] theorem setReady_hand (b : Nat) (v : Bool) (s : State) : (setReady b v s).hand = s.hand := (setReady_frame b v s).hand
@[simp] theorem setReady_fuses (b : Nat) (v : Bool) (s : State) : (setReady b v s).fuses = s.fuses := (setReady_frame b v s).fuses
@[simp] theorem setReady_sec (b : Nat) (v : Bool) (s : State) : (setReady b v s).sec = s.sec := (setReady_frame b v s).sec
@[simp] theorem setReady_nor (b : Nat) (v : Bool) (s : State) : (setReady b v s).nor = s.nor := (setReady_frame b v s).nor
@[simp] theorem setReady_prov (b : Nat) (v : Bool) (s : State) : (setReady b v s).prov = s.prov := (setReady_frame b v s).prov
@[simp] theorem setReady_settings (b : Nat) (v : Bool) (s : State) : (setReady b v s).settings = s.settings := (setReady_frame b v s).settings
@[simp] theorem setReady_hbm (b : Nat) (v : Bool) (s : State) : (setReady b v s).hbm = s.hbm := (setReady_frame b v s).hbm
@[simp] theorem setReady_store (b : Nat) (v : Bool) (s : State) : (setReady b v s).store = s.store := (setReady_frame b v s).store
@[simp] theorem setReady_bufs (b : Nat) (v : Bool) (s : State) : (setReady b v s).bufs = s.bufs := (setReady_frame b v s).bufs
@[simp] theorem setReady_cores (b : Nat) (v : Bool) (s : State) : (setReady b v s).cores = s.cores := (setReady_frame b v s).cores
@[simp] theorem setReady_ctrs (b : Nat) (v : Bool) (s : State) : (setReady b v s).ctrs = s.ctrs := (setReady_frame b v s).ctrs
@[simp] theorem setReady_engines (b : Nat) (v : Bool) (s : State) : (setReady b v s).engines = s.engines := (setReady_frame b v s).engines
@[simp] theorem setReady_chipDma (b : Nat) (v : Bool) (s : State) : (setReady b v s).chipDma = s.chipDma := (setReady_frame b v s).chipDma
@[simp] theorem setReady_progs (b : Nat) (v : Bool) (s : State) : (setReady b v s).progs = s.progs := (setReady_frame b v s).progs
@[simp] theorem setReady_tasks (b : Nat) (v : Bool) (s : State) : (setReady b v s).tasks = s.tasks := (setReady_frame b v s).tasks
@[simp] theorem setReady_nextTask (b : Nat) (v : Bool) (s : State) : (setReady b v s).nextTask = s.nextTask := (setReady_frame b v s).nextTask
@[simp] theorem setReady_turn (b : Nat) (v : Bool) (s : State) : (setReady b v s).turn = s.turn := (setReady_frame b v s).turn
@[simp] theorem setReady_kv (b : Nat) (v : Bool) (s : State) : (setReady b v s).kv = s.kv := (setReady_frame b v s).kv
@[simp] theorem setReady_serve (b : Nat) (v : Bool) (s : State) : (setReady b v s).serve = s.serve := (setReady_frame b v s).serve
@[simp] theorem setReady_flint (b : Nat) (v : Bool) (s : State) : (setReady b v s).flint = s.flint := (setReady_frame b v s).flint
@[simp] theorem setReady_fab (b : Nat) (v : Bool) (s : State) : (setReady b v s).fab = s.fab := (setReady_frame b v s).fab
@[simp] theorem setReady_power (b : Nat) (v : Bool) (s : State) : (setReady b v s).power = s.power := (setReady_frame b v s).power
@[simp] theorem setReady_caps (b : Nat) (v : Bool) (s : State) : (setReady b v s).caps = s.caps := (setReady_frame b v s).caps
@[simp] theorem setReady_meter (b : Nat) (v : Bool) (s : State) : (setReady b v s).meter = s.meter := (setReady_frame b v s).meter
@[simp] theorem setReady_thermal (b : Nat) (v : Bool) (s : State) : (setReady b v s).thermal = s.thermal := (setReady_frame b v s).thermal
@[simp] theorem setReady_side (b : Nat) (v : Bool) (s : State) : (setReady b v s).side = s.side := (setReady_frame b v s).side
@[simp] theorem setReady_issued (b : Nat) (v : Bool) (s : State) : (setReady b v s).issued = s.issued := (setReady_frame b v s).issued
@[simp] theorem setReady_mem (b : Nat) (v : Bool) (s : State) : (setReady b v s).mem = s.mem := (setReady_frame b v s).mem
@[simp] theorem setReady_pending (b : Nat) (v : Bool) (s : State) : (setReady b v s).pending = s.pending := (setReady_frame b v s).pending

end Sys2Proof.Laws
end

