-- ==== Sys2Proof/Laws/Tab.lean ====
section
/-! SUPPORT. Reading a sparse table after a change of it. -/

namespace Sys2Proof.Laws

open Sys2Proof.Machine

variable {α : Type}

theorem find_erase_same (t : Tab α) (k : Nat) : Tab.find (Tab.erase t k) k = none := by
  induction t with
  | nil => rfl
  | cons e r ih =>
    obtain ⟨i, v⟩ := e
    simp only [Tab.erase, List.filter_cons] at ih ⊢
    by_cases h : i = k
    · simp [h, ih]
    · simp [h, Tab.find, ih]

theorem find_erase_ne (t : Tab α) {k j : Nat} (h : j ≠ k) : Tab.find (Tab.erase t k) j = Tab.find t j := by
  induction t with
  | nil => rfl
  | cons e r ih =>
    obtain ⟨i, v⟩ := e
    simp only [Tab.erase, List.filter_cons] at ih ⊢
    by_cases hi : i = k
    · subst hi
      simp [Tab.find, ih, Ne.symm h]
    · simp [hi, Tab.find, ih]

theorem find_insert_same (t : Tab α) (k : Nat) (v : α) (h : Tab.find t k = none) : Tab.find (Tab.insert t k v) k = some v := by
  induction t with
  | nil => simp [Tab.insert, Tab.find]
  | cons e r ih =>
    obtain ⟨i, w⟩ := e
    simp only [Tab.find] at h
    split at h
    · cases h
    · rename_i hi
      simp only [Tab.insert]
      split
      · simp [Tab.find]
      · simp [Tab.find, hi, ih h]

theorem find_insert_ne (t : Tab α) {k j : Nat} (v : α) (h : j ≠ k) : Tab.find (Tab.insert t k v) j = Tab.find t j := by
  induction t with
  | nil => simp [Tab.insert, Tab.find, Ne.symm h]
  | cons e r ih =>
    obtain ⟨i, w⟩ := e
    simp only [Tab.insert]
    split
    · simp [Tab.find, Ne.symm h]
    · simp [Tab.find, ih]

/-- A key reads what was put there. -/
@[simp] theorem find_put_same (t : Tab α) (k : Nat) (v : α) : Tab.find (Tab.put t k v) k = some v :=
  find_insert_same _ _ _ (find_erase_same t k)

/-- Every other key reads as before. -/
theorem find_put_ne (t : Tab α) {k j : Nat} (v : α) (h : j ≠ k) : Tab.find (Tab.put t k v) j = Tab.find t j := by
  rw [Tab.put, find_insert_ne _ _ h, find_erase_ne _ h]

@[simp] theorem get_put_same (d : α) (t : Tab α) (k : Nat) (v : α) : Tab.get d (Tab.put t k v) k = v := by
  simp [Tab.get]

theorem get_put_ne (d : α) (t : Tab α) {k j : Nat} (v : α) (h : j ≠ k) : Tab.get d (Tab.put t k v) j = Tab.get d t j := by
  simp [Tab.get, find_put_ne t v h]

@[simp] theorem get_upd_same (d : α) (t : Tab α) (k : Nat) (f : α → α) : Tab.get d (Tab.upd d t k f) k = f (Tab.get d t k) := by
  simp [Tab.upd]

theorem get_upd_ne (d : α) (t : Tab α) {k j : Nat} (f : α → α) (h : j ≠ k) :
    Tab.get d (Tab.upd d t k f) j = Tab.get d t j := get_put_ne d t _ h

end Sys2Proof.Laws
end

