-- ==== Sys2Proof/Machine/Kernels.lean ====
section
/-! DEFINITION. Arithmetic that the spec gives the serving kernels on what the state holds: an adapted tensor (12 R275) and the reduction
of partial sums within a shard group (12 R276). The kernels run by firmware and no command of the table calls them, so no meaning calls
these functions. -/

namespace Sys2Proof.Machine

/-! ## Adapted tensors (R275) -/

/-- n elements of an adapter's matrix, row after row; the scale bytes of an MX matrix stand behind its elements, one for 32 (log 48). -/
def matrixNums (fmt n : Nat) (b : Bytes) : List Num :=
  (List.range n).map (fun i =>
    if fmt = 7 then Fmt.bf16.value (rd b (2 * i) 2) else scaled (Fmt.e4m3.value (rd b i 1)) (rd b (n + i / 32) 1))

/-- A matrix of a row length times a vector, each element rounded to FP32 once (log 48). -/
def matVec (rows cols : Nat) (m x : List Num) : List Num :=
  (List.range rows).map (fun i =>
    num32 (code32 false (exactSum (((m.drop (i * cols)).take cols).zip x |>.map (fun e => e.1.mul e.2)))).1)

/-- Where an adapter's A and B of a tensor lie in its region: offset and bytes, in the order of its entries (R274). -/
def Adapter.place (a : Adapter) (c : Copy) (role layer : Nat) : Option (Nat × Tensor) :=
  let sized := a.entries.map (fun e =>
    (e.1, e.2.1, c.tensors.find? (fun t => t.role == e.1 && t.layer == e.2.1)))
  (sized.findIdx? (fun e => e.1 == role && e.2.1 == layer)).bind (fun i =>
    (sized[i]?).bind (fun e => e.2.2.map (fun t =>
      (((sized.take i).map (fun e => (e.2.2.map (adapterBytes a.rank a.fmt)).getD 0)).sum, t))))

/-- An adapted tensor applied to x, where W·x is `wx`: W·x + (ALPHA ÷ r)·B·(A·x), with B·(A·x) in FP32 (R275); without an entry for the
tensor, W·x. -/
def State.adapted (s : State) (h role layer : Nat) (x wx : List Num) : List Num :=
  match Tab.find s.serve.adapters h with
  | none => wx
  | some a => match (s.copy a.copy).bind (fun c => a.place c role layer) with
    | none => wx
    | some (off, t) =>
      let n := a.rank * t.cols
      let aBytes := if a.fmt = 7 then 2 * n else n + n / 32
      let b := regionRead a.units off (adapterBytes a.rank a.fmt t) s
      let low := matVec a.rank t.cols (matrixNums a.fmt n b) x
      let term := matVec t.rows a.rank (matrixNums a.fmt (t.rows * a.rank) (b.drop aBytes)) low
      let k := (num32 a.alpha).scale (-(Nat.log2 a.rank : Int))
      (wx.zip term).map (fun e => num32 (code32 false (e.1.add (k.mul e.2))).1)

/-! ## Partial sums of a shard group (R276) -/

/-- The data of a member's REDUCE messages for a layer and a role in the running step, its fragments put together; none while one is
missing. -/
def State.partialOf (s : State) (src layer role : Nat) : Option (Bytes × Bytes) :=
  let mine := s.serve.sums.filter (fun p => p.reduce && p.src == src && mfield p.body 0x24 1 == layer && mfield p.body 0x25 1 == role)
  match mine with
  | [] => none
  | p :: _ =>
    let parts := (List.range (mfield p.body 0x28 1)).map (fun i => mine.find? (fun y => mfield y.body 0x27 1 == i))
    if parts.any Option.isNone then none
    else some (p.body, (parts.map (fun y => (y.map (fun z => z.body.drop 0x20)).getD [])).flatten)

/-- The reduced sum at a row and a column of O (role 4) or down (role 7): the part's own partial sum and those of the other members, added
in FP32 in the order in which they arrived (R13, R238); none while a member's is missing. -/
def State.reduced (s : State) (members : List Nat) (layer role row col : Nat) (own : BitVec 32) : Option (BitVec 32) :=
  let order := (s.serve.sums.map (·.src)).dedup.filter members.contains
  if members.any (fun m => (s.partialOf m layer role).isNone) then none
  else some (order.foldl (fun a m =>
    match s.partialOf m layer role with
    | none => a
    | some (h, d) =>
      let c0 := mfield h 0x2C 4
      let n := mfield h 0x30 4
      if row < mfield h 0x2A 2 ∧ c0 ≤ col ∧ col < c0 + n then add32 a (rdBV 32 d (4 * (row * n + (col - c0)))) else a) own)

end Sys2Proof.Machine
end

