-- ==== Sys2Proof/Tests/Slice0.lean ====
section
/-! SUPPORT. Tests: ill-formed commands are refused, tile words decode as the spec encodes them, and the hypotheses of every statement
can be met. -/

namespace Sys2Proof.Tests

open Sys2Proof.Machine Sys2Proof.Safety

/-! ## States for the witnesses -/

/-- A part that is up: out of reset, its rails good, every firmware processor running, every READY_MAP bit set but VF. -/
def up : State := { State.reset with
  pins := { perst := false, coreEn := true, vcoreGood := true, phasesMid := false }, ready := 0x03FFFFFF#32,
  procs := (List.range 11).map (fun p => (p, { state := .running, imaged := true })),
  boot := { state := .running, cap := 2#4 }, prov := { decided := true }, side := { up := true },
  store := { nStacks := 6, order := [0, 1, 2, 3, 4, 5], schUnits := 16 },
  hbm := (List.range 6).map (fun h => (h, { usable := true })),
  fab := { everSettled := true, settled := true, valid := true, addr := 0x012 } }

/-- The same with a state of the PF. -/
def pf (x : Func) : State := { up with funcs := [(0, x)] }

/-- The same with a state of fabric port 3. -/
def port (x : Port) : State := { up with fab := { up.fab with ports := [(3, x)] } }

/-- A function whose ring pair 1 has an entry to be fetched, and whose ring pair 0 is enabled. -/
def ringed : Func := { bme := true, rings := [(0, { enable := true, sqLog := 4, cqLog := 4, sqTail := 1 }),
  (1, { enable := true, sqLog := 4, cqLog := 4, sqTail := 1 })] }

/-- The same with nothing to be fetched from ring pair 0, which would be served first (R60). -/
def ioRinged : Func := { ringed with rings := Tab.put ringed.rings 0 { enable := true, sqLog := 4, cqLog := 4 } }

/-- An entry with its argument fields: offset, length and value. -/
def entry (handle : Nat) (args : List (Nat × Nat × Nat)) : Sqe :=
  { flags := 0, tag := 7#32, handle := BitVec.ofNat 64 handle,
    args := BitVec.ofNat 384 ((args.map (fun x => x.2.2 * 2 ^ (8 * (x.1 - 16)))).sum) }

/-- A command of ring pair q of the PF is taken, and then a test holds of it and of the state left. -/
def meets (op : Nat) (q : RingId) (fields : List (Nat × Nat)) (noHandle : Bool) (e : Sqe) (s : State) (p : Cmd → State → Bool) : Bool :=
  match taken 0 op (.ring q e) fields noHandle s with
  | some (c, t) => p c t
  | none => false

/-- A waiting task of the PF. -/
def aTask : Task := { fn := 0, q := 1, tag := 0, prog := 0, buf0 := 0, buf1 := 0, buf2 := 0, cls := 0, prio := 0, order := 0 }

/-- A session over DOE. -/
def session (e : Bool) (k : Nat) : Session := { id := k, via := .doe, established := e, updates := 0 }

/-- A ready copy of a model with 2 layers and a vocabulary of 4 tokens. -/
def aHdr : ModelHdr := {
  kvFmt := 7, modelId := 5, layers := 2, qHeads := 1, kvHeads := 1, dim := 64, rope := 0, freqs := 0, width := 64, ffn := 64, vocab := 4,
  context := 64, tensors := 0, tableOff := 0, freqOff := 0, plainLen := 0, digest := 0 }
def aCopy : Copy := {
  hdr := aHdr, raw := [], freq := [], tensors := [], share := false, spread := false, strict := true, state := .ready, loader := 0,
  key := 0, src := 0, nonce := 0, units := [], hbmBytes := 0, tierBytes := 0, stageBytes := 0, lost := [], ckey := 0 }

/-- A function whose direct slot holds ADOPT with the longest period and policy 3, its lease expired or not. -/
def adopting (e : Bool) : Func := {
  bme := true, expired := e, directCmd := BitVec.ofNat 512 (2 + 10000 * 2 ^ 128 + 3 * 2 ^ 160),
  directCpl := BitVec.ofNat 512 (2 ^ 505) }

/-- A ring pair with every field at the end of its range. -/
def lastRing (r : Ring) : Ring := { r with sqBase := 4096, vector := 63, weight := 15, sqLog := 16, cqLog := 4 }

/-- A block of n bytes with fields at their offsets: offset and value. -/
def block (n : Nat) (fields : List (Nat × Nat)) : Bytes := toLe n ((fields.map (fun x => x.2 * 2 ^ (8 * x.1))).sum)

/-- The greedy profile of a vocabulary of 4 tokens (R303), and a Flint image of one neuron without synapses (R335). -/
def aTable : Bytes := block 128 [(0, 0x4A505646), (4, 1), (0xC, 0), (0x10, 0x3F800000), (0x14, 0x3F800000), (0x50, 4)]
def anImage : Bytes := block 264 [(0, 0x4C465646), (4, 1), (6, 1), (8, 1), (0xC, 1), (0x10, 192), (0x14, 256), (192, 1), (196, 65535)]

/-- A live request at its home part: the PF's, at copy 1, working elsewhere unless `work`. -/
def aCtx : Ctx := {
  home := true, work := true, homeAddr := 0x012, handle := mkHandle 0 kRequest 1 0, fn := 0, tag := { agent := agSch }, q := 1, ctag := 7,
  workAddr := some 0x012, model := mkHandle 0 kModel 1 0, draftH := 0, copy := some 1, draft := none, modelId := 5, draftId := 0,
  adapter := 0, profH := 0, prof := {}, profDigest := 0, prompt := [1], written := [], promptLen := 1, maxTokens := 4, budget := 0,
  prio := 0, tAccept := 0, nonce := 0, seed := 0, state := .prefill, order := 0 }

/-- A program of one core that uses no buffer. -/
def aProg : Program := {
  fn := 0, cores := 1, placement := 0, engines := 0, buffers := 0, basalt := 0,
  coreRecs := [{ spread := false, shadow := false, dataKib := 4 }], ctrRecs := [], streams := [[0]], imageLen := 256, builtin := false }

/-- Handles of the PF: a buffer, a model, a request, a program, a network, a key, a profile and an adapter. -/
def hBuf : Nat := mkHandle 0 kBuffer 1 0
def hModel : Nat := mkHandle 0 kModel 1 0
def hProg : Nat := mkHandle 0 kProgram 1 0
def hNet : Nat := mkHandle 0 kNetwork 1 0
def hKey : Nat := mkHandle 0 kKey 1 1
def hProf : Nat := mkHandle 0 kProfile 1 0
def hAda : Nat := mkHandle 0 kAdapter 1 0

/-- A key of the PF for model 5 that permits models and adapters. -/
def aKey : KeyRec := { use := 3, fnByte := 0xFF, kwkId := 0, modelId := 5, key := 0, owner := { agent := agSec } }

/-- A network of one neuron on tile 0. -/
def aNet : Net := {
  fn := 0, tiles := 1, neurons := [{ thr := 1, decay := 65535, wshift := 0, resetSub := false, output := false, wake := false, refrac := 0, first := 0, count := 0, wline := 0 }],
  inputs := [⟨0, 0, 0⟩], syn := [[]], granted := [0] }

/-- An adapter of the model. -/
def anAdapter : Adapter := {
  fn := 0, model := hModel, copy := 1, rank := 1, fmt := 0, alpha := 0, baseId := 5, entries := [], units := [], bytes := 0, key := hKey }

/-- A part that holds one of each of these objects. -/
def full : State := { pf ringed with
  issued := [hBuf, hModel, hProg, hNet, hKey, hProf, hAda, aCtx.handle], bufs := [(hBuf, { fn := 0, units := [20] })],
  progs := [(hProg, aProg)], sec := { keys := [(hKey, aKey)] }, flint := { nets := [(hNet, aNet)] },
  serve := { copies := [(1, aCopy)], models := [(hModel, { fn := 0, copy := 1, attached := false })],
             adapters := [(hAda, anAdapter)], profs := [(hProf, { fn := 0, prof := profOf aTable, bytes := 128, table := aTable })],
             ctxs := [(0, aCtx)], nextCopy := 2 } }

/-- The same with an entry in ring pair 1 alone. -/
def fullIo : State := { full with funcs := [(0, ioRinged)] }

/-- An adapter's load, its chunks not yet read. -/
def aLoad : Load := {
  fn := 0, q := some 0, tag := 0, kind := .adapter hModel, copy := 0, key := 0, modelId := 5, nonce := 0, length := 200064, next := 0,
  plain := [], units := [], src := 0, tier := false, share := false, spread := false, keyHandle := hKey }

/-- A part that runs a task of one core on C00, with a state of that core. -/
def placed : Task := { aTask with
  prog := hProg, place := some { cores := [0], counters := [5], engines := [(15, 2)], basalt := 0, basaltN := 0 } }
def running (c : Core) : State := { full with
  tasks := [(0, placed)], cores := [(0, { c with task := some 0, halted := false, dataUnits := 1024 })] }

/-- A queued instruction whose operands are FP32 rows of Slate. -/
def slateRow : VDesc := { kind := 0, fmt := .fp32 }
def queued (op : TileOp) : Queued := { word := 0, instr := { op := op }, d := slateRow, a := slateRow, b := slateRow, c := slateRow }

/-- Vector fields with COUNT 64, and the fields of the other slots' instructions. -/
def vf : VecFields := { dst := 0, sa := 0, sb := 0, sc := 0, scal := 0, countM1 := 63, mod := 0, shift := 0 }
def mmf : MmFields := {
  ix := 0, aslot := 0, abuf := false, set := false, p := true, rowsM1 := 63, d0 := 0, fmtA := .int8, fmtB := .int8, first := true,
  last := true, release := true, sat := false }
def drf : DrainFields := { ix := 0, dst := 0, pitch := 4, fmt := .fp32, p := true, sat := false, acc := false, shift := 0, sc := false }
def sldf : SldFields := { ix := 0, src := 0, pitch := 1, sideB := true, buf := true, dslot := 3, rowsM1 := 63, tr := false, sc := false }
def gof : GoFields := { ix := 0, engine := 15, desc := 0, countM1 := 63, counter := 0, sig := true }

/-- The one word of a stream. -/
def word (op : TileOp) : BitVec 64 := encodeTile { op := op }

/-! ## Witnesses: the hypotheses of each statement are met together, clause by clause -/

theorem test_meets_StepRunsFrontCommand :
    { up with pending := [Instr.perstAssert] }.pending = [Instr.perstAssert] := by decide
theorem test_meets_EmptyQueueTicks : up.pending = [] := by decide
theorem test_meets_ReadyMapBit : 31 < 32 ∧ up.isReady 31 ≠ true ∧ up.isReady 0 = true := by decide
/-- The last clause needs a record whose signature verifies; verification is opaque (log 11), so that none can be written out. -/
theorem test_meets_BringUpEvents : State.reset.pins.perst = true ∧ awake up ∧ up.prov.decided = true ∧
    { up with prov := {} }.prov.decided = false := by decide
theorem test_meets_HbmTrainingOutcome : let s := { up with hbm := [], settings := { hbmRate := 2 } }
    awake s ∧ s.prov.decided = true ∧ s.settings.hbmMask.getLsbD 5 = false ∧ (Tab.get {} s.hbm 5).usable = false ∧
      (Tab.get {} s.hbm 5).failed = false := by decide
theorem test_meets_resets : up.pins.perst = false := by decide
theorem test_meets_FabricTimeRead : reachable 0 up ∧ reachable 0 (pf { ftLatch := some 5#32 }) ∧
    ((pf { ftLatch := some 5#32 }).fn 0).ftLatch = some 5#32 := by decide
/-- That a port leads to another Furlong depends on the part's own PART_ID, which is opaque (log 14). -/
theorem test_meets_SyncBeats :
    let s := { port { st := .up } with ft := { masterEpoch := 5#16, waiting := [(3, 9#16, 0#64)], parent := some 3, everLocked := true,
                                               locked := true } }
    awake s ∧ s.fab.everSettled = true ∧ up.fab.everSettled = true ∧ State.reset.fab.everSettled = false ∧ (s.port 3).st = .up ∧
      s.foreign 3 = false ∧ epochOlder 4#16 s.epochView = true ∧ s.staleBeat 3 4#16 = true ∧ s.staleBeat 3 5#16 = false ∧ Tab.find s.ft.waiting 3 = some (9#16, 0#64) ∧ s.ft.parent = some 3 ∧
      s.ft.rootParent ≠ some 3 ∧ Tab.has s.ft.waiting 3 = true ∧ s.ft.everLocked = true ∧ s.ft.locked = true := by decide
theorem test_meets_BrownoutResponses :
    let s := fun (b : Brown) => { up with brown := b }
    awake (s {}) ∧ (s { dip := true }).brown.dip = true ∧ (s { dip := true }).brown.warned = false ∧
      (s { dip := true }).brown.reset = false ∧ (s { dip := true }).brown.asserted = false ∧ (s { dip := true }).power.change = none ∧
      (s { dip := true }).pins.coreEn = true ∧ (s { dip := true, warned := true }).brown.warned = true ∧
      (s { dip := true, warned := true, reset := true }).brown.awaited = [] := by decide
theorem test_meets_HostWindow :
    let s := { pf { slots := [(0, ⟨4, 0⟩)] } with bufs := [(4, { fn := 0, units := [20] })] }
    reachable 0 s ∧ s.windowAddr 0 0 = some (20 * 4194304) ∧ s.windowAddr 0 4194304 = none ∧ memOk s := by
  decide
theorem test_meets_RegisterAccess : reachable 0 up ∧ 0x0108 % 4 = 0 ∧ (regWriter 0 false 0x0108).isSome = true ∧
    (regWriter 0 false 0x0008).isNone = true ∧ Tab.find ((pf { teleLatch := [(7, 1#32)] }).fn 0).teleLatch 7 = some 1#32 ∧
    reachable 0 (pf { teleLatch := [(7, 1#32)] }) ∧ awake (pf { flr := true }) ∧ (pf { flr := true }).isReady rCfg = true ∧
    (pf { flr := true }).present 0 = true ∧ ((pf { flr := true }).fn 0).flr = true := by decide
theorem test_meets_HostLinkConfiguration : awake up ∧ up.isReady rCfg = true ∧ up.present 0 = true ∧ (up.fn 0).flr = false ∧
    linkWidthOk 16 = true ∧ linkWidthOk 4 = true ∧ (4#5).toNat ≤ { up.link with width := 16 }.width.toNat ∧ 2 ≤ (2#2).toNat ∧
    (1#2).toNat < 2 ∧ up.link.vfEnable = false ∧ { up with link := { vfEnable := true } }.link.vfEnable = true := by decide
theorem test_meets_FunctionFencesAndResets :
    let s := fun (x : Func) => pf x
    awake up ∧ reachable 0 (s { bme := true }) ∧ reachable 0 (s { fenced := true, fenceCause := 2 }) ∧
      reachable 0 { s {} with tasks := [(0, aTask)] } ∧ reachable 0 (s { fenced := true, fenceCause := 3, bme := true }) ∧
      ((s { bme := true }).fn 0).bme = true ∧ (s { bme := true }).boot.fetching = false ∧ (up.fn 0).fenced = false ∧
      ((s { fenced := true, fenceCause := 2 }).fn 0).fenceCause = 2#2 ∧ ((s { fenced := true, fenceCause := 2 }).fn 0).d3 = false ∧
      { s {} with tasks := [(0, aTask)] }.busyFn 0 = true ∧ (s {}).busyFn 0 = false ∧
      ((s { fenced := true, fenceCause := 3, bme := true }).fn 0).fenceCause = 3#2 ∧
      ((s { fenced := true }).fn 0).fenceDone = false ∧ ((s { armed := true }).fn 0).armed = true ∧
      ((s { armed := true }).fn 0).expired = false ∧ reachable 0 up ∧ ((s { flr := true }).fn 0).flr = true ∧
      (s { flr := true }).link.vfEnable = false ∧ up.isReady rCfg = true ∧ up.link.secResetBusy = false ∧
      { up with link := { secResetBusy := true } }.link.secResetBusy = true := by decide
theorem test_meets_CxlMemory :
    let e : Evict := { line := 9, state := .m, data := 0, kind := .dirty, snooped := false }
    let s := { up with link := { cxlMem := true, cxlCache := true, winUnits := 1 },
                       cxl := { lines := [(8, ⟨.m, 0⟩)], evict := [e], waiting := [7] } }
    awake s ∧ s.link.cxlMem = true ∧ 4194303 < s.link.winUnits * 4194304 ∧ 7 ∈ s.cxl.waiting ∧ s.link.cxlCache = true ∧
      s.cxl.evict.find? (fun e => e.line == 8) = none ∧ Tab.find s.cxl.lines 8 = some ⟨.m, 0⟩ ∧
      Tab.find s.cxl.lines 6 = none ∧ s.cxl.evict.find? (fun e => e.line == 9) = some e ∧ e.kind = .dirty := by decide +kernel
/-- That a bundle passes needs a signature that verifies, which is opaque (log 11): it stands as a hypothesis of its clause. -/
theorem test_meets_BootChannel :
    let s := { pf { bme := true } with boot := { state := .wait, len := 1024#32 } }
    let t := { up with boot := { state := .fetch, fetching := true, len := 1024#32 } }
    reachable 0 s ∧ (s.boot.state = .wait ∨ s.boot.state = .refused) ∧ s.boot.src.toNat % 4096 = 0 ∧ 1024 ≤ s.boot.len.toNat ∧
      s.boot.len.toNat ≤ 4194304 ∧ (s.fn 0).bme = true ∧ (1#32).getLsbD 0 = true ∧ awake t ∧ t.boot.fetching = true ∧
      { t with boot := { t.boot with secOnly := true, runAbi := 1 } }.boot.runAbi = 1 ∧
      t.isReady rBasalt = true ∧ checkBundle t.fuses.keyRevoke t.fwFloor t.boot.len.toNat none = .error eSig ∧ t.boot.secOnly = false := by
  decide
theorem test_meets_ProcessorFaults : awake up ∧ up.serve.step = none ∧ up.mayFault 2 = true ∧ up.mayFault 10 = true ∧
    (({ up with procs := [(2, { lastAdv := some 3 })], time := 4 }).proc 2).lastAdv = some 3 ∧ 4 < 3 + ticksMs := by decide
theorem test_meets_FirmwareReplacement :
    let s := fun (x : Proc) => { up with procs := [(agSec, { state := .running, imaged := true }), (3, x)], time := 10 * ticksMs }
    let u : FwUpdate := { fn := 0, q := some 0, tag := 0, todo := [], cur := some 3, handoff := true, toB := true, orphan := false }
    awake up ∧ (s { state := .loading, imaged := true }).mayRun 3 = true ∧
      ((s { state := .loading, imaged := true }).proc 3).imaged = true ∧
      ((s { deferred := some 2, lastAdv := some 0 }).proc 3).deferred = some 2 ∧ 0 + ticksMs ≤ (s {}).time ∧
      ((s { fresh := some false }).proc 3).fresh.isSome = true ∧ ((s { fresh := some false }).proc 3).state ≠ .running ∧
      { s {} with upd := some u }.upd.bind (·.cur) = some 3 ∧
      ((s { state := .handoff }).proc 3).state = .handoff ∧ ((s { state := .handoff }).proc 3).fresh = none ∧
      ([] : Bytes).length ≤ (procMem 3).2 ∧ ((s { fresh := some true, state := .running }).proc 3).state = .running := by decide
/-- A bundle that passes, and its images' formats in mode 1, stand as hypotheses (log 11). -/
theorem test_meets_FirmwareUpdateStarts :
    meets opFwUpdate 0 [(0x10, 8), (0x18, 4), (0x1C, 2), (0x1E, 1)] true (entry 0 [(0x18, 4, 4096), (0x1C, 2, 2047)])
      (pf { ringed with rings := [(0, { enable := true, sqLog := 4, cqLog := 4, sqTail := 1 })] }) (fun c t =>
        decide (0 < c.arg 0x1C 2 ∧ c.arg 0x1C 2 < 2048 ∧ c.arg 0x1E 1 = 0 ∧ (t.proc agSec).state = .running ∧ t.upd = none ∧
          (List.range 11).any (fun p => (t.proc p).state == .restarting) = false ∧ t.prov.stage = none ∧
          (t.slotUsed false && t.slotUsed true) = false)) = true ∧
    meets opFwUpdate 0 [(0x10, 8), (0x18, 4), (0x1C, 2), (0x1E, 1)] true (entry 0 [(0x18, 4, 4096), (0x1C, 2, 1), (0x1E, 1, 1)])
      { pf ringed with boot := { up.boot with cap := 4#4 } } (fun c t => decide (c.arg 0x1E 1 = 1 ∧ t.boot.cap.getLsbD capHandoff = true ∧
        (List.range 6).any (fun h => (Tab.get {} t.hbm h).usable) = true)) = true := by decide +kernel

theorem test_meets_ProvisioningStages :
    meets opProvStage 0 [(0x10, 1), (0x18, 8), (0x20, 4)] true (entry 0 [(0x20, 4, 131072)]) (pf ringed) (fun c t =>
      decide (c.arg 0x10 1 = 0 ∧ 0 < c.arg 0x20 4 ∧ c.arg 0x20 4 ≤ 131072 ∧ (t.proc agSec).state = .running ∧ t.prov.stage = none ∧
        t.upd = none ∧ t.nor.busy = false)) = true ∧
    awake up ∧ (up.proc agSec).state = .running ∧ { up with prov := { stage := some (0, 0, none, 7#32, []) } }.prov.stage =
      some (0, 0, none, 7#32, []) ∧ recordOk up.fuses false [] = false := by decide +kernel
theorem test_meets_ProvisioningStages_journal :
    let entryIn := fun (st : JState) =>
      let e : JEntry := { jseq := 1, state := st, slot := 0, tries := 0, xslot := 1, recSeq := 0, digest := 0 }
      ({ up with nor := { journal := [e.bytes] } } : State).inForce.map (fun e => (e.state, e.slot))
    up.inForce.isNone = true ∧ entryIn .downloaded = some (JState.downloaded, 0) ∧ entryIn .trial = some (JState.trial, 0) ∧
      up.secTakes = true ∧ { up with procs := [(agSec, { state := .restarting })] }.secTakes = false := by decide +kernel
theorem test_meets_SpdmConnection :
    let s := fun (ph : SpdmPhase) (n : Nat) => { up with sec := { phaseDoe := ph, akReady := true, sessions := (List.range n).map (session true) } }
    awake up ∧ up.answers false = true ∧ { up with side := { up := true, dyn := some 48 } }.answers true = true ∧
      (s .version 0).sec.phase false = .version ∧ (s .capabilities 0).sec.phase false = .capabilities ∧
      (s .algorithms 3).sec.phase false = .algorithms ∧ (s .algorithms 3).sec.identityOk = true ∧ (s .algorithms 3).sec.akReady = true ∧
      (s .algorithms 3).sec.sessions.length < 4 ∧ 4 ≤ (s .algorithms 4).sec.sessions.length ∧
      { up with sec := { identityOk := false } }.sec.identityOk = false ∧ up.sec.phase false ≠ .version ∧
      up.sec.phase false ≠ .capabilities ∧ up.sec.phase false ≠ .algorithms := by decide
theorem test_meets_SpdmSessions :
    let x := fun e => session e 1
    let s := fun (e : Bool) => { up with sec := { sessions := [x e], ide := [(32, .programmed, 0)] } }
    awake up ∧ (s true).sec.session 1 = some (x true) ∧ (s false).sec.session 1 = some (x false) ∧ (s true).answers false = true ∧
      ((x true).via == .mctp) = false ∧ 32 ≤ 32 ∧ Tab.find (s true).sec.ide 32 = some (.programmed, 0) := by decide
/-- A proof that verifies stands as a hypothesis, since verification is opaque (log 11); one without a chain does not. -/
theorem test_meets_LinkKeyExchange :
    let s := port { st := .up, ephNo := 1 }
    let t := port { st := .up, keyed := true }
    awake s ∧ s.exchanges 3 = true ∧ ({ s with procs := [(agSec, { state := .restarting })] }).exchanges 3 = true ∧
      ({ s with procs := [(agSec, { state := .restarting })] }).secRuns = false ∧ (s.port 3).certs.length = 0 ∧ (s.port 3).certsDone = false ∧ (s.port 3).partnerPub = none ∧
      (s.port 3).accept = false ∧ (s.port 3).rejected = false ∧ (s.port 3).ephNo ≠ 0 ∧ (t.port 3).st = .up ∧ (t.port 3).keyed = true ∧
      (t.port 3).rekeying = false ∧ t.secRuns = true ∧ ((port { st := .up, keyed := true, rekeying := true }).port 3).rekeying = true ∧
      (0#32) ≠ (t.port 3).phaseRx + 1 := by decide
theorem test_meets_RingsByRegister :
    let on := pf { ringed with rings := [(0, { enable := true, sqLog := 4, cqLog := 4, sqTail := 1, cqTail := 3, unsig := 2 })] }
    let good := { up.ring 0 0 with vector := 63#6, weight := 0#4, sqLog := 16#5, cqLog := 4#5 }
    reachable 0 up ∧ reachable 0 on ∧ (0x80000000#32).getLsbD 31 = true ∧ (up.ring 0 0).enable = false ∧ ringOk 0 good = true ∧
      ringOk 0 { good with sqLog := 17#5 } = false ∧ (on.ring 0 0).enable = true ∧ (0#32).getLsbD 31 = false ∧
      ((pf { expired := true }).fn 0).expired = true ∧ (on.fn 0).expired = false ∧ (on.ring 0 0).sqSize ≤ 16 ∧ 15 < (on.ring 0 0).sqSize ∧
      (15 + 16 - (on.ring 0 0).sqTail) % 16 + ((on.ring 0 0).sqTail + 16 - (on.ring 0 0).sqHead) % 16 < 16 ∧
      16 ≤ (0 + 16 - (on.ring 0 0).sqTail) % 16 + ((on.ring 0 0).sqTail + 16 - (on.ring 0 0).sqHead) % 16 ∧
      (3 + 16 - (on.ring 0 0).cqHead) % 16 ≤ ((on.ring 0 0).cqTail + 16 - (on.ring 0 0).cqHead) % 16 ∧
      ((on.ring 0 0).cqTail + 16 - (on.ring 0 0).cqHead) % 16 < (4 + 16 - (on.ring 0 0).cqHead) % 16 ∧ (on.ring 0 0).unsig ≠ 0 ∧
      (up.ring 0 0).unsig = 0 := by
  decide
theorem test_meets_SlotCancelLease :
    let s := fun (x : Func) => pf x
    reachable 0 up ∧ ((s { directCpl := BitVec.ofNat 512 (2 ^ 505) }).fn 0).busy = true ∧
      ((s { directCmd := 1 }).fn 0).busy = false ∧ isAdminOp (bits ((s { directCmd := 1 }).fn 0).directCmd 0 16) = true ∧
      isAdminOp (bits (up.fn 0).directCmd 0 16) = false ∧ ((s { cancelLow := some 1 }).fn 0).cancelLow = some 1#32 ∧
      (up.fn 0).cancelLow = none ∧ ((s { expired := true }).fn 0).expired = true ∧ (up.fn 0).expired = false ∧
      10 ≤ bits (10#32) 0 14 ∧ bits (10000#32) 0 14 ≤ 10000 := by decide +kernel
theorem test_meets_AdminReports :
    meets opIdentify 0 [(0x10, 8)] true (entry 0 []) (pf ringed) (fun _ _ => true) = true ∧
    meets opCounters 0 [(0x10, 8), (0x18, 1)] true (entry 0 [(0x18, 1, 1)]) (pf ringed) (fun c _ => decide (c.arg 0x18 1 ≤ 1)) = true ∧
    meets opList 0 [(0x10, 8), (0x18, 4), (0x1C, 1)] true (entry 0 [(0x18, 4, 64), (0x1C, 1, 7)]) (pf ringed) (fun c _ =>
      decide (c.arg 0x18 4 % 64 = 0 ∧ 64 ≤ c.arg 0x18 4 ∧ c.arg 0x1C 1 ≤ 7)) = true ∧
    (∀ e ∈ [false, true], (match taken 0 opAdopt .direct [(0x10, 4), (0x14, 1)] true (pf (adopting e)) with
      | some (c, t) => decide (10 ≤ c.arg 0x10 4 ∧ c.arg 0x10 4 ≤ 10000 ∧ c.arg 0x14 1 ≤ 3 ∧ (t.fn 0).expired = e ∧ (t.fn 0).bme = true ∧
          (t.fn 0).d3 = false)
      | none => false) = true) ∧
    ([{ adopting true with bme := false }, { adopting true with d3 := true }].all (fun x =>
      (taken 0 opAdopt .direct [(0x10, 4), (0x14, 1)] true (pf x)).isSome)) = true := by decide +kernel
theorem test_meets_RingsAndLimits :
    meets opRingCreate 0 [(0x10, 1), (0x11, 1), (0x12, 1), (0x13, 1), (0x14, 1), (0x18, 8), (0x20, 8)] true
      (entry 0 [(0x10, 1, 31), (0x11, 1, 16), (0x12, 1, 4), (0x13, 1, 63), (0x14, 1, 16), (0x18, 8, 4096)]) (pf ringed) (fun c t =>
        decide (0 < c.arg 0x10 1 ∧ c.arg 0x10 1 ≤ 31 ∧ 0 < c.arg 0x14 1 ∧ c.arg 0x14 1 ≤ 16 ∧ c.arg 0x11 1 ≤ 31 ∧ c.arg 0x12 1 ≤ 31 ∧
          c.arg 0x13 1 ≤ 63 ∧ (t.ring 0 31).enable = false ∧ ringOk 0 (lastRing (t.ring 0 31)) = true)) = true ∧
    meets opRingDelete 0 [(0x10, 1)] true (entry 0 [(0x10, 1, 1)]) (pf ringed) (fun c _ => decide (0 < c.arg 0x10 1 ∧ c.arg 0x10 1 ≤ 31)) =
      true ∧
    meets opLimitSet 0 [(0x10, 1), (0x11, 1), (0x14, 4)] true (entry 0 [(0x10, 1, 2), (0x11, 1, 1), (0x14, 4, 60)]) (pf ringed)
      (fun c _ => decide (c.arg 0x10 1 ≤ 2 ∧ c.arg 0x11 1 ≤ 2 ∧ limitOk (c.arg 0x10 1) (c.arg 0x14 4) = true)) = true ∧
    meets opPhaseOpSet 0 [(0x10, 1), (0x11, 1)] true (entry 0 [(0x10, 1, 4), (0x11, 1, 7)]) (pf ringed) (fun c t =>
      decide (c.arg 0x10 1 ≤ 4 ∧ c.arg 0x11 1 ≤ 7 ∧ t.isReady rPmc = true)) = true := by decide +kernel
/-- Which units a grant takes is free (log 18), so that the units granted stand as a hypothesis of their clause. -/
theorem test_meets_BuffersAndWindows :
    let h := mkHandle 0 kBuffer 1 2
    let s := { pf ringed with issued := [h], bufs := [(h, { fn := 0, units := [20] })] }
    meets opBufAlloc 0 [(0x10, 4)] true (entry 0 [(0x10, 4, 4096)]) s (fun c t => decide (0 < c.arg 0x10 4 ∧ c.arg 0x10 4 ≤ 4096 ∧
      t.hbmLost = false ∧ t.hbmNone = false ∧ c.arg 0x10 4 ≤ t.headroom)) = true ∧
    meets opBufAlloc 0 [(0x10, 4)] true (entry 0 [(0x10, 4, 1)]) { s with settings := { kvFloor := 200 } } (fun c t =>
      decide (t.headroom < c.arg 0x10 4)) = true ∧
    meets opBufFree 0 [] false (entry h []) s (fun c t => decide (handleIs t 0 kBuffer c.e.handle.toNat (Tab.has t.bufs h) = .live)) =
      true ∧
    meets opWinMap 0 [(0x10, 2), (0x14, 4)] false (entry h [(0x10, 2, 4095)]) s (fun c t =>
      decide (handleIs t 0 kBuffer c.e.handle.toNat (Tab.has t.bufs h) = .live ∧ c.arg 0x14 4 = 0 ∧ c.arg 0x10 2 < 4096 ∧ 20 < t.topUnit ∧
        Tab.has (t.fn 0).slots (c.arg 0x10 2) = false)) = true ∧
    { s with link := { winUnits := 1 } }.topUnit ≤ 36863 ∧
    meets opWinUnmap 0 [(0x10, 2)] true (entry 0 [(0x10, 2, 4095)]) s (fun c _ => decide (c.arg 0x10 2 < 4096)) = true := by decide +kernel
theorem test_meets_HandlesAreFresh : 31 < 32 ∧ 7 < 8 ∧ up.issued.length < 2 ^ 23 := by decide

/-- A blob that opens stands as a hypothesis, since the wrapping is opaque (log 11); one of the wrong length does not open. -/
theorem test_meets_KeysModelsAdapters :
    let live := fun (t : State) (c : Cmd) (k : Nat) (has : Bool) => handleIs t 0 k c.e.handle.toNat has = .live
    meets opKeyLoad 0 [(0x10, 8), (0x18, 4)] true (entry 0 [(0x18, 4, 4096)]) full (fun c t => decide (64 ≤ c.arg 0x18 4 ∧
      c.arg 0x18 4 ≤ 4096 ∧ (t.proc agSec).state = .running ∧ unwrap 0 [] t = none ∧ t.sec.keys.length < 256 ∧
      (t.sec.keys.filter (fun e => e.2.owner.fn == 0)).length < 16)) = true ∧
    meets opModelLoad 0 [(0x10, 8), (0x18, 8), (0x20, 1), (0x21, 1), (0x22, 2)] false (entry hKey [(0x18, 8, 4096), (0x21, 1, 1), (0x22, 2, 1)])
      full (fun c t => decide (live t c kKey (Tab.has t.sec.keys hKey) ∧ c.arg 0x20 1 ≤ 1 ∧ c.arg 0x21 1 ≤ 1 ∧ c.arg 0x22 2 ≤ c.arg 0x21 1 ∧
        t.hbmLost = false ∧ t.hbmNone = false ∧ t.secTakes = true)) = true ∧
    meets opAdapterLoad 0 [(0x10, 8), (0x18, 8), (0x20, 8)] false (entry hModel [(0x20, 8, hKey)]) full (fun c t =>
      decide (live t c kModel (t.modelLive hModel) ∧ handleIs t 0 kKey (c.arg 0x20 8) (Tab.has t.sec.keys (c.arg 0x20 8)) = .live ∧
        t.hbmLost = false ∧ t.hbmNone = false ∧ t.secTakes = true ∧ ((Tab.find t.serve.models hModel).bind (fun x => t.copy x.copy)) = some aCopy ∧
        aCopy.share = false ∧ aCopy.spread = false ∧ t.adapterCount (fun _ => true) < 1024 ∧
        t.adapterCount (· == 0) < 64 ∧ t.serve.loads.length < 4)) = true ∧
    meets opModelUnload 0 [] false (entry hModel []) full (fun c t => decide (live t c kModel (Tab.has t.serve.models hModel) ∧
      t.modelBusy hModel { fn := 0, copy := 1, attached := false } = true)) = true ∧
    meets opModelUnload 0 [] false (entry hModel []) { full with serve := { full.serve with ctxs := [], adapters := [] } } (fun _ t =>
      decide (t.modelBusy hModel { fn := 0, copy := 1, attached := false } = false ∧ aCopy.rodId = none ∧ (releaseModel hModel true t).copy 1 = none))
      = true ∧
    meets opModelUnload 0 [] false (entry hModel []) { full with serve := { full.serve with ctxs := [], adapters := [], copies := [] } }
      (fun _ t => decide (t.modelBusy hModel { fn := 0, copy := 1, attached := false } = false ∧ t.copy 1 = none)) = true ∧
    meets opModelUnload 0 [] false (entry hModel []) { full with serve := { full.serve with
        ctxs := [], adapters := [], copies := [(1, { aCopy with rodId := some (0x012, 6) })] } } (fun _ t =>
      decide (t.modelBusy hModel { fn := 0, copy := 1, attached := false } = false ∧ (releaseModel hModel true t).copy 1 = none)) = true ∧
    meets opModelLoad 0 [(0x10, 8), (0x18, 8), (0x20, 1), (0x21, 1), (0x22, 2)] false (entry hKey [(0x18, 8, 4096)])
      { full with serve := { full.serve with loads := List.replicate 4 aLoad } } (fun _ t => decide (4 ≤ t.serve.loads.length)) = true ∧
    meets opAdapterUnload 0 [] false (entry hAda []) full (fun c t => decide (live t c kAdapter (Tab.has t.serve.adapters hAda))) = true ∧
    meets opModelQuery 0 [(0x10, 8), (0x18, 4)] false (entry hModel [(0x18, 4, 64)]) full (fun c t =>
      decide (live t c kModel (Tab.has t.serve.models hModel) ∧ 64 ≤ c.arg 0x18 4)) = true ∧
    Tab.find full.sec.keys hKey = some aKey ∧ allZero (slice (fit 64 ([] : Bytes)) 0x18 40) = true ∧ aKey.permits 0 5 = true ∧
    aKey.permits 0 0 = false := by decide +kernel
/-- An image's streams stand as a hypothesis, since SHA-384 is opaque (log 11). -/
theorem test_meets_ProgramsNetworksProfiles :
    meets opProgLoad 0 [(0x10, 8), (0x18, 8), (0x20, 4)] true (entry 0 [(0x20, 4, 256)]) full (fun _ _ => true) = true ∧
    meets opProgUnload 0 [] false (entry hProg []) full (fun c t =>
      decide (handleIs t 0 kProgram c.e.handle.toNat (Tab.has t.progs hProg) = .live)) = true ∧
    meets opFlintLoad 0 [(0x10, 8), (0x18, 4)] true (entry 0 [(0x18, 4, 264)]) full (fun c t => decide (t.boot.cap.getLsbD 1 = true ∧
      t.isReady rFlint = true ∧ flintFault (anImage.take (c.arg 0x18 4)) (c.arg 0x18 4) = none ∧ rd anImage 6 1 ≤ t.freeTiles.length ∧
      (flintFault [] (c.arg 0x18 4)).isSome = true)) = true ∧
    meets opFlintUnload 0 [] false (entry hNet []) full (fun c t =>
      decide (handleIs t 0 kNetwork c.e.handle.toNat (Tab.has t.flint.nets hNet) = .live ∧ Tab.find t.flint.nets hNet = some aNet)) = true ∧
    meets opProfileSet 0 [(0x10, 8), (0x18, 4)] true (entry 0 [(0x18, 4, 128)]) full (fun c t => decide (c.arg 0x18 4 ≤ 67108864 ∧
      profFault (fit (c.arg 0x18 4) aTable) = none ∧ (profFault (fit (c.arg 0x18 4) [])).isSome = true ∧
      (profOf (fit (c.arg 0x18 4) aTable)).isTree = false ∧ t.serve.profs.length < 256)) = true ∧
    meets opProfileFree 0 [] false (entry hProf []) full (fun c t =>
      decide (handleIs t 0 kProfile c.e.handle.toNat (Tab.has t.serve.profs hProf) = .live)) = true := by decide +kernel
theorem test_meets_RequestsTasksRuns :
    meets opReqSubmit 1 [(0x10, 8), (0x18, 4), (0x1C, 4), (0x20, 8), (0x28, 8), (0x30, 8), (0x38, 8)] false
      (entry hModel [(0x18, 4, 1), (0x1C, 4, 1)]) fullIo (fun c t => decide (handleIs t 0 kModel c.e.handle.toNat
        (t.modelLive hModel) = .live ∧ t.copyOf hModel = some aCopy ∧ srcQ c.src = some 1 ∧ submitFault c [3] aCopy t = none ∧
        t.hbmLost = false ∧ t.thermal.critical = false ∧ t.freeCtxs ≠ 0 ∧ aCopy.state ≠ .damaged ∧
        (t.copyOf (c.arg 0x38 8)).any (fun d => d.state == .damaged) = false)) = true ∧
    meets opReqCancel 1 [] false (entry aCtx.handle []) fullIo (fun c t => decide (t.liveRequest 0 c.e.handle.toNat = some 0 ∧
      handleIs t 0 kRequest c.e.handle.toNat true = .live)) = true ∧
    meets opReqQuery 1 [] false (entry aCtx.handle []) fullIo (fun c t => decide (t.liveRequest 0 c.e.handle.toNat = some 0 ∧
      t.ctx 0 = some aCtx ∧ handleIs t 0 kRequest c.e.handle.toNat true = .live)) = true ∧
    meets opPoolSet 0 [(0x10, 1), (0x11, 1)] true (entry 0 [(0x10, 1, 3), (0x11, 1, 15)]) (pf ringed) (fun c t => decide (c.arg 0x10 1 ≤ 3 ∧
      c.arg 0x11 1 ≤ 15 ∧ t.isReady rFabricAny = true ∧ t.rodLoading = false ∧ t.serve.ctxs = [] ∧
      (t.rod.filter (fun e => e.1 != t.fab.addr && e.2.pool == 15)) = [])) = true ∧
    meets opPoolSet 0 [(0x10, 1), (0x11, 1)] true (entry 0 [(0x10, 1, 3)]) { pf ringed with ready := up.ready &&& ~~~ BitVec.ofNat 32 (2 ^ rFabricAny) }
      (fun _ t => !t.isReady rFabricAny) = true ∧
    meets opPoolSet 0 [(0x10, 1), (0x11, 1)] true (entry 0 [(0x10, 1, 3)])
      { pf ringed with serve := { loads := [{ aLoad with spread := true }] } } (fun _ t => t.rodLoading) = true ∧
    meets opTaskRun 1 [(0x10, 8), (0x18, 8), (0x20, 8), (0x28, 1)] false (entry hProg [(0x10, 8, hBuf), (0x28, 1, 4)]) fullIo (fun c t =>
      decide (handleIs t 0 kProgram c.e.handle.toNat (Tab.has t.progs hProg) = .live ∧ t.prog hProg = some aProg ∧ srcQ c.src = some 1 ∧
        c.arg 0x28 1 ≤ 4 ∧ bufArg 0 (c.arg 0x10 8) (aProg.uses 0) t = .fine ∧ bufArg 0 (c.arg 0x18 8) (aProg.uses 1) t = .fine ∧
        bufArg 0 (c.arg 0x20 8) (aProg.uses 2) t = .fine ∧ t.hbmLost = false ∧ t.thermal.critical = false)) = true ∧
    meets opFlintRun 1 [(0x10, 8), (0x18, 8), (0x20, 4)] false (entry hNet [(0x10, 8, hBuf), (0x18, 8, hBuf)]) fullIo (fun c t =>
      decide (t.boot.cap.getLsbD 1 = true ∧ handleIs t 0 kNetwork c.e.handle.toNat (Tab.has t.flint.nets hNet) = .live ∧
        srcQ c.src = some 1 ∧ handleIs t 0 kBuffer (c.arg 0x10 8) (Tab.has t.bufs (c.arg 0x10 8)) = .live ∧
        handleIs t 0 kBuffer (c.arg 0x18 8) (Tab.has t.bufs (c.arg 0x18 8)) = .live)) = true := by decide +kernel
theorem test_meets_PowerRailEvents :
    let s := fun (p : Power) => { up with power := p }
    State.reset.pins.coreEn = false ∧ State.reset.pins.thermtrip = false ∧ { up with pins := { coreEn := true } }.pins.vcoreGood = false ∧
      (s { change := some ⟨0, 3⟩ }).power.change = some ⟨0, 3⟩ ∧ { up with brown := { asserted := true } }.brown.asserted = true ∧
      up.brown.asserted = false ∧ up.pins.perst = false ∧ up.pins.thermtrip = false ∧ up.power.pwrbrk = false ∧ awake up ∧
      up.power.stretch = [] ∧ (0, 1) ∈ (s { stretch := [(0, 1)] }).power.stretch ∧
      (0 : Fn).val = 0 ∧ (31 : Fn).val ≠ 0 := by decide
theorem test_meets_PhaseFailures :
    let s := fun (p : Phase) => { up with power := { phases := [(23, p)] } }
    let st := { up with power := { stretch := [(0, 1)] } }
    (s {}).power.stretch.any (fun e => decide (0 < e.2)) = false ∧ (s {}).brown.asserted = false ∧
      (s {}).power.phases.any (·.2.probing) = false ∧ ((s {}).phase 23).st = 0 ∧ st.power.stretch.any (fun e => decide (0 < e.2)) = true ∧
      ((s { probing := true }).phase 23).probing = true ∧ ((s { probing := true }).phase 23).st = 0 ∧ ((s {}).phase 23).probing = false ∧
      ((s {}).phase 23).st ≠ 2 ∧ ((s { st := 2 }).phase 23).st = 2 ∧ ((s {}).phase 23).hot = false := by decide
theorem test_meets_DroopResponses :
    Tab.get 0 up.power.stretch 23 < (3 : Fin 4).val ∧ (0 : Fin 4).val ≤ Tab.get 0 up.power.stretch 23 ∧
      { up with power := { held := true } }.power.held = true ∧ up.brown.asserted = false ∧
      up.power.stretch.any (fun e => decide (0 < e.2)) = false ∧
      { up with power := { held := true, stretch := [(23, 1)] } }.power.stretch.any (fun e => decide (0 < e.2)) = true := by decide
theorem test_meets_EnergyIsDivided : awake up ∧ up.meter.degraded = false ∧ { up with meter := { degraded := true } }.meter.degraded = true ∧
    up.isReady rPmc = true := by decide
theorem test_meets_OperatingPointUpdate :
    up.isReady rPmc = true ∧ { up with thermal := { critical := true } }.thermal.critical = true ∧
      { up with power := { pwrbrk := true } }.power.pwrbrk = true ∧
      2 ≤ { up with power := { phases := [(0, { st := 1 }), (1, { st := 2 })] } }.untrusted ∧
      8 < { up with thermal := { excluded := List.range 9 } }.thermal.excluded.length ∧
      { up with thermal := { throttle := true, die := [(0, 840)] } }.thermal.throttle = true ∧
      (∃ e ∈ { up with thermal := { throttle := true, die := [(0, 840)] } }.included, 840 ≤ e.2) ∧ State.reset.isReady rPmc = false := by
  decide
theorem test_meets_ThermalThresholds :
    (List.replicate 96 (880 : Int)).length ≤ 96 ∧ (List.replicate 96 (1201 : Int))[95]? = some 1201 ∧ up.thermal.excluded.contains 95 = false ∧
      { up with thermal := { excluded := [95] } }.thermal.excluded.contains 95 = true ∧ awake up ∧
      { up with thermal := { critical := true } }.thermal.critEnded = false := by decide
theorem test_meets_SidebandRequests :
    up.side.up = true ∧ State.reset.side.up = false ∧ up.thermal.excluded.contains 95 = false ∧
      Tab.find { up with thermal := { die := [(95, 400)] } }.thermal.die 95 = some 400 ∧ limitOk 0 600 = true ∧ limitOk 0 2750 = true ∧
      limitOk 0 2751 = false ∧ limitOk 1 200 = true ∧ limitOk 2 0 = true := by decide
theorem test_meets_TestAccessPort : State.reset.pins.perst = true ∧ up.pins.perst = false := by decide
theorem test_meets_ReferenceLoss :
    up.pins.refSys = true ∧ { up with pins := { perst := false, refSys := false } }.pins.refSys = false ∧ awake up ∧ up.pins.refFab = true ∧ { up with pins := { perst := false, refFab := false } }.pins.refFab = false ∧
      { up with ft := { everLocked := true } }.ft.master = false ∧ { up with ft := { everLocked := true } }.ft.everLocked = true ∧
      up.ft.everLocked = false := by decide

/-- An ordered set of another part. -/
def set1 : OrdSet := {
  type := 1, lane := 0, port := 0, width := 0, pam4 := false, addrValid := true, addr := 0x011, nonce := 9, laneOk := 0xFF, request := 0,
  target := 4 }
theorem test_meets_PortTraining :
    let s := fun (x : Port) => port { x with width := 8, partnerWidth := 8 }
    let four := (List.range 4).map (fun p => (p, ({ st := .training } : Port)))
    awake (s {}) ∧ (s {}).allots 3 = true ∧ (s {}).pins.refFab = true ∧ (s {}).slotFree = true ∧
      { up with fab := { ports := four } }.slotFree = false ∧ ((s { st := .hold, listens := true }).port 3).listens = true ∧
      ((s { st := .training }).port 3).stage = .detect ∧ (s { st := .training }).ownNonce set1.nonce = false ∧
      (s { st := .training, nonce := 9 }).ownNonce set1.nonce = true ∧
      set1.nonce = ((s { st := .training, nonce := 9 }).port 3).nonce ∧
      (up.fab.valid && set1.addrValid) = true ∧ (State.reset.fab.valid && set1.addrValid) = false ∧ set1.addr.toNat ≤ up.fab.addr ∧
      set1.target.toNat ≠ 0 ∧ (lanesFor (modeWidth set1.target.toNat) ({ learnPartner set1 { ({} : Port) with laneOk := 0xFF } with
        partnerOk := set1.laneOk }).bothOk).isSome = true ∧ ((s { st := .training, stage := .identify, attempt := 1 }).port 3).attempt = 1 ∧
      ((s { leader := true, st := .retrain, mode := 4 }).port 3).mode = set1.target.toNat ∧
      (0x0F#8) &&& (0xFF#8 &&& 0x0F#8) = 0x0F#8 ∧ ((s { st := .training, stage := .deskew, attempt := 2 }).port 3).attempt ≠ 3 ∧
      ((s { st := .training, stage := .deskew, attempt := 3 }).port 3).deferred ≠ some 1 ∧ ((s { st := .up }).port 3).st ≠ .training ∧
      ((s { st := .training, stage := .equalize, accepted := true, lanes := 0x0F, laneOk := 0xFF }).port 3).lanes &&&
        (0xFF#8 &&& 0x07#8) ≠ 0x0F#8 ∧ ((s { st := .down }).port 3).selfWired = false ∧ up.fab.freePacing = false ∧
      (four.filter (fun e => decide (e.2.st = .training))).length ≤ 4 := by decide
theorem test_meets_LinkRecovery :
    let s := fun (x : Port) => port { x with width := 8, partnerWidth := 8 }
    awake (s { st := .up }) ∧ (s { st := .up }).allots 3 = true ∧ ((s { st := .up, lanes := 0x7F }).port 3).lanes.getLsbD 7 = false ∧
      ((s { st := .up, lanes := 0x80 }).port 3).lanes.getLsbD 7 = true ∧ ((s { st := .up, leader := true, mode := 2 }).port 3).leader = true ∧
      ((s { st := .up, mode := 2 }).port 3).mode < ((s {}).port 3).allotted (s {}).settings.linkNrz ∧
      ((s { st := .up }).port 3).request = 0 ∧ { set1 with request := 2 }.request ≠ 0 ∧
      ((s { st := .retrain, request := 1, leader := true }).port 3).request ≠ 0 ∧
      ((s { st := .training, linkDown := true }).port 3).linkDown = true := by decide
theorem test_meets_FramesAndOrder :
    let s := port { st := .up, seqRx := 0xFFFF#16 }
    let m : Msg := { hdr := msgHdr [], body := [] }
    let o := { up with fab := { order := [(orderKey 2 0x123, { held := [m] })] } }
    let keyed := fun (old : Option (BitVec 256)) => ((port { st := .up, keyed := true, keyRxOld := old }).port 3)
    awake s ∧ s.allots 3 = true ∧ (s.port 3).st = .up ∧ (s.port 3).keyed = false ∧ (keyed none).phaseRx.getLsbD 0 = false ∧
      (keyed (some 0)).keyRxOld.isSome = true ∧ 32768 ≤ (0xFFFF#16 - ((s.port 3).seqRx + 1)).toNat ∧
      (1#16) ≠ (s.port 3).seqRx + 1 ∧ ((1#16) - ((s.port 3).seqRx + 1)).toNat < 32768 ∧ (s.port 3).seqRx + 1 = 0#16 ∧
      (o.msgOrder (orderKey 2 0x123)).held.isEmpty = false ∧ (up.msgOrder (orderKey 2 0x123)).held.isEmpty = true := by decide
theorem test_meets_RecordsAndForwarding :
    let r : LsRecord := { id := 77, seq := 0, addr := some 5, fabricAll := false, settled := false, furlong := 0, ports := [], aged := true }
    let h := { up with fab := { holds := [(5, 77)], db := [r] } }
    let m : Msg := { hdr := { msgHdr [] with hops := 1 }, body := [] }
    let v := { up with fab := { ports := [(0, { st := .up })], valid := true, fwd := [(0, 1, m)] } }
    let q := port { st := .up, queues := [(1, [[]])], used := [(1, 4)] }
    awake up ∧ up.isReady rFw = true ∧ Tab.find h.fab.holds 5 = some 77 ∧ h.recordOf 77 = some r ∧ r.aged = true ∧
      lsRecord [] = none ∧ lsRecord r.bytes = some { r with aged := false } ∧ { r with aged := false }.aged = false ∧ h.recordOf 78 = none ∧
      up.fab.fwd = [] ∧ State.reset.fab.valid = false ∧ (msgHdr []).hops ≤ (msgHdr []).hop ∧ (q.port 3).hasCredit 1 = false ∧
      v.fab.fwd = [(0, 1, m)] ∧ v.fab.valid = true ∧ m.hdr.hop < m.hdr.hops ∧
      ((updPort 0 (fun x => { x with owed := Tab.upd 0 x.owed 1 (· + m.frames) }) { v with fab := { v.fab with fwd := [] } }).port
        (routeHop m.hdr.route m.hdr.hop).2).st = .up ∧ Tab.get [] (q.port 3).queues 1 = [[]] := by decide
/-- The routes of a settle run from the part's own PART_ID, which is opaque (log 14): the graph's routes show the first clause. -/
theorem test_meets_RoutesKeepTheirShape :
    let g : Graph := { links := [⟨1, 2, 0, 0⟩, ⟨2, 3, 4, 0⟩], addrs := [(1, 0), (2, 1), (3, 2)], rank := [(1, 0), (2, 1), (3, 2)] }
    g.route 1 0 16 3 = some [(false, 0), (false, 4)] ∧ (3 : BitVec 64) ≠ 1 := by decide
theorem test_meets_TileDispatch :
    let s := fun (op : TileOp) (qv : List Queued) => running { stream := [word op], qv := qv }
    (∀ op ∈ [TileOp.vec .vadd vf, .ctlNop, .loop 0xFFFF 1, .seti 15 7, .inc 1 7, .setd ⟨15, 0, .fp32, 0, 0, true, 0⟩, .halt],
      atDispatch 0 { op := op } (s op [])) ∧ TileOp.slot (.vec .vadd vf) = some .vec ∧
    ((s .halt (List.replicate 32 (queued .halt))).core 0).queue .vec = List.replicate 32 (queued .halt) := by decide +kernel
theorem test_meets_VectorIssue :
    let of := fun (q : Queued) => OpState.all (elemSrcs 3 vf q |>.map (fun e => (running { qv := [q] }).core 0 |>.source e.1 e.2))
    let q := queued (.vec .vfma vf)
    elemForm 3 vf { q with c := { kind := 0, fmt := .int4 } } = false ∧ of { q with a := { slateRow with base := -1 } } = .bounds ∧
    of { q with a := { slateRow with kind := 2 } } = .waits ∧ of { q with a := { slateRow with kind := 1, base := 63 } } = .field ∧
    ((running { inflight := [{ id := 0, slot := .vec, st := false, sev := 0, writes := [.slate 4 0], descs := 0 }] }).core 0).hazard
      ((slateRow.locs 4).getD []) = true ∧
    let s := fun (op : VecOp) => running { qv := [queued (.vec op vf)] }
    let ready := fun (op : VecOp) (srcs dsts : Rows) =>
      OpState.all (srcs.map (fun e => ((s op).core 0).source e.1 e.2) ++ dsts.map (fun e => ((s op).core 0).dest e.1 e.2)) = .ready ∧
        ((s op).core 0).hazard ((srcs ++ dsts).map (fun e => (e.1.locs e.2).getD [])).flatten = false
    (∀ op ∈ [VecOp.vadd, .vsub, .vmul, .vmin, .vmax, .vcmp, .vfma, .vsel, .vexp, .vrcp, .vrsq, .vsin, .vcos, .vcvt, .vmaxr, .vexps, .vresc,
        .vtopk, .vrot], atFront 0 .vec (queued (.vec op vf)) (s op)) ∧
    elemForm 3 vf (queued (.vec .vfma vf)) = true ∧
    ready .vfma (elemSrcs 3 vf (queued (.vec .vfma vf))) (elemDsts vf (queued (.vec .vfma vf))) ∧
    ready .vexps (rowsOf slateRow 64 ++ row0 slateRow ++ row0 slateRow) (rowsOf slateRow 64 ++ row0 slateRow) ∧
    ready .vrot (rowsOf slateRow 64 ++ rowsOf slateRow 1) (rowsOf slateRow 64) ∧ slateRow.computes = true ∧ slateRow.fmt = .fp32 ∧
    slateRow.kind ≠ 3#2 ∧ vf.count % (bits vf.mod 2 2 + 1) = 0 := by decide +kernel
theorem test_meets_SpanTransferSync :
    let sp := fun (op : TileOp) (c : Core) => running { c with qs := [queued op] }
    let x := fun (op : TileOp) => running { qx := [queued op] }
    let mm := sp (.mm mmf) { aPres := 0xFFFF#32 }
    let dr := sp (.drain drf) { plane1 := .full }
    atFront 0 .span (queued (.nop .span)) (sp (.nop .span) {}) ∧ atFront 0 .span (queued (.loadb true true true 3)) (sp (.loadb true true true 3) {}) ∧
      ((sp (.loadb true true true 3) { bPres := 0x80#8 }).core 0).hasB 1 3 = true ∧
      atFront 0 .span (queued (.mm mmf)) mm ∧ pairOk mmf.fmtA mmf.fmtB = true ∧ mmf.rowsM1.toNat + 1 ≤ 64 ∧
      (mm.core 0).planeSt 1 = .free ∧ (mm.core 0).inflight = [] ∧ (∀ g ∈ List.range 16, (mm.core 0).hasA 0 g = true) ∧
      pairOk .int8 .bf16 = false ∧ atFront 0 .span (queued (.drain drf)) dr ∧ (dr.core 0).planeSt 1 = .full ∧
      Fmt.rowUnits .fp32 ≤ drf.pitch.toNat ∧ drainOk ((dr.core 0).isInt 1) .fp32 false = true ∧
      ((sp (.drain drf) {}).core 0).planeSt 1 ≠ .full ∧ atFront 0 .xfer (queued (.sld sldf)) (x (.sld sldf)) ∧
      0 + sldf.rowsM1.toNat * sldf.pitch.toNat < ((x (.sld sldf)).core 0).dataUnits ∧ atFront 0 .xfer (queued (.dmaGo gof)) (x (.dmaGo gof)) ∧
      (x (.dmaGo gof)).coreTask 0 = some placed := by decide +kernel
theorem test_meets_counter_and_plane_instructions :
    let x := fun (op : TileOp) => running { qx := [queued op] }
    let ctr := fun (op : TileOp) (v : BitVec 32) => { x op with ctrs := [(5, { value := v })] }
    placed.place.bind (fun p => p.engine 0 15) = some 2 ∧
      atFront 0 .xfer (queued (.syncWait true 0 7)) (ctr (.syncWait true 0 7) 7) ∧ (ctr (.syncTas 0) 0).boundCounter 0 0 = some 5 ∧
      { (ctr (.syncTas 0) 0) with ctrs := [(5, { tag := full.tagOf (agCcc 0) 0 })] }.counterTakes (full.counterTag 0 5) 5 = true ∧
      (Tab.get {} (ctr (.syncTas 0) 0).ctrs 5).value = 0 ∧ (Tab.get {} (ctr (.syncTas 0) 9).ctrs 5).value ≠ 0 ∧
      atFront 0 .vec (queued (.vec .vrel vf)) (running { qv := [queued (.vec .vrel vf)], plane0 := .full }) ∧
      ((running { plane0 := .full }).core 0).planeSt (bits vf.mod 0 1) = .full ∧
      atFront 0 .vec (queued (.vmovr 15 4)) (running { qv := [queued (.vmovr 15 4)] }) := by decide +kernel
theorem test_meets_TileCompletions :
    let f : InFlight := { id := 0, slot := .span, st := true, sev := 15, writes := [], descs := 0 }
    let s := running { inflight := [f], aPres := 0x80000000#32 }
    let d : QDesc := { core := 0, go := 0, desc := 0, sig := some (5, { agent := agSch }), tag := { agent := agSch }, grant := 0 }
    let e := { full with engines := [(127, { queue := [d], tag := { agent := agSch } })] }
    let g := { f with writes := [.acc 0 .fp32 false 0] }
    awake s ∧ (s.core 0).inflight[0]? = some f ∧ f.descs = 0 ∧ (s.core 0).hasA 1 (255 / 16) = true ∧ (s.core 0).hasA 0 (0 / 16) = false ∧
      g.accumulates = true ∧ ([g, f].take 1).any InFlight.accumulates = true ∧ awake e ∧ (Tab.get {} e.engines 127).queue = [d] ∧
      e.engineTakes (Tab.get {} e.engines 127) d = true ∧ e.engineTakes (Tab.get {} e.engines 127) { d with grant := 1 } = false := by
  decide +kernel

theorem test_meets_TileWordsRoundTrip : ({ op := .sld sldf } : TileInstr).wf = true ∧ (decodeTile (word .halt)).isSome = true := by
  decide +kernel
theorem test_meets_TasksAndVision :
    let w := { aTask with prog := hProg }
    let s := fun (x : Task) => { full with tasks := [(0, x)], serve := { full.serve with step := none } }
    let v := { placed with visCount := 1 }
    let listed := { full with mem := memWrite [] (20 * 4194304) (block 64 [(0, 0x56565646), (4, 1), (6, 1), (8, 1)]) }
    listHeaderOk (bufRead (listed.bufUnits hBuf) 0 64 listed) = true ∧ listHeaderOk (bufRead (full.bufUnits hBuf) 0 64 full) = false ∧
    awake (s w) ∧ Tab.find (s w).tasks 0 = some w ∧ (s w).prog hProg = some aProg ∧ aProg.builtin = false ∧ w.place = none ∧
      w.paused = false ∧ (s w).schRuns = true ∧ (s w).thermal.critical = false ∧ (s w).tasks.any (fun e => e.2.before w) = false ∧
      (s w).couldPlace aProg 1 = true ∧ ((s w).findPlace aProg 1).isSome = true ∧ { s w with ready := 0x3FFF#32 }.couldPlace aProg 1 = false ∧
      (s placed).tasks = [(0, placed)] ∧ placed.place ≠ none ∧ (([0] : List Nat).all (fun k => ((s placed).core k).idle)) = true ∧
      placed.visCount ≤ placed.visNext ∧ (([0] : List Nat).all (fun k => ((running {}).core k).idle)) = false ∧ v.visNext < v.visCount ∧
      (([0] : List Nat).all (fun k => (s v).isReady (rCl (k / 8)))) = true := by decide +kernel
theorem test_meets_MemoryErrors :
    let s := { running {} with store := { full.store with basalt := [(119, 0)] } }
    awake s ∧ (s.stack 5).usable = true ∧ (s.stack 5).failed = false ∧ (s.stack 5).lost = false ∧ s.settings.hbmMask.getLsbD 5 = false ∧
      s.coreTask 0 = some placed ∧ s.coreTask 63 = none ∧ 119 * 1048576 < 120 * 1048576 ∧
      (State.reset.stack 5).usable = false ∧ (s.hbmPlace 16384).1 = 2 ∧ 127 * 1048576 < 128 * 1048576 ∧
      Tab.find s.store.basalt (119 * 1048576 / 1048576) = some 0 ∧ 36863 * unitBytes4M < s.totalUnits * unitBytes4M := by decide +kernel
/-- Opened chunks and tensors stand as hypotheses, since the cipher is opaque (log 11). -/
theorem test_meets_ServingEvents :
    let st : Step := { kind := .prefill, copy := 1, reqs := [{ idx := 0, rows := 1, pos := 0, recompute := false, opened := [] }] }
    let sv := { full.serve with step := some st }
    let s := { full with serve := sv }
    let done := { full with serve := { sv with ctxs := [(0, { aCtx with samples := [(0, 3)] })] } }
    let sealing := fun (run : Bool) => { s with kv := { seals := [{ eng := 7, key := pageKey 0 false 1 0, running := run }] } }
    awake s ∧ full.schRuns = true ∧ full.serve.step = none ∧ s.serve.step = some st ∧ st.lost = [] ∧ done.sampled st = true ∧
      s.ctx 0 = some aCtx ∧ st.reqs.find? (fun r => r.idx == 0) = some { idx := 0, rows := 1, pos := 0, recompute := false, opened := [] } ∧
      0 + 1 = aCtx.promptLen ∧ aCtx.copy = some 1 ∧ s.copy 1 = some aCopy ∧ (List.replicate 4 (0#32)).length = aCopy.hdr.vocab ∧
      Tab.has aCtx.samples 0 = false ∧
      (({ s with kv := { fetches := [⟨7, 9, none⟩] } } : State).kv.fetches).find? (fun (x : Fetch) => x.eng == 7) = some ⟨7, 9, none⟩ ∧
      done.rowsWhole st [⟨0, false, 0, 0, [0], []⟩, ⟨0, false, 1, 0, [0], []⟩] = true ∧ done.rowsWhole st [] = false ∧
      done.weightsRead st = true ∧ (List.range 8).all (fun n => (done.proc (n + 3)).deferred == none) = true ∧
      ((sealing false).kv.seals.find? (fun x => !x.running && (x.eng == 7 || !(sealing false).engineUp x.eng))).isSome = true ∧
      (sealing false).engineUp 7 = true ∧ ((sealing true).kv.seals.filter (fun x => x.eng == 7 && x.running)).length = 1 ∧
      keyIdx (pageKey 0 false 1 0) = 0 ∧ keyDraft (pageKey 0 false 1 0) = false ∧
      ((s.ctxModels aCtx).find? (fun m => m.1 == false)).isSome = true := by decide +kernel
theorem test_meets_PageFetch :
    let st : Step := { kind := .prefill, copy := 1, reqs := [{ idx := 0, rows := 1, pos := 63, recompute := false, opened := [] }] }
    let p : Page := { st := .sealed, fill := 64, frame := 3 }
    let fr : Frame := { tag := {}, req := 0, draft := false, layer := 1, col := 0, gmap := { grans := [9] } }
    let s := { full with serve := { full.serve with step := some st }, kv := { pages := [(pageKey 0 false 1 0, p)], frames := [(3, fr)] } }
    s.engineUp 0 = true ∧ (s.core 7).task = none ∧ 1 < aHdr.layers ∧ (s.page (pageKey 0 false 1 0)).st = .sealed ∧
      0 + aHdr.pageUnits ≤ 24576 ∧ 0 + 64 * 64 ≤ 24576 ∧ (s.pageImage aHdr 3).isSome = true ∧
      (queries false 63 1 []).all (fun q => (List.range 64).all (fun j => q (64 * 0 + j))) = true := by decide +kernel
theorem test_meets_loads_and_timers :
    let l := aLoad
    let y : Tensor := { role := 0, fmt := 7, layer := 0, rank := 1, rows := 1, cols := 1, off := 0, len := 2, tiered := true }
    let m : Ship := { idx := 0, id := 1, out := true, peer := 0x13, st := .waitDone }
    let st : Step := { kind := .prefill, copy := 1, reqs := [] }
    let c := { aCopy with tensors := [y] }
    let s := { full with serve := { full.serve with loads := [l], ships := [m], copies := [(1, c)], step := some st } }
    let far := { aCtx with work := false, workAddr := some 0x99 }
    s.serve.loads[0]? = some l ∧ (l.waits.bind s.copy) = none ∧ l.read = false ∧ l.next < chunkCount l.length ∧
      l.next + 1 < chunkCount l.length ∧ ([] : Bytes).length ≠ min chunkBytes (l.length - 64 - chunkBytes * l.next) ∧ s.copy 1 = some c ∧
      c.tensors[0]? = some y ∧ y.tiered = true ∧ 1 ∈ s.stepCopies st ∧ (s.fn c.loader).fenced = false ∧ st.tiers.contains (1, 0) = false ∧
      { st with tiers := [(1, 0)] }.tiers.contains (1, 0) = true ∧ ((pf { fenced := true }).fn l.fn).fenced = true ∧ ([[]] : List Bytes).length = (y.len + 65535) / 65536 ∧ s.fab.valid = true ∧
      s.ship 0 = some m ∧ (({ s with serve := { s.serve with ships := [{ m with st := .refusedAll }] } } : State).ship 0).map (fun (m : Ship) => m.st) = some ShipState.refusedAll ∧
      far.home = true ∧ far.work = false ∧ far.state ≠ .ended ∧ s.reaches 0x99 = false ∧ far.failovers = 0 ∧ { far with failovers := 1 }.failovers > 0 ∧
      { far with home := false, homeAddr := 0x99 }.home = false := by decide +kernel
theorem test_meets_MessageHandlers :
    let m : Ship := { idx := 0, id := 1, out := true, peer := 0x13, st := .waitDone, pages := 1 }
    let away := { aCtx with home := false, homeAddr := 0x13 }
    let s := { full with serve := { full.serve with ctxs := [(0, away)], ships := [m], copies := [(1, { aCopy with rodId := some (0x13, 6) })],
                                                    step := some { kind := .decode, copy := 1, reqs := [] } } }
    let cancel := block 16 [(0, aCtx.handle), (8, 0x0009)]
    awake s ∧ ([] : Bytes).length < 0x10 ∧ bodyOk (block 16 []) 0x10 [(0x2D, 3)] = true ∧ bodyOk cancel 0x10 [(0x2A, 6)] = true ∧
      mfield cancel 0x28 2 = 9 ∧ s.findCtx 0x13 (mfield cancel 0x20 8) = some 0 ∧ s.ctx 0 = some away ∧ away.home = false ∧
      away.state ≠ .ended ∧ away.tag.word ≠ 0#32 ∧ s.outShip 0x13 (mfield (block 16 [(0, aCtx.handle), (8, 1)]) 0x20 8) 1 = some 0 ∧
      s.ship 0 = some m ∧ m.pages ≠ mfield (block 16 []) 0x2C 4 ∧ bodyOk (block 8 [(0, 6), (4, 1)]) 0x08 [(0x25, 3)] = true ∧
      (s.serve.copies.find? (fun e => e.2.rodId == some (0x13, mfield (block 8 [(0, 6), (4, 1)]) 0x20 4))).isSome = true ∧
      bodyOk (block 32 [(5, 4), (8, 1)]) 0x20 [(0x29, 1), (0x34, 12)] = true ∧ mfield (block 32 [(5, 4), (8, 1)]) 0x25 1 = 4 ∧
      mfield (block 32 [(5, 4), (8, 1)]) 0x27 1 < mfield (block 32 [(5, 4), (8, 1)]) 0x28 1 := by decide +kernel
theorem test_meets_FlintEvents :
    let r : Run := { fn := 0, q := 1, tag := 0, net := hNet, inBuf := hBuf, outBuf := hBuf, duration := 1 }
    let on := { r with started := true, step := 1, strobes := 65, wheel := [{ due := 1, tile := 0, neuron := 0, weight := 1 }] }
    let s := fun (x : Run) => { full with flint := { full.flint with runs := [x] }, mem := [(20 * 4194304 + 8, 6#8)] }
    awake (s r) ∧ (s r).activeRun hNet = none ∧
      (s r).flint.runs.find? (fun r => r.net == hNet && !r.started && r.ended.isNone) = some r ∧ (s r).pins.refFab = true ∧
      (s on).activeRun hNet = some on ∧ Tab.find (s on).flint.nets hNet = some aNet ∧
      ringRecords ((s on).bufUnits hBuf) (s on) = some 64 ∧ on.step + 64 ≤ on.strobes ∧ Tab.get 0 on.spent 0 < on.dueIn 0 ∧
      on.duration ≠ 0 ∧ on.duration ≤ on.step ∧ ({ on with duration := 0 }.duration = 0) ∧ (65535 : Nat) < 65536 := by decide +kernel
theorem test_meets_MemoryStaysCanonical : memOk up ∧ (∃ t, step up = .next t) := ⟨by decide, _, rfl⟩
theorem test_meets_AsleepPartIgnoresCommands : State.reset.pins.perst = true ∧ actsAsleep .cfgReady = false := by decide

theorem test_meets_BundleChecks : checkBundle 0 0 0 (some []) = .error eSig := by decide
theorem test_meets_WholePartResets : up.pins.perst = false := by decide
theorem test_meets_CountersKept : up.pins.perst = false ∧ awake up := by decide

/-! ## Tile words written out, field by field, from the tables of R164 to R177 -/

/-- SPAN.MM waiting on E3 and signalling E5, with the fields of R167 at the ends of their ranges. -/
theorem test_word_mm :
    decodeTile (0b00#2 ++ 0x02#6 ++ 1#1 ++ 3#4 ++ 1#1 ++ 5#4 ++ 2#4 ++ 200#8 ++ 1#1 ++ 0#1 ++ 1#1 ++ 55#6 ++ 8#6 ++ 0x7#4 ++ 0x8#4 ++
        1#1 ++ 0#1 ++ 1#1 ++ 0#1 ++ 0#7) =
      some ⟨true, 3, true, 5, .mm ⟨2, 200, true, false, true, 55, 8, .bf16, .fp16, true, false, true, false⟩⟩ := by decide +kernel
theorem test_word_loadb :
    decodeTile (0b00#2 ++ 0x01#6 ++ 0#10 ++ 0#38 ++ 1#1 ++ 0#1 ++ 1#1 ++ 2#2 ++ 0#3) = some { op := .loadb true false true 2 } ∧
      decodeTile (0b00#2 ++ 0x01#6 ++ 0#10 ++ 0#38 ++ 1#1 ++ 0#1 ++ 1#1 ++ 2#2 ++ 1#3) = none := by decide +kernel
theorem test_word_drain :
    decodeTile (0b00#2 ++ 0x03#6 ++ 0#10 ++ 1#4 ++ 4000#15 ++ 4#8 ++ 0x9#4 ++ 1#1 ++ 0#1 ++ 1#1 ++ 31#5 ++ 0#1 ++ 0#6) =
      some { op := .drain { ix := 1, dst := 4000, pitch := 4, fmt := .fp32, p := true, sat := false, acc := true, shift := 31,
                            sc := false } } := by decide +kernel
/-- VFMA; the free opcode 0x17; the reserved format code 0xB. -/
theorem test_word_vector :
    decodeTile (0b01#2 ++ 0x04#6 ++ 0#10 ++ 1#4 ++ 2#4 ++ 3#4 ++ 4#4 ++ 5#4 ++ 63#6 ++ 0#8 ++ 0#5 ++ 0#7) =
      some { op := .vec .vfma { dst := 1, sa := 2, sb := 3, sc := 4, scal := 5, countM1 := 63, mod := 0, shift := 0 } } ∧
    decodeTile (0b01#2 ++ 0x17#6 ++ 0#56) = none ∧
    decodeTile (0b00#2 ++ 0x03#6 ++ 0#10 ++ 1#4 ++ 4000#15 ++ 4#8 ++ 0xB#4 ++ 0#15) = none := by decide +kernel
theorem test_word_scalar :
    decodeTile (0b01#2 ++ 0x19#6 ++ 0#10 ++ 0#10 ++ 15#4 ++ 0x3F800000#32) = some { op := .vsets 15 0x3F800000 } ∧
    decodeTile (0b01#2 ++ 0x1A#6 ++ 0#10 ++ 0#10 ++ 1#4 ++ 0#24 ++ 0x04#8) = some { op := .vmovr 1 4 } ∧
    decodeTile (0b01#2 ++ 0x1A#6 ++ 0#10 ++ 0#10 ++ 1#4 ++ 0#24 ++ 0x05#8) = none := by decide +kernel
theorem test_word_transfer :
    decodeTile (0b10#2 ++ 0x01#6 ++ 0#10 ++ 7#4 ++ 100#15 ++ 255#8 ++ 1#1 ++ 0#1 ++ 3#8 ++ 63#6 ++ 1#1 ++ 0#1 ++ 0#1) =
      some { op := .sld { ix := 7, src := 100, pitch := 255, sideB := true, buf := false, dslot := 3, rowsM1 := 63, tr := true,
                          sc := false } } ∧
    decodeTile (0b10#2 ++ 0x02#6 ++ 0#10 ++ 0#4 ++ 9#4 ++ 500#15 ++ 1#6 ++ 4095#12 ++ 1#1 ++ 0#4) =
      some { op := .dmaGo { ix := 0, engine := 9, desc := 500, countM1 := 1, counter := 4095, sig := true } } ∧
    decodeTile (0b10#2 ++ 0x03#6 ++ 0#10 ++ 0b01#2 ++ 17#12 ++ 3#32) = some { op := .syncWait true 17 3 } ∧
    decodeTile (0b10#2 ++ 0x03#6 ++ 0#10 ++ 0b10#2 ++ 17#12 ++ 3#32) = none := by decide +kernel
theorem test_word_control :
    decodeTile (0b11#2 ++ 0x01#6 ++ 0#10 ++ 0#18 ++ 65535#16 ++ 4095#12) = some { op := .loop 65535 4095 } ∧
    decodeTile (0b11#2 ++ 0x04#6 ++ 0#10 ++ 8#4 ++ 2#2 ++ 0x7#4 ++ 0x4000#15 ++ 0xFFF#12 ++ 1#1 ++ 6#4 ++ 0#4) =
      some { op := .setd { vd := 8, kind := 2, fmt := .bf16, base := 0x4000, stride := 0xFFF, auto := true, ix := 6 } } ∧
    decodeTile (0b11#2 ++ 0x02#6 ++ 0#10 ++ 0#10 ++ 0#4 ++ 5#32) = none ∧
    decodeTile (0b11#2 ++ 0x05#6 ++ 0#10 ++ 0#46) = some { op := .halt } ∧
    decodeTile (0b11#2 ++ 0x05#6 ++ 1#1 ++ 0#9 ++ 0#46) = none := by decide +kernel

/-! ## Ill-formed commands, one for each check of `Instr.wf` -/

theorem test_wf_refuses_registers_and_windows :
    ([.configRequest 0 2 none, .registerWrite 0 false 2 false 0, .registerWrite 0 false 4 true 0,
      .registerWrite 0 false 8 false 0x100000000, .hostWindowRead 0 0 0 false, .hostWindowRead 0 0x3FFFFFFFF 2 false, .hostWindowWrite 0 0 [],
      .hostWindowWrite 0 0x3FFFFFFFF [0, 0]] : List Instr).all (fun i => !i.wf) = true := by decide
theorem test_wf_refuses_supply_and_link :
    ([.vddCoreDip 24, .vddCoreDip 401, .brownoutWarning 24, .brownoutWarning 401, .brownoutReset 47, .brownoutReset 401,
      .hostLinkRetrain 0 2, .l0pWidthChange 5, .vfEnable 32 true, .cxlMemRequest 0 (some 0) true false,
      .cxlMemRequest 0 (some 0) false true] : List Instr).all (fun i => !i.wf) = true := by decide
theorem test_wf_refuses_security :
    ([.getCertificate false 16 0 0 true, .getCertificate false 0 65536 0 true, .getCertificate false 0 0 65536 true,
      .challenge false 256 0 true, .keyExchange false 256 [] true, .getMeasurements false 256 0 true, .ideKm 1 256 true true] ++
     [.keyCert 0 0 0 [1], .keyCert 0 0 17 [1], .keyCert 0 3 3 [1], .keyCert 0 0 1 []] : List Instr).all (fun i => !i.wf) = true := by
  decide
theorem test_wf_refuses_memory_and_serving :
    ([.hbmScrub 0 [32] [], .hbmScrub 0 [] [32], .uncorrectableUnit (.basalt 134217728), .stepEnd [⟨0, false, 0, 0, [], []⟩],
      .jasperRow 0 false 0 [], .pageFetch 0 0 24576 0 0 false 0 0, .pageFetch 0 0 0 24576 0 false 0 0] : List Instr).all
      (fun i => !i.wf) = true := by decide
theorem test_wf_refuses_links :
    ([.ts1 0 [], .trainingStageDone 0 0 0, .frame 0 0 0 0 false false 0 0 [1] 0 0 true, .frame 0 0 0 0 false false 8 0 [] 0 0 true,
      .frame 0 0 0 0 false false 0 256 [] 0 0 true, .fecBurst 0 0, .linkReq 0 256 0 0, .linkReq 0 0 256 0, .linkReq 0 0 0 256] :
      List Instr).all (fun i => !i.wf) = true := by decide
theorem test_wf_refuses_samples :
    let m : PmcSample := { uncore := 0, links := 0, memory := 0, compute := 0, demLinks := 0, demMemory := 0, demCompute := 0, input := 0,
                           points := List.replicate 8 0, gated := List.replicate 7 0, diePeak := List.replicate 8 0, hbmPeak := 0 }
    (Instr.pmcUpdate m).wf = true ∧ (Instr.pmcUpdate { m with points := [] }).wf = false ∧ (Instr.pmcUpdate { m with gated := [] }).wf = false ∧
      (Instr.pmcUpdate { m with diePeak := [] }).wf = false ∧ (Instr.thermalSensorSample []).wf = false := by decide
theorem test_wf_refuses_long_blocks (f : Fn) (q : Src) (b : Bytes) (w : List (BitVec 32)) :
    (4096 < b.length → (Instr.keyLoad f q b).wf = false) ∧ (67108864 < b.length → (Instr.profileSet f q b).wf = false) ∧
      (131072 < b.length → (Instr.provStage f q b).wf = false) ∧ (32768 < w.length → (Instr.reqSubmit f q w).wf = false) ∧
      (984 < b.length → (Instr.keyCert 0 0 1 b).wf = false) ∧ (65552 < b.length → (Instr.tierFetchDone 0 0 [b]).wf = false) ∧
      (992 < b.length → (Instr.linkStateRecord 0 b).wf = false) ∧ (65552 < b.length → (Instr.streamChunk 0 b).wf = false) := by
  simp [Instr.wf]; omega
/-- The message rows share one check (R378). -/
theorem test_wf_refuses_long_messages (a : BitVec 12) (g : BitVec 32) (b : Bytes) (h : 8160 < b.length) :
    ([Instr.poolView, .advert, .assign, .assignAck, .tokenSeg, .profileSeg, .tokens, .cancel, .shipOffer, .shipAccept, .shipRefuse] ++
     [Instr.shipPage, .shipEnd, .shipDone, .shipAbort, .loadBegin, .weightChunk, .loadStatus, .loadEnd, .repairReq, .repairData, .reduce,
      .gather]).all (fun c => !(c a g b).wf) = true := by
  simp [Instr.wf, messageFits, Nat.not_le.mpr h]

/-! ## Worked examples of the spec -/

/-- The driver's 220 W and the management controller's 200 W: the part applies 200 W and reports both (R9). Caps are in 0.1 W. -/
theorem test_lower_limit_in_force :
    limitValues 0 (setLimit true 0 (some 2000) (setLimit false 0 (some 2200) up)) = (2200, 2000, 2000) := by decide

/-- An entry whose opcode the part does not serve is taken, dropped and counted (R67). -/
theorem test_alien_opcode :
    (match exec (.identify 0 (.alien 0 (entry 0 []) 0x7777)) (pf ringed) with
      | .next t => decide (t.counter 0 cViolIarekOpcode = 1 ∧ (t.ring 0 0).sqHead = 1)
      | _ => false) = true := by decide +kernel

/-- An E4M3 adapter's row [1, 2] times [3, 4] is 11 (R275): the codes of 1 and 2 are 0x38 and 0x40, and the scale code 0x7F is 1. -/
theorem test_adapter_row :
    let n := fun k : Nat => Machine.Num.fin false k 0
    (matVec 1 2 (matrixNums 6 2 [0x38#8, 0x40#8, 0x7F#8]) [n 3, n 4]).map (fun v => (code32 false v).1) = [0x41300000#32] := by decide +kernel

/-- e, 1/3, 1/√2, sin 1 and cos 1 in FP32, calculated by hand; exp of 88.72284 is the first to overflow (R150). -/
theorem test_functions_nearest :
    num32 0x3F800000#32 = .fin false 8388608 (-23) ∧ (code32 false (expNum false 8388608 (-23))).1 = 0x402DF854#32 ∧
    (code32 false (rcpNum false 3 0)).1 = 0x3EAAAAAB#32 ∧ (code32 false (rsqNum 2 0)).1 = 0x3F3504F3#32 ∧
    (code32 false (sinNum 0 false 1 0)).1 = 0x3F576AA4#32 ∧ (code32 false (sinNum 1 false 1 0)).1 = 0x3F0A5140#32 ∧
    (code32 false (expNum false 0xB17218 (-17))).2 = true ∧ (code32 false (expNum false 0xB17217 (-17))).2 = false := by
  decide +kernel

end Sys2Proof.Tests
end

section
/-! PROOFS of the scope statements: a step runs the command at the front of the queue, every command completes and leaves the
queue alone, the commands on rings and limits, and the sideband. -/

namespace Sys2Proof.Proofs

open Sys2Proof.Machine Sys2Proof.Safety Sys2Proof.Laws

/-! ## A step -/

/-- Settles O1: `step` reads the queue once. -/
theorem stepRunsFrontCommand : Obligations.StepRunsFrontCommand := by
  intro c r s h
  simp only [step, h]

/-! ## Every command completes and leaves the queue alone -/

/-- A meaning answers a next state whose waiting commands are those of s. -/
def keepsQueue (s : State) (o : Host.Outcome State Fault Refusal) : Prop := ∃ t, o = .next t ∧ t.pending = s.pending

theorem keepsQueue_done (s t : State) : keepsQueue s (done s t) := ⟨_, rfl, rfl⟩

theorem keepsQueue_ite {s : State} {p : Prop} [Decidable p] {a b : Host.Outcome State Fault Refusal}
    (ha : keepsQueue s a) (hb : keepsQueue s b) : keepsQueue s (if p then a else b) := by
  split
  · exact ha
  · exact hb

theorem keepsQueue_live (s t : State) : keepsQueue s (live s t) :=
  keepsQueue_ite (keepsQueue_done s s) (keepsQueue_done s t)

/-! ### The forms that many commands share -/

theorem command_keepsQueue (f op : Nat) (src : Src) (fields : List (Nat × Nat)) (noHandle : Bool) (run : Cmd → State → State)
    (s : State) : keepsQueue s (command f op src fields noHandle run s) := by
  unfold command
  cases src with
  | ring q e => apply_rules [keepsQueue_done, keepsQueue_live, keepsQueue_ite]
  | alien q e op' => apply_rules [keepsQueue_done, keepsQueue_live, keepsQueue_ite]
  | direct => apply_rules [keepsQueue_done, keepsQueue_live, keepsQueue_ite]

theorem spdm_keepsQueue (mctp wellFormed inSeq : Bool) (run : State → State) (s : State) :
    keepsQueue s (spdm mctp wellFormed inSeq run s) :=
  keepsQueue_ite (keepsQueue_done s s) (keepsQueue_live s _)

theorem inSession_keepsQueue (id : Nat) (established wellFormed : Bool) (run : Session → State → State) (s : State) :
    keepsQueue s (inSession id established wellFormed run s) := by
  unfold inSession
  split
  · exact spdm_keepsQueue _ _ _ _ s
  · exact spdm_keepsQueue _ _ _ _ s

theorem control_keepsQueue (k : CoreId) (want : TileOp → Bool) (s : State) : keepsQueue s (Machine.control k want s) := by
  unfold Machine.control
  split
  · exact keepsQueue_done s s
  · refine keepsQueue_ite (keepsQueue_done s s) ?_
    split
    · exact keepsQueue_done s s
    · exact keepsQueue_live s _

theorem issueFront_keepsQueue (k : CoreId) (slot : SlotKind) (want : TileOp → Bool) (run : Queued → State → Issue) (s : State) :
    keepsQueue s (issueFront k slot want run s) := by
  unfold issueFront
  extract_lets
  split
  · exact keepsQueue_done s s
  · refine keepsQueue_ite (keepsQueue_done s s) ?_
    split
    · exact keepsQueue_done s s
    · exact keepsQueue_live s _
    · exact keepsQueue_live s _
    · exact keepsQueue_ite (keepsQueue_live s _) (keepsQueue_live s _)

theorem vecIssue_keepsQueue (k : CoreId) (op : VecOp) (srcs dsts : VecFields → Queued → Rows) (formOk : VecFields → Queued → Bool)
    (compute : Core → VecFields → Queued → List Write × BitVec 5) (s : State) :
    keepsQueue s (vecIssue k op srcs dsts formOk compute s) := issueFront_keepsQueue k .vec _ _ s

theorem vecElem_keepsQueue (k : CoreId) (op : VecOp) (n : Nat)
    (f : VecFields → BitVec 32 → BitVec 32 → BitVec 32 → BitVec 32 × Bool) (s : State) : keepsQueue s (vecElem k op n f s) :=
  vecIssue_keepsQueue k op _ _ _ _ s

/-! ### The meanings with more than one choice below a test -/

theorem execConfigRequest_keepsQueue (f : Fn) (reg : BitVec 12) (write : Option (BitVec 32)) (s : State) :
    keepsQueue s (execConfigRequest f reg write s) := by
  refine keepsQueue_ite (keepsQueue_live s _) (keepsQueue_ite (keepsQueue_done s s) ?_)
  cases write with
  | none => exact keepsQueue_live s _
  | some v => exact keepsQueue_live s _

theorem execBundleFetchComplete_keepsQueue (bundle : Option Bytes) (s : State) :
    keepsQueue s (execBundleFetchComplete bundle s) := by
  refine keepsQueue_ite (keepsQueue_done s s) ?_
  split
  · exact keepsQueue_live s _
  · apply_rules [keepsQueue_done, keepsQueue_live, keepsQueue_ite]

theorem execInstructionDispatch_keepsQueue (k : CoreId) (s : State) : keepsQueue s (execInstructionDispatch k s) := by
  unfold execInstructionDispatch
  extract_lets
  split
  · exact keepsQueue_done s s
  · split
    · exact keepsQueue_done s s
    · exact keepsQueue_ite (keepsQueue_done s s) (keepsQueue_live s _)

theorem execTaskPlaced_keepsQueue (n : Nat) (s : State) : keepsQueue s (execTaskPlaced n s) := by
  unfold execTaskPlaced
  split
  · exact keepsQueue_done s s
  · split
    · exact keepsQueue_done s s
    · refine keepsQueue_ite (keepsQueue_done s s) ?_
      refine keepsQueue_ite (keepsQueue_live s _) ?_
      refine keepsQueue_ite (keepsQueue_live s _) ?_
      refine keepsQueue_ite (keepsQueue_done s s) ?_
      split
      · exact keepsQueue_done s s
      · exact keepsQueue_live s _

theorem execTaskEnd_keepsQueue (n : Nat) (s : State) : keepsQueue s (execTaskEnd n s) := by
  unfold execTaskEnd
  split
  · exact keepsQueue_done s s
  · split
    · exact keepsQueue_done s s
    · exact keepsQueue_ite (keepsQueue_live s _) (keepsQueue_done s s)

theorem execVisionRecord_keepsQueue (n : Nat) (s : State) : keepsQueue s (execVisionRecord n s) := by
  unfold execVisionRecord
  split
  · exact keepsQueue_done s s
  · split
    · exact keepsQueue_done s s
    · refine keepsQueue_ite (keepsQueue_done s s) ?_
      extract_lets
      split
      · exact keepsQueue_live s _
      · exact keepsQueue_live s _

theorem execUncorrectableUnit_keepsQueue (u : UeAt) (s : State) : keepsQueue s (execUncorrectableUnit u s) := by
  cases u with
  | basalt off =>
    refine keepsQueue_ite (keepsQueue_done s s) (keepsQueue_ite (keepsQueue_live s _) ?_)
    split
    · exact keepsQueue_live s _
    · exact keepsQueue_live s _
  | hbm a => exact keepsQueue_ite (keepsQueue_done s s) (keepsQueue_live s _)
  | _ => exact keepsQueue_live s _

theorem execJasperRow_keepsQueue (idx : Nat) (draft : Bool) (node : Nat) (logits : List (BitVec 32)) (s : State) :
    keepsQueue s (execJasperRow idx draft node logits s) := by
  unfold execJasperRow
  split
  · split
    · exact keepsQueue_done s s
    · apply_rules [keepsQueue_done, keepsQueue_live, keepsQueue_ite]
  · exact keepsQueue_done s s

theorem execPageFetch_keepsQueue (eng : ClusterId) (k : CoreId) (base bias idx : Nat) (draft : Bool) (layer col : Nat) (s : State) :
    keepsQueue s (execPageFetch eng k base bias idx draft layer col s) := by
  unfold execPageFetch
  extract_lets
  split
  · split
    · refine keepsQueue_ite (keepsQueue_done s s) ?_
      split
      · exact keepsQueue_live s _
      · exact keepsQueue_live s _
    · exact keepsQueue_done s s
  · exact keepsQueue_done s s

theorem execSealSwitch_keepsQueue (eng : ClusterId) (second : Bool) (s : State) : keepsQueue s (execSealSwitch eng second s) := by
  unfold execSealSwitch
  split
  · exact keepsQueue_done s s
  · dsimp only
    split
    · exact keepsQueue_live s _
    · exact keepsQueue_live s _

theorem execTierFetchDone_keepsQueue (k n : Nat) (raw : List Bytes) (s : State) : keepsQueue s (execTierFetchDone k n raw s) := by
  unfold execTierFetchDone
  split
  · split
    · exact keepsQueue_done s s
    · refine keepsQueue_ite (keepsQueue_done s s) ?_
      extract_lets
      split
      · exact keepsQueue_live (updServe _ s) _
      · exact keepsQueue_live (updServe _ s) _
  · exact keepsQueue_done s s

theorem execWorkRouteTimeout_keepsQueue (idx : Nat) (s : State) : keepsQueue s (execWorkRouteTimeout idx s) := by
  unfold execWorkRouteTimeout
  split
  · exact keepsQueue_done s s
  · split
    · exact keepsQueue_done s s
    · apply_rules [keepsQueue_done, keepsQueue_live, keepsQueue_ite]

theorem execFlintInputWake_keepsQueue (net : Nat) (s : State) : keepsQueue s (execFlintInputWake net s) := by
  unfold execFlintInputWake
  split
  · dsimp only
    split
    · exact keepsQueue_done s s
    · exact keepsQueue_live s _
  · exact keepsQueue_done s s

theorem execTs1_keepsQueue (p : PortId) (sets : List (Fin 8 × OrdSet)) (s : State) : keepsQueue s (execTs1 p sets s) := by
  refine keepsQueue_ite (keepsQueue_done s s) ?_
  split <;> apply_rules [keepsQueue_done, keepsQueue_live, keepsQueue_ite]

theorem execReq_keepsQueue (p : PortId) (o : OrdSet) (s : State) : keepsQueue s (execReq p o s) := by
  refine keepsQueue_ite (keepsQueue_done s s) ?_
  split <;> apply_rules [keepsQueue_done, keepsQueue_live, keepsQueue_ite]

theorem execTrainingStageTimeout_keepsQueue (p : PortId) (s : State) : keepsQueue s (execTrainingStageTimeout p s) := by
  refine keepsQueue_ite (keepsQueue_done s s) ?_
  split <;> apply_rules [keepsQueue_done, keepsQueue_live, keepsQueue_ite]

theorem execAddressHoldExpiry_keepsQueue (a : BitVec 12) (s : State) : keepsQueue s (execAddressHoldExpiry a s) := by
  unfold execAddressHoldExpiry
  split
  · exact keepsQueue_done s s
  · split
    · exact keepsQueue_ite (keepsQueue_live s _) (keepsQueue_done s s)
    · exact keepsQueue_live s _

theorem execMctpControl_keepsQueue (req : MctpReq) (s : State) : keepsQueue s (execMctpControl req s) := by
  refine keepsQueue_ite (keepsQueue_done s s) ?_
  split <;> exact keepsQueue_done s _

theorem execPldmRequest_keepsQueue (req : PldmReq) (s : State) : keepsQueue s (execPldmRequest req s) := by
  refine keepsQueue_ite (keepsQueue_done s s) ?_
  split <;> apply_rules [keepsQueue_done, keepsQueue_live, keepsQueue_ite]

theorem execCxlMemRequest_keepsQueue (line : Nat) (write : Option Unit64) (hold uncorrectable : Bool) (s : State) :
    keepsQueue s (execCxlMemRequest line write hold uncorrectable s) := by
  refine keepsQueue_ite (keepsQueue_done s s) ?_
  cases write with
  | some d => exact keepsQueue_live s _
  | none => exact keepsQueue_ite (keepsQueue_live s _) (keepsQueue_live s _)

theorem execStreamChunk_keepsQueue (n : Nat) (data : Bytes) (s : State) : keepsQueue s (execStreamChunk n data s) := by
  unfold execStreamChunk
  split
  · exact keepsQueue_done s s
  · refine keepsQueue_ite (keepsQueue_done s s) ?_
    extract_lets
    split
    · exact keepsQueue_live s _
    · extract_lets
      split
      · exact keepsQueue_ite (keepsQueue_live s _) (keepsQueue_live s _)
      · exact keepsQueue_live s _

/-! ### Every command -/

/-- The shared forms first; then the meanings that look one value up and end below it, by the value they look up; then those with a
lemma of their own. Every other meaning is tests alone, with an end of the two kinds at each leaf. -/
theorem exec_keepsQueue (c : Instr) (s : State) : keepsQueue s (exec c s) := by
  cases c
  all_goals dsimp only [exec]
  case identify | adopt | ringCreate | ringDelete | list | counters | bufAlloc | bufFree | winMap | winUnmap | modelLoad |
      modelUnload | adapterLoad | adapterUnload | modelQuery | progLoad | progUnload | flintLoad | flintUnload |
      profileSet | profileFree | poolSet | limitSet | phaseOpSet | fwUpdate | provStage | reqSubmit | reqCancel | reqQuery |
      taskRun | flintRun =>
    exact command_keepsQueue ..
  case spanLoadb | spanMm | spanDrain | vrel | vsets | vmovr | vfclr | sld | dmaGo | syncWait | syncAdd | syncTas =>
    exact issueFront_keepsQueue ..
  case vadd | vsub | vmul | vfma | vmin | vmax | vcmp | vsel | vexp | vrcp | vrsq | vsin | vcos =>
    exact vecElem_keepsQueue ..
  case vcvt | vmaxr | vexps | vresc | vtopk | vrot =>
    exact vecIssue_keepsQueue ..
  case loop | seti | inc | setd | halt =>
    exact control_keepsQueue ..
  case getCertificate | challenge | keyExchange | getMeasurements | getVersion | getCapabilities | negotiateAlgorithms =>
    exact spdm_keepsQueue ..
  case ideKm | finish | endSession | keyUpdate | heartbeat =>
    exact inSession_keepsQueue ..
  case keyLoad => exact keepsQueue_ite (keepsQueue_done s s) (command_keepsQueue ..)
  case writePull | flintRunStart | revocationDeferred | handoffSafePoint | fwTargetReplaced | nop | instructionComplete |
      dmaDescriptorComplete | stepEnd | pageFetchDone | sealStart | sealStarvation | shipOfferRetry | shipTimeout |
      homeRouteTimeout | flintLagOverflow | flintDurationEnd | messageForward | vcHeadStall | rampSettled |
      norOperationDone =>
    dsimp only [execWritePull, execFlintRunStart, execRevocationDeferred, execHandoffSafePoint, execFwTargetReplaced,
      execNop, execInstructionComplete, execDmaDescriptorComplete, execStepEnd, execPageFetchDone, execSealStart,
      execSealStarvation, execShipOfferRetry, execShipTimeout, execHomeRouteTimeout, execFlintLagOverflow,
      execFlintDurationEnd, execMessageForward, execVcHeadStall, execRampSettled, execNorOperationDone]
    split <;> apply_rules [control_keepsQueue, issueFront_keepsQueue, keepsQueue_done, keepsQueue_live, keepsQueue_ite]
  case configRequest => exact execConfigRequest_keepsQueue ..
  case bundleFetchComplete => exact execBundleFetchComplete_keepsQueue ..
  case instructionDispatch => exact execInstructionDispatch_keepsQueue ..
  case taskPlaced => exact execTaskPlaced_keepsQueue ..
  case taskEnd => exact execTaskEnd_keepsQueue ..
  case visionRecord => exact execVisionRecord_keepsQueue ..
  case uncorrectableUnit => exact execUncorrectableUnit_keepsQueue ..
  case jasperRow => exact execJasperRow_keepsQueue ..
  case pageFetch => exact execPageFetch_keepsQueue ..
  case sealSwitch => exact execSealSwitch_keepsQueue ..
  case tierFetchDone => exact execTierFetchDone_keepsQueue ..
  case workRouteTimeout => exact execWorkRouteTimeout_keepsQueue ..
  case flintInputWake => exact execFlintInputWake_keepsQueue ..
  case ts1 => exact execTs1_keepsQueue ..
  case req => exact execReq_keepsQueue ..
  case trainingStageTimeout => exact execTrainingStageTimeout_keepsQueue ..
  case addressHoldExpiry => exact execAddressHoldExpiry_keepsQueue ..
  case mctpControl => exact execMctpControl_keepsQueue ..
  case pldmRequest => exact execPldmRequest_keepsQueue ..
  case cxlMemRequest => exact execCxlMemRequest_keepsQueue ..
  case streamChunk => exact execStreamChunk_keepsQueue ..
  all_goals apply_rules [keepsQueue_done, keepsQueue_live, keepsQueue_ite]

/-- Settles O3: the end of every meaning is a next state that puts the queue back. -/
theorem everyCommandCompletes : Obligations.EveryCommandCompletes := exec_keepsQueue

/-! ## Limits of the driver and of the management controller (R9) -/

theorem lowest_none_right (a : Option Nat) : lowest a none = a := by
  cases a with
  | none => rfl
  | some x => rfl

theorem slew_both_limits (a b : Nat) (s : State) :
    (setLimit true 1 (some b) (setLimit false 1 (some a) s)).slew = min a b := rfl

/-- Withdrawing the management controller's slew limit leaves the driver's, or the 50 A/µs of R402 where there is none. -/
theorem slew_bmc_withdrawn (v : Option Nat) (s : State) :
    (setLimit true 1 none (setLimit false 1 v s)).slew = v.getD 50 :=
  congrArg (fun l : Option Nat => l.getD 50) (lowest_none_right v)

theorem capMw_both_limits (a b : Nat) (s : State) :
    (setLimit true 0 (some b) (setLimit false 0 (some a) s)).capMw =
      min (if s.power.pwrbrk then min (min a b * 100) (s.settings.pwrbrkCap * 1000) else min a b * 100) 275000 *
        (24 - s.dropped) / 24 := rfl

theorem limitValues_setLimit_bmc (q : Nat) (v : Option Nat) (s : State) :
    (limitValues q (setLimit true q v s)).1 = (limitValues q s).1 ∧
      (limitValues q (setLimit true q v s)).2.1 = v.getD 0xFFFFFFFF :=
  match q with
  | 0 => ⟨rfl, rfl⟩
  | 1 => ⟨rfl, rfl⟩
  | _ + 2 => ⟨rfl, rfl⟩

theorem limitValues_setLimit_other {j q : Nat} (hj : j < 3) (hq : q < 3) (hne : j ≠ q) (v : Option Nat) (s : State) :
    limitValues j (setLimit true q v s) = limitValues j s :=
  match j, q with
  | 0, 0 => absurd rfl hne
  | 0, 1 => rfl
  | 0, _ + 2 => rfl
  | 1, 0 => rfl
  | 1, 1 => absurd rfl hne
  | 1, _ + 2 => rfl
  | _ + 2, 0 => rfl
  | _ + 2, 1 => rfl
  | _ + 2, _ + 2 => absurd (by omega) hne

theorem setLimit_frame (bmc : Bool) (q : Nat) (v : Option Nat) (s : State) :
    { setLimit bmc q v s with power := s.power, caps := s.caps, thermal := s.thermal } = s :=
  match q with
  | 0 => rfl
  | 1 => rfl
  | _ + 2 => rfl

/-! ## Mailbox commands with arguments in range -/

/-- A mailbox command that is taken ends in the state its meaning makes of the entry. -/
theorem command_endsIn {f op : Nat} {src : Src} {fields : List (Nat × Nat)} {noHandle : Bool} {s t u : State} {c : Cmd}
    {run : Cmd → State → State} (htaken : taken f op src fields noHandle s = some (c, t)) (hrun : run c t = u) :
    command f op src fields noHandle run s = .next { u with pending := s.pending } := by
  rw [command_taken run htaken, hrun]

/-- What RING_CREATE writes into a ring pair's registers from its entry (R58). -/
def ringCfg (c : Cmd) (r : Ring) : Ring := { r with
  sqBase := BitVec.ofNat 64 (c.arg 0x18 8), cqBase := BitVec.ofNat 64 (c.arg 0x20 8),
  vector := BitVec.ofNat 6 (c.arg 0x13 1), weight := BitVec.ofNat 4 (c.arg 0x14 1 - 1),
  sqLog := BitVec.ofNat 5 (c.arg 0x11 1), cqLog := BitVec.ofNat 5 (c.arg 0x12 1) }

section Taken

variable {f : Fn} {src : Src} {s t : State} {c : Cmd}

theorem ringCreate_endsIn
    (h : taken f.val opRingCreate src [(0x10, 1), (0x11, 1), (0x12, 1), (0x13, 1), (0x14, 1), (0x18, 8), (0x20, 8)] true s = some (c, t))
    (hq : 0 < c.arg 0x10 1 ∧ c.arg 0x10 1 ≤ 31) (hw : 0 < c.arg 0x14 1 ∧ c.arg 0x14 1 ≤ 16)
    (hform : c.arg 0x11 1 ≤ 31 ∧ c.arg 0x12 1 ≤ 31 ∧ c.arg 0x13 1 ≤ 63) (hen : (t.ring f.val (c.arg 0x10 1)).enable = false)
    (hok : ringOk f.val (ringCfg c (t.ring f.val (c.arg 0x10 1))) = true) :
    endsIn (.ringCreate f src) s (c.end stOk (startRing f.val (c.arg 0x10 1) (ringCfg c) t)) := by
  show execRingCreate f src s = _
  unfold execRingCreate
  refine command_endsIn h ?_
  have hargs : ¬ (c.arg 0x10 1 = 0 ∨ 31 < c.arg 0x10 1 ∨ c.arg 0x14 1 = 0 ∨ 16 < c.arg 0x14 1) := by omega
  have hidle : ¬ (t.ring f.val (c.arg 0x10 1)).enable = true := by simp [hen]
  have hring : ¬ (31 < c.arg 0x11 1 ∨ 31 < c.arg 0x12 1 ∨ 63 < c.arg 0x13 1 ∨
      (!ringOk f.val (ringCfg c (t.ring f.val (c.arg 0x10 1)))) = true) := by
    simp only [hok, Bool.not_true, Bool.false_eq_true, or_false]
    omega
  exact (if_neg hargs).trans ((if_neg hidle).trans (if_neg hring))

theorem ringDelete_endsIn (h : taken f.val opRingDelete src [(0x10, 1)] true s = some (c, t))
    (hq : 0 < c.arg 0x10 1 ∧ c.arg 0x10 1 ≤ 31) :
    endsIn (.ringDelete f src) s
      (if t.usesRing f.val (c.arg 0x10 1) then c.end eBusy t else c.end stOk (stopRing f.val (c.arg 0x10 1) t)) := by
  show execRingDelete f src s = _
  unfold execRingDelete
  refine command_endsIn h ?_
  have hargs : ¬ (c.arg 0x10 1 = 0 ∨ 31 < c.arg 0x10 1) := by omega
  exact if_neg hargs

theorem limitSet_endsIn (h : taken f.val opLimitSet src [(0x10, 1), (0x11, 1), (0x14, 4)] true s = some (c, t))
    (hq : c.arg 0x10 1 ≤ 2) (hop : c.arg 0x11 1 ≤ 2) (hv : c.arg 0x11 1 = 1 → limitOk (c.arg 0x10 1) (c.arg 0x14 4) = true)
    {u : State} (hu : u = if c.arg 0x11 1 = 1 then setLimit false (c.arg 0x10 1) (some (c.arg 0x14 4)) t
      else if c.arg 0x11 1 = 2 then setLimit false (c.arg 0x10 1) none t else t) :
    let w := limitValues (c.arg 0x10 1) u
    endsIn (.limitSet f src) s (c.answer stOk 0 (result [(0, 4, w.1), (4, 4, w.2.1), (8, 4, w.2.2)]) u) := by
  subst hu
  intro w
  show execLimitSet f src s = _
  unfold execLimitSet
  refine command_endsIn h ?_
  have hargs : ¬ (2 < c.arg 0x10 1 ∨ 2 < c.arg 0x11 1 ∨ (c.arg 0x11 1 = 1 ∧ !limitOk (c.arg 0x10 1) (c.arg 0x14 4))) := by
    rintro (h1 | h1 | ⟨h1, h2⟩)
    · omega
    · omega
    · simp [hv h1] at h2
  exact if_neg hargs

theorem phaseOpSet_endsIn (h : taken f.val opPhaseOpSet src [(0x10, 1), (0x11, 1)] true s = some (c, t))
    (hk : c.arg 0x10 1 ≤ 4) (hp : c.arg 0x11 1 ≤ 7) (hready : t.isReady rPmc = true) :
    endsIn (.phaseOpSet f src) s (c.answer stOk 0 (result [(0, 1, t.power.op)])
      (updCaps (fun x => { x with pref := x.pref.set (c.arg 0x10 1) (c.arg 0x11 1) }) t)) := by
  show execPhaseOpSet f src s = _
  unfold execPhaseOpSet
  refine command_endsIn h ?_
  have hargs : ¬ (4 < c.arg 0x10 1 ∨ 7 < c.arg 0x11 1) := by omega
  simp [hargs, hready]

end Taken

/-- Settles O28, clause by clause: the four commands, then the limits in force. -/
theorem ringsAndLimits : Obligations.RingsAndLimits := by
  refine ⟨fun f src s t c => ⟨?_, ?_, ?_, ?_⟩, fun a b s => ⟨?_, ?_, ?_, ?_⟩⟩
  · intro h q cfg hq0 hq hw0 hw hsq hcq hv hen hok
    exact ringCreate_endsIn h ⟨hq0, hq⟩ ⟨hw0, hw⟩ ⟨hsq, hcq, hv⟩ hen hok
  · intro h hq0 hq
    exact ringDelete_endsIn h ⟨hq0, hq⟩
  · intro h hq hop hv q u w
    exact limitSet_endsIn h hq hop hv rfl
  · intro h hk hp hready
    exact phaseOpSet_endsIn h hk hp hready
  · exact slew_both_limits a b s
  · exact slew_bmc_withdrawn (some a) s
  · exact slew_bmc_withdrawn none s
  · exact capMw_both_limits a b s

/-! ## The sideband -/

theorem ifUp_eq {s : State} (hup : s.side.up = true) (o : Host.Outcome State Fault Refusal) :
    (if !s.side.up then done s s else o) = o := if_neg (by simp [hup])

theorem ifUp_down {s : State} (hdown : s.side.up = false) (o : Host.Outcome State Fault Refusal) :
    (if !s.side.up then done s s else o) = done s s := if_pos (by simp [hdown])

theorem getLsbD_clearAlert (alert mask : BitVec 8) {b : Nat} (hb : b < 8) :
    (alert &&& ~~~ (mask &&& 0x7F#8)).getLsbD b = (alert.getLsbD b && (b == 7 || !mask.getLsbD b)) := by
  have h7F : (0x7F#8).getLsbD b = !(b == 7) := by
    interval_cases b <;> rfl
  simp only [BitVec.getLsbD_and, BitVec.getLsbD_not, hb, h7F, decide_true, Bool.true_and, Bool.not_and, Bool.not_not, Bool.or_comm]

section Target

variable {s : State}

/-- R448: before SEC's ROM is up the target answers nothing. -/
theorem sideband_down (hdown : s.side.up = false) {c : Instr}
    (hc : c = .setdasa ∨ (∃ a, c = .entdaa a) ∨ c = .disec ∨ c = .enec ∨ (∃ r, c = .mctpControl r) ∨ ∃ r, c = .pldmRequest r) :
    endsIn c s s := by
  have hnot : ¬ s.side.up = true := by simp [hdown]
  rcases hc with rfl | ⟨a, rfl⟩ | rfl | rfl | ⟨r, rfl⟩ | ⟨r, rfl⟩
  · exact if_neg hnot
  · exact if_neg hnot
  · exact if_neg hnot
  · exact if_neg hnot
  · exact ifUp_down hdown _
  · exact ifUp_down hdown _

section Up

variable (hup : s.side.up = true)
include hup

/-- A reading that PLDM answers is the sensor's own, and none where the sensor is excluded or has no reading (R449). -/
theorem pldmDie_endsIn (k : SensorId) {l : List Int}
    (hl : (if s.thermal.excluded.contains k.val then [] else (Tab.find s.thermal.die k.val).toList) = l) :
    endsIn (.pldmRequest (.die k)) s (emit (.pldmReply l) s) := by
  subst hl
  exact ifUp_eq hup _

theorem pldmDie_unavailable {k : SensorId} (h : s.thermal.excluded.contains k.val = true ∨ Tab.find s.thermal.die k.val = none) :
    endsIn (.pldmRequest (.die k)) s (emit (.pldmReply []) s) := by
  refine pldmDie_endsIn hup k ?_
  rcases h with hex | hnone
  · exact if_pos hex
  · rw [hnone]
    exact ite_self []

theorem pldmDie_reading {k : SensorId} {r : Int} (hin : s.thermal.excluded.contains k.val = false)
    (hr : Tab.find s.thermal.die k.val = some r) : endsIn (.pldmRequest (.die k)) s (emit (.pldmReply [r]) s) := by
  refine pldmDie_endsIn hup k ?_
  rw [hin, hr]
  rfl

theorem pldmPower_endsIn {k : Fin 5} {v : Nat}
    (hv : [s.caps.inputMw, s.caps.powLinks, s.caps.powMem, s.caps.powComp, s.caps.powUncore][k.val]? = some v) :
    endsIn (.pldmRequest (.power k)) s (emit (.pldmReply [(v : Int)]) s) := by
  have hgetD : [s.caps.inputMw, s.caps.powLinks, s.caps.powMem, s.caps.powComp, s.caps.powUncore].getD k.val 0 = v := by
    rw [List.getD_eq_getElem?_getD, hv, Option.getD_some]
  rw [← hgetD]
  exact ifUp_eq hup _

theorem pldmSetLimit_endsIn {q : Fin 3} {v : Option Nat} (hv : v.all (limitOk q.val) = true) :
    endsIn (.pldmRequest (.setLimit q v)) s (
      let t := setLimit true q.val v s
      let w := limitValues q.val t
      emit (.pldmReply [(w.1 : Int), (w.2.1 : Int), (w.2.2 : Int)]) t) :=
  (ifUp_eq hup _).trans (if_pos hv)

theorem pldmSetLimit_refused {q : Fin 3} {v : Nat} (hv : limitOk q.val v = false) :
    endsIn (.pldmRequest (.setLimit q (some v))) s (emit (.pldmReply []) s) :=
  (ifUp_eq hup _).trans (if_neg (by simp [hv]))

/-- R9: a limit of the management controller takes its place beside the driver's, and no other quantity's values change. -/
theorem pldmSetLimit_completes {q : Fin 3} {v : Nat} (hv : limitOk q.val v = true) :
    completes (.pldmRequest (.setLimit q (some v))) s (fun t =>
      { t with power := s.power, caps := s.caps, thermal := s.thermal, out := s.out } = s ∧
      (limitValues q.val t).2.1 = v ∧ (limitValues q.val t).1 = (limitValues q.val s).1 ∧
      (∀ j, j < 3 → j ≠ q.val → limitValues j t = limitValues j s)) := by
  obtain ⟨hdrv, hbmc⟩ := limitValues_setLimit_bmc q.val (some v) s
  refine ⟨_, pldmSetLimit_endsIn hup hv, ?_, hbmc, hdrv, fun j hj hne => limitValues_setLimit_other hj q.isLt hne (some v) s⟩
  exact congrArg (fun t : State => { t with out := s.out, pending := s.pending }) (setLimit_frame true q.val (some v) s)

/-- Withdrawing a limit answers all ones in its place. -/
theorem pldmSetLimit_withdrawn (q : Fin 3) :
    endsIn (.pldmRequest (.setLimit q none)) s (
      let t := setLimit true q.val none s
      emit (.pldmReply [((limitValues q.val t).1 : Int), 0xFFFFFFFF, ((limitValues q.val t).2.2 : Int)]) t) := by
  have h := pldmSetLimit_endsIn hup (q := q) (v := none) rfl
  obtain ⟨-, hbmc⟩ := limitValues_setLimit_bmc q.val none s
  simp only [hbmc] at h
  exact h

/-- R412: clearing ALERT_CAUSE through PLDM leaves bit 7. -/
theorem pldmClearAlert_completes (mask : BitVec 8) :
    completes (.pldmRequest (.clearAlert mask)) s (fun t =>
      { t with power := s.power, out := s.out } = s ∧
      ∀ b, b < 8 → t.power.alert.getLsbD b = (s.power.alert.getLsbD b && (b == 7 || !mask.getLsbD b))) :=
  ⟨_, ifUp_eq hup _, rfl, fun _ hb => getLsbD_clearAlert s.power.alert mask hb⟩

end Up

end Target

/-- Settles O40: each request by its clause while the target answers, and nothing changes while it does not. -/
theorem sidebandRequests : Obligations.SidebandRequests := by
  refine fun s => ⟨fun hup => ?_, fun hdown c hc => sideband_down hdown hc⟩
  have answered (o : Host.Outcome State Fault Refusal) := ifUp_eq hup o
  exact ⟨
    -- SETDASA, ENTDAA, DISEC and ENEC
    if_pos hup, fun _ => if_pos hup, if_pos hup, if_pos hup,
    -- MCTP: the EID set and read, the types, the versions and the UUID; PLDM's FRU data
    fun _ => answered _, answered _, answered _, answered _, answered _, answered _,
    -- what PLDM reads: no reading of a die sensor, a stack, a power value, the three values of a limit
    fun _ h => pldmDie_unavailable hup h, fun _ => answered _, fun _ _ hv => pldmPower_endsIn hup hv, fun _ => answered _,
    -- malformed messages; PLDM's base and READY_MAP; a die sensor's reading
    answered _, answered _, answered _, answered _, fun _ _ hin hr => pldmDie_reading hup hin hr,
    -- limits set, refused and withdrawn; ALERT_CAUSE
    fun _ _ hv => pldmSetLimit_completes hup hv, fun _ _ hv => pldmSetLimit_refused hup hv,
    fun q => pldmSetLimit_withdrawn hup q, fun mask => pldmClearAlert_completes hup mask⟩

end Sys2Proof.Proofs
end

section
/-! PROOFS of the statements on islands, time and bring-up: READY_MAP, what each event of bring-up leaves, reads of FT_NOW, and the
state after reset. -/

namespace Sys2Proof.Proofs

open Sys2Proof.Machine Sys2Proof.Safety Sys2Proof.Laws

/-! ## The ends of meanings -/

/-- While the part is awake a meaning that ends in `live` ends in the state it names. -/
theorem endsIn_of_live {c : Instr} {s t : State} (ha : awake s) (h : exec c s = live s t) : endsIn c s t :=
  h.trans (live_awake ha t)

/-- An event whose precondition holds ends in the state it names. -/
theorem endsIn_of_guard {c : Instr} {s t : State} {g : Bool} (ha : awake s)
    (h : exec c s = if g then done s s else live s t) (hg : g = false) : endsIn c s t :=
  endsIn_of_live ha (h.trans (if_neg (by simp [hg])))

/-- An event whose precondition fails leaves the state (log 2). -/
theorem endsIn_self_of_guard {c : Instr} {s : State} {g : Bool} {o : Host.Outcome State Fault Refusal}
    (h : exec c s = if g then done s s else o) (hg : g = true) : endsIn c s s := h.trans (if_pos hg)

/-- A property that does not read the queue holds where a command completes once it holds of the state the command ends in. -/
theorem completes_of_endsIn {c : Instr} {s t : State} {P : State → Prop} (h : endsIn c s t)
    (hp : P { t with pending := s.pending }) : completes c s P := ⟨_, h, hp⟩

/-! ## READY_MAP (R24, R25) -/

/-- The map with one bit given a value. -/
def readyWith (b : Nat) (v : Bool) (m : BitVec 32) : BitVec 32 :=
  if v then m ||| BitVec.ofNat 32 (2 ^ b) else m &&& ~~~ BitVec.ofNat 32 (2 ^ b)

theorem getLsbD_readyWith (b : Nat) (v : Bool) (m : BitVec 32) {k : Nat} (hk : k < 32) :
    (readyWith b v m).getLsbD k = if k = b then v else m.getLsbD k := by
  have hbit : (BitVec.ofNat 32 (2 ^ b)).getLsbD k = decide (b = k) := by
    rw [BitVec.getLsbD_ofNat, Nat.testBit_two_pow, decide_eq_true hk, Bool.true_and]
  unfold readyWith
  generalize BitVec.ofNat 32 (2 ^ b) = bit at hbit
  cases v with
  | false =>
    rw [if_neg (by simp), BitVec.getLsbD_and, BitVec.getLsbD_not, hbit, decide_eq_true hk]
    by_cases hkb : k = b
    · simp [hkb]
    · simp [hkb, Ne.symm hkb]
  | true =>
    rw [if_pos rfl, BitVec.getLsbD_or, hbit]
    by_cases hkb : k = b
    · simp [hkb]
    · simp [hkb, Ne.symm hkb]

theorem setReady_same {b : Nat} {v : Bool} {s : State} (h : s.isReady b = v) : setReady b v s = s := if_pos h

theorem setReady_change {b : Nat} {v : Bool} {s : State} (h : s.isReady b ≠ v) :
    setReady b v s = pldmEvent 0 (readyWith b v s.ready).toNat (raiseAll { s with ready := readyWith b v s.ready }) := if_neg h

theorem setReady_ready (b : Nat) (v : Bool) (s : State) :
    (setReady b v s).ready = if s.isReady b = v then s.ready else readyWith b v s.ready := by
  split
  · next h => rw [setReady_same h]
  · next h => rw [setReady_change h, pldmEvent_ready, raiseAll_ready]

/-- A READY_MAP bit that is given a value takes it, and every other keeps its own. -/
theorem isReady_setReady (b : Nat) (v : Bool) (s : State) {k : Nat} (hk : k < 32) :
    (setReady b v s).isReady k = if k = b then v else s.isReady k := by
  unfold State.isReady
  rw [setReady_ready]
  split
  · next h =>
    split
    · next hkb => rw [hkb]; exact h
    · rfl
  · exact getLsbD_readyWith b v s.ready hk

/-- Settles O4: the map with the bit is `readyWith`, read bit by bit. -/
theorem readyMapBit : Obligations.ReadyMapBit := by
  intro b v s _
  refine ⟨fun k hk => isReady_setReady b v s hk, setReady_same, fun h => ⟨_, setReady_change h, ?_⟩⟩
  rw [setReady_ready, if_neg h]

/-! ## Bring-up (R22, R23, R26, R27, R129, R198, R202, R447) -/

theorem provReadDone_timedOut {s : State} (ha : awake s) (hd : s.prov.decided = false) (quad : Bool) :
    let w := (if quad then id else bumpPart cSpiSlow) { s with nor := { s.nor with quad := quad, busy := true } }
    endsIn (.provReadDone quad true) s (startPorts none (fabricBits
      { w with prov := { w.prov with decided := true, record := none, slot := 0xFF } })) := by
  cases quad with
  | false => exact endsIn_of_guard ha rfl hd
  | true => exact endsIn_of_guard ha rfl hd

theorem provReadDone_chosen {s : State} (ha : awake s) (hd : s.prov.decided = false) (quad : Bool) :
    let w := chooseRecord ((if quad then id else bumpPart cSpiSlow) { s with nor := { s.nor with quad := quad, busy := false } })
    w.1 ≠ 0xFF → endsIn (.provReadDone quad false) s (startPorts none (fabricBits (installRecord w.1 w.2))) := by
  intro w hw
  have hchosen : (if w.1 = 0xFF then { w.2 with prov := { w.2.prov with decided := true, record := none, slot := 0xFF } }
      else installRecord w.1 w.2) = installRecord w.1 w.2 := if_neg hw
  rw [← hchosen]
  cases quad with
  | false => exact endsIn_of_guard ha rfl hd
  | true => exact endsIn_of_guard ha rfl hd

/-- Settles O5, event by event. -/
theorem bringUpEvents : Obligations.BringUpEvents := by
  refine fun s => ⟨fun a hperst => if_neg (by simp [hperst]), fun ha => ⟨?_, ?_, ?_, ?_, ?_, ?_, ?_⟩⟩
  -- AON, fabric time, SEC's ROM, and Basalt as it passes or fails its self-test
  · exact endsIn_of_live ha rfl
  · exact endsIn_of_live ha rfl
  · exact endsIn_of_live ha rfl
  · exact endsIn_of_live ha rfl
  · exact endsIn_of_live ha rfl
  -- configuration space, then the provisioning record
  · exact fun hd => endsIn_of_live ha (if_pos hd)
  · intro hd quad
    cases quad with
    | false => exact ⟨provReadDone_timedOut ha hd false, provReadDone_chosen ha hd false⟩
    | true => exact ⟨provReadDone_timedOut ha hd true, provReadDone_chosen ha hd true⟩

/-! ## Reads of FT_NOW (R20, R40) -/

/-- A memory access to a function that accesses reach runs. -/
theorem barAccess_reachable {f : Fn} {s : State} (h : reachable f s) (run : State → State) : barAccess f.val run s = run s := by
  obtain ⟨-, hcfg, hpresent, hflr⟩ := h
  simp [barAccess, hcfg, hpresent, hflr]

theorem endsIn_of_barAccess {c : Instr} {f : Fn} {s t : State} {run : State → State} (h : reachable f s)
    (hc : exec c s = live s (barAccess f.val run s)) (ht : run s = t) : endsIn c s t := by
  rw [barAccess_reachable h, ht] at hc
  exact endsIn_of_live h.1 hc

/-- A read of the high half returns what a read of the low half has latched. -/
theorem ftNowRead_high {f : Fn} {s : State} (hr : reachable f s) {h : BitVec 32} (hlatch : (s.fn f.val).ftLatch = some h) :
    endsIn (.ftNowRead f .high) s (emit (.read f.val (h.zeroExtend 64)) (updFn f.val (fun x => { x with ftLatch := none }) s)) := by
  refine endsIn_of_barAccess hr rfl ?_
  simp only [hlatch]

/-- Settles O9, one kind of read after another. -/
theorem fabricTimeRead : Obligations.FabricTimeRead := fun _ _ hr =>
  ⟨endsIn_of_barAccess hr rfl rfl, endsIn_of_barAccess hr rfl rfl, fun _ hlatch => ftNowRead_high hr hlatch⟩

/-! ## The state after reset (R22, R462) -/

/-- Device memory reads 0 where nothing has been written (log 6). -/
theorem memGet_reset (a : Nat) : memGet State.reset.mem a = 0 := rfl

/-- Settles O59: each field by its default value, and the empty memory, which is in its canonical form. -/
theorem resetState : Obligations.ResetState :=
  ⟨rfl, rfl, rfl, rfl, rfl, rfl, rfl, rfl, rfl, rfl, rfl, rfl, rfl, rfl, rfl, rfl, rfl, rfl, rfl, rfl, rfl, rfl, rfl, rfl, rfl, rfl,
    rfl, rfl, rfl, rfl, memGet_reset⟩

end Sys2Proof.Proofs
end

section
/-! PROOFS of the statements on fabric time: the beats of the time tree and how they steer (R15 to R19). -/

namespace Sys2Proof.Proofs

open Sys2Proof.Machine Sys2Proof.Safety Sys2Proof.Laws

/-! ## SYNC_REQ and SYNC_RESP -/

section Beats

variable {p : Nat} {epoch q : BitVec 16} {s : State}

/-- A beat of a neighbour in another Furlong is noted in the table of its epochs alone. -/
theorem notePeer_eq_updFt (p : Nat) (epoch : BitVec 16) (s : State) :
    ∃ t, notePeer p epoch s = updFt (fun x => { x with peerEpoch := t }) s := by
  unfold notePeer
  split
  · exact ⟨_, rfl⟩
  · exact ⟨s.ft.peerEpoch, rfl⟩

theorem rxSyncReq_stale (hup : (s.port p).st = .up) (hstale : s.staleBeat p epoch = true) :
    rxSyncReq p epoch q s = bumpPart cViolFtStale s := by
  simp only [rxSyncReq, hup, hstale, ne_eq, not_true_eq_false, if_false, if_true]

theorem rxSyncReq_unsettled (hup : (s.port p).st = .up) (hfresh : s.staleBeat p epoch = false)
    (hsettled : s.fab.everSettled = false) : rxSyncReq p epoch q s = s := by
  simp [rxSyncReq, hup, hfresh, hsettled]

/-- A fresh request after a settle is answered with the part's own view, in which a note of the sender's epoch changes nothing. -/
theorem rxSyncReq_answered (hup : (s.port p).st = .up) (hfresh : s.staleBeat p epoch = false)
    (hsettled : s.fab.everSettled = true) :
    rxSyncReq p epoch q s = sendLink p 2 (toLe 2 s.epochView.toNat ++ toLe 2 q.toNat ++
      toLe 2 (if s.ft.master then s.fab.addr else s.ft.masterAddr.toNat) ++ toLe 1 s.ft.hops.toNat ++
      toLe 1 (s.ft.locked.toNat + 2 * s.ft.holdover.toNat + 4 * s.ft.master.toNat) ++ toLe 8 s.ftNow.toNat ++
      toLe 8 s.ftNow.toNat ++ toLe 8 s.ft.rootOfs.toNat) (notePeer p epoch s) := by
  obtain ⟨t, ht⟩ := notePeer_eq_updFt p epoch s
  simp only [rxSyncReq, hup, hfresh, hsettled, ht]
  rfl

variable {m : BitVec 16} {hops flags : BitVec 8} {t2 t3 ro : BitVec 64}

theorem rxSyncResp_stale (hstale : s.staleBeat p epoch = true) :
    rxSyncResp p epoch q m hops flags t2 t3 ro s = bumpPart cViolFtStale s := if_pos hstale

/-- A response that answers no waiting request leaves the state. -/
theorem rxSyncResp_unasked (hfresh : s.staleBeat p epoch = false) (h : ∀ w, Tab.find s.ft.waiting p = some w → w.1 ≠ q) :
    rxSyncResp p epoch q m hops flags t2 t3 ro s = s := by
  simp only [rxSyncResp, hfresh]
  cases hw : Tab.find s.ft.waiting p with
  | none => rfl
  | some w => exact if_pos (h w hw)

theorem rxSyncResp_answer (hfresh : s.staleBeat p epoch = false) {w : BitVec 16 × BitVec 64}
    (hw : Tab.find s.ft.waiting p = some w) (hq : w.1 = q) :
    rxSyncResp p epoch q m hops flags t2 t3 ro s =
      let delay := s.beatDelay p w.2 t2 t3
      let off := (t2 - w.2).toInt - delay
      let u := updFt (fun x => { x with
        waiting := Tab.erase x.waiting p, t4 := Tab.put x.t4 p s.ftNow, delay := Tab.put x.delay p delay }) (notePeer p epoch s)
      let v := if s.ft.parent = some p then followParent off (flags.getLsbD 0) (updFt (fun x => { x with
          masterEpoch := epoch, masterAddr := BitVec.ofNat 12 m.toNat, hops := BitVec.ofNat 4 (hops.toNat + 1) }) u) else u
      if s.ft.rootParent = some p then followRoot (ro.toInt + off) v else v := by
  simp only [rxSyncResp, hfresh, hw, hq, ne_eq, not_true_eq_false, Bool.false_eq_true, if_false]

end Beats

/-! ## Missed beats -/

theorem syncBeatMissed_other {p : PortId} {s : State} (ha : awake s) (hw : Tab.has s.ft.waiting p.val = true)
    (hp : s.ft.parent ≠ some p.val) :
    endsIn (.syncBeatMissed p) s (updFt (fun x => { x with waiting := Tab.erase x.waiting p.val }) s) :=
  endsIn_of_live ha ((if_neg (by simp [hw])).trans (if_pos hp))

/-- R18: a beat that the parent misses counts, and the eighth in a row loses the lock. -/
theorem syncBeatMissed_parent {p : PortId} {s : State} (ha : awake s) (hw : Tab.has s.ft.waiting p.val = true)
    (hp : s.ft.parent = some p.val) :
    let u := updFt (fun x => { x with waiting := Tab.erase x.waiting p.val, missed := x.missed + 1 }) s
    endsIn (.syncBeatMissed p) s
      (if 8 ≤ s.ft.missed + 1 ∧ s.ft.locked then setLocked false (updFt (fun x => { x with holdover := true }) u) else u) :=
  endsIn_of_live ha ((if_neg (by simp [hw])).trans (if_neg (not_not.mpr hp)))

/-! ## Steering -/

/-- The rate words that an offset allows lie within 500 ppm of nominal, and there is one. -/
theorem rateRange_bounds (off : Int) (rate : Nat) :
    rateNominal - rateSpan ≤ (rateRange off rate).1 ∧ (rateRange off rate).1 ≤ (rateRange off rate).2 ∧
      (rateRange off rate).2 ≤ rateNominal + rateSpan := by
  unfold rateRange
  simp only
  split
  · omega
  · split
    · omega
    · omega

theorem steer_rate_bounds (off : Int) (s : State) :
    rateNominal - rateSpan ≤ (steer off s).ft.rate.toNat ∧ (steer off s).ft.rate.toNat ≤ rateNominal + rateSpan := by
  obtain ⟨hlo, hle, hhi⟩ := rateRange_bounds off s.ft.rate.toNat
  have hrate : (steer off s).ft.rate = BitVec.ofNat 32 ((rateRange off s.ft.rate.toNat).1 +
      freeNumber s % ((rateRange off s.ft.rate.toNat).2 - (rateRange off s.ft.rate.toNat).1 + 1)) := rfl
  rw [hrate]
  generalize rateRange off s.ft.rate.toNat = r at *
  have hmod : freeNumber s % (r.2 - r.1 + 1) < r.2 - r.1 + 1 := Nat.mod_lt _ (Nat.succ_pos _)
  have hword : rateNominal + rateSpan < 2 ^ 32 := by decide
  rw [BitVec.toNat_ofNat, Nat.mod_eq_of_lt (by omega)]
  omega

/-- A part that is locked is only steered by a beat with its parent (R18). -/
theorem followParent_locked {s : State} (hever : s.ft.everLocked = true) (hlocked : s.ft.locked = true) (off : Int) (pl : Bool) :
    followParent off pl s = steer off (updFt (fun x => { x with missed := 0 }) s) := by
  simp only [followParent, hever, hlocked, Bool.not_true, Bool.false_eq_true, if_false, if_true]

/-- Settles O10: the beats by what they find, and the steered rate by its range. -/
theorem syncBeats : Obligations.SyncBeats := by
  refine ⟨fun p epoch q s ha hstale => ?_, fun s ha => ⟨fun hset => ?_, fun hset => ?_, ?_, ?_, ?_, ?_⟩, ?_⟩
  · exact ⟨fun t1 t4 hup => endsIn_of_live ha (congrArg (live s) (rxSyncReq_stale hup hstale)),
      fun m hops flags t2 t3 ro => endsIn_of_live ha (congrArg (live s) (rxSyncResp_stale hstale))⟩
  · exact endsIn_of_guard ha rfl (by simp [hset])
  · exact endsIn_self_of_guard rfl (by simp [hset])
  · exact fun p epoch q t1 t4 hup hfresh =>
      ⟨fun hset => endsIn_of_live ha (congrArg (live s) (rxSyncReq_unsettled hup hfresh hset)),
        fun hset => endsIn_of_live ha (congrArg (live s) (rxSyncReq_answered hup hfresh hset))⟩
  · exact fun p epoch q m hops flags t2 t3 ro hfresh =>
      ⟨fun w hw hq => endsIn_of_live ha (congrArg (live s) (rxSyncResp_answer hfresh hw hq)),
        fun h => endsIn_of_live ha (congrArg (live s) (rxSyncResp_unasked hfresh h))⟩
  · exact fun p hw hp => syncBeatMissed_other ha hw hp
  · exact fun p hw hp => syncBeatMissed_parent ha hw hp
  · intro off pl s hever hlocked t
    have ht : t = steer off (updFt (fun x => { x with missed := 0 }) s) := followParent_locked hever hlocked off pl
    rw [ht]
    exact ⟨rfl, rfl, hlocked, rfl, steer_rate_bounds off _⟩

end Sys2Proof.Proofs
end

section
/-! PROOFS of the statement on brownouts (R30 to R32, R393): what each response leaves, and that a reset of the islands loses neither
the contents of the memories nor BROWN#. -/

namespace Sys2Proof.Proofs

open Sys2Proof.Machine Sys2Proof.Safety Sys2Proof.Laws

/-! ## What the reset of the islands keeps

A reset of the islands takes work from clusters and revokes processors. Each of its steps keeps the contents of the memories and the
brownout state, and sets no READY_MAP bit. -/

/-- From s to t the contents of HBM and Basalt, the stacks and the brownout state are kept, and no READY_MAP bit is set. -/
structure keepsContents (s t : State) : Prop where
  mem : t.mem = s.mem
  hbm : t.hbm = s.hbm
  brown : t.brown = s.brown
  clear : ∀ k, k < 32 → s.isReady k = false → t.isReady k = false

theorem keepsContents.of_eq {s t : State} (hm : t.mem = s.mem) (hh : t.hbm = s.hbm) (hb : t.brown = s.brown)
    (hr : t.ready = s.ready) : keepsContents s t :=
  ⟨hm, hh, hb, fun k _ hk => (congrArg (fun r => BitVec.getLsbD r k) hr).trans hk⟩

theorem keepsContents.refl (s : State) : keepsContents s s := .of_eq rfl rfl rfl rfl

theorem keepsContents.trans {s t u : State} (h : keepsContents s t) (k : keepsContents t u) : keepsContents s u :=
  ⟨k.mem.trans h.mem, k.hbm.trans h.hbm, k.brown.trans h.brown, fun b hb hs => k.clear b hb (h.clear b hb hs)⟩

/-- An update that touches none of these fields may come first. -/
theorem keepsContents.after {s t u : State} (h : keepsContents t u) (hm : t.mem = s.mem) (hh : t.hbm = s.hbm)
    (hb : t.brown = s.brown) (hr : t.ready = s.ready) : keepsContents s u := (keepsContents.of_eq hm hh hb hr).trans h

theorem forEach_keepsContents {α : Type} (l : List α) {f : α → State → State} (h : ∀ x s, keepsContents s (f x s)) (s : State) :
    keepsContents s (forEach l f s) := forEach_rel .refl .trans l f h s

theorem keepsContents.of_reports {s t : State} (h : reportsOnly s t) : keepsContents s t := .of_eq h.mem h.hbm h.brown h.ready

theorem setReady_false_keepsContents (b : Nat) (s : State) : keepsContents s (setReady b false s) := by
  refine ⟨setReady_mem .., setReady_hbm .., setReady_brown .., fun k hk hs => ?_⟩
  rw [isReady_setReady b false s hk, hs, ite_self]

theorem updCtx_keepsContents (i : Nat) (g : Ctx → Ctx) (s : State) : keepsContents s (updCtx i g s) :=
  .of_eq (updCtx_mem ..) (updCtx_hbm ..) (updCtx_brown ..) (updCtx_ready ..)

/-! ### Pages and steps -/

theorem freeFrame_keepsContents (k : Nat) (s : State) : keepsContents s (freeFrame k s) := by
  have habandon : keepsContents s (abandonSeal k s) := by
    unfold abandonSeal
    split
    · exact .of_eq rfl rfl rfl rfl
    · exact .refl s
  exact habandon.trans (.of_eq rfl rfl rfl rfl)

theorem closeUnused_keepsContents (r : StepReq) (s : State) : keepsContents s (closeUnused r s) := by
  refine forEach_keepsContents _ (fun c t => forEach_keepsContents _ (fun k u => ?_) t) s
  split
  · exact (freeFrame_keepsContents k u).trans (.of_eq rfl rfl rfl rfl)
  · exact .refl u

theorem pauseStep_keepsContents (stop : Bool) (s : State) : keepsContents s (pauseStep stop s) :=
  forEach_keepsContents _ (fun i t => updCtx_keepsContents i _ t) s

theorem pauseNow_keepsContents (s : State) : keepsContents s (pauseNow s) := by
  unfold pauseNow
  split
  · exact .of_eq rfl rfl rfl rfl
  · exact .refl s

theorem stepLoses_keepsContents (n : Nat) (s : State) : keepsContents s (stepLoses n s) := by
  unfold stepLoses
  split
  · exact .refl s
  · split
    · exact .refl s
    · extract_lets fns t
      have ht : keepsContents s t := by
        unfold t
        split
        · exact (forEach_keepsContents _ closeUnused_keepsContents s).trans
            (forEach_keepsContents _ (fun f u => .of_reports (bump_reports f _ u)) _)
        · exact .refl s
      exact ht.trans (.after (pauseStep_keepsContents true _) rfl rfl rfl rfl)

/-- With no cluster up no share of a step is issued again (R32). -/
theorem stepRegains_noneUp {s : State} (h : s.clustersUp = []) (n : Nat) : stepRegains n s = s := by
  unfold stepRegains
  split
  · rfl
  · exact if_pos (by simp [h])

/-! ### Clusters -/

theorem freePlace_keepsContents (p : Place) (s : State) : keepsContents s (freePlace p s) :=
  (forEach_keepsContents p.cores (f := fun k => updCore k Core.leave) (fun _ _ => .of_eq rfl rfl rfl rfl) s).trans
    (.of_eq rfl rfl rfl rfl)

theorem displace_keepsContents (n : Nat) (s : State) : keepsContents s (displace n s) := by
  refine forEach_keepsContents _ (fun k t => ?_) s
  split
  · exact .refl t
  · split
    · exact .refl t
    · split
      · exact .after (freePlace_keepsContents _ _) rfl rfl rfl rfl
      · exact .refl t

theorem requeueSeals_keepsContents (n : Nat) (s : State) : keepsContents s (requeueSeals n s) :=
  .after (forEach_keepsContents _ (fun _ t => .of_reports (bump_reports _ _ t)) _) rfl rfl rfl rfl

theorem clusterStops_keepsContents (n : Nat) (s : State) : keepsContents s (clusterStops n s) :=
  ((displace_keepsContents n s).trans (stepLoses_keepsContents n _)).trans (requeueSeals_keepsContents n _)

theorem clusterLost_keepsContents (n : Nat) (s : State) : keepsContents s (clusterLost n s) :=
  (clusterStops_keepsContents n s).trans (.of_eq rfl rfl rfl rfl)

/-! ### Revocations -/

theorem rCl_lt {n : Nat} (hn : n < 8) : rCl n < 32 := show 14 + n < 32 by omega

theorem clustersUp_eq_nil {s : State} : s.clustersUp = [] ↔ ∀ n, n < 8 → s.isReady (rCl n) = false := by
  simp [State.clustersUp, List.filter_eq_nil_iff]

theorem keepsContents.clustersUp {s t : State} (h : keepsContents s t) (hs : s.clustersUp = []) : t.clustersUp = [] :=
  clustersUp_eq_nil.mpr fun n hn => h.clear (rCl n) (rCl_lt hn) (clustersUp_eq_nil.mp hs n hn)

theorem procEvent_keepsContents (p cause : Nat) (s : State) : keepsContents s (procEvent p cause s) := by
  unfold procEvent
  simp only
  split
  · exact .of_reports (postEvent_reports ..)
  · exact .of_eq rfl rfl rfl rfl

/-- Revoking an agent takes back what it holds: for SCH its engines, for a CCC its cluster. -/
theorem revokeNow_keepsContents (p cause : Nat) {s : State} (hs : s.clustersUp = []) : keepsContents s (revokeNow p cause s) := by
  unfold revokeNow
  extract_lets t u
  have ht : keepsContents s t := .of_eq rfl rfl rfl rfl
  have hu : keepsContents s u := by
    unfold u
    split
    · exact ht.trans (.of_eq rfl rfl rfl rfl)
    · next n =>
      extract_lets v
      have hv : keepsContents s v := by
        unfold v
        split
        · exact ht.trans (clusterStops_keepsContents n t)
        · exact ht.trans (clusterLost_keepsContents n t)
      rw [stepRegains_noneUp (hv.clustersUp hs), ite_self]
      exact hv
    · exact ht
  split
  · exact hu.trans (procEvent_keepsContents p cause u)
  · exact hu

theorem revoke_keepsContents (p cause : Nat) {s : State} (hs : s.clustersUp = []) : keepsContents s (revoke p cause s) := by
  unfold revoke
  extract_lets x soon
  split
  · exact .of_eq rfl rfl rfl rfl
  · exact revokeNow_keepsContents p cause hs

theorem finishUpdate_keepsContents (st : Status) (s : State) : keepsContents s (finishUpdate st s) := by
  unfold finishUpdate
  split
  · exact .refl s
  · extract_lets _ t
    have ht : keepsContents s t := .of_eq rfl rfl rfl rfl
    split
    · exact ht
    · exact (ht.trans (.of_reports (tookFree_reports t))).trans (.of_reports (complete_reports ..))

theorem cccReset_keepsContents (n : Nat) {s : State} (hs : s.clustersUp = []) : keepsContents s (cccReset n s) := by
  unfold cccReset
  extract_lets p t u
  split
  · exact .refl s
  · have ht : keepsContents s t := .of_eq rfl rfl rfl rfl
    have hu : keepsContents s u := by
      unfold u
      split
      · exact ht.trans (finishUpdate_keepsContents eBusy t)
      · exact ht
    exact hu.trans (revoke_keepsContents p 7 (hu.clustersUp hs))

/-- The CCCs are reset one after another, with no cluster up from the first on. -/
theorem forEach_cccReset_keepsContents (l : List Nat) {s : State} (hs : s.clustersUp = []) :
    keepsContents s (forEach l cccReset s) :=
  forEach_rel (R := fun a b => a.clustersUp = [] → keepsContents a b) (fun a _ => .refl a)
    (fun h k ha => (h ha).trans (k ((h ha).clustersUp ha))) l cccReset (fun n _ ha => cccReset_keepsContents n ha) s hs

/-! ### The islands -/

theorem clearCluster_keepsContents (n : Nat) (s : State) : keepsContents s (clusterLost n (setReady (rCl n) false s)) :=
  (setReady_false_keepsContents (rCl n) s).trans (clusterLost_keepsContents n _)

/-- Each cluster's bit is cleared in its turn and no later turn sets it. -/
theorem forEach_clearCluster_isReady (l : List Nat) (hl : ∀ n ∈ l, n < 8) (s : State) :
    ∀ n ∈ l, (forEach l (fun n t => clusterLost n (setReady (rCl n) false t)) s).isReady (rCl n) = false := by
  induction l generalizing s with
  | nil => exact fun n hn => absurd hn List.not_mem_nil
  | cons m r ih =>
    have hr : ∀ n ∈ r, n < 8 := fun n hn => hl n (List.mem_cons_of_mem m hn)
    intro n hn
    rcases List.mem_cons.mp hn with rfl | hn
    · have h32 : rCl n < 32 := rCl_lt (hl n hn)
      refine (forEach_keepsContents r clearCluster_keepsContents _).clear _ h32 ?_
      refine (clusterLost_keepsContents n _).clear _ h32 ?_
      rw [isReady_setReady _ _ _ h32, if_pos rfl]
    · exact ih hr _ n hn

/-- The cores lose their contents, and the engines their queues (R32). -/
theorem wipeCores_keepsContents (s : State) : keepsContents s { s with
    cores := (List.range 64).map (fun k => (k, (s.core k).wiped (s.free + 1))), free := s.free + 2,
    engines := Tab.mapVals s.engines (fun _ x => { x with queue := [] }) } := .of_eq rfl rfl rfl rfl

/-- With the islands reset no cluster is stretched, and the boundary is now where no step runs. -/
theorem endStretches_keepsContents (s : State) :
    keepsContents s (pauseNow { s with power := { s.power with stretch := [] } }) :=
  .after (pauseNow_keepsContents _) rfl rfl rfl rfl

theorem islandReset_keepsContents (s : State) :
    keepsContents s (islandReset s) ∧ (islandReset s).clustersUp = [] := by
  unfold islandReset
  extract_lets t u v
  have ht : keepsContents s t := forEach_keepsContents _ clearCluster_keepsContents s
  have hclear : t.clustersUp = [] := clustersUp_eq_nil.mpr fun n hn =>
    forEach_clearCluster_isReady _ (fun _ h => List.mem_range.mp h) s n (List.mem_range.mpr hn)
  have hu : keepsContents t u := wipeCores_keepsContents t
  have hv : keepsContents u v := forEach_cccReset_keepsContents _ (hu.clustersUp hclear)
  have hend := (hu.trans hv).trans (endStretches_keepsContents v)
  exact ⟨ht.trans hend, hend.clustersUp hclear⟩

/-! ## The responses -/

/-- A brownout reset clears the bits of all clusters, asserts BROWN# and leaves the memories (R32). -/
theorem brownReset_keeps (d : Nat) (s : State) : (∀ n, n < 8 → (brownReset d s).isReady (rCl n) = false) ∧
    (brownReset d s).mem = s.mem ∧ (brownReset d s).hbm = s.hbm ∧ (brownReset d s).brown.asserted = true := by
  unfold brownReset
  extract_lets t
  obtain ⟨hkeeps, hup⟩ := islandReset_keepsContents (alert 0 (bumpPart cBrownReset t))
  exact ⟨clustersUp_eq_nil.mp hup, hkeeps.mem, hkeeps.hbm, congrArg Brown.asserted hkeeps.brown⟩

theorem brownEvent_asserted (ticks : Nat) (d : BrownDue) (s : State) :
    (brownEvent ticks d s).brown.asserted = s.brown.asserted := by
  unfold brownEvent
  extract_lets ev
  split
  · exact congrArg Brown.asserted (postEvent_reports ..).brown
  · split
    · rfl
    · rfl

theorem brownRelease_asserted (s : State) : (brownRelease s).brown.asserted = false :=
  forEach_rel (R := fun a b => b.brown.asserted = a.brown.asserted) (fun _ => rfl) (fun h k => k.trans h) _ _
    (fun d t => brownEvent_asserted _ d t) _

/-- Once the rail has recovered and no cluster is awaited, BROWN# is not asserted (R32). -/
theorem brownCheck_asserted {s : State} (hrec : s.brown.recovered = true) (hnone : s.brown.awaited = []) :
    (brownCheck s).brown.asserted = false := by
  unfold brownCheck
  split
  · exact brownRelease_asserted s
  · next h => simpa [hrec, hnone] using h

section Dip

variable {s : State} (ha : awake s) (hdip : s.brown.dip = true)
include ha hdip

theorem brownoutWarning_completes (d : Nat) (hwarned : s.brown.warned = false) (hreset : s.brown.reset = false)
    (hasserted : s.brown.asserted = false) (hchange : s.power.change = none) :
    completes (.brownoutWarning d) s (fun t => t.brown.asserted = true ∧ t.brown.warned = true ∧
      t.brown.depth = max s.brown.depth d ∧ t.brown.since = s.time ∧ t.cnt = Tab.upd 0 s.cnt cBrownWarn (countUp cBrownWarn 1) ∧
      t.power.alert = s.power.alert ||| 1#8 ∧ { t with brown := s.brown, cnt := s.cnt, power := s.power } = s) := by
  have hends := endsIn_of_guard (c := .brownoutWarning d) ha rfl (by simp [hdip, hwarned, hreset])
  simp only [hchange, Bool.false_eq_true, if_false] at hends
  exact ⟨_, hends, rfl, rfl, rfl, if_neg (by simp [hasserted]), rfl, rfl, rfl⟩

theorem brownoutReset_endsIn (d : Nat) (hreset : s.brown.reset = false) : endsIn (.brownoutReset d) s (brownReset d s) :=
  endsIn_of_guard ha rfl (by simp [hdip, hreset])

variable (hen : s.pins.coreEn = true)
include hen

/-- A dip that met neither condition was a short one: it is counted, and a change held back goes on. -/
theorem brownoutRecovery_short (hreset : s.brown.reset = false) (hwarned : s.brown.warned = false)
    (hasserted : s.brown.asserted = false) :
    endsIn .brownoutRecovery s (setPoint s.power.op (updPower (fun p => { p with held := false })
      (bumpPart cBrownShort (updBrown (fun b => { b with dip := false, recovered := true, depth := 0 }) s)))) := by
  refine endsIn_of_live ha ((if_neg (by simp [hdip, hen])).trans (congrArg (live s) ?_))
  simp only [hreset, hwarned, Bool.or_self, Bool.false_eq_true, if_false]
  exact if_neg (by simp [updBrown, hasserted])

theorem brownoutRecovery_long (hlong : s.brown.reset = true ∨ s.brown.warned = true) :
    let t := brownCheck (dipOver s)
    endsIn .brownoutRecovery s
      (if t.brown.asserted then t else setPoint t.power.op (updPower (fun p => { p with held := false }) t)) := by
  have hlong' : (s.brown.reset || s.brown.warned) = true := by simpa using hlong
  refine endsIn_of_live ha ((if_neg (by simp [hdip, hen])).trans (congrArg (live s) ?_))
  simp only [hlong', if_true]

end Dip

/-- With the part awake, the loss of CORE_EN is handled as a brownout reset (R393). -/
theorem coreEnDeassert_endsIn {s : State} (ha : awake s) (hen : s.pins.coreEn = true) :
    endsIn .coreEnDeassert s (brownReset 255
      (updPower (fun p => { p with target := 0, slow := true, change := none }) { s with pins := { s.pins with coreEn := false } })) :=
  (if_neg (by simp [hen])).trans (congrArg (done s) (if_neg (by simp [ha.1, ha.2])))

/-- Settles O11: the responses one by one, then what a brownout reset keeps. -/
theorem brownoutResponses : Obligations.BrownoutResponses := by
  refine ⟨fun d s ha => ⟨?_, ?_, ?_, ?_, ?_, ?_⟩, brownReset_keeps⟩
  · exact endsIn_of_live ha rfl
  · exact fun hdip hwarned hreset hasserted hchange => brownoutWarning_completes ha hdip d hwarned hreset hasserted hchange
  · exact fun hdip hreset => brownoutReset_endsIn ha hdip d hreset
  · exact fun hdip hen hreset hwarned hasserted => brownoutRecovery_short ha hdip hen hreset hwarned hasserted
  · exact fun hdip hen hlong => ⟨fun hnone => brownCheck_asserted rfl hnone, brownoutRecovery_long ha hdip hen hlong⟩
  · exact fun hen => coreEnDeassert_endsIn ha hen

end Sys2Proof.Proofs
end

section
/-! PROOFS of the statement on the training of ports (R29, R353 to R359): what each ordered set and each stage leaves, and that giving
out free slots keeps at most four ports in training. -/

namespace Sys2Proof.Proofs

open Sys2Proof.Machine Sys2Proof.Safety Sys2Proof.Laws

/-! ## Ports after an update, and what sending leaves alone -/

@[simp] theorem port_updPort_same (p : Nat) (g : Port → Port) (s : State) : (updPort p g s).port p = g (s.port p) :=
  get_upd_same ({} : Port) s.fab.ports p g

theorem port_updPort_ne {p q : Nat} (h : q ≠ p) (g : Port → Port) (s : State) : (updPort p g s).port q = s.port q :=
  get_upd_ne ({} : Port) s.fab.ports g h

theorem port_eq_of_fab {s t : State} (h : t.fab = s.fab) (q : Nat) : t.port q = s.port q :=
  congrArg (fun f : Fab => Tab.get ({} : Port) f.ports q) h

@[simp] theorem port_withPending (s : State) (l : List Instr) (q : Nat) : ({ s with pending := l }).port q = s.port q := rfl

theorem sendSet_reports (p : Nat) (type : BitVec 4) (request target : Nat) (s : State) :
    reportsOnly s (sendSet p type request target s) := forEach_reports _ _ (fun _ t => emit_reports _ t) s

@[simp] theorem sendSet_fab (p : Nat) (type : BitVec 4) (request target : Nat) (s : State) :
    (sendSet p type request target s).fab = s.fab := (sendSet_reports p type request target s).fab

@[simp] theorem sendSet_free (p : Nat) (type : BitVec 4) (request target : Nat) (s : State) :
    (sendSet p type request target s).free = s.free := by
  refine forEach_rel (R := fun a b => b.free = a.free) (fun _ => rfl) (fun h k => k.trans h) _ _ (fun k t => ?_) s
  rfl

@[simp] theorem port_sendSet (p : Nat) (type : BitVec 4) (request target : Nat) (s : State) (q : Nat) :
    (sendSet p type request target s).port q = s.port q := port_eq_of_fab (sendSet_fab ..) q

/-! ## Sending frames leaves every port in its state -/

/-- From s to t every port stays in its state, whatever becomes of its queues. -/
def keepsStates (s t : State) : Prop := ∀ q, (t.port q).st = (s.port q).st

theorem keepsStates.refl (s : State) : keepsStates s s := fun _ => rfl

theorem keepsStates.trans {s t u : State} (h : keepsStates s t) (k : keepsStates t u) : keepsStates s u :=
  fun q => (k q).trans (h q)

theorem keepsStates.of_fab {s t : State} (h : t.fab = s.fab) : keepsStates s t := fun q => congrArg Port.st (port_eq_of_fab h q)

theorem updPort_keepsStates {p : Nat} {g : Port → Port} {s : State} (h : (g (s.port p)).st = (s.port p).st) :
    keepsStates s (updPort p g s) := by
  intro q
  by_cases hq : q = p
  · rw [hq, port_updPort_same, h]
  · rw [port_updPort_ne hq]

theorem pump_keepsStates (p n : Nat) (s : State) : keepsStates s (pump p n s) := by
  induction n generalizing s with
  | zero => exact .refl s
  | succ n ih =>
    unfold pump
    extract_lets x owed
    split
    · exact .refl s
    · split
      · exact .refl s
      · extract_lets fr left y
        have hy : keepsStates s (updPort p (fun _ => y) s) := updPort_keepsStates rfl
        exact (hy.trans (.of_fab rfl)).trans (ih _)

theorem queueFrames_keepsStates (p vc : Nat) (l : List Bytes) (s : State) : keepsStates s (queueFrames p vc l s) :=
  (updPort_keepsStates rfl).trans (pump_keepsStates p _ _)

theorem setReady_keepsStates (b : Nat) (v : Bool) (s : State) : keepsStates s (setReady b v s) := .of_fab (setReady_fab b v s)

theorem renew_keepsStates (s : State) : keepsStates s (renew s) := by
  have horiginate : keepsStates s (originate s) := by
    unfold originate
    split
    · exact .refl s
    · exact forEach_rel .refl .trans _ _ (fun p t => queueFrames_keepsStates p 7 _ t) _
  unfold renew
  split
  · exact .refl s
  · exact horiginate

theorem fabricBits_keepsStates (s : State) : keepsStates s (fabricBits s) := by
  unfold fabricBits
  extract_lets t
  have ht : keepsStates s t := by
    unfold t
    split
    · exact setReady_keepsStates _ _ s
    · exact .refl s
  refine keepsStates.trans ?_ (renew_keepsStates _)
  split
  · exact ht.trans (setReady_keepsStates _ _ t)
  · exact ht

/-! ## Giving out slots (R29, R358) -/

/-- The ports that wait for a slot, in the order in which they are given one. -/
def portsWaiting (skip : Option Nat) (s : State) : List Nat :=
  let wait := s.fab.ports.filter (fun e => e.2.st = .hold ∧ some e.1 ≠ skip)
  Tab.keys (wait.filter (·.2.listens)) ++ Tab.keys (wait.filter (fun e => !e.2.listens))

/-- A waiting port starts to train where a slot is free, and sends HOLD where none is. -/
def giveSlot (p : Nat) (s : State) : State :=
  if s.slotFree && s.pins.refFab then startAttempt p s else sendSet p 3 0 0 s

theorem startPorts_eq (skip : Option Nat) (s : State) : startPorts skip s = forEach (portsWaiting skip s) giveSlot s := rfl

theorem portsWaiting_hold {skip : Option Nat} {s : State} {p : Nat} (h : p ∈ portsWaiting skip s) :
    ∃ e ∈ s.fab.ports, e.1 = p ∧ e.2.st = .hold := by
  simp only [portsWaiting, Tab.keys, List.mem_append, List.mem_map, List.mem_filter, decide_eq_true_eq] at h
  obtain ⟨e, ⟨⟨he, hst, -⟩, -⟩, rfl⟩ | ⟨e, ⟨⟨he, hst, -⟩, -⟩, rfl⟩ := h
  · exact ⟨e, he, rfl, hst⟩
  · exact ⟨e, he, rfl, hst⟩

/-- A new attempt changes its port, and nothing else of the fabric. -/
theorem startAttempt_fab (p : Nat) (s : State) : ∃ g : Port → Port,
    (startAttempt p s).fab = { s.fab with ports := Tab.upd {} s.fab.ports p g } := ⟨_, sendSet_fab p 1 0 0 _⟩

theorem port_startAttempt_st (p : Nat) (s : State) : ((startAttempt p s).port p).st = .training := by
  simp [startAttempt]

theorem port_startAttempt_ne {p q : Nat} (h : q ≠ p) (s : State) : (startAttempt p s).port q = s.port q :=
  (port_sendSet ..).trans (port_updPort_ne h ..)

theorem port_giveSlot_ne {p q : Nat} (h : q ≠ p) (s : State) : (giveSlot p s).port q = s.port q := by
  unfold giveSlot
  split
  · exact port_startAttempt_ne h s
  · exact port_sendSet ..

/-- A port that is not waiting is left as it is. -/
theorem port_forEach_giveSlot {q : Nat} (l : List Nat) (h : q ∉ l) (s : State) : (forEach l giveSlot s).port q = s.port q := by
  induction l generalizing s with
  | nil => rfl
  | cons p r ih =>
    obtain ⟨hne, hr⟩ := List.ne_and_not_mem_of_not_mem_cons h
    exact (ih hr _).trans (port_giveSlot_ne hne s)

/-- Giving out slots takes no port to UP. -/
theorem startPorts_notUp {p : Nat} {s : State} (skip : Option Nat) (h : (s.port p).st ≠ .up) :
    ((startPorts skip s).port p).st ≠ .up := by
  rw [startPorts_eq]
  refine forEach_rel (R := fun a b => (a.port p).st ≠ .up → (b.port p).st ≠ .up) (fun _ => id) (fun h k => k ∘ h) _ giveSlot
    (fun q t ht => ?_) s h
  unfold giveSlot
  split
  · by_cases hq : p = q
    · rw [hq, port_startAttempt_st]
      decide
    · rwa [port_startAttempt_ne hq]
  · rwa [port_sendSet]

/-! ### The bound of four in the first second -/

/-- How many ports are in training. -/
def trainingPorts (s : State) : Nat := (s.fab.ports.filter (fun e => e.2.st = .training)).length

theorem insert_perm {α : Type} (t : Tab α) (k : Nat) (v : α) : (Tab.insert t k v).Perm ((k, v) :: t) := by
  induction t with
  | nil => exact .refl _
  | cons e r ih =>
    obtain ⟨i, w⟩ := e
    unfold Tab.insert
    split
    · exact .refl _
    · exact (ih.cons (i, w)).trans (.swap (k, v) (i, w) r)

/-- An update of one key adds at most one entry that satisfies a test. -/
theorem length_filter_upd_le {α : Type} (P : Nat × α → Bool) (d : α) (t : Tab α) (k : Nat) (f : α → α) :
    ((Tab.upd d t k f).filter P).length ≤ (t.filter P).length + 1 := by
  have herase : ((Tab.erase t k).filter P).length ≤ (t.filter P).length := (List.filter_sublist.filter P).length_le
  have hinsert := ((insert_perm (Tab.erase t k) k (f (Tab.get d t k))).filter P).length_eq
  rw [Tab.upd, Tab.put, hinsert, List.filter_cons]
  split
  · simpa using herase
  · omega

theorem startAttempt_trainingPorts (p : Nat) (s : State) : trainingPorts (startAttempt p s) ≤ trainingPorts s + 1 := by
  obtain ⟨g, hfab⟩ := startAttempt_fab p s
  unfold trainingPorts
  rw [hfab]
  exact length_filter_upd_le _ {} s.fab.ports p g

/-- In the first second at most four ports are in training. -/
def slotsKept (s : State) : Prop := s.fab.freePacing = false ∧ trainingPorts s ≤ 4

theorem giveSlot_slotsKept (p : Nat) {s : State} (h : slotsKept s) : slotsKept (giveSlot p s) := by
  obtain ⟨hpacing, hle⟩ := h
  unfold giveSlot
  split
  · next hslot =>
    have hlt : trainingPorts s < 4 := by
      simp only [State.slotFree, hpacing, Bool.false_or, Bool.and_eq_true, decide_eq_true_eq] at hslot
      exact hslot.1
    obtain ⟨g, hfab⟩ := startAttempt_fab p s
    exact ⟨(congrArg Fab.freePacing hfab).trans hpacing, (startAttempt_trainingPorts p s).trans hlt⟩
  · have hfab := sendSet_fab p 3 0 0 s
    exact ⟨(congrArg Fab.freePacing hfab).trans hpacing, by rwa [trainingPorts, hfab]⟩

theorem startPorts_slotsKept (skip : Option Nat) {s : State} (h : slotsKept s) : slotsKept (startPorts skip s) := by
  rw [startPorts_eq]
  exact forEach_rel (R := fun a b => slotsKept a → slotsKept b) (fun _ => id) (fun h k => k ∘ h) _ giveSlot
    (fun p _ => giveSlot_slotsKept p) s h

theorem port_startPorts_notHold {skip : Option Nat} {s : State} {p : Nat} (h : ∀ e ∈ s.fab.ports, e.1 = p → e.2.st ≠ .hold) :
    (startPorts skip s).port p = s.port p := by
  rw [startPorts_eq]
  refine port_forEach_giveSlot _ (fun hp => ?_) s
  obtain ⟨e, he, hkey, hst⟩ := portsWaiting_hold hp
  exact h e he hkey hst

/-! ## A leader without a mode does not come UP -/

theorem failAttempt_notUp (p : Nat) (s : State) : ((failAttempt p s).port p).st ≠ .up := by
  refine startPorts_notUp none ?_
  rw [fabricBits_keepsStates _ p, port_updPort_same]
  exact PortState.noConfusion

theorem leaveTraffic_full_notUp (p mode : Nat) (lanes : BitVec 8) (cause : Nat) (s : State) :
    ((leaveTraffic p 1 mode lanes cause s).port p).st ≠ .up := by
  unfold leaveTraffic
  extract_lets wait
  rw [port_updPort_same]
  cases wait with
  | false => exact PortState.noConfusion
  | true => exact PortState.noConfusion

theorem trainAgain_notUp (p cause : Nat) (s : State) : ((trainAgain p cause s).port p).st ≠ .up := by
  have h := leaveTraffic_full_notUp p 0 0 cause s
  unfold trainAgain
  extract_lets t
  split
  · rwa [port_sendSet]
  · rw [port_sendSet, port_updPort_same]
    exact h

theorem requestAction_full_notUp (p cause : Nat) (s : State) : ((requestAction p 1 0 0 cause s).port p).st ≠ .up := by
  unfold requestAction
  rw [if_pos rfl]
  exact trainAgain_notUp p cause _

theorem leadMode_notUp {p : Nat} {s : State} (h : (s.port p).st ≠ .up) : ((leadMode p s).port p).st ≠ .up := by
  unfold leadMode
  extract_lets x
  split
  · rw [port_sendSet, port_updPort_same]
    exact h
  · split
    · exact failAttempt_notUp p s
    · exact requestAction_full_notUp p _ s

end Sys2Proof.Proofs
end

section
/-! PROOFS of the statement on the training of ports: the clauses of each command, and the statement (R353 to R359). -/

namespace Sys2Proof.Proofs

open Sys2Proof.Machine Sys2Proof.Safety Sys2Proof.Laws

/-! ## TS1 (R354, R356) -/

/-- An ordered set comes from the port that it comes from. -/
theorem samePort_self (o : OrdSet) : samePort o o = true := by simp [samePort]

theorem takeTs1_ownNonce {p : Nat} {s : State} {k : Fin 8} {o : OrdSet} (h : s.ownNonce o.nonce = true) :
    takeTs1 p [(k, o)] s = selfWired p s := if_pos (by simp [h])

/-- On one lane alone nothing disagrees, and the partner is learnt from it. -/
theorem takeTs1_single {p : Nat} {s : State} {k : Fin 8} {o : OrdSet} (h : s.ownNonce o.nonce = false) :
    takeTs1 p [(k, o)] s = bumpPartBy cViolLinkWiring 0 (updPort p (fun x => { learnPartner o x with
      laneOk := BitVec.ofNat 8 (2 ^ k.val), reversed := o.lane.toNat != k.val }) s) := by
  have hsame : [(k, o)].filter (fun e => samePort o e.2) = [(k, o)] := by simp [samePort_self]
  refine (if_neg (by simp [h])).trans ?_
  rw [hsame]
  rfl

section Clauses

variable {p : PortId} {s : State} (ha : awake s) (hal : s.allots p.val = true)

section Ts1

variable (href : s.pins.refFab = true) (sets : List (Fin 8 × OrdSet))
include hal href

theorem exec_ts1 : exec (.ts1 p sets) s = match (s.port p.val).st with
    | .hold => live s (if (s.port p.val).listens && s.slotFree then takeTs1 p.val sets (startAttempt p.val s)
        else bumpPart cViolFabHold s)
    | .training => if (s.port p.val).stage = .detect ∨ (s.port p.val).stage = .lock then live s (takeTs1 p.val sets s) else done s s
    | _ => done s s := if_neg (by simp [hal, href])

include ha

theorem ts1_held (hst : (s.port p.val).st = .hold) (h : (s.port p.val).listens = false ∨ s.slotFree = false) :
    endsIn (.ts1 p sets) s (bumpPart cViolFabHold s) := by
  have hno : ((s.port p.val).listens && s.slotFree) = false := Bool.and_eq_false_iff.mpr h
  refine endsIn_of_live ha ((exec_ts1 hal href sets).trans ?_)
  simp only [hst, hno, Bool.false_eq_true, if_false]

theorem ts1_heard (hst : (s.port p.val).st = .hold) (hlistens : (s.port p.val).listens = true) (hfree : s.slotFree = true) :
    endsIn (.ts1 p sets) s (takeTs1 p.val sets (startAttempt p.val s)) := by
  refine endsIn_of_live ha ((exec_ts1 hal href sets).trans ?_)
  simp only [hst, hlistens, hfree, Bool.and_self, if_true]

theorem ts1_training (hst : (s.port p.val).st = .training)
    (hstage : (s.port p.val).stage = .detect ∨ (s.port p.val).stage = .lock) : endsIn (.ts1 p sets) s (takeTs1 p.val sets s) := by
  refine endsIn_of_live ha ((exec_ts1 hal href sets).trans ?_)
  simp only [hst, hstage, if_true]

omit ha in
theorem ts1_ignored (hst : (s.port p.val).st ≠ .hold)
    (h : ¬ ((s.port p.val).st = .training ∧ ((s.port p.val).stage = .detect ∨ (s.port p.val).stage = .lock))) :
    endsIn (.ts1 p sets) s s := by
  refine (exec_ts1 hal href sets).trans ?_
  split
  · next hhold => exact absurd hhold hst
  · next htrain => exact if_neg fun hstage => h ⟨htrain, hstage⟩
  · rfl

end Ts1

/-! ## TS2 (R355) -/

section Ts2

variable {o : OrdSet}

/-- TS2 counts in IDENTIFY and EQUALIZE. -/
def takesTs2 (x : Port) : Prop := (x.st = .training ∨ x.st = .retrain) ∧ (x.stage = .identify ∨ x.stage = .equalize)

/-- Both ends have drawn one nonce and no addresses decide which of them leads. -/
def nonceClash (o : OrdSet) (x : Port) (s : State) : Prop :=
  x.stage = .identify ∧ (s.fab.valid && o.addrValid) = false ∧ o.nonce = x.nonce

/-- Whether the port leads, from the addresses where both ends have one, else from the nonces. -/
def leads (o : OrdSet) (x : Port) (s : State) : Bool :=
  if x.attempt ≠ 1 then x.leader
  else if s.fab.valid && o.addrValid then decide (s.fab.addr < o.addr.toNat) else decide (x.nonce.toNat < o.nonce.toNat)

/-- What the port has learnt from TS2 before it acts on it. -/
def learntTs2 (o : OrdSet) (p : Nat) (s : State) : State :=
  updPort p (fun x => { learnPartner o x with partnerOk := o.laneOk, leader := leads o (s.port p) s }) s

omit ha hal in
theorem ts2_ignored (h : ¬ takesTs2 (s.port p.val)) : endsIn (.ts2 p o) s s := by
  refine if_pos ?_
  unfold takesTs2 at h
  simp only [Bool.or_eq_true, Bool.not_eq_true', Bool.and_eq_false_iff, Bool.or_eq_false_iff, decide_eq_false_iff_not]
  tauto

include hal

omit ha in
theorem ts2_guard (h : takesTs2 (s.port p.val)) :
    ¬ (!s.allots p.val || !(((s.port p.val).st = .training || (s.port p.val).st = .retrain) &&
      ((s.port p.val).stage = .identify || (s.port p.val).stage = .equalize))) = true := by
  obtain ⟨hst, hstage⟩ := h
  simp only [hal, Bool.or_eq_true, Bool.not_eq_true', Bool.and_eq_false_iff, Bool.or_eq_false_iff, decide_eq_false_iff_not]
  tauto

include ha

/-- Two equal nonces: a fresh one is drawn. -/
theorem ts2_nonceClash (h : takesTs2 (s.port p.val)) (hclash : nonceClash o (s.port p.val) s) :
    endsIn (.ts2 p o) s (sendSet p.val 2 0 0 (updPort p.val (fun x => { x with nonce := freeWord 64 s }) (tookFree s))) := by
  obtain ⟨hstage, haddr, hnonce⟩ := hclash
  exact endsIn_of_live ha ((if_neg (ts2_guard hal h)).trans (if_pos ⟨hstage, by rw [haddr]; rfl, hnonce⟩))

section Learnt

variable (h : takesTs2 (s.port p.val)) (hclash : ¬ nonceClash o (s.port p.val) s)
include h hclash

omit ha in
theorem exec_ts2_learnt : exec (.ts2 p o) s =
    let t := learntTs2 o p.val s
    let y := t.port p.val
    if leads o (s.port p.val) s then
      live s (if (s.port p.val).stage = .identify ∨ y.lanes &&& y.bothOk ≠ y.lanes then leadMode p.val t else t)
    else if o.target = 0 then live s t
    else
      live s (match lanesFor (modeWidth o.target.toNat) y.bothOk with
        | some l => sendSet p.val 5 0 o.target.toNat
            (updPort p.val (fun x => { x with mode := o.target.toNat, lanes := l, accepted := true }) t)
        | none => t) := by
  refine (if_neg (ts2_guard hal h)).trans (if_neg fun ⟨hstage, haddr, hnonce⟩ => hclash ⟨hstage, ?_, hnonce⟩)
  exact Bool.not_eq_true' _ ▸ haddr

theorem ts2_leader (hlead : leads o (s.port p.val) s = true) :
    let t := learntTs2 o p.val s
    let y := t.port p.val
    endsIn (.ts2 p o) s
      (if (s.port p.val).stage = .identify ∨ y.lanes &&& y.bothOk ≠ y.lanes then leadMode p.val t else t) :=
  endsIn_of_live ha ((exec_ts2_learnt hal h hclash).trans (if_pos hlead))

variable (hlead : leads o (s.port p.val) s = false)
include hlead

theorem ts2_noMode (hno : o.target = 0 ∨
    lanesFor (modeWidth o.target.toNat) ((learntTs2 o p.val s).port p.val).bothOk = none) :
    endsIn (.ts2 p o) s (learntTs2 o p.val s) := by
  refine endsIn_of_live ha ((exec_ts2_learnt hal h hclash).trans ((if_neg (by simp [hlead])).trans ?_))
  by_cases htarget : o.target = 0
  · exact if_pos htarget
  · refine (if_neg htarget).trans ?_
    rw [hno.resolve_left htarget]

theorem ts2_follower (htarget : o.target ≠ 0) {l : BitVec 8}
    (hl : lanesFor (modeWidth o.target.toNat) ((learntTs2 o p.val s).port p.val).bothOk = some l) :
    endsIn (.ts2 p o) s (sendSet p.val 5 0 o.target.toNat
      (updPort p.val (fun x => { x with mode := o.target.toNat, lanes := l, accepted := true }) (learntTs2 o p.val s))) := by
  refine endsIn_of_live ha ((exec_ts2_learnt hal h hclash).trans ((if_neg (by simp [hlead])).trans ((if_neg htarget).trans ?_)))
  simp only [hl]

end Learnt

/-- A follower by its address takes the mode that the leader announces. -/
theorem ts2_follower_completes (h : takesTs2 (s.port p.val)) (hattempt : (s.port p.val).attempt = 1)
    (haddr : (s.fab.valid && o.addrValid) = true) (hle : o.addr.toNat ≤ s.fab.addr) (htarget : o.target.toNat ≠ 0)
    (hlanes : (lanesFor (modeWidth o.target.toNat)
      ({ learnPartner o (s.port p.val) with partnerOk := o.laneOk }).bothOk).isSome = true) :
    completes (.ts2 p o) s (fun t => (t.port p.val).leader = false ∧ (t.port p.val).mode = o.target.toNat ∧
      (t.port p.val).accepted = true) := by
  have hlead : leads o (s.port p.val) s = false := by simp [leads, hattempt, haddr, hle]
  have hclash : ¬ nonceClash o (s.port p.val) s := fun ⟨_, hno, _⟩ => by simp [haddr] at hno
  obtain ⟨l, hl⟩ := Option.isSome_iff_exists.mp hlanes
  have hl' : lanesFor (modeWidth o.target.toNat) ((learntTs2 o p.val s).port p.val).bothOk = some l := by
    rw [learntTs2, port_updPort_same]
    exact hl
  have htarget' : o.target ≠ 0 := fun h0 => htarget (by rw [h0]; rfl)
  refine completes_of_endsIn (ts2_follower ha hal h hclash hlead htarget' hl') ?_
  simp only [port_withPending, port_sendSet, port_updPort_same, learntTs2, hlead, and_self]

end Ts2

/-! ## HOLD and ACCEPT (R355, R358) -/

section HoldAccept

include ha hal

variable (o : OrdSet)

theorem hold_training (hst : (s.port p.val).st = .training) :
    endsIn (.hold p o) s (startPorts (some p.val) (sendSet p.val 3 0 0 (updPort p.val (fun x => { x with
      st := .hold, listens := true, attempt := 0, accepted := false }) s))) :=
  endsIn_of_guard ha rfl (by simp [hal, hst])

omit ha hal in
theorem hold_ignored (hst : (s.port p.val).st ≠ .training) : endsIn (.hold p o) s s :=
  endsIn_self_of_guard rfl (by simp [hst])

variable {o}

theorem accept_leader (hleader : (s.port p.val).leader = true)
    (hst : (s.port p.val).st = .training ∨ (s.port p.val).st = .retrain) (htarget : o.target.toNat = (s.port p.val).mode) :
    endsIn (.accept p o) s (updPort p.val (fun x => { x with accepted := true }) s) :=
  endsIn_of_live ha (if_pos (by simpa [hal, hleader, htarget] using hst))

omit ha hal in
theorem accept_ignored (h : (s.port p.val).leader = false ∨
    ((s.port p.val).st ≠ .training ∧ (s.port p.val).st ≠ .retrain) ∨ o.target.toNat ≠ (s.port p.val).mode) :
    endsIn (.accept p o) s s := by
  refine if_neg fun hall => ?_
  simp only [Bool.and_eq_true, Bool.or_eq_true, decide_eq_true_eq] at hall
  obtain ⟨⟨⟨-, hleader⟩, hst⟩, htarget⟩ := hall
  rcases h with h | ⟨htrain, hretrain⟩ | h
  · simp [hleader] at h
  · exact hst.elim htrain hretrain
  · exact h htarget

end HoldAccept

/-! ## Stages (R354) -/

section Stages

/-- A full training, or a retrain or width change, is in progress. -/
def trains (x : Port) : Prop := x.st = .training ∨ x.st = .retrain

variable {pass : BitVec 8} {delay : Nat}
include ha hal

omit ha in
theorem exec_stageDone (hst : trains (s.port p.val)) : exec (.trainingStageDone p pass delay) s =
    let t := stageDone p.val pass delay s
    let y := t.port p.val
    live s (if y.st = .up ∧ (s.port p.val).deferred = some 1 ∧ y.lanes &&& y.laneOk ≠ y.lanes then narrow p.val t else t) := by
  refine if_neg ?_
  rcases hst with hst | hst <;> simp [hal, hst]

/-- A stage that does not take the port to UP is all that happens. -/
theorem stageDone_endsIn {u : State} (hst : trains (s.port p.val)) (hu : stageDone p.val pass delay s = u)
    (hup : (u.port p.val).st ≠ .up) : endsIn (.trainingStageDone p pass delay) s u := by
  subst hu
  exact endsIn_of_live ha ((exec_stageDone hal hst).trans (congrArg (live s) (if_neg fun h => hup h.1)))

section Training

variable (hst : (s.port p.val).st = .training)
include hst

omit ha hal in
theorem notUp_of_training : (s.port p.val).st ≠ .up := fun h => PortState.noConfusion (hst.symm.trans h)

theorem stageDone_detect (hstage : (s.port p.val).stage = .detect) :
    endsIn (.trainingStageDone p pass delay) s (updPort p.val (fun x => { x with stage := .lock }) s) := by
  refine stageDone_endsIn ha hal (.inl hst) (by simp only [stageDone, hstage]) ?_
  rw [port_updPort_same]
  exact notUp_of_training hst

theorem stageDone_lock (hstage : (s.port p.val).stage = .lock) :
    endsIn (.trainingStageDone p pass delay) s (if (s.port p.val).laneOk &&& pass = 0 then s else
      sendSet p.val 2 0 0 (updPort p.val (fun x => { x with stage := .identify })
        (updPort p.val (fun x => { x with laneOk := x.laneOk &&& pass }) s))) := by
  refine stageDone_endsIn ha hal (.inl hst) (by simp only [stageDone, hstage, port_updPort_same]) ?_
  split
  · exact notUp_of_training hst
  · rw [port_sendSet, port_updPort_same, port_updPort_same]
    exact notUp_of_training hst

/-- Before a mode is accepted IDENTIFY and EQUALIZE go on. -/
theorem stageDone_notAccepted (hstage : (s.port p.val).stage = .identify ∨ (s.port p.val).stage = .equalize)
    (haccepted : (s.port p.val).accepted = false) : endsIn (.trainingStageDone p pass delay) s s := by
  refine stageDone_endsIn ha hal (.inl hst) ?_ (notUp_of_training hst)
  rcases hstage with hstage | hstage
  · simp only [stageDone, hstage, haccepted, Bool.false_eq_true, if_false]
  · simp only [stageDone, hstage, haccepted, Bool.not_false, if_true]

theorem stageDone_identify (hstage : (s.port p.val).stage = .identify) (haccepted : (s.port p.val).accepted = true) :
    endsIn (.trainingStageDone p pass delay) s (updPort p.val (fun x => { x with stage := .equalize }) s) := by
  refine stageDone_endsIn ha hal (.inl hst) (by simp only [stageDone, hstage, haccepted, if_true]) ?_
  rw [port_updPort_same]
  exact notUp_of_training hst

/-- A lane in use has failed EQUALIZE: the leader chooses again, the follower waits for its choice. -/
theorem stageDone_equalize_failed (hstage : (s.port p.val).stage = .equalize) (haccepted : (s.port p.val).accepted = true)
    (hlanes : (s.port p.val).lanes &&& ((s.port p.val).laneOk &&& pass) ≠ (s.port p.val).lanes) :
    endsIn (.trainingStageDone p pass delay) s (
      let t := updPort p.val (fun x => { x with laneOk := x.laneOk &&& pass }) s
      if (s.port p.val).leader then leadMode p.val t
      else sendSet p.val 2 0 0 (updPort p.val (fun x => { x with accepted := false }) t)) := by
  refine stageDone_endsIn ha hal (.inl hst) ?_ ?_
  · simp only [stageDone, hstage, haccepted, port_updPort_same, hlanes, Bool.not_true, Bool.false_eq_true, if_false]
  · have ht : ((updPort p.val (fun x => { x with laneOk := x.laneOk &&& pass }) s).port p.val).st ≠ .up := by
      rw [port_updPort_same]
      exact notUp_of_training hst
    extract_lets t
    split
    · exact leadMode_notUp ht
    · rw [port_sendSet, port_updPort_same]
      exact ht

theorem stageDone_equalize_passed (hstage : (s.port p.val).stage = .equalize) (haccepted : (s.port p.val).accepted = true)
    (hlanes : (s.port p.val).lanes &&& ((s.port p.val).laneOk &&& pass) = (s.port p.val).lanes) :
    completes (.trainingStageDone p pass delay) s (fun t => t.port p.val =
      { s.port p.val with laneOk := (s.port p.val).laneOk &&& pass, stage := .deskew }) := by
  have hends : endsIn (.trainingStageDone p pass delay) s (updPort p.val (fun x => { x with stage := .deskew })
      (updPort p.val (fun x => { x with laneOk := x.laneOk &&& pass }) s)) := by
    refine stageDone_endsIn ha hal (.inl hst) ?_ ?_
    · simp only [stageDone, hstage, haccepted, port_updPort_same, hlanes, Bool.not_true, Bool.false_eq_true, if_false, if_true]
    · rw [port_updPort_same, port_updPort_same]
      exact notUp_of_training hst
  refine completes_of_endsIn hends ?_
  rw [port_withPending, port_updPort_same, port_updPort_same]

theorem stageDone_deskew (hstage : (s.port p.val).stage = .deskew) (hattempt : (s.port p.val).attempt ≠ 3) :
    completes (.trainingStageDone p pass delay) s (fun t => t.port p.val =
      { s.port p.val with pathDelay := delay, stage := .linkInit }) := by
  have hends : endsIn (.trainingStageDone p pass delay) s (updPort p.val (fun x => { x with stage := .linkInit })
      (updPort p.val (fun x => { x with pathDelay := delay }) s)) := by
    refine stageDone_endsIn ha hal (.inl hst) ?_ ?_
    · simp only [stageDone, hstage, hattempt, if_false]
    · rw [port_updPort_same, port_updPort_same]
      exact notUp_of_training hst
  refine completes_of_endsIn hends ?_
  rw [port_withPending, port_updPort_same, port_updPort_same]

end Training

/-- The last stage takes the port to UP; a follower whose request did not give way for a lost lane checks nothing more (R361). -/
theorem stageDone_last (hst : trains (s.port p.val))
    (hstage : (s.port p.val).stage = .linkInit ∨ ((s.port p.val).stage = .deskew ∧ (s.port p.val).attempt = 3))
    (hdeferred : (s.port p.val).deferred ≠ some 1) :
    endsIn (.trainingStageDone p pass delay) s (portUp p.val (if (s.port p.val).stage = .linkInit then s
      else updPort p.val (fun x => { x with pathDelay := delay }) s)) := by
  refine endsIn_of_live ha ((exec_stageDone hal hst).trans (congrArg (live s) ((if_neg fun h => hdeferred h.2.1).trans ?_)))
  rcases hstage with hstage | ⟨hstage, hattempt⟩
  · simp only [stageDone, hstage, if_true]
  · simp only [stageDone, hstage, hattempt, if_true]
    rfl

omit ha hal in
theorem stage_ignored (htrain : (s.port p.val).st ≠ .training) (hretrain : (s.port p.val).st ≠ .retrain) :
    endsIn (.trainingStageDone p pass delay) s s ∧ endsIn (.trainingStageTimeout p) s s := by
  refine ⟨if_pos (by simp [htrain, hretrain]), ?_⟩
  show execTrainingStageTimeout p s = _
  unfold execTrainingStageTimeout
  extract_lets x
  split
  · rfl
  · split
    · next h => exact absurd h htrain
    · next h => exact absurd h hretrain
    · rfl

theorem stageTimeout_training (hst : (s.port p.val).st = .training) :
    endsIn (.trainingStageTimeout p) s (failAttempt p.val s) := by
  refine endsIn_of_live ha ((if_neg (by simp [hal])).trans ?_)
  simp only [hst]

theorem stageTimeout_retrain (hst : (s.port p.val).st = .retrain) :
    endsIn (.trainingStageTimeout p) s (requestAction p.val 1 0 0 (s.port p.val).cause s) := by
  refine endsIn_of_live ha ((if_neg (by simp [hal])).trans ?_)
  simp only [hst]

end Stages

/-! ## Retries (R359) -/

section Retry

theorem trainingRetry_ignored (h : (s.port p.val).st ≠ .down ∨ (s.port p.val).selfWired = true) :
    endsIn (.trainingRetry p) s s := by
  refine endsIn_self_of_guard rfl ?_
  rcases h with h | h <;> simp [h]

variable (href : s.pins.refFab = true) (hdown : (s.port p.val).st = .down) (hwired : (s.port p.val).selfWired = false)
include ha hal href hdown hwired

omit ha in
theorem exec_trainingRetry : exec (.trainingRetry p) s = live s (if s.slotFree then startAttempt p.val s
    else sendSet p.val 3 0 0 (updPort p.val (fun x => { x with st := .hold }) s)) :=
  if_neg (by simp [hal, href, hdown, hwired])

theorem trainingRetry_slot (hfree : s.slotFree = true) : endsIn (.trainingRetry p) s (startAttempt p.val s) :=
  endsIn_of_live ha ((exec_trainingRetry hal href hdown hwired).trans (congrArg (live s) (if_pos hfree)))

theorem trainingRetry_noSlot (hfull : s.slotFree = false) : endsIn (.trainingRetry p) s
    (sendSet p.val 3 0 0 (updPort p.val (fun x => { x with st := .hold }) s)) :=
  endsIn_of_live ha ((exec_trainingRetry hal href hdown hwired).trans (congrArg (live s) (if_neg (by simp [hfull]))))

end Retry

end Clauses

/-! ## The statement -/

/-- A fresh nonce takes one free value. -/
theorem ts2_nonceClash_completes {p : PortId} {s : State} {o : OrdSet} (ha : awake s) (hal : s.allots p.val = true)
    (h : takesTs2 (s.port p.val)) (hclash : nonceClash o (s.port p.val) s) :
    completes (.ts2 p o) s (fun t => (t.port p.val).nonce = freeWord 64 s ∧ t.free = s.free + 1) := by
  refine completes_of_endsIn (ts2_nonceClash ha hal h hclash) ⟨?_, sendSet_free ..⟩
  rw [port_withPending, port_sendSet, port_updPort_same]

/-- Settles O43: each command by the state and the stage of the port, then what giving out slots keeps. -/
theorem portTraining : Obligations.PortTraining := by
  refine ⟨fun p s ha hal href => ?_, fun skip s hpacing hle => ?_⟩
  · intro x
    refine ⟨
      -- TS1 on a port that is held, that trains, and on any other
      fun sets hst h => ts1_held ha hal href sets hst h,
      fun sets hst hlistens hfree => ts1_heard ha hal href sets hst hlistens hfree,
      fun sets hst hstage => ts1_training ha hal href sets hst hstage,
      fun sets hst h => ts1_ignored hal href sets hst h,
      fun k o hst hstage hnonce => takeTs1_single hnonce ▸ ts1_training ha hal href [(k, o)] hst hstage,
      fun k o hst hstage hnonce => takeTs1_ownNonce hnonce ▸ ts1_training ha hal href [(k, o)] hst hstage,
      -- TS2
      fun o hst hstage _ haddr hnonce => ts2_nonceClash_completes ha hal ⟨.inl hst, .inl hstage⟩ ⟨hstage, haddr, hnonce⟩,
      fun o hst hstage hattempt haddr hle htarget hlanes =>
        ts2_follower_completes ha hal ⟨.inl hst, .inl hstage⟩ hattempt haddr hle htarget hlanes,
      fun o hst hstage h => ?_,
      fun o h => ts2_ignored h,
      -- HOLD and ACCEPT
      fun o hst => hold_training ha hal o hst,
      fun o hleader hst htarget => accept_leader ha hal hleader hst htarget,
      fun o hst => hold_ignored o hst,
      fun o h => accept_ignored h,
      -- stages that are done
      fun _ _ hst hstage => stageDone_detect ha hal hst hstage,
      fun _ _ hst hstage => stageDone_lock ha hal hst hstage,
      fun _ _ hst hstage haccepted => stageDone_notAccepted ha hal hst hstage haccepted,
      fun _ _ hst hstage haccepted hlanes => stageDone_equalize_failed ha hal hst hstage haccepted hlanes,
      fun _ _ hst hstage hdeferred => stageDone_last ha hal hst hstage hdeferred,
      fun _ _ htrain hretrain => stage_ignored htrain hretrain,
      fun _ _ hst hstage haccepted => stageDone_identify ha hal hst hstage haccepted,
      fun _ _ hst hstage haccepted hlanes => stageDone_equalize_passed ha hal hst hstage haccepted hlanes,
      fun _ _ hst hstage hattempt => stageDone_deskew ha hal hst hstage hattempt,
      -- timeouts, retries and the end of the first second
      fun hst => stageTimeout_training ha hal hst,
      fun hst => stageTimeout_retrain ha hal hst,
      fun h => trainingRetry_ignored h,
      fun hdown hwired hfree => trainingRetry_slot ha hal href hdown hwired hfree,
      fun hdown hwired hfull => trainingRetry_noSlot ha hal href hdown hwired hfull,
      endsIn_of_live ha rfl⟩
    have htakes : takesTs2 (s.port p.val) := ⟨hst, hstage⟩
    have hclash : ¬ nonceClash o (s.port p.val) s := by
      rintro ⟨hidentify, haddr, hnonce⟩
      rcases h with h | h | h
      · exact Stage.noConfusion (hidentify.symm.trans h)
      · simp [haddr] at h
      · exact h hnonce
    exact ⟨fun hlead => ts2_leader ha hal htakes hclash hlead,
      fun hlead hno => ts2_noMode ha hal htakes hclash hlead hno,
      fun l hlead htarget hl => ts2_follower ha hal htakes hclash hlead htarget hl⟩
  · obtain ⟨hpacing', hle'⟩ := startPorts_slotsKept skip ⟨hpacing, hle⟩
    exact ⟨hle', hpacing', fun p h => port_startPorts_notHold h⟩

end Sys2Proof.Proofs
end

section
/-! PROOFS of what leaves device memory as it is: for each operation on the state that writes no cell, that it leaves the memory. -/

namespace Sys2Proof.Proofs

open Sys2Proof.Machine Sys2Proof.Safety Sys2Proof.Laws

@[simp] theorem mem_ite (c : Prop) [Decidable c] (a b : State) : (if c then a else b).mem = if c then a.mem else b.mem :=
  apply_ite State.mem c a b

@[simp] theorem forEach_mem {α : Type} {l : List α} {f : α → State → State} {s : State} (h : ∀ x t, (f x t).mem = t.mem) :
    (forEach l f s).mem = s.mem := forEach_rel (R := fun a b => b.mem = a.mem) (fun _ => rfl) (fun h k => k.trans h) l f h s

/-- Both sides of a test leave the same memory. -/
theorem mem_ite_eq {c : Prop} [Decidable c] {a b : State} {m : List Host.Cell} (ha : a.mem = m) (hb : b.mem = m) :
    (if c then a else b).mem = m := by
  split
  · exact ha
  · exact hb

/-! ### Ops -/

@[simp] theorem onlyIf_mem {c : Bool} {f : State → State} {s : State} (h : (f s).mem = s.mem) : (onlyIf c f s).mem = s.mem := by
  simp [onlyIf, h]

@[simp] theorem configWrite_mem {f : Nat} {run : State → State} {s : State} (h : (run s).mem = s.mem) :
    (configWrite f run s).mem = s.mem := by
  simp [configWrite, h]

@[simp] theorem barAccess_mem {f : Nat} {run : State → State} {s : State} (h : (run s).mem = s.mem) :
    (barAccess f run s).mem = s.mem := by
  simp [barAccess, h]

@[simp] theorem linkChange_mem (g : HostLink → HostLink) (s : State) : (linkChange g s).mem = s.mem := by simp [linkChange]

@[simp] theorem writeCq_mem (f q : Nat) (e : Cqe) (held : Bool) (s : State) : (writeCq f q e held s).mem = s.mem := by
  simp [writeCq]

@[simp] theorem hold_mem (f q : Nat) (e : Cqe) (s : State) : (hold f q e s).mem = s.mem := by rfl

@[simp] theorem drainHeld_mem (f q n : Nat) (s : State) : (drainHeld f q n s).mem = s.mem := (drainHeld_reports f q n s).mem

@[simp] theorem issueAt_mem (f kind idx : Nat) (s : State) : (issueAt f kind idx s).2.mem = s.mem := by rfl

@[simp] theorem issue_mem (f kind : Nat) (live : List Nat) (s : State) : (issue f kind live s).2.mem = s.mem := by rfl

@[simp] theorem directDrop_mem (f : Nat) (s : State) : (directDrop f s).mem = s.mem := by rfl

/-! ### OpsLink -/

@[simp] theorem pump_mem (p n : Nat) (s : State) : (pump p n s).mem = s.mem := by
  induction n generalizing s with
  | zero => rfl
  | succ n ih =>
    unfold pump
    dsimp only
    split
    · rfl
    · split
      · rfl
      · exact ih _

@[simp] theorem sendAck_mem (p : Nat) (nak : Bool) (s : State) : (sendAck p nak s).mem = s.mem := by rfl

@[simp] theorem flushPort_mem (p : Nat) (s : State) : (flushPort p s).mem = s.mem := pump_mem p _ s

@[simp] theorem queueFrames_mem (p vc : Nat) (l : List Bytes) (s : State) : (queueFrames p vc l s).mem = s.mem := by
  simp [queueFrames]

@[simp] theorem sendLink_mem (p ltype : Nat) (body : Bytes) (s : State) : (sendLink p ltype body s).mem = s.mem := by
  simp [sendLink]

@[simp] theorem sendHop_mem (m : Msg) (s : State) : (sendHop m s).mem = s.mem := by simp [sendHop]

@[simp] theorem sendMsg_mem (dest cls mtype : Nat) (tag : BitVec 32) (body : Bytes) (s : State) :
    (sendMsg dest cls mtype tag body s).mem = s.mem := by
  unfold sendMsg
  split <;> simp

/-! ### OpsRecord -/

@[simp] theorem storeRecord_mem (r : LsRecord) (s : State) : (storeRecord r s).mem = s.mem := by rfl

@[simp] theorem sendRecord_mem (r : LsRecord) (skip : Option Nat) (s : State) : (sendRecord r skip s).mem = s.mem := by
  simp [sendRecord]

@[simp] theorem originate_mem (s : State) : (originate s).mem = s.mem := by simp [originate]

@[simp] theorem renew_mem (s : State) : (renew s).mem = s.mem := by simp [renew]

@[simp] theorem rxRecord_mem (p : Nat) (b : Bytes) (s : State) : (rxRecord p b s).mem = s.mem := by
  unfold rxRecord
  dsimp only
  split
  · rfl
  · split
    · rfl
    · next r _ =>
      have hclash (l : List Nat) : (forEach l (fun q => updPort q (fun x => { x with levelBad := true })) (storeRecord r s)).mem = s.mem :=
        forEach_mem fun _ _ => rfl
      split
      · rfl
      · simp [hclash]

/-! ### OpsCxl -/

@[simp] theorem evictLine_mem (line : Nat) (s : State) : (evictLine line s).mem = s.mem := by
  unfold evictLine
  split <;> simp

@[simp] theorem takeLine_mem (line : Nat) (c : CacheLine) (s : State) : (takeLine line c s).mem = s.mem := by simp [takeLine]

@[simp] theorem useCache_mem (s : State) : (useCache s).mem = s.mem := by simp [useCache]

/-! ### OpsKv -/

@[simp] theorem retire_mem (g : Nat) (s : State) : (retire g s).mem = s.mem := by simp [retire]

@[simp] theorem bumpOwner_mem (f : Option Nat) (k : Nat) (s : State) : (bumpOwner f k s).mem = s.mem := by
  unfold bumpOwner
  split <;> simp

@[simp] theorem ueRead_mem (a : Nat) (s : State) : (ueRead a s).mem = s.mem := by simp [ueRead]

@[simp] theorem putPage_mem (k : Nat) (p : Page) (s : State) : (putPage k p s).mem = s.mem := by rfl

@[simp] theorem abandonSeal_mem (k : Nat) (s : State) : (abandonSeal k s).mem = s.mem := by simp [abandonSeal]

@[simp] theorem freeFrame_mem (k : Nat) (s : State) : (freeFrame k s).mem = s.mem := by simp [freeFrame]

@[simp] theorem destroyGhost_mem (g : Nat) (s : State) : (destroyGhost g s).mem = s.mem := by rfl

@[simp] theorem strand_mem (idx : Nat) (s : State) : (strand idx s).mem = s.mem := by
  unfold strand
  dsimp only
  split <;> simp

theorem reclaimGhost_mem {s t : State} (h : reclaimGhost s = some t) : t.mem = s.mem := by
  unfold reclaimGhost at h
  split at h
  · cases h
  · cases h
    simp

@[simp] theorem trimGhosts_mem (n fuel : Nat) (s : State) : (trimGhosts n fuel s).mem = s.mem := by
  induction fuel generalizing s with
  | zero => rfl
  | succ fuel ih =>
    unfold trimGhosts
    split
    · rfl
    · split
      · rfl
      · next t ht => exact (ih t).trans (reclaimGhost_mem ht)

@[simp] theorem ensureGrans_mem (n fuel : Nat) (s : State) : (ensureGrans n fuel s).mem = s.mem := by
  induction fuel generalizing s with
  | zero => rfl
  | succ fuel ih =>
    unfold ensureGrans
    split
    · rfl
    · split
      · rfl
      · next t ht => exact (ih t).trans (reclaimGhost_mem ht)

@[simp] theorem dropPage_mem (k : Nat) (s : State) : (dropPage k s).mem = s.mem := by
  unfold dropPage
  dsimp only
  (repeat' split) <;> simp

@[simp] theorem dropColumn_mem (idx col : Nat) (s : State) : (dropColumn idx col s).mem = s.mem := by simp [dropColumn]

@[simp] theorem makeRoom_mem (n : Nat) (prep : List Nat) (fuel : Nat) (s : State) : (makeRoom n prep fuel s).mem = s.mem := by
  induction fuel generalizing s with
  | zero => rfl
  | succ fuel ih =>
    unfold makeRoom
    split
    · rfl
    · split
      · rfl
      · exact (ih _).trans (dropColumn_mem ..)

@[simp] theorem countDrops_mem (s : State) : (countDrops s).mem = s.mem := by rfl

@[simp] theorem roomFor_mem (n : Nat) (prep : List Nat) (s : State) : (roomFor n prep s).2.mem = s.mem := by simp [roomFor]

@[simp] theorem freePages_mem (idx : Nat) (s : State) : (freePages idx s).mem = s.mem := by
  unfold freePages
  refine forEach_mem fun k t => ?_
  split <;> simp

@[simp] theorem closeUnused_mem (r : StepReq) (s : State) : (closeUnused r s).mem = s.mem := by simp [closeUnused]

@[simp] theorem releaseUnits_mem (us : List Nat) (s : State) : (releaseUnits us s).mem = s.mem := by rfl

/-! ### OpsPower -/

@[simp] theorem abandonUp_mem (s : State) : (abandonUp s).mem = s.mem := by
  unfold abandonUp
  split <;> simp

@[simp] theorem setPoint_mem (p : Nat) (s : State) : (setPoint p s).mem = s.mem := by
  unfold setPoint
  split <;> simp

@[simp] theorem forceOp0_mem (s : State) : (forceOp0 s).mem = s.mem := by simp [forceOp0]

@[simp] theorem phaseEvent_mem (k cause bit : Nat) (before s : State) : (phaseEvent k cause bit before s).mem = s.mem := by
  simp [phaseEvent]

@[simp] theorem dropPhase_mem (k cause : Nat) (s : State) : (dropPhase k cause s).mem = s.mem := by
  unfold dropPhase
  split <;> simp

@[simp] theorem distrustPhase_mem (k cause : Nat) (s : State) : (distrustPhase k cause s).mem = s.mem := by simp [distrustPhase]

@[simp] theorem thermalEvent_mem (source kind : Nat) (temp : Int) (s : State) : (thermalEvent source kind temp s).mem = s.mem := by
  simp [thermalEvent]

@[simp] theorem meterFailed_mem (s : State) : (meterFailed s).mem = s.mem := by simp [meterFailed]

@[simp] theorem enterCritical_mem (source : Nat) (temp : Int) (s : State) : (enterCritical source temp s).mem = s.mem := by
  simp [enterCritical]

@[simp] theorem judgeCritical_mem (s : State) : (judgeCritical s).mem = s.mem := by
  unfold judgeCritical
  (repeat' split) <;> simp

@[simp] theorem setLimit_mem (bmc : Bool) (quantity : Nat) (v : Option Nat) (s : State) : (setLimit bmc quantity v s).mem = s.mem := by
  unfold setLimit
  split <;> simp

/-! ### Thermal -/

@[simp] theorem excludeSensor_mem (k : Nat) (s : State) : (excludeSensor k s).mem = s.mem := by simp [excludeSensor]

/-! ### OpsServe -/

@[simp] theorem dropShips_mem (idx reason : Nat) (s : State) : (dropShips idx reason s).mem = s.mem := by
  unfold dropShips
  split <;> simp

@[simp] theorem dropWork_mem (idx : Nat) (st : Status) (s : State) : (dropWork idx st s).mem = s.mem := by
  unfold dropWork
  dsimp only
  (repeat' split) <;> simp

@[simp] theorem checkSettled_mem (f : Nat) (s : State) : (checkSettled f s).mem = s.mem := by simp [checkSettled]

@[simp] theorem finishHome_mem (idx : Nat) (st : Status) (end1 : Bool) (s : State) : (finishHome idx st end1 s).mem = s.mem := by
  unfold finishHome
  split <;> simp

@[simp] theorem sendCancel_mem (c : Ctx) (dest : Nat) (st : Status) (s : State) : (sendCancel c dest st s).mem = s.mem := by
  simp [sendCancel]

@[simp] theorem tellHolders_mem (idx : Nat) (c : Ctx) (st : Status) (s : State) : (tellHolders idx c st s).mem = s.mem := by
  simp [tellHolders]

@[simp] theorem sendTokens_mem (c : Ctx) (pos : Nat) (ts : List Nat) (final end1 : Bool) (st : Status) (at_ : BitVec 64) (s : State) :
    (sendTokens c pos ts final end1 st at_ s).mem = s.mem := by simp [sendTokens]

@[simp] theorem endRequest_mem (idx : Nat) (st : Status) (s : State) : (endRequest idx st s).mem = s.mem := by
  unfold endRequest
  split <;> simp

@[simp] theorem pauseBoundary_mem (s : State) : (pauseBoundary s).mem = s.mem := by rfl

@[simp] theorem pauseStep_mem (stop : Bool) (s : State) : (pauseStep stop s).mem = s.mem := by simp [pauseStep]

@[simp] theorem pauseNow_mem (s : State) : (pauseNow s).mem = s.mem := by simp [pauseNow]

@[simp] theorem freePlace_mem (p : Place) (s : State) : (freePlace p s).mem = s.mem := (Proofs.freePlace_keepsContents p s).mem

@[simp] theorem endTask_mem (n : Nat) (st : Status) (silent : Bool) (s : State) : (endTask n st silent s).mem = s.mem := by
  unfold endTask
  split
  · rfl
  · split <;> simp

@[simp] theorem endRun_mem (r : Run) (st : Status) (silent : Bool) (s : State) : (endRun r st silent s).mem = s.mem := by
  simp [endRun]

@[simp] theorem pauseTasks_mem (f : Nat) (stop : Bool) (s : State) : (pauseTasks f stop s).mem = s.mem := by rfl

@[simp] theorem applyPolicy_mem (f : Nat) (s : State) : (applyPolicy f s).mem = s.mem := by simp [applyPolicy]

@[simp] theorem fence_mem (f cause : Nat) (s : State) : (fence f cause s).mem = s.mem := by simp [fence]

@[simp] theorem liftFence_mem (f : Nat) (s : State) : (liftFence f s).mem = s.mem := by simp [liftFence]

@[simp] theorem startRing_mem (f q : Nat) (g : Ring → Ring) (s : State) : (startRing f q g s).mem = s.mem := by simp [startRing]

@[simp] theorem stopRing_mem (f q : Nat) (s : State) : (stopRing f q s).mem = s.mem := by rfl

@[simp] theorem fetched_mem (f q : Nat) (s : State) : (fetched f q s).mem = s.mem := by simp [fetched]

@[simp] theorem notServed_mem (c : Cmd) (s : State) : (notServed c s).mem = s.mem := by simp [notServed]

/-! ### OpsProv -/

@[simp] theorem putSlot_mem (y : Nat) (b : Bytes) (s : State) : (putSlot y b s).mem = s.mem := by rfl

@[simp] theorem appendEntry_mem (e : JEntry) (s : State) : (appendEntry e s).mem = s.mem := by simp [appendEntry]

@[simp] theorem journal_mem (st : JState) (y x tries : Nat) (s : State) : (journal st y x tries s).mem = s.mem := by simp [journal]

@[simp] theorem programFuses_mem (b : Bytes) (s : State) : (programFuses b s).mem = s.mem := by simp [programFuses]

@[simp] theorem bootChoice_mem (e : JEntry) (s t : State) : ((bootChoice e s).2 t).mem = t.mem := by
  unfold bootChoice
  cases e.state with
  | idle | downloaded | verified | invalid => rfl
  | downloading | verifying => simp
  | activating | trial | confirming => dsimp only; split <;> simp

@[simp] theorem idleNone_mem (s : State) : (idleNone s).mem = s.mem := by
  unfold idleNone
  split <;> simp

@[simp] theorem chooseRecord_mem (s : State) : (chooseRecord s).2.mem = s.mem := by
  unfold chooseRecord
  split
  · dsimp only
    repeat' split
    all_goals simp
  · dsimp only
    repeat' split
    all_goals simp

/-! ### OpsReset -/

@[simp] theorem dropCopy_mem (k : Nat) (s : State) : (dropCopy k s).mem = s.mem := by
  unfold dropCopy
  split <;> simp

@[simp] theorem endCopy_mem (k : Nat) (s : State) : (endCopy k s).mem = s.mem := by simp [endCopy]

@[simp] theorem releaseModel_mem (h : Nat) (unload : Bool) (s : State) : (releaseModel h unload s).mem = s.mem := by
  unfold releaseModel
  dsimp only
  split
  · rfl
  · split <;> simp

@[simp] theorem dropAdapter_mem (h : Nat) (s : State) : (dropAdapter h s).mem = s.mem := by
  unfold dropAdapter
  split <;> simp

@[simp] theorem dropBuf_mem (h : Nat) (s : State) : (dropBuf h s).mem = s.mem := by
  unfold dropBuf
  split <;> simp

@[simp] theorem takeDma_mem (i : Nat) (owner : Tag) (s : State) : (takeDma i owner s).mem = s.mem := by rfl

@[simp] theorem freeDma_mem (i : Nat) (s : State) : (freeDma i s).mem = s.mem := by rfl

@[simp] theorem dropLoad_mem (l : Load) (s : State) : (dropLoad l s).mem = s.mem := by
  unfold dropLoad
  (repeat' split) <;> simp

@[simp] theorem dropNets_mem (f : Nat) (s : State) : (dropNets f s).mem = s.mem := by rfl

@[simp] theorem silenceRequests_mem (f : Nat) (s : State) : (silenceRequests f s).mem = s.mem := by simp [silenceRequests]

@[simp] theorem functionReset_mem (f : Nat) (s : State) : (functionReset f s).mem = s.mem := by simp [functionReset]

@[simp] theorem procEvent_mem (p cause : Nat) (s : State) : (procEvent p cause s).mem = s.mem := by simp [procEvent]

@[simp] theorem requeueSeals_mem (n : Nat) (s : State) : (requeueSeals n s).mem = s.mem := (Proofs.requeueSeals_keepsContents n s).mem

@[simp] theorem stepLoses_mem (n : Nat) (s : State) : (stepLoses n s).mem = s.mem := (Proofs.stepLoses_keepsContents n s).mem

@[simp] theorem displace_mem (n : Nat) (s : State) : (displace n s).mem = s.mem := (Proofs.displace_keepsContents n s).mem

@[simp] theorem freeCluster_mem (n : Nat) (s : State) : (freeCluster n s).mem = s.mem := by rfl

@[simp] theorem clusterStops_mem (n : Nat) (s : State) : (clusterStops n s).mem = s.mem := by simp [clusterStops]

@[simp] theorem clusterLost_mem (n : Nat) (s : State) : (clusterLost n s).mem = s.mem := by simp [clusterLost]

@[simp] theorem freeChipDma_mem (s : State) : (freeChipDma s).mem = s.mem := by rfl

@[simp] theorem abortLoads_mem (s : State) : (abortLoads s).mem = s.mem := by simp [abortLoads]

@[simp] theorem abortStage_mem (s : State) : (abortStage s).mem = s.mem := by
  unfold abortStage
  (repeat' split) <;> simp

@[simp] theorem stopped_mem (p : Nat) (s : State) : (stopped p s).mem = s.mem := by
  unfold stopped
  split <;> simp

@[simp] theorem finishUpdate_mem (st : Status) (s : State) : (finishUpdate st s).mem = s.mem := by
  unfold finishUpdate
  split <;> simp

@[simp] theorem stageBusy_mem (s : State) : (stageBusy s).mem = s.mem := by
  unfold stageBusy
  split <;> simp

@[simp] theorem haltProc_mem (p cause : Nat) (s : State) : (haltProc p cause s).mem = s.mem := by simp [haltProc]

@[simp] theorem closeHandoff_mem (p : Nat) (s : State) : (closeHandoff p s).mem = s.mem := by rfl

/-! ### OpsTrain -/

@[simp] theorem sendSet_mem (p : Nat) (type : BitVec 4) (request target : Nat) (s : State) :
    (sendSet p type request target s).mem = s.mem := (Proofs.sendSet_reports p type request target s).mem

@[simp] theorem startAttempt_mem (p : Nat) (s : State) : (startAttempt p s).mem = s.mem := by simp [startAttempt]

@[simp] theorem startPorts_mem (skip : Option Nat) (s : State) : (startPorts skip s).mem = s.mem := by simp [startPorts]

@[simp] theorem fabricBits_mem (s : State) : (fabricBits s).mem = s.mem := by simp [fabricBits]

@[simp] theorem portEvent_mem (p mode cause : Nat) (s : State) : (portEvent p mode cause s).mem = s.mem := by simp [portEvent]

@[simp] theorem failAttempt_mem (p : Nat) (s : State) : (failAttempt p s).mem = s.mem := by simp [failAttempt]

@[simp] theorem sendProof_mem (p : Nat) (s : State) : (sendProof p s).mem = s.mem := by
  unfold sendProof
  dsimp only
  split <;> simp

@[simp] theorem sendCerts_mem (p : Nat) (s : State) : (sendCerts p s).mem = s.mem := by simp [sendCerts]

@[simp] theorem portUp_mem (p : Nat) (s : State) : (portUp p s).mem = s.mem := by
  have hemit (l : List (FrameT × Nat)) (t : State) : (forEach l (fun e u => emit (.frame p e.1) u) t).mem = t.mem :=
    forEach_mem fun _ _ => rfl
  simp [portUp, hemit]

@[simp] theorem leaveTraffic_mem (p action mode : Nat) (lanes : BitVec 8) (cause : Nat) (s : State) :
    (leaveTraffic p action mode lanes cause s).mem = s.mem := by rfl

@[simp] theorem trainAgain_mem (p cause : Nat) (s : State) : (trainAgain p cause s).mem = s.mem := by simp [trainAgain]

@[simp] theorem requestAction_mem (p action mode : Nat) (lanes : BitVec 8) (cause : Nat) (s : State) :
    (requestAction p action mode lanes cause s).mem = s.mem := by simp [requestAction]

/-! ### OpsTopo -/

@[simp] theorem settleTime_mem (db : List LsRecord) (g : Graph) (s : State) : (settleTime db g s).mem = s.mem := by
  simp [settleTime]

@[simp] theorem settle_mem (s : State) : (settle s).mem = s.mem := by simp [settle]

@[simp] theorem reroute_mem (m : Msg) (gone : Nat) (s : State) : (reroute m gone s).mem = s.mem := by
  unfold reroute
  dsimp only
  split
  · rfl
  · split <;> simp

@[simp] theorem handBack_mem (p : Nat) (s : State) : (handBack p s).mem = s.mem := by simp [handBack]

/-! ### Bringup -/

@[simp] theorem installRecord_mem (y : Nat) (s : State) : (installRecord y s).mem = s.mem := by simp [installRecord]

@[simp] theorem notePeer_mem (p : Nat) (epoch : BitVec 16) (s : State) : (notePeer p epoch s).mem = s.mem := by simp [notePeer]

@[simp] theorem steer_mem (off : Int) (s : State) : (steer off s).mem = s.mem := by rfl

@[simp] theorem stepTime_mem (off : Int) (s : State) : (stepTime off s).mem = s.mem := by rfl

@[simp] theorem setLocked_mem (v : Bool) (s : State) : (setLocked v s).mem = s.mem := by simp [setLocked]

@[simp] theorem sendBeat_mem (p : Nat) (s : State) : (sendBeat p s).mem = s.mem := by simp [sendBeat]

@[simp] theorem rxSyncReq_mem (p : Nat) (epoch seq : BitVec 16) (s : State) : (rxSyncReq p epoch seq s).mem = s.mem := by
  simp [rxSyncReq]

@[simp] theorem followParent_mem (off : Int) (parentLocked : Bool) (s : State) : (followParent off parentLocked s).mem = s.mem := by
  simp [followParent]

@[simp] theorem followRoot_mem (ofs : Int) (s : State) : (followRoot ofs s).mem = s.mem := by simp [followRoot]

@[simp] theorem rxSyncResp_mem (p : Nat) (epoch seq master : BitVec 16) (hops flags : BitVec 8) (t2 t3 rootOfs : BitVec 64) (s : State) :
    (rxSyncResp p epoch seq master hops flags t2 t3 rootOfs s).mem = s.mem := by
  unfold rxSyncResp
  split
  · rfl
  · split <;> simp

@[simp] theorem brownEvent_mem (ticks : Nat) (d : BrownDue) (s : State) : (brownEvent ticks d s).mem = s.mem := by simp [brownEvent]

@[simp] theorem brownRelease_mem (s : State) : (brownRelease s).mem = s.mem := by simp [brownRelease]

@[simp] theorem brownCheck_mem (s : State) : (brownCheck s).mem = s.mem := by simp [brownCheck]

@[simp] theorem dipOver_mem (s : State) : (dipOver s).mem = s.mem := by rfl

/-! ### OpsTile -/

@[simp] theorem tileViol_mem (k v : Nat) (s : State) : (tileViol k v s).mem = s.mem := by
  unfold tileViol
  split <;> simp

@[simp] theorem raiseEvent_mem (k e : Nat) (s : State) : (raiseEvent k e s).mem = s.mem := by simp [raiseEvent]

@[simp] theorem popIssued_mem (k : Nat) (slot : SlotKind) (q : Queued) (s : State) : (popIssued k slot q s).mem = s.mem := by rfl

@[simp] theorem finishInstr_mem (k : Nat) (x : TileInstr) (s : State) : (finishInstr k x s).mem = s.mem := by simp [finishInstr]

@[simp] theorem goesOn_mem (k : Nat) (slot : SlotKind) (q : Queued) (writes : List Write) (descs : Nat) (groups : List (List Nat))
    (s t : State) : (goesOn k slot q writes descs groups s t).mem = t.mem := by
  unfold goesOn
  dsimp only
  split
  · rfl
  · split <;> rfl

@[simp] theorem grainsWrite_mem (k : Nat) (sideB : Bool) (buf row : Nat) (g : Core → Core) (s : State) :
    (grainsWrite k sideB buf row g s).mem = s.mem := by simp [grainsWrite]

@[simp] theorem applyWrite_mem (k : Nat) (w : Write) (s : State) : (applyWrite k w s).mem = s.mem := by
  unfold applyWrite
  split <;> simp

/-! ### Energy -/

@[simp] theorem addBucket_mem (b n : Nat) (s : State) : (addBucket b n s).mem = s.mem := by rfl

@[simp] theorem addFunc_mem (f b n : Nat) (s : State) : (addFunc f b n s).mem = s.mem := by rfl

@[simp] theorem chargeCtx_mem (idx : Nat) (home : Bool) (n : Nat) (s : State) : (chargeCtx idx home n s).mem = s.mem := by
  unfold chargeCtx
  split <;> simp

@[simp] theorem chargeStep_mem (n : Nat) (s : State) : (chargeStep n s).mem = s.mem := by
  unfold chargeStep
  split <;> simp

@[simp] theorem chargeOwner_mem (o : EnergyOwner) (n : Nat) (s : State) : (chargeOwner o n s).mem = s.mem := by
  unfold chargeOwner
  (repeat' split) <;> simp

/-! ### Keys -/

@[simp] theorem keysInForce_mem (p : Nat) (s : State) : (keysInForce p s).mem = s.mem := by simp [keysInForce]

@[simp] theorem rxKeyCert_mem (p frag frags : Nat) (data : Bytes) (s : State) : (rxKeyCert p frag frags data s).mem = s.mem := by
  simp [rxKeyCert]

@[simp] theorem rxKeyShare_mem (p : Nat) (pub : Bytes) (s : State) : (rxKeyShare p pub s).mem = s.mem := by simp [rxKeyShare]

@[simp] theorem judgeProof_mem (p : Nat) (sig : Bytes) (s : State) : (judgeProof p sig s).mem = s.mem := by simp [judgeProof]

@[simp] theorem rxKeyProof_mem (p : Nat) (sig : Bytes) (s : State) : (rxKeyProof p sig s).mem = s.mem := by simp [rxKeyProof]

@[simp] theorem keyWork_mem (p : Nat) (s : State) : (keyWork p s).mem = s.mem := by
  unfold keyWork
  dsimp only
  split <;> simp

@[simp] theorem rxKeyDone_mem (p : Nat) (phase : BitVec 32) (s : State) : (rxKeyDone p phase s).mem = s.mem := by simp [rxKeyDone]

@[simp] theorem rxRekey_mem (p : Nat) (phase : BitVec 32) (s : State) : (rxRekey p phase s).mem = s.mem := by simp [rxRekey]

@[simp] theorem rxRekeyAck_mem (p : Nat) (phase : BitVec 32) (s : State) : (rxRekeyAck p phase s).mem = s.mem := by
  simp [rxRekeyAck]

/-! ### OpsFirm -/

@[simp] theorem bootRefuse_mem (st : Status) (s : State) : (bootRefuse st s).mem = s.mem := by rfl

@[simp] theorem runsImage_mem (b : Bundle) (s : State) : (runsImage b s).mem = s.mem := by rfl

@[simp] theorem loadFrom_mem (b : Bundle) (p : Nat) (s : State) : (loadFrom b p s).mem = s.mem := by
  unfold loadFrom
  split <;> simp

@[simp] theorem loadImage_mem (p : Nat) (s : State) : (loadImage p s).mem = s.mem := by
  unfold loadImage
  split <;> simp

@[simp] theorem replaced_mem (p : Nat) (handoff : Bool) (s : State) : (replaced p handoff s).mem = s.mem := by simp [replaced]

@[simp] theorem mendJournal_mem (s : State) : (mendJournal s).mem = s.mem := by
  unfold mendJournal
  (repeat' split) <;> simp

@[simp] theorem issueVision_mem (s : State) : (issueVision s).mem = s.mem := by
  unfold issueVision
  exact forEach_mem fun _ _ => rfl

@[simp] theorem takeTables_mem (s : State) : (takeTables s).mem = s.mem := by simp [takeTables]

@[simp] theorem finishRuns_mem (s : State) : (finishRuns s).mem = s.mem := by simp [finishRuns]

@[simp] theorem takeOver_mem (s : State) : (takeOver s).mem = s.mem := by rfl

@[simp] theorem clusterFaulted_mem (n : Nat) (s : State) : (clusterFaulted n s).mem = s.mem := by simp [clusterFaulted]

/-! ### OpsMail -/

@[simp] theorem clearCounters_mem (f : Nat) (s : State) : (clearCounters f s).mem = s.mem := by simp [clearCounters]

@[simp] theorem wrRingCfg_mem (f : Nat) (v : BitVec 32) (s : State) : (wrRingCfg f v s).mem = s.mem := by simp [wrRingCfg]

@[simp] theorem wrRingBase_mem (f : Nat) (cq high : Bool) (v : BitVec 32) (s : State) : (wrRingBase f cq high v s).mem = s.mem := by
  simp [wrRingBase]

@[simp] theorem wrRingCoal_mem (f q : Nat) (v : BitVec 32) (s : State) : (wrRingCoal f q v s).mem = s.mem := by rfl

@[simp] theorem wrSqTail_mem (f q : Nat) (v : BitVec 32) (s : State) : (wrSqTail f q v s).mem = s.mem := by simp [wrSqTail]

@[simp] theorem wrCqHead_mem (f q : Nat) (v : BitVec 32) (s : State) : (wrCqHead f q v s).mem = s.mem := by simp [wrCqHead]

@[simp] theorem wrDirectCmd_mem (f off : Nat) (v : BitVec 32) (s : State) : (wrDirectCmd f off v s).mem = s.mem := by
  simp [wrDirectCmd]

@[simp] theorem wrDirectDb_mem (f : Nat) (v : BitVec 32) (s : State) : (wrDirectDb f v s).mem = s.mem := by simp [wrDirectDb]

@[simp] theorem cancelHandle_mem (f : Nat) (h : BitVec 64) (s : State) : (cancelHandle f h s).mem = s.mem := by
  unfold cancelHandle
  (repeat' split) <;> simp

@[simp] theorem wrCancelLow_mem (f : Nat) (v : BitVec 32) (s : State) : (wrCancelLow f v s).mem = s.mem := by rfl

@[simp] theorem wrCancelHigh_mem (f : Nat) (v : BitVec 32) (s : State) : (wrCancelHigh f v s).mem = s.mem := by
  unfold wrCancelHigh
  split <;> simp

@[simp] theorem wrLeaseCtrl_mem (f : Nat) (v : BitVec 32) (s : State) : (wrLeaseCtrl f v s).mem = s.mem := by simp [wrLeaseCtrl]

@[simp] theorem wrHeartbeat_mem (f : Nat) (s : State) : (wrHeartbeat f s).mem = s.mem := by simp [wrHeartbeat]

@[simp] theorem wrMsix_mem (f off : Nat) (v : BitVec 32) (s : State) : (wrMsix f off v s).mem = s.mem := by simp [wrMsix]

@[simp] theorem bootCtrl_mem (v : BitVec 32) (s : State) : (bootCtrl v s).mem = s.mem := by simp [bootCtrl]

@[simp] theorem withHandle_mem {c : Cmd} {kind : Nat} {live free : Bool} {run : State → State} {s : State} (h : (run s).mem = s.mem) :
    (c.withHandle kind live free run s).mem = s.mem := by
  unfold Cmd.withHandle
  split
  · exact h
  · split <;> simp
  · simp

@[simp] theorem needsHbm_mem {c : Cmd} {run : State → State} {s : State} (h : (run s).mem = s.mem) :
    (c.needsHbm run s).mem = s.mem := by
  simp [Cmd.needsHbm, h]

/-! ### Spdm -/

@[simp] theorem spdmError_mem (mctp : Bool) (code : Nat) (s : State) : (spdmError mctp code s).mem = s.mem := by rfl

@[simp] theorem spdmBad_mem (mctp : Bool) (code : Nat) (s : State) : (spdmBad mctp code s).mem = s.mem := by rfl

@[simp] theorem withChain_mem {mctp : Bool} {slot : Nat} {run : State → State} {s : State} (h : (run s).mem = s.mem) :
    (withChain mctp slot run s).mem = s.mem := by
  simp [withChain, h]

@[simp] theorem deriveAk_mem (svn : Nat) (s : State) : (deriveAk svn s).mem = s.mem := by rfl

/-! ### OpsDma -/

@[simp] theorem addCounter_mem (i : Tag) (h : Nat) (n : Int) (s : State) : (addCounter i h n s).mem = s.mem := by simp [addCounter]

@[simp] theorem setPresence_mem (x : Spaces) (d : Desc) (s : State) : (setPresence x d s).mem = s.mem := by
  unfold setPresence
  split
  · rfl
  · exact forEach_mem fun (_, _, _) _ => rfl

/-! ### Transfer -/

@[simp] theorem queueDescs_mem (e : Nat) (l : List QDesc) (s : State) : (queueDescs e l s).mem = s.mem := by rfl

@[simp] theorem descDone_mem (k go : Nat) (s : State) : (descDone k go s).mem = s.mem := by
  unfold descDone
  dsimp only
  split <;> simp

/-! ### Flint -/

@[simp] theorem flint_mem {c : Cmd} {run : State → State} {s : State} (h : (run s).mem = s.mem) :
    (c.flint run s).mem = s.mem := by
  simp [Cmd.flint, h]

@[simp] theorem putRun_mem (r r' : Run) (s : State) : (putRun r r' s).mem = s.mem := by rfl

@[simp] theorem takeInput_mem (inputs : Nat) (b : Bytes) (x : Run × State) : (takeInput inputs b x).2.mem = x.2.mem := by
  unfold takeInput
  dsimp only
  split <;> simp

@[simp] theorem wake_mem (f line : Nat) (s : State) : (wake f line s).mem = s.mem := by
  unfold wake
  split <;> simp

/-! ### OpsShip -/

@[simp] theorem homeTokens_mem (idx pos : Nat) (ts : List Nat) (at_ : BitVec 64) (s : State) :
    (homeTokens idx pos ts at_ s).mem = s.mem := by
  unfold homeTokens
  split <;> simp

@[simp] theorem emitTokens_mem (idx : Nat) (ts : List Nat) (s : State) : (emitTokens idx ts s).mem = s.mem := by
  unfold emitTokens
  split <;> simp

@[simp] theorem finishOk_mem (idx : Nat) (end1 : Bool) (s : State) : (finishOk idx end1 s).mem = s.mem := by
  unfold finishOk
  split <;> simp

@[simp] theorem startWork_mem (idx : Nat) (s : State) : (startWork idx s).mem = s.mem := by simp [startWork]

@[simp] theorem sendAssign_mem (c : Ctx) (dest : Nat) (failover : Bool) (s : State) : (sendAssign c dest failover s).mem = s.mem := by
  simp [sendAssign]

@[simp] theorem tryAssign_mem (idx : Nat) (s : State) : (tryAssign idx s).mem = s.mem := by
  unfold tryAssign
  dsimp only
  (repeat' split) <;> simp

@[simp] theorem sendTokenSegs_mem (c : Ctx) (dest cls mtype : Nat) (s : State) : (sendTokenSegs c dest cls mtype s).mem = s.mem := by
  simp [sendTokenSegs]

@[simp] theorem sendProfile_mem (c : Ctx) (dest cls mtype : Nat) (s : State) : (sendProfile c dest cls mtype s).mem = s.mem := by
  simp [sendProfile]

@[simp] theorem freeProfiles_mem (s : State) : (freeProfiles s).mem = s.mem := by rfl

@[simp] theorem updShip_mem (idx : Nat) (g : Ship → Ship) (s : State) : (updShip idx g s).mem = s.mem := by rfl

@[simp] theorem sendOffer_mem (c : Ctx) (id dest : Nat) (s : State) : (sendOffer c id dest s).mem = s.mem := by simp [sendOffer]

@[simp] theorem offerTo_mem (idx : Nat) (refused : List Nat) (s : State) : (offerTo idx refused s).mem = s.mem := by
  unfold offerTo
  dsimp only
  split
  · rfl
  · split <;> simp

@[simp] theorem tryOffer_mem (idx : Nat) (s : State) : (tryOffer idx s).mem = s.mem := by
  unfold tryOffer
  split <;> simp

@[simp] theorem shipPage_mem (c : Ctx) (m : Ship) (page k : Nat) (s : State) : (shipPage c m page k s).mem = s.mem := by
  unfold shipPage
  dsimp only
  split <;> simp

@[simp] theorem shipColumn_mem (idx : Nat) (s : State) : (shipColumn idx s).mem = s.mem := by
  unfold shipColumn
  split <;> simp

@[simp] theorem shipReady_mem (idx n : Nat) (s : State) : (shipReady idx n s).mem = s.mem := by
  induction n generalizing s with
  | zero => rfl
  | succ n ih =>
    unfold shipReady
    split
    · dsimp only
      repeat' split
      all_goals simp [ih]
    · rfl

@[simp] theorem shipOn_mem (idx : Nat) (s : State) : (shipOn idx s).mem = s.mem := by simp [shipOn]

@[simp] theorem unship_mem (idx : Nat) (s : State) : (unship idx s).mem = s.mem := by rfl

@[simp] theorem abandonOut_mem (idx : Nat) (s : State) : (abandonOut idx s).mem = s.mem := by
  unfold abandonOut
  split <;> simp

@[simp] theorem abandonIn_mem (idx : Nat) (s : State) : (abandonIn idx s).mem = s.mem := by
  unfold abandonIn
  dsimp only
  split <;> simp

@[simp] theorem sendAbort_mem (c : Ctx) (m : Ship) (reason : Nat) (s : State) : (sendAbort c m reason s).mem = s.mem := by
  simp [sendAbort]

@[simp] theorem sendView_mem (s : State) : (sendView s).mem = s.mem := by simp [sendView]

@[simp] theorem poolChanged_mem (s : State) : (poolChanged s).mem = s.mem := by simp [poolChanged]

/-! ### Jasper -/

@[simp] theorem countRow_mem (f : Nat) (logits : List (BitVec 32)) (s : State) : (countRow f logits s).mem = s.mem :=
  onlyIf_mem rfl

@[simp] theorem draftRow_mem (idx x q : Nat) (logits : List (BitVec 32)) (c : Ctx) (s : State) :
    (draftRow idx x q logits c s).mem = s.mem := by simp [draftRow]

/-! ### Mica -/

@[simp] theorem loseColumn_mem (idx col : Nat) (s : State) : (loseColumn idx col s).mem = s.mem := by
  unfold loseColumn
  split <;> simp

@[simp] theorem crcFail_mem (c : Ctx) (idx col : Nat) (l : List Nat) (s : State) : (crcFail c idx col l s).mem = s.mem := by
  simp [crcFail]

@[simp] theorem setGmap_mem (f : Nat) (m : Gmap) (s : State) : (setGmap f m s).mem = s.mem := by rfl

/-! ### OpsStep -/

@[simp] theorem revivePage_mem (k : Nat) (s : State) : (revivePage k s).mem = s.mem := by
  unfold revivePage
  split <;> simp

@[simp] theorem reviveFrom_mem (prep : List Nat) (idx n c : Nat) (s : State) : (reviveFrom prep idx n c s).2.2.mem = s.mem := by
  induction n generalizing c s with
  | zero => rfl
  | succ n ih =>
    unfold reviveFrom
    dsimp only
    repeat' split
    all_goals simp [ih]

@[simp] theorem restore_mem (prep : List Nat) (idx : Nat) (s : State) : (restore prep idx s).2.mem = s.mem := by
  unfold restore
  split
  · rfl
  · split
    · rfl
    · dsimp only
      repeat' split
      all_goals simp

@[simp] theorem restoreAll_mem (prep l : List Nat) (s : State) : (restoreAll prep l s).2.mem = s.mem := by
  induction l generalizing s with
  | nil => rfl
  | cons i r ih =>
    unfold restoreAll
    dsimp only
    split <;> simp [ih]

@[simp] theorem fitBatch_mem (kind : StepKind) (n : Nat) (l : List Nat) (s : State) : (fitBatch kind n l s).2.mem = s.mem := by
  induction n generalizing l s with
  | zero => rfl
  | succ n ih =>
    cases l with
    | nil => rfl
    | cons i r =>
      unfold fitBatch
      dsimp only
      repeat' split
      all_goals simp [ih]

@[simp] theorem dropOverBudget_mem (kind : StepKind) (l : List StepReq) (s : State) : (dropOverBudget kind l s).2.mem = s.mem := by
  simp [dropOverBudget]

@[simp] theorem boundary_mem (s : State) : (boundary s).mem = s.mem := by simp [boundary]

@[simp] theorem queueSeal_mem (key : Nat) (s : State) : (queueSeal key s).mem = s.mem := by rfl

@[simp] theorem commitTo_mem (idx upTo : Nat) (cols : List Nat) (s : State) : (commitTo idx upTo cols s).mem = s.mem := by
  simp [commitTo]

@[simp] theorem giveTokens_mem (idx room : Nat) (ts : List Nat) (s : State) : (giveTokens idx room ts s).mem = s.mem := by
  unfold giveTokens
  dsimp only
  split
  · rfl
  · split <;> simp

/-! ### OpsRx -/

@[simp] theorem badServe_mem (tag : BitVec 32) (s : State) : (badServe tag s).mem = s.mem := by rfl

@[simp] theorem badFab_mem (s : State) : (badFab s).mem = s.mem := by rfl

@[simp] theorem withCtx_mem {o : Option Nat} {tag : BitVec 32} {g : Nat → Ctx → State → State} {s : State}
    (h : ∀ i c, (g i c s).mem = s.mem) : (withCtx o tag g s).mem = s.mem := by
  unfold withCtx
  split
  · rfl
  · split
    · rfl
    · split
      · exact h _ _
      · rfl

@[simp] theorem rxPoolView_mem (src : Nat) (b : Bytes) (s : State) : (rxPoolView src b s).mem = s.mem := by simp [rxPoolView]

@[simp] theorem rxAdvert_mem (src : Nat) (b : Bytes) (s : State) : (rxAdvert src b s).mem = s.mem := by simp [rxAdvert]

@[simp] theorem addCtx_mem (c : Ctx) (s : State) : (addCtx c s).mem = s.mem := by rfl

@[simp] theorem takeAssign_mem (src : Nat) (tag : BitVec 32) (b : Bytes) (s : State) : (takeAssign src tag b s).mem = s.mem := by
  simp [takeAssign]

@[simp] theorem rxAssign_mem (src : Nat) (tag : BitVec 32) (b : Bytes) (s : State) : (rxAssign src tag b s).mem = s.mem := by
  simp [rxAssign]

@[simp] theorem retryAssigns_mem (s : State) : (retryAssigns s).mem = s.mem := by simp [retryAssigns]

@[simp] theorem rxAssignAck_mem (src : Nat) (tag : BitVec 32) (b : Bytes) (s : State) : (rxAssignAck src tag b s).mem = s.mem := by
  simp [rxAssignAck]

@[simp] theorem rxTokenSeg_mem (src : Nat) (tag : BitVec 32) (b : Bytes) (s : State) : (rxTokenSeg src tag b s).mem = s.mem := by
  simp [rxTokenSeg]

@[simp] theorem rxProfileSeg_mem (b : Bytes) (s : State) : (rxProfileSeg b s).mem = s.mem := by simp [rxProfileSeg]

@[simp] theorem rxTokens_mem (src : Nat) (tag : BitVec 32) (b : Bytes) (s : State) : (rxTokens src tag b s).mem = s.mem := by
  simp [rxTokens]

@[simp] theorem rxCancel_mem (src : Nat) (tag : BitVec 32) (b : Bytes) (s : State) : (rxCancel src tag b s).mem = s.mem := by
  simp [rxCancel]

@[simp] theorem rxShipOffer_mem (src : Nat) (tag : BitVec 32) (b : Bytes) (s : State) : (rxShipOffer src tag b s).mem = s.mem := by
  unfold rxShipOffer
  split
  · simp
  · extract_lets handle id home n target draft digest answer refuse u old take put
    have hrefuse (r : Nat) (t : State) : (refuse r t).mem = t.mem := by simp [refuse, answer]
    have hu : u.mem = s.mem := by
      unfold u
      split
      · split <;> simp
      · rfl
    have hroom : (roomFor n [] u).2.mem = s.mem := (roomFor_mem n [] u).trans hu
    split
    · exact (hrefuse 3 u).trans hu
    · split
      · exact (hrefuse 1 u).trans hu
      · dsimp only
        split
        · exact (hrefuse 2 _).trans hroom
        · clear_value old
          cases old <;> dsimp only <;> split <;> simp [answer, hu]

@[simp] theorem rxShipAccept_mem (src : Nat) (tag : BitVec 32) (b : Bytes) (s : State) : (rxShipAccept src tag b s).mem = s.mem := by
  simp [rxShipAccept]

@[simp] theorem rxShipRefuse_mem (src : Nat) (tag : BitVec 32) (b : Bytes) (s : State) : (rxShipRefuse src tag b s).mem = s.mem := by
  simp [rxShipRefuse]

@[simp] theorem rxShipEnd_mem (src : Nat) (tag : BitVec 32) (b : Bytes) (s : State) : (rxShipEnd src tag b s).mem = s.mem := by
  unfold rxShipEnd
  split
  · simp
  · refine withCtx_mem fun i c => ?_
    split
    · rfl
    · split <;> simp

@[simp] theorem rxShipDone_mem (src : Nat) (tag : BitVec 32) (b : Bytes) (s : State) : (rxShipDone src tag b s).mem = s.mem := by
  unfold rxShipDone
  split
  · simp
  · refine withCtx_mem fun i c => ?_
    split
    · rfl
    · split
      · rfl
      · split <;> simp

@[simp] theorem endShipped_mem (i : Nat) (c : Ctx) (reason : Nat) (s : State) : (endShipped i c reason s).mem = s.mem := by
  simp [endShipped]

@[simp] theorem rxShipAbort_mem (src : Nat) (tag : BitVec 32) (b : Bytes) (s : State) : (rxShipAbort src tag b s).mem = s.mem := by
  unfold rxShipAbort
  dsimp only
  split
  · rfl
  · split <;> simp

/-! ### OpsWeights -/

@[simp] theorem completeLoad_mem (l : Load) (st : Status) (h : Nat) (r : BitVec 320) (s : State) :
    (completeLoad l st h r s).mem = s.mem := by simp [completeLoad]

@[simp] theorem failLoad_mem (l : Load) (st : Status) (reason detail : Nat) (s : State) :
    (failLoad l st reason detail s).mem = s.mem := by simp [failLoad]

@[simp] theorem handleTo_mem (l : Load) (k : Nat) (attached : Bool) (s : State) : (handleTo l k attached s).mem = s.mem := by
  simp [handleTo]

@[simp] theorem putLoad_mem (l m : Load) (s : State) : (putLoad l m s).mem = s.mem := by rfl

@[simp] theorem updCopy_mem (k : Nat) (g : Copy → Copy) (s : State) : (updCopy k g s).mem = s.mem := by rfl

@[simp] theorem addCopy_mem (c : Copy) (s : State) : (addCopy c s).2.mem = s.mem := by rfl

@[simp] theorem forwardChunk_mem (l : Load) (c : Nat) (plain : Bytes) (s : State) : (forwardChunk l c plain s).mem = s.mem := by
  unfold forwardChunk
  split <;> simp

@[simp] theorem sendLoadEnd_mem (f id : Nat) (members : List Nat) (keep : Bool) (s : State) :
    (sendLoadEnd f id members keep s).mem = s.mem := by simp [sendLoadEnd]

@[simp] theorem finishModel_mem (l : Load) (s : State) : (finishModel l s).mem = s.mem := by
  unfold finishModel
  (repeat' split) <;> simp

@[simp] theorem updRod_mem (id src : Nat) (g : RodLoad → RodLoad) (s : State) : (updRod id src g s).mem = s.mem := by rfl

@[simp] theorem reportLoad_mem (r : RodLoad) (st : Status) (reason chunks : Nat) (s : State) :
    (reportLoad r st reason chunks s).mem = s.mem := by simp [reportLoad]

/-! ### OpsRod -/

@[simp] theorem rxLoadBegin_mem (src : Nat) (b : Bytes) (s : State) : (rxLoadBegin src b s).mem = s.mem := by simp [rxLoadBegin]

@[simp] theorem damageCopy_mem (k : Nat) (s : State) : (damageCopy k s).mem = s.mem := by simp [damageCopy]

@[simp] theorem repairsLost_mem (s : State) : (repairsLost s).mem = s.mem := by simp [repairsLost]

@[simp] theorem loseChunk_mem (k chunk : Nat) (s : State) : (loseChunk k chunk s).mem = s.mem := by
  unfold loseChunk
  dsimp only
  (repeat' split) <;> simp

@[simp] theorem rxRepairReq_mem (src : Nat) (b : Bytes) (s : State) : (rxRepairReq src b s).mem = s.mem := by
  unfold rxRepairReq
  split
  · simp
  · dsimp only
    split
    · rfl
    · exact forEach_mem fun _ t => sendMsg_mem ..

@[simp] theorem rxPartial_mem (reduce : Bool) (src : Nat) (b : Bytes) (s : State) : (rxPartial reduce src b s).mem = s.mem := by
  simp [rxPartial]

/-! ### Hbm -/

@[simp] theorem updStack_mem (h : Nat) (g : Hbm → Hbm) (s : State) : (updStack h g s).mem = s.mem := by rfl

@[simp] theorem stackTemp_mem (h : Nat) (v : Int) (s : State) : (stackTemp h v s).mem = s.mem := by simp [stackTemp]

@[simp] theorem weightUe_mem (a : Nat) (s : State) : (weightUe a s).mem = s.mem := by
  unfold weightUe
  dsimp only
  split
  · rfl
  · split <;> simp

/-! ### ConfigSpace -/

@[simp] theorem configSet_mem (f reg : Nat) (v : BitVec 32) (s : State) : (configSet f reg v s).mem = s.mem := by simp [configSet]

/-! ### HostLink -/

/-- No field that a register write reaches is device memory. -/
structure writesNoMem (o : Option (BitVec 32 → State → State)) : Prop where
  mem : ∀ w, o = some w → ∀ v s, (w v s).mem = s.mem

theorem writesNoMem.none : writesNoMem none := ⟨nofun⟩

theorem writesNoMem.some {w : BitVec 32 → State → State} (h : ∀ v s, (w v s).mem = s.mem) : writesNoMem (some w) :=
  ⟨fun _ hw => Option.some.inj hw ▸ h⟩

theorem writesNoMem.ite {c : Prop} [Decidable c] {a b : Option (BitVec 32 → State → State)} (ha : writesNoMem a)
    (hb : writesNoMem b) : writesNoMem (if c then a else b) := by
  split
  · exact ha
  · exact hb

/-- The registers one by one, those of a ring pair apart (R40). -/
theorem regWriter_writesNoMem (f : Nat) (bar4 : Bool) (off : Nat) : writesNoMem (regWriter f bar4 off) := by
  unfold regWriter
  refine .ite (.ite (.some ?_) .none) <| .ite (.ite (.some ?_) .none) <| .ite (.some ?_) <| .ite (.some ?_) <| .ite (.some ?_) <|
    .ite (.some ?_) <| .ite (.some ?_) <| .ite (.some ?_) <| .ite ?ring <| .ite (.ite (.some ?_) (.some ?_)) <| .ite (.some ?_) <|
    .ite (.some ?_) <| .ite (.some ?_) <| .ite (.some ?_) .none
  case ring =>
    dsimp only
    split
    · exact .some (by simp)
    · exact .ite (.some (by simp)) .none
    · exact .ite (.some (by simp)) .none
    · exact .ite (.some (by simp)) .none
    · exact .ite (.some (by simp)) .none
    · exact .ite (.some (by simp)) .none
    · exact .none
  all_goals simp

@[simp] theorem regWrite_mem (f : Nat) (bar4 : Bool) (off : Nat) (size64 : Bool) (v : BitVec 64) (s : State) :
    (regWrite f bar4 off size64 v s).mem = s.mem := by
  have hw (o : Nat) {w : BitVec 32 → State → State} (h : regWriter f bar4 o = some w) (v : BitVec 32) (t : State) :
      (w v t).mem = t.mem := (regWriter_writesNoMem f bar4 o).mem w h v t
  unfold regWrite
  refine mem_ite_eq rfl <| mem_ite_eq ?narrow <| mem_ite_eq (by simp) <| mem_ite_eq rfl <| mem_ite_eq rfl ?wide
  case narrow =>
    split
    · rfl
    · next w h => exact hw off h _ s
  case wide =>
    split
    · rfl
    · next a h _ => exact hw off h _ s
    · next b _ h => exact hw (off + 4) h _ s
    · next a b ha hb => exact (hw (off + 4) hb _ _).trans (hw off ha _ s)

@[simp] theorem admitLine_mem (line : Nat) (s : State) : (admitLine line s).mem = s.mem := by
  unfold admitLine
  dsimp only
  split
  · rfl
  · split <;> simp

@[simp] theorem answerSnoop_mem (k : SnoopKind) (line : Nat) (s : State) : (answerSnoop k line s).mem = s.mem := by
  unfold answerSnoop
  split
  · rfl
  · split <;> simp

/-! ### Training -/

@[simp] theorem selfWired_mem (p : Nat) (s : State) : (selfWired p s).mem = s.mem := by simp [selfWired]

@[simp] theorem takeTs1_mem (p : Nat) (sets : List (Fin 8 × OrdSet)) (s : State) : (takeTs1 p sets s).mem = s.mem := by
  unfold takeTs1
  dsimp only
  split <;> simp

@[simp] theorem leadMode_mem (p : Nat) (s : State) : (leadMode p s).mem = s.mem := by
  unfold leadMode
  dsimp only
  split <;> simp

@[simp] theorem followReq_mem (p : Nat) (o : OrdSet) (s : State) : (followReq p o s).mem = s.mem := by simp [followReq]

@[simp] theorem narrow_mem (p : Nat) (s : State) : (narrow p s).mem = s.mem := by
  unfold narrow
  dsimp only
  split <;> simp

@[simp] theorem stageDone_mem (p : Nat) (pass : BitVec 8) (delay : Nat) (s : State) : (stageDone p pass delay s).mem = s.mem := by
  unfold stageDone
  dsimp only
  split <;> simp

@[simp] theorem rxLinkReq_mem (p request target cause : Nat) (s : State) : (rxLinkReq p request target cause s).mem = s.mem := by
  simp [rxLinkReq]

/-! ### Links -/

@[simp] theorem updOrder_mem (k : Nat) (g : MsgOrder → MsgOrder) (s : State) : (updOrder k g s).mem = s.mem := by rfl

@[simp] theorem rxLink_mem (p : Nat) (b : Bytes) (s : State) : (rxLink p b s).mem = s.mem := by
  unfold rxLink
  split
  · rfl
  · split <;> simp

@[simp] theorem oweCredits_mem (p vc n : Nat) (s : State) : (oweCredits p vc n s).mem = s.mem := by rfl

@[simp] theorem resend_mem (p : Nat) (s : State) : (resend p s).mem = s.mem := by
  unfold resend
  exact forEach_mem fun _ _ => rfl

@[simp] theorem takeAck_mem (p : Nat) (ack : BitVec 16) (nak : Bool) (credVc credits : Nat) (s : State) :
    (takeAck p ack nak credVc credits s).mem = s.mem := by simp [takeAck]

/-! ### Mailbox -/

@[simp] theorem write_mem (c : Cmd) (addr : Nat) (b : Bytes) (s : State) : (Cmd.write c addr b s).mem = s.mem := by
  unfold Cmd.write
  split <;> simp

/-! ### Sideband -/

@[simp] theorem takePins_mem (i : Jtag) (s : State) : (takePins i s).mem = s.mem := by simp [takePins]

@[simp] theorem leavePins_mem (i : Jtag) (s : State) : (leavePins i s).mem = s.mem := by rfl

/-! ### Topology -/

@[simp] theorem shipsLost_mem (s : State) : (shipsLost s).mem = s.mem := by simp [shipsLost]

/-! ### Weights -/

@[simp] theorem beginLoad_mem (c : Cmd) (kind : LoadKind) (key : Nat) (bit : Nat) (header : Bytes) (src length : Nat)
    (tier share spread : Bool) (s : State) :
    (beginLoad c kind key bit header src length tier share spread s).mem = s.mem := by
  unfold beginLoad
  split <;> simp

/-! ### Tick -/

@[simp] theorem tick_mem (s : State) : (tick s).mem = s.mem := by
  unfold tick
  dsimp only
  split <;> rfl

end Sys2Proof.Proofs
end

section
/-! PROOFS of the canonical form of memory: each operation that writes cells keeps strictly rising addresses and no byte that reads as an
unlisted one. -/

namespace Sys2Proof.Proofs

open Sys2Proof.Machine Sys2Proof.Safety Sys2Proof.Laws

@[simp] theorem memOk_iff (s : State) : memOk s ↔ Memory.wf s.mem = true := Iff.rfl

theorem memOk_of_eq {s t : State} (e : t.mem = s.mem) (h : memOk s) : memOk t := by simpa [e] using h

@[simp] theorem wf_ite (c : Prop) [Decidable c] (a b : List Host.Cell) :
    Memory.wf (if c then a else b) = if c then Memory.wf a else Memory.wf b := apply_ite Memory.wf c a b

theorem forEach_memOk {α : Type} {l : List α} {f : α → State → State} {s : State} (hf : ∀ x t, memOk t → memOk (f x t))
    (h : memOk s) : memOk (forEach l f s) :=
  forEach_rel (R := fun a b => memOk a → memOk b) (fun _ h => h) (fun h k ha => k (h ha)) l f hf s h

theorem foldl_wf {α : Type} {l : List α} {f : List Host.Cell → α → List Host.Cell} {m : List Host.Cell}
    (hf : ∀ m x, Memory.wf m = true → Memory.wf (f m x) = true) (h : Memory.wf m = true) : Memory.wf (l.foldl f m) = true :=
  List.foldlRecOn l f h fun m hm x _ => hf m x hm

theorem foldl_snd_memOk {α β : Type} {l : List α} {f : β × State → α → β × State} {a : β × State}
    (hf : ∀ a x, memOk a.2 → memOk (f a x).2) (h : memOk a.2) : memOk (l.foldl f a).2 :=
  List.foldlRecOn (motive := fun a => memOk a.2) l f h fun a ha x _ => hf a x ha

/-! ### Granules and units -/

@[simp] theorem takeGrans_memOk {n : Nat} {owner : Tag} {zeroing : Bool} {s : State} (h : memOk s) :
    memOk (takeGrans n owner zeroing s).2 := by
  have hclear (l : List Nat) : Memory.wf (l.foldl (fun m g =>
      if sameOwner (s.granOwner g) owner then m else memClear m (4096 * g) 4096) s.mem) = true := by
    refine foldl_wf (fun m g hm => ?_) h
    split
    · exact hm
    · exact memClear_wf hm
  simp [takeGrans, hclear, h]

@[simp] theorem grantGrans_memOk {n : Nat} {owner : Tag} {zeroing : Bool} {s : State} (h : memOk s) :
    memOk (grantGrans n owner zeroing s).2 := takeGrans_memOk (memOk_of_eq (ensureGrans_mem ..) h)

@[simp] theorem openPage_memOk {idx : Nat} {draft : Bool} {hd : ModelHdr} {layer col : Nat} {s : State} (h : memOk s) :
    memOk (openPage idx draft hd layer col s) := by
  simp [openPage, h]

@[simp] theorem openColumn_memOk {idx col : Nat} {s : State} (h : memOk s) : memOk (openColumn idx col s) := by
  unfold openColumn
  split
  · exact h
  · refine forEach_memOk (fun m t ht => forEach_memOk (fun l u hu => ?_) ht) h
    split
    · exact openPage_memOk hu
    · exact hu

@[simp] theorem moveGran_memOk {g g' : Nat} {s : State} (h : memOk s) : memOk (moveGran g g' s) := by
  simp [moveGran, memWrite_wf, memClear_wf, h]

/-- The state that a grant of units leaves has its memory in canonical form. -/
def grantOk : Grant → Prop
  | .short => True
  | .waits t | .got _ t => memOk t

/-- The granules in the units granted are moved one after another. -/
theorem grantUnits_grantOk {use : UnitUse} {owner : Tag} {n : Nat} {s : State} (h : memOk s) : grantOk (grantUnits use owner n s) := by
  unfold grantUnits
  split
  · trivial
  · extract_lets m us t
    dsimp only
    split
    · simpa [grantOk, t] using h
    · simp only [grantOk, memOk_iff]
      refine filter_wf _ ?_
      apply forEach_memOk
      · intro g u hu
        have htaken : memOk (takeGrans 1 {} false u).2 := takeGrans_memOk hu
        split
        · next heq =>
          rw [heq] at htaken
          exact htaken
        · next heq =>
          rw [heq] at htaken
          exact moveGran_memOk htaken
      · simpa [t] using h

theorem grantUnits_waits_memOk {use : UnitUse} {owner : Tag} {n : Nat} {s t : State} (hg : grantUnits use owner n s = .waits t)
    (h : memOk s) : memOk t := by
  have hok : grantOk (grantUnits use owner n s) := grantUnits_grantOk h
  rwa [hg] at hok

theorem grantUnits_got_memOk {use : UnitUse} {owner : Tag} {n : Nat} {us : List Nat} {s t : State}
    (hg : grantUnits use owner n s = .got us t) (h : memOk s) : memOk t := by
  have hok : grantOk (grantUnits use owner n s) := grantUnits_grantOk h
  rwa [hg] at hok

/-! ### Steps and revocations -/

@[simp] theorem reopenStep_memOk {s : State} (h : memOk s) : memOk (reopenStep s) := by
  refine forEach_memOk (fun r t ht => ?_) h
  split
  · exact ht
  · dsimp only
    split
    · exact forEach_memOk (fun c u hu => openColumn_memOk hu) (memOk_of_eq (roomFor_mem ..) ht)
    · simpa using ht

@[simp] theorem stepRegains_memOk {n : Nat} {s : State} (h : memOk s) : memOk (stepRegains n s) := by
  unfold stepRegains
  split
  · exact h
  · split
    · exact h
    · dsimp only
      split
      · simp [h]
      · exact h

@[simp] theorem revokeNow_memOk {p cause : Nat} {s : State} (h : memOk s) : memOk (revokeNow p cause s) := by
  have hccc (n : Nat) (t : State) (ht : memOk t) : memOk (if (t.proc p).state = .faulted then stepRegains n t else t) := by
    split
    · exact stepRegains_memOk ht
    · exact ht
  unfold revokeNow
  dsimp only
  rw [memOk_iff, mem_ite, procEvent_mem, ite_self]
  split
  · simpa using h
  · refine hccc _ _ ?_
    split <;> simpa using h
  · exact h

@[simp] theorem revoke_memOk {p cause : Nat} {s : State} (h : memOk s) : memOk (revoke p cause s) := by
  simp [revoke, h]

@[simp] theorem revokeFaulty_memOk {p cause : Nat} {s : State} (h : memOk s) : memOk (revokeFaulty p cause s) := by
  simp [revokeFaulty, h]

@[simp] theorem procFault_memOk {p cause : Nat} {s : State} (h : memOk s) : memOk (procFault p cause s) := by
  simp [procFault, h]

@[simp] theorem rollBack_memOk {p : Nat} {fault : Bool} {s : State} (h : memOk s) : memOk (rollBack p fault s) := by
  simp [rollBack, h]

@[simp] theorem cccReset_memOk {n : Nat} {s : State} (h : memOk s) : memOk (cccReset n s) := by
  simp [cccReset, h]

@[simp] theorem islandReset_memOk {s : State} (h : memOk s) : memOk (islandReset s) := memOk_of_eq (islandReset_keepsContents s).1.mem h

theorem wholeReset_memOk (s : State) : memOk (wholeReset s) := rfl

@[simp] theorem brownReset_memOk {d : Nat} {s : State} (h : memOk s) : memOk (brownReset d s) := memOk_of_eq (brownReset_keeps d s).2.1 h

@[simp] theorem nextTarget_memOk {s : State} (h : memOk s) : memOk (nextTarget s) := by
  unfold nextTarget
  split
  · exact h
  · split
    · simpa using h
    · simp [h]

@[simp] theorem clusterUp_memOk {n : Nat} {s : State} (h : memOk s) : memOk (clusterUp n s) := by
  have hback (l : List Nat) : memOk (forEach l stepRegains (setReady (rCl n) true s)) :=
    forEach_memOk (fun _ _ ht => stepRegains_memOk ht) (by simpa using h)
  simp [clusterUp, h, hback]

@[simp] theorem schUp_memOk {s : State} (h : memOk s) : memOk (schUp s) := by
  have hup (l : List Nat) (t : State) (ht : memOk t) :
      memOk (forEach l (fun n t => if (t.proc (agCcc n)).state = .running then clusterUp n t else t) t) :=
    forEach_memOk (fun n u hu => by simp [hu]) ht
  simp [schUp, h, hup]

@[simp] theorem secUp_memOk {reset : Bool} {s : State} (h : memOk s) : memOk (secUp reset s) := by
  refine forEach_memOk (fun p t ht => by simp [ht]) ?_
  simp [h]

@[simp] theorem faultOf_memOk {p cause : Nat} {s : State} (h : memOk s) : memOk (faultOf p cause s) := by
  simp [faultOf, h]

/-! ### Writes to device memory -/

@[simp] theorem store_memOk {a : Nat} {b : Bytes} {s : State} (h : memOk s) : memOk (Machine.store a b s) := store_wf h

@[simp] theorem zero_memOk {a n : Nat} {s : State} (h : memOk s) : memOk (Machine.zero a n s) := zero_wf h

@[simp] theorem writeUnit_memOk {x : Spaces} {space off : Nat} {acc : Bool} {v : Unit64} {sc : Option (BitVec 32)} {s : State}
    (h : memOk s) : memOk (writeUnit x space off acc v sc s) := by
  unfold writeUnit
  dsimp only
  split
  · split
    · simp [h]
    · simpa using h
  · split
    · cases sc <;> simp [h]
    · split
      · exact h
      · simp [h]

@[simp] theorem moveUnit_memOk {x : Spaces} {d : Desc} {n : Nat} {s : State} (h : memOk s) : memOk (moveUnit x d n s) := by
  unfold moveUnit
  dsimp only
  split
  · exact h
  · split
    · split <;> simp [h]
    · simp [h]

@[simp] theorem transfer_memOk {k : Nat} {v : BitVec 512} {s : State} (h : memOk s) : memOk (transfer k v s) := by
  have hunits (x : Spaces) (d : Desc) (l : List Nat) (t : State) (ht : memOk t) : memOk (forEach l (moveUnit x d) t) :=
    forEach_memOk (fun _ _ hu => moveUnit_memOk hu) ht
  unfold transfer
  split
  · exact h
  · dsimp only
    split
    · simpa using h
    · simp [hunits, h]

@[simp] theorem bufWrite_memOk {units : List Nat} {off : Nat} {b : Bytes} {s : State} (h : memOk s) :
    memOk (bufWrite units off b s) := by
  refine forEach_memOk (fun x t ht => ?_) h
  dsimp only
  split
  · exact store_memOk ht
  · exact ht

@[simp] theorem regionWrite_memOk {units : List Nat} {off : Nat} {b : Bytes} {s : State} (h : memOk s) :
    memOk (regionWrite units off b s) := by
  refine forEach_memOk (fun x t ht => ?_) h
  dsimp only
  split
  · exact store_memOk ht
  · exact ht

@[simp] theorem writeChunk_memOk {k chunk : Nat} {plain : Bytes} {s : State} (h : memOk s) : memOk (writeChunk k chunk plain s) := by
  unfold writeChunk
  split
  · exact h
  · exact forEach_memOk (fun _ _ ht => regionWrite_memOk ht) h

@[simp] theorem spendChunk_memOk {l : Load} {c : Nat} {plain : Bytes} {s : State} (h : memOk s) : memOk (spendChunk l c plain s) := by
  simp [spendChunk, h]

@[simp] theorem writeGrans_memOk {l : List Nat} {b : Bytes} {s : State} (h : memOk s) : memOk (writeGrans l b s) :=
  forEach_memOk (fun _ _ ht => store_memOk ht) h

@[simp] theorem writeRow_memOk {hd : ModelHdr} {f : Nat} {grans : List Nat} {j : Nat} {kv scales : Bytes} {s : State} (h : memOk s) :
    memOk (writeRow hd f grans j kv scales s) := by
  have hrow (l : List (Nat × Nat)) :
      memOk (forEach l (fun (u, i) t => Machine.store (unitAddr grans u) (fit 64 (slice kv (64 * i) 64)) t) s) :=
    forEach_memOk (fun _ _ ht => store_memOk ht) h
  unfold writeRow
  dsimp only
  split
  · exact hrow _
  · simpa using hrow _

/-! ### Tasks -/

@[simp] theorem startTask_memOk {n : Nat} {t : Task} {p : Program} {pl : Place} {s : State} (h : memOk s) :
    memOk (startTask n t p pl s) := by
  refine forEach_memOk (fun b u hu => ?_) ?_
  · dsimp only
    rw [memOk_iff, updStore_mem]
    split
    · exact hu
    · exact zero_memOk hu
  · exact forEach_memOk (fun _ _ ht => ht) (forEach_memOk (fun _ _ ht => ht) (forEach_memOk (fun _ _ ht => ht) h))

@[simp] theorem outRecord_memOk {r : Run} {neuron : Nat} {s : State} (h : memOk s) : memOk (outRecord r neuron s).2 := by
  unfold outRecord
  dsimp only
  split
  · simpa using h
  · split
    · simpa using h
    · simp [h]

@[simp] theorem closeStep_memOk {r : Run} {g : Net} {s : State} (h : memOk s) : memOk (closeStep r g s).2 := by
  have hneuron (a : Run × State) (n : Neuron) (k : Nat) (ha : memOk a.2) :
      memOk (if n.wake then wake r.fn n.wline (if n.output then outRecord a.1 k a.2 else a).2
        else (if n.output then outRecord a.1 k a.2 else a).2) := by
    simp [apply_ite Prod.snd, ha]
  unfold closeStep
  dsimp only
  rw [apply_ite Prod.snd, memOk_iff, mem_ite, endRun_mem, ite_self, putRun_mem]
  refine foldl_snd_memOk (fun a k ha => ?_) (by simpa using h)
  split
  · exact ha
  · exact hneuron a _ k ha

@[simp] theorem closeSteps_memOk {g : Net} {net n : Nat} {room : Tab Nat} {r : Run} {s : State} (h : memOk s) :
    memOk (closeSteps g net n room r s) := by
  induction n generalizing room r s with
  | zero => exact h
  | succ n ih =>
    have hclose : memOk (closeStep r g s).2 := closeStep_memOk h
    unfold closeSteps
    split
    · exact h
    · dsimp only
      split
      · split
        · next heq =>
          rw [heq] at hclose
          exact ih hclose
        · next heq =>
          rw [heq] at hclose
          exact hclose
      · simpa using h

/-! ### Pages and steps -/

@[simp] theorem switchPage_memOk {key : Nat} {l : List Nat} {hd : ModelHdr} {s : State} (h : memOk s) :
    memOk (switchPage key l hd s) := by
  unfold switchPage
  dsimp only
  split
  · split
    · simpa using h
    · simp [h]
  · exact h

@[simp] theorem openShare_memOk {r : StepReq} {s : State} (h : memOk s) : memOk (openShare r s).2 :=
  forEach_memOk (fun _ _ ht => openColumn_memOk ht) h

@[simp] theorem startStep_memOk {kind : StepKind} {l : List (Nat × Ctx)} {s : State} (h : memOk s) : memOk (startStep kind l s) := by
  unfold startStep
  split
  · exact h
  · split
    · exact h
    · dsimp only
      split
      · simpa using h
      · exact forEach_memOk (fun _ _ ht => memOk_of_eq (updCtx_mem ..) ht) (foldl_snd_memOk (fun a r ha => openShare_memOk ha) (by simpa using h))

@[simp] theorem buildStep_memOk {s : State} (h : memOk s) : memOk (buildStep s) := by
  simp [buildStep, h]

@[simp] theorem writeRows_memOk {st : Step} {rows : List PageRow} {s : State} (h : memOk s) : memOk (writeRows st rows s) := by
  refine forEach_memOk (fun w t ht => ?_) h
  split
  · split
    · exact ht
    · dsimp only
      split
      · split
        · exact writeRow_memOk ht
        · exact ht
      · exact ht
  · exact ht

@[simp] theorem copyRow_memOk {idx src dst : Nat} {c : Ctx} {s : State} (h : memOk s) : memOk (copyRow idx src dst c s) := by
  refine forEach_memOk (fun m t ht => forEach_memOk (fun l u hu => ?_) ht) h
  dsimp only
  split
  · exact writeRow_memOk hu
  · exact hu

@[simp] theorem endShare_memOk {kind : StepKind} {r : StepReq} {s : State} (h : memOk s) : memOk (endShare kind r s) := by
  unfold endShare
  split
  · exact h
  · next c _ =>
    dsimp only
    cases kind with
    | prefill => simp [h]
    | decode =>
      have hcopy (l : List (Nat × Nat)) : memOk (forEach l (fun (p, k) t =>
          if p = k + 1 then t else copyRow r.idx (r.pos + p) (r.pos + k + 1) c t) s) :=
        forEach_memOk (fun x t ht => by simp [ht]) h
      simp [hcopy]

@[simp] theorem endStep_memOk {st : Step} {rows : List PageRow} {s : State} (h : memOk s) : memOk (endStep st rows s) := by
  unfold endStep
  dsimp only
  rw [memOk_iff, freeProfiles_mem, pauseBoundary_mem, forEach_mem fun _ _ => dropCopy_mem .., forEach_mem fun _ _ => by simp]
  refine forEach_memOk (fun r t ht => ?_) (forEach_memOk (fun _ _ ht => endShare_memOk ht) ?_)
  · split
    · simpa using ht
    · exact ht
  · rw [memOk_iff, forEach_mem closeUnused_mem, updServe_mem]
    exact writeRows_memOk (forEach_memOk (fun _ _ ht => ht) h)

/-! ### Pages shipped -/

@[simp] theorem takePage_memOk {i : Nat} {c : Ctx} {hd : ModelHdr} {draft coded : Bool} {layer col fill ngran : Nat} {data : Bytes}
    {s : State} (h : memOk s) : memOk (takePage i c hd draft coded layer col fill ngran data s) := by
  simp [takePage, h]

theorem withCtx_memOk {o : Option Nat} {tag : BitVec 32} {g : Nat → Ctx → State → State} {s : State}
    (hg : ∀ i c, memOk (g i c s)) (h : memOk s) : memOk (withCtx o tag g s) := by
  unfold withCtx
  split
  · exact h
  · split
    · exact h
    · split
      · exact hg _ _
      · exact h

@[simp] theorem rxShipPage_memOk {src : Nat} {tag : BitVec 32} {b : Bytes} {s : State} (h : memOk s) : memOk (rxShipPage src tag b s) := by
  unfold rxShipPage
  dsimp only
  split
  · simpa using h
  · refine withCtx_memOk (fun i c => ?_) h
    split
    · simp [h]
    · exact h

/-! ### Loads -/

/-- The state that the placing of a load leaves has its memory in canonical form. -/
def placingOk : Placing → Prop
  | .refused .. => True
  | .waits t | .done _ t => memOk t

theorem placeHere_placingOk {l : Load} {s : State} (h : memOk s) : placingOk (placeHere l s) := by
  unfold placeHere
  dsimp only
  split
  · trivial
  · split
    · trivial
    · next hg => exact grantUnits_waits_memOk hg h
    · next us t hg =>
      have ht : memOk t := grantUnits_got_memOk hg h
      exact ht

theorem placeRod_placingOk {l : Load} {s : State} (h : memOk s) : placingOk (placeRod l s) := by
  unfold placeRod
  dsimp only
  split
  · trivial
  · split
    · trivial
    · next hg => exact grantUnits_waits_memOk hg h
    · next t hg =>
      have ht : memOk t := grantUnits_got_memOk hg h
      simpa [placingOk] using ht

@[simp] theorem modelStep_memOk {l : Load} {s : State} (h : memOk s) : memOk (modelStep l s).1 := by
  have hplaced : placingOk (if l.spread then placeRod l s else placeHere l s) := by
    split
    · exact placeRod_placingOk h
    · exact placeHere_placingOk h
  unfold modelStep
  split
  · simpa using h
  · dsimp only
    split
    · simp [h]
    · split
      · simp [h]
      · split
        · simp [h]
        · split
          · simpa using h
          · next heq => rwa [heq] at hplaced
          · next m t heq =>
            have ht : memOk t := by rwa [heq] at hplaced
            have hchunks (l : List Nat) (u : State) (hu : memOk u) :
                memOk (forEach l (fun c t => spendChunk { m with waits := none } c (slice m.plain (65536 * c) 65536) t) u) :=
              forEach_memOk (fun _ _ hv => spendChunk_memOk hv) hu
            simp [hchunks, ht]

@[simp] theorem resumeLoads_memOk {s : State} (h : memOk s) : memOk (resumeLoads s) := by
  refine forEach_memOk (fun l t ht => ?_) h
  split
  · exact ht
  · split
    · simp [ht]
    · simp [ht]

@[simp] theorem finishAdapter_memOk {l : Load} {model : Nat} {s : State} (h : memOk s) : memOk (finishAdapter l model s).1 := by
  obtain ⟨grant, hgrant⟩ : ∃ g, g = grantUnits := ⟨_, rfl⟩
  unfold finishAdapter
  rw [← hgrant]
  split
  · simpa using h
  · split
    · simpa using h
    · extract_lets b n entries size total
      split
      · simpa using h
      · next hg => exact grantUnits_waits_memOk (hgrant ▸ hg) h
      · next us t hg =>
        have ht : memOk t := grantUnits_got_memOk (hgrant ▸ hg) h
        simp [ht]

@[simp] theorem memberStep_memOk {new : Option Nat} {r : RodLoad} {s : State} (h : memOk s) : memOk (memberStep new r s) := by
  obtain ⟨grant, hgrant⟩ : ∃ g, g = grantUnits := ⟨_, rfl⟩
  unfold memberStep
  rw [← hgrant]
  split
  · exact h
  · extract_lets hd tables
    split
    · exact h
    · rename_i b ts ready own _
      have hready (k : Nat) (l : List Nat) (t : State) (ht : memOk t) : memOk (ready k l t) := by
        unfold ready
        have hchunks : memOk (forEach l (fun c t => writeChunk k c ((Tab.find r.got c).getD []) t) t) :=
          forEach_memOk (fun _ _ hu => writeChunk_memOk hu) ht
        extract_lets u
        split
        · exact memOk_of_eq (reportLoad_mem ..) hchunks
        · exact hchunks
      split
      · exact hready _ _ _ h
      · split
        · exact memOk_of_eq (reportLoad_mem ..) h
        · next hg => exact grantUnits_waits_memOk (hgrant ▸ hg) h
        · next us t hg =>
          have ht : memOk t := grantUnits_got_memOk (hgrant ▸ hg) h
          exact hready _ _ _ (memOk_of_eq (updRod_mem ..) ht)

@[simp] theorem rxWeightChunk_memOk {src : Nat} {b : Bytes} {s : State} (h : memOk s) : memOk (rxWeightChunk src b s) := by
  unfold rxWeightChunk
  split
  · simpa using h
  · dsimp only
    split
    · exact h
    · simp [h]

@[simp] theorem rxLoadStatus_memOk {src : Nat} {b : Bytes} {s : State} (h : memOk s) : memOk (rxLoadStatus src b s) := by
  unfold rxLoadStatus
  split
  · simpa using h
  · split
    · exact h
    · split
      · exact h
      · simp [h]

@[simp] theorem loadsLost_memOk {s : State} (h : memOk s) : memOk (loadsLost s) := by
  refine forEach_memOk (fun l t ht => ?_) h
  split
  · exact ht
  · split
    · simp [ht]
    · exact ht

@[simp] theorem rxLoadEnd_memOk {src : Nat} {b : Bytes} {s : State} (h : memOk s) : memOk (rxLoadEnd src b s) := by
  unfold rxLoadEnd
  split
  · simpa using h
  · dsimp only
    split
    · exact h
    · simp [h]

@[simp] theorem lendGrans_memOk {k : Nat} {s : State} (h : memOk s) : memOk (lendGrans k s) := by
  unfold lendGrans
  split
  · exact h
  · refine forEach_memOk (fun g t ht => ?_) h
    have hgrant (owner : Tag) : memOk (grantGrans 1 owner true t).2 := grantGrans_memOk ht
    generalize grantGrans 1 = grant at hgrant ⊢
    dsimp only
    split
    · exact hgrant _
    · simp only [memOk_iff, updStore_mem]
      simp [memWrite_wf, hgrant]

@[simp] theorem rxRepairData_memOk {b : Bytes} {s : State} (h : memOk s) : memOk (rxRepairData b s) := by
  unfold rxRepairData
  split
  · simpa using h
  · dsimp only
    split
    · exact h
    · split
      · exact h
      · split <;> simp [h]

/-! ### Uncorrectable units -/

@[simp] theorem stepUe_memOk {s : State} (h : memOk s) : memOk (stepUe s) := by
  have hint (l : List Nat) (t : State) : (forEach l (fun f => bump f cKvInterrupted) t).mem = t.mem := forEach_mem fun _ _ => rfl
  unfold stepUe
  split
  · exact h
  · simp [hint, h]

@[simp] theorem coreUe_memOk {k count : Nat} {zeroed : Core → Core} {s : State} (h : memOk s) : memOk (coreUe k count zeroed s) := by
  unfold coreUe
  dsimp only
  split
  · exact h
  · exact stepUe_memOk h

@[simp] theorem hbmUe_memOk {a : Nat} {s : State} (h : memOk s) : memOk (hbmUe a s) := by
  simp [hbmUe, h]

/-! ### Functions -/

@[simp] theorem endVfs_memOk {s : State} (h : memOk s) : memOk (endVfs s) := by
  simp [endVfs, h]

/-! ### Messages -/

@[simp] theorem deliver_memOk {m : Msg} {s : State} (h : memOk s) : memOk (deliver m s) := by
  unfold deliver
  dsimp only
  split <;> simp [h]

@[simp] theorem drainHeldMsgs_memOk {k n : Nat} {s : State} (h : memOk s) : memOk (drainHeldMsgs k n s) := by
  induction n generalizing s with
  | zero => exact h
  | succ n ih =>
    unfold drainHeldMsgs
    dsimp only
    split
    · exact h
    · exact ih (deliver_memOk h)

@[simp] theorem skipGap_memOk {k : Nat} {s : State} (h : memOk s) : memOk (skipGap k s) := by
  unfold skipGap
  dsimp only
  split
  · exact h
  · exact drainHeldMsgs_memOk h

@[simp] theorem takeMsg_memOk {m : Msg} {s : State} (h : memOk s) : memOk (takeMsg m s) := by
  simp [takeMsg, h]

@[simp] theorem rxMsgFrame_memOk {p vc : Nat} {b : Bytes} {s : State} (h : memOk s) : memOk (rxMsgFrame p vc b s) := by
  simp [rxMsgFrame, h]

@[simp] theorem rxPayload_memOk {p vc : Nat} {b : Bytes} {s : State} (h : memOk s) : memOk (rxPayload p vc b s) := by
  simp [rxPayload, h]

end Sys2Proof.Proofs
end

section
/-! PROOFS of the canonical form of memory: every meaning keeps it, and with the tick every step (R41, R121, R187, R195). -/

namespace Sys2Proof.Proofs

open Sys2Proof.Machine Sys2Proof.Safety Sys2Proof.Laws

/-! ### Meanings -/

/-- From a state whose memory is in canonical form a meaning answers, if anything, a state whose memory is. -/
def keepsMemOk (s : State) (o : Host.Outcome State Fault Refusal) : Prop := memOk s → ∀ t, o = .next t → memOk t

theorem keepsMemOk_done {s t : State} (h : memOk s → memOk t) : keepsMemOk s (done s t) := by
  rintro hs _ ⟨⟩
  exact h hs

theorem keepsMemOk_self (s : State) : keepsMemOk s (done s s) := keepsMemOk_done id

theorem keepsMemOk_ite {s : State} {p : Prop} [Decidable p] {a b : Host.Outcome State Fault Refusal}
    (ha : keepsMemOk s a) (hb : keepsMemOk s b) : keepsMemOk s (if p then a else b) := by
  split
  · exact ha
  · exact hb

theorem keepsMemOk_live {s t : State} (h : memOk s → memOk t) : keepsMemOk s (live s t) :=
  keepsMemOk_ite (keepsMemOk_self s) (keepsMemOk_done h)

theorem command_keepsMemOk {f op : Nat} {src : Src} {fields : List (Nat × Nat)} {noHandle : Bool} {run : Cmd → State → State} {s : State}
    (hrun : ∀ c t, memOk t → memOk (run c t)) : keepsMemOk s (command f op src fields noHandle run s) := by
  unfold command
  cases src <;> apply_rules only [keepsMemOk_self, keepsMemOk_live, keepsMemOk_ite] <;> (intro h; simp [hrun, h])

theorem spdm_keepsMemOk {mctp wellFormed inSeq : Bool} {run : State → State} {s : State} (hrun : memOk s → memOk (run s)) :
    keepsMemOk s (spdm mctp wellFormed inSeq run s) :=
  keepsMemOk_ite (keepsMemOk_self s) (keepsMemOk_live fun h => by simp [hrun h, h])

theorem inSession_keepsMemOk {id : Nat} {established wellFormed : Bool} {run : Session → State → State} {s : State}
    (hrun : ∀ x, memOk s → memOk (run x s)) : keepsMemOk s (inSession id established wellFormed run s) := by
  unfold inSession
  split
  · exact spdm_keepsMemOk fun h => h
  · exact spdm_keepsMemOk (hrun _)

theorem control_keepsMemOk {k : CoreId} {want : TileOp → Bool} {s : State} : keepsMemOk s (Machine.control k want s) := by
  unfold Machine.control
  split
  · exact keepsMemOk_self s
  · refine keepsMemOk_ite (keepsMemOk_self s) ?_
    split
    · exact keepsMemOk_self s
    · exact keepsMemOk_live fun h => memOk_of_eq (updCore_mem ..) h

/-- An issue that leaves the memory as it is: an instruction's results go to its core. -/
def issueKeepsMem (s : State) : Issue → Prop
  | .waits | .retires _ => True
  | .instant t | .goes t .. => t.mem = s.mem

theorem issueKeepsMem_ite {s : State} {p : Prop} [Decidable p] {a b : Issue} (ha : issueKeepsMem s a) (hb : issueKeepsMem s b) :
    issueKeepsMem s (if p then a else b) := by
  split
  · exact ha
  · exact hb

theorem issueFront_keepsMemOk {k : CoreId} {slot : SlotKind} {want : TileOp → Bool} {run : Queued → State → Issue} {s : State}
    (hrun : ∀ q, issueKeepsMem s (run q s)) : keepsMemOk s (issueFront k slot want run s) := by
  unfold issueFront
  extract_lets c
  split
  · exact keepsMemOk_self s
  · next q _ _ =>
    refine keepsMemOk_ite (keepsMemOk_self s) ?_
    have hissue := hrun q
    split
    · exact keepsMemOk_self s
    · exact keepsMemOk_live fun h => by simp [h]
    · next heq =>
      rw [heq] at hissue
      exact keepsMemOk_live (memOk_of_eq (by rw [finishInstr_mem, popIssued_mem, hissue]))
    · next heq =>
      rw [heq] at hissue
      refine keepsMemOk_ite (keepsMemOk_live (memOk_of_eq (updCore_mem ..))) (keepsMemOk_live (memOk_of_eq ?_))
      rw [goesOn_mem, hissue]

theorem vecIssue_keepsMemOk {k : CoreId} {op : VecOp} {srcs dsts : VecFields → Queued → Rows} {formOk : VecFields → Queued → Bool}
    {compute : Core → VecFields → Queued → List Write × BitVec 5} {s : State} :
    keepsMemOk s (vecIssue k op srcs dsts formOk compute s) := by
  refine issueFront_keepsMemOk fun q => ?_
  split
  · refine issueKeepsMem_ite trivial ?_
    split
    · trivial
    · trivial
    · trivial
    · exact issueKeepsMem_ite trivial rfl
  · trivial

theorem vecElem_keepsMemOk {k : CoreId} {op : VecOp} {n : Nat} {f : VecFields → BitVec 32 → BitVec 32 → BitVec 32 → BitVec 32 × Bool}
    {s : State} : keepsMemOk s (vecElem k op n f s) := vecIssue_keepsMemOk

/-! ### The shapes of meanings -/

theorem memOk_ite {c : Prop} [Decidable c] {a b : State} (ha : memOk a) (hb : memOk b) : memOk (if c then a else b) := by
  split
  · exact ha
  · exact hb

theorem flint_memOk {c : Cmd} {run : State → State} {s : State} (hrun : memOk (run s)) (h : memOk s) : memOk (c.flint run s) := by
  simp [Cmd.flint, hrun, h]

theorem configWrite_memOk {f : Nat} {run : State → State} {s : State} (hrun : memOk (run s)) (h : memOk s) : memOk (configWrite f run s) := by
  simp [configWrite, hrun, h]

theorem barAccess_memOk {f : Nat} {run : State → State} {s : State} (hrun : memOk (run s)) (h : memOk s) : memOk (barAccess f run s) := by
  simp [barAccess, hrun, h]

theorem needsHbm_memOk {c : Cmd} {run : State → State} {s : State} (hrun : memOk (run s)) (h : memOk s) : memOk (c.needsHbm run s) := by
  simp [Cmd.needsHbm, hrun, h]

theorem withHandle_memOk {c : Cmd} {kind : Nat} {live free : Bool} {run : State → State} {s : State} (hrun : memOk (run s)) (h : memOk s) :
    memOk (c.withHandle kind live free run s) := by
  unfold Cmd.withHandle
  split
  · exact hrun
  · simp [h]
  · simpa using h

/-! ### Meanings with a lemma of their own -/

theorem execPerstAssert_keepsMemOk {s : State} : keepsMemOk s (execPerstAssert s) :=
  keepsMemOk_ite (keepsMemOk_self s) (keepsMemOk_done fun _ => wholeReset_memOk s)

theorem execHostLinkDown_keepsMemOk {s : State} : keepsMemOk s (execHostLinkDown s) :=
  keepsMemOk_ite (keepsMemOk_self s) (keepsMemOk_done fun _ => wholeReset_memOk s)

theorem execVddAuxLoss_keepsMemOk {s : State} : keepsMemOk s (execVddAuxLoss s) := keepsMemOk_done fun _ => wholeReset_memOk s

theorem execConfigRequest_keepsMemOk {f : Fn} {reg : BitVec 12} {write : Option (BitVec 32)} {s : State} :
    keepsMemOk s (execConfigRequest f reg write s) := by
  refine keepsMemOk_ite (keepsMemOk_live id) (keepsMemOk_ite (keepsMemOk_self s) ?_)
  cases write with
  | none => exact keepsMemOk_live id
  | some v => exact keepsMemOk_live fun h => by simp [h]

theorem execFtNowRead_keepsMemOk {f : Fn} {part : ReadPart} {s : State} : keepsMemOk s (execFtNowRead f part s) :=
  keepsMemOk_live fun h => barAccess_memOk (by cases part <;> exact h) h

theorem execTelemetryCounterRead_keepsMemOk {f : Fn} {k : Nat} {part : ReadPart} {s : State} :
    keepsMemOk s (execTelemetryCounterRead f k part s) :=
  keepsMemOk_live fun h => barAccess_memOk (by cases part <;> exact h) h

theorem execVfEnable_keepsMemOk {num : Nat} {enable : Bool} {s : State} : keepsMemOk s (execVfEnable num enable s) :=
  keepsMemOk_live fun h => configWrite_memOk (by simp [h]) h

theorem execInitiateFlr_keepsMemOk {f : Fn} {s : State} : keepsMemOk s (execInitiateFlr f s) :=
  keepsMemOk_live fun h => configWrite_memOk (memOk_of_eq (updFn_mem ..) h) h

theorem execHostWindowRead_keepsMemOk {f : Fn} {off : BitVec 34} {len : Nat} {uncorrectable : Bool} {s : State} :
    keepsMemOk s (execHostWindowRead f off len uncorrectable s) := by
  refine keepsMemOk_live fun h => barAccess_memOk ?_ h
  dsimp only
  split
  · exact h
  · simp [h]

theorem execHostWindowWrite_keepsMemOk {f : Fn} {off : BitVec 34} {data : Bytes} {s : State} :
    keepsMemOk s (execHostWindowWrite f off data s) := by
  refine keepsMemOk_live fun h => barAccess_memOk ?_ h
  split
  · exact h
  · exact store_memOk h

theorem execBackInvalidateResponse_keepsMemOk {line : Nat} {data : Option Unit64} {s : State} :
    keepsMemOk s (execBackInvalidateResponse line data s) := by
  refine keepsMemOk_ite (keepsMemOk_self s) (keepsMemOk_live fun h => ?_)
  cases data with
  | none => exact h
  | some d => exact store_memOk h

theorem execWritePull_keepsMemOk {line : Nat} {s : State} : keepsMemOk s (execWritePull line s) := by
  unfold execWritePull
  split
  · exact keepsMemOk_self s
  · exact keepsMemOk_ite (keepsMemOk_live id) (keepsMemOk_self s)

theorem execBufAlloc_keepsMemOk {f : Fn} {src : Src} {s : State} : keepsMemOk s (execBufAlloc f src s) := by
  refine command_keepsMemOk fun c t h => ?_
  dsimp only
  split
  · simpa using h
  · refine needsHbm_memOk ?_ h
    split
    · simpa using h
    · next u hg =>
      have hu : memOk u := grantUnits_waits_memOk hg h
      exact hu
    · next us u hg =>
      have hu : memOk u := grantUnits_got_memOk hg h
      simpa using hu

theorem execWinMap_keepsMemOk {f : Fn} {src : Src} {s : State} : keepsMemOk s (execWinMap f src s) := by
  refine command_keepsMemOk fun c t h => withHandle_memOk ?_ h
  split <;> simp [h]

theorem execKeyLoad_keepsMemOk {f : Fn} {src : Src} {blob : Bytes} {s : State} : keepsMemOk s (execKeyLoad f src blob s) := by
  refine keepsMemOk_ite (keepsMemOk_self s) (command_keepsMemOk fun c t h => ?_)
  dsimp only
  rw [memOk_iff, mem_ite, mem_ite]
  split
  · simpa using h
  · split
    · simpa using h
    · split <;> simp [h]

theorem execModelUnload_keepsMemOk {f : Fn} {src : Src} {s : State} : keepsMemOk s (execModelUnload f src s) := by
  refine command_keepsMemOk fun c t h => withHandle_memOk ?_ h
  dsimp only
  split
  · exact h
  · split
    · simpa using h
    · split
      · split <;> simp [h]
      · simp [h]

theorem execModelQuery_keepsMemOk {f : Fn} {src : Src} {s : State} : keepsMemOk s (execModelQuery f src s) := by
  refine command_keepsMemOk fun c t h => withHandle_memOk ?_ h
  split <;> simp [h]

theorem execReqSubmit_keepsMemOk {f : Fn} {src : Src} {prompt : List (BitVec 32)} {s : State} :
    keepsMemOk s (execReqSubmit f src prompt s) := by
  refine command_keepsMemOk fun c t h => withHandle_memOk ?_ h
  dsimp only
  split
  · split <;> simp [h]
  · exact h

theorem execReqCancel_keepsMemOk {f : Fn} {src : Src} {s : State} : keepsMemOk s (execReqCancel f src s) := by
  refine command_keepsMemOk fun c t h => withHandle_memOk ?_ h
  split <;> simp [h]

theorem execReqQuery_keepsMemOk {f : Fn} {src : Src} {s : State} : keepsMemOk s (execReqQuery f src s) := by
  refine command_keepsMemOk fun c t h => withHandle_memOk ?_ h
  split <;> simp [h]

theorem execTaskRun_keepsMemOk {f : Fn} {src : Src} {s : State} : keepsMemOk s (execTaskRun f src s) := by
  refine command_keepsMemOk fun c t h => withHandle_memOk ?_ h
  dsimp only
  split
  · exact h
  · rw [memOk_iff, mem_ite, mem_ite, mem_ite, mem_ite, mem_ite]
    cases hq : srcQ c.src <;> simp [h]

theorem execFlintRunStart_keepsMemOk {net : Nat} {s : State} : keepsMemOk s (execFlintRunStart net s) := by
  unfold execFlintRunStart
  split
  · exact keepsMemOk_live id
  · exact keepsMemOk_self s

theorem execBundleFetchComplete_keepsMemOk {bundle : Option Bytes} {s : State} : keepsMemOk s (execBundleFetchComplete bundle s) := by
  refine keepsMemOk_ite (keepsMemOk_self s) ?_
  split
  · exact keepsMemOk_live fun h => by simp [h]
  · apply_rules only [keepsMemOk_live, keepsMemOk_ite] <;> (intro h; simp [h])

theorem execRevocationDeferred_keepsMemOk {p : AgentId} {s : State} : keepsMemOk s (execRevocationDeferred p s) := by
  unfold execRevocationDeferred
  split
  · exact keepsMemOk_ite (keepsMemOk_self s) (keepsMemOk_live revokeNow_memOk)
  · exact keepsMemOk_self s

theorem execInstructionDispatch_keepsMemOk {k : CoreId} {s : State} : keepsMemOk s (execInstructionDispatch k s) := by
  unfold execInstructionDispatch
  extract_lets
  split
  · exact keepsMemOk_self s
  · split
    · exact keepsMemOk_self s
    · exact keepsMemOk_ite (keepsMemOk_self s) (keepsMemOk_live id)

theorem execDmaDescriptorComplete_keepsMemOk {e : EngineId} {s : State} : keepsMemOk s (execDmaDescriptorComplete e s) := by
  unfold execDmaDescriptorComplete
  dsimp only
  split
  · exact keepsMemOk_self s
  · next d _ _ =>
    refine keepsMemOk_live fun h => ?_
    have hmoved : memOk (transfer d.core d.desc { s with engines := Tab.upd {} s.engines e.val (fun x => { x with queue := x.queue.tail }) }) :=
      transfer_memOk h
    rw [memOk_iff, descDone_mem, mem_ite]
    split
    · exact h
    · split
      · simpa using hmoved
      · exact hmoved

theorem execTaskPlaced_keepsMemOk {n : Nat} {s : State} : keepsMemOk s (execTaskPlaced n s) := by
  unfold execTaskPlaced
  split
  · exact keepsMemOk_self s
  · split
    · exact keepsMemOk_self s
    · refine keepsMemOk_ite (keepsMemOk_self s) (keepsMemOk_ite (keepsMemOk_live fun h => by simp [h]) ?_)
      refine keepsMemOk_ite (keepsMemOk_live fun h => by simp [h]) (keepsMemOk_ite (keepsMemOk_self s) ?_)
      split
      · exact keepsMemOk_self s
      · exact keepsMemOk_live startTask_memOk

theorem execTaskEnd_keepsMemOk {n : Nat} {s : State} : keepsMemOk s (execTaskEnd n s) := by
  unfold execTaskEnd
  split
  · exact keepsMemOk_self s
  · split
    · exact keepsMemOk_self s
    · exact keepsMemOk_ite (keepsMemOk_live fun h => by simp [h]) (keepsMemOk_self s)

theorem execVisionRecord_keepsMemOk {n : Nat} {s : State} : keepsMemOk s (execVisionRecord n s) := by
  unfold execVisionRecord
  split
  · exact keepsMemOk_self s
  · split
    · exact keepsMemOk_self s
    · refine keepsMemOk_ite (keepsMemOk_self s) ?_
      extract_lets
      split
      · exact keepsMemOk_live fun h => by simp [h]
      · refine keepsMemOk_live fun h => ?_
        rw [memOk_iff]
        dsimp only
        rw [bump_mem, bumpBy_mem]
        exact forEach_memOk (fun _ _ hu => bufWrite_memOk hu) h

theorem execUncorrectableUnit_keepsMemOk {u : UeAt} {s : State} : keepsMemOk s (execUncorrectableUnit u s) := by
  cases u with
  | basalt off =>
    refine keepsMemOk_ite (keepsMemOk_self s) (keepsMemOk_ite (keepsMemOk_live id) ?_)
    split
    · exact keepsMemOk_live fun h => by simp [h]
    · exact keepsMemOk_live fun h => by simp [h]
  | hbm a => exact keepsMemOk_ite (keepsMemOk_self s) (keepsMemOk_live hbmUe_memOk)
  | _ => exact keepsMemOk_live coreUe_memOk

theorem execStepBuild_keepsMemOk {s : State} : keepsMemOk s (execStepBuild s) :=
  keepsMemOk_ite (keepsMemOk_self s)
    (keepsMemOk_live fun h => buildStep_memOk (forEach_memOk (fun _ _ ht => memberStep_memOk ht) (by simpa using h)))

theorem execStepEnd_keepsMemOk {rows : List PageRow} {s : State} : keepsMemOk s (execStepEnd rows s) := by
  unfold execStepEnd
  split
  · exact keepsMemOk_self s
  · exact keepsMemOk_ite (keepsMemOk_self s) (keepsMemOk_live endStep_memOk)

theorem execJasperRow_keepsMemOk {idx : Nat} {draft : Bool} {node : Nat} {logits : List (BitVec 32)} {s : State} :
    keepsMemOk s (execJasperRow idx draft node logits s) := by
  unfold execJasperRow
  split
  · split
    · exact keepsMemOk_self s
    · apply_rules only [keepsMemOk_self, keepsMemOk_live, keepsMemOk_ite] <;> (intro h; simp [h])
  · exact keepsMemOk_self s

theorem execPageFetch_keepsMemOk {eng : ClusterId} {k : CoreId} {base bias idx : Nat} {draft : Bool} {layer col : Nat} {s : State} :
    keepsMemOk s (execPageFetch eng k base bias idx draft layer col s) := by
  unfold execPageFetch
  extract_lets
  split
  · split
    · refine keepsMemOk_ite (keepsMemOk_self s) ?_
      split
      · exact keepsMemOk_live fun h => by simp [h]
      · exact keepsMemOk_live id
    · exact keepsMemOk_self s
  · exact keepsMemOk_self s

theorem execSealStart_keepsMemOk {eng : ClusterId} {s : State} : keepsMemOk s (execSealStart eng s) := by
  unfold execSealStart
  extract_lets
  split
  · exact keepsMemOk_self s
  · refine keepsMemOk_ite (keepsMemOk_self s) (keepsMemOk_live fun h => ?_)
    rw [memOk_iff, updKv_mem]
    split
    · exact h
    · exact grantGrans_memOk h

theorem execSealSwitch_keepsMemOk {eng : ClusterId} {second : Bool} {s : State} : keepsMemOk s (execSealSwitch eng second s) := by
  unfold execSealSwitch
  split
  · exact keepsMemOk_self s
  · dsimp only
    split
    · exact keepsMemOk_live id
    · exact keepsMemOk_live fun h => by simp [h]

theorem execTierFetchDone_keepsMemOk {k n : Nat} {raw : List Bytes} {s : State} : keepsMemOk s (execTierFetchDone k n raw s) := by
  unfold execTierFetchDone
  split
  · split
    · exact keepsMemOk_self s
    · refine keepsMemOk_ite (keepsMemOk_self s) ?_
      extract_lets t u v
      have ht : memOk s → memOk t := id
      have hu : memOk t → memOk u := memOk_of_eq (updCopy_mem ..)
      have hv : memOk t → memOk v := hu
      split
      · exact fun h => keepsMemOk_live (fun h => regionWrite_memOk (hu h)) (ht h)
      · exact fun h => keepsMemOk_live (fun h => by simpa using hv h) (ht h)
  · exact keepsMemOk_self s

theorem execSecReset_keepsMemOk {imageOk : Bool} {s : State} : keepsMemOk s (execSecReset imageOk s) := by
  unfold execSecReset
  refine keepsMemOk_ite (keepsMemOk_live id) (keepsMemOk_ite (keepsMemOk_live id) ?_)
  extract_lets cur a b c d e f
  refine keepsMemOk_live fun h => ?_
  have ha : memOk a := memOk_of_eq (stageBusy_mem s) h
  have hb : memOk b := by
    clear_value cur a
    cases cur with
    | none => exact ha
    | some p =>
      simp only [b]
      split <;> simpa using ha
  have hd : memOk d := by simpa [d, c] using hb
  exact revoke_memOk (p := 0) (cause := 5) (memOk_of_eq (stopped_mem ..) hd)

theorem execProcessorRunning_keepsMemOk {p : AgentId} {s : State} : keepsMemOk s (execProcessorRunning p s) := by
  unfold execProcessorRunning
  refine keepsMemOk_ite (keepsMemOk_self s) ?_
  extract_lets x again a b pmc sch c d
  refine keepsMemOk_live fun h => ?_
  have ha : memOk a := memOk_of_eq (by simp [a]) h
  have hb : memOk b := memOk_of_eq (by simp [b]) ha
  have hc : memOk c := by
    simp only [c]
    clear_value b
    split
    · exact secUp_memOk hb
    · simpa [pmc] using hb
    · have hsch : memOk sch := by
        simp only [sch]
        split
        · exact hb
        · simpa using hb
      simp [hsch]
    · exact clusterUp_memOk hb
  simpa [d] using hc

theorem execChallenge_keepsMemOk {mctp : Bool} {slot : Nat} {nonce : BitVec 256} {wellFormed : Bool} {s : State} :
    keepsMemOk s (execChallenge mctp slot nonce wellFormed s) :=
  spdm_keepsMemOk (memOk_of_eq (withChain_mem rfl))

theorem execIdeKm_keepsMemOk {session stream : Nat} {go wellFormed : Bool} {s : State} :
    keepsMemOk s (execIdeKm session stream go wellFormed s) := by
  refine inSession_keepsMemOk fun x h => ?_
  dsimp only
  cases Tab.find s.sec.ide stream <;> simp [h]

theorem execNop_keepsMemOk {k : CoreId} {slot : Option SlotKind} {s : State} : keepsMemOk s (execNop k slot s) := by
  unfold execNop
  split
  · exact control_keepsMemOk
  · exact issueFront_keepsMemOk fun _ => rfl

theorem execSpanLoadb_keepsMemOk {k : CoreId} {s : State} : keepsMemOk s (execSpanLoadb k s) := by
  refine issueFront_keepsMemOk fun q => ?_
  split
  · exact issueKeepsMem_ite trivial (updCore_mem ..)
  · trivial

theorem execSpanMm_keepsMemOk {k : CoreId} {s : State} : keepsMemOk s (execSpanMm k s) := by
  refine issueFront_keepsMemOk fun q => ?_
  split
  · apply_rules only [issueKeepsMem_ite, trivial]
    exact updCore_mem ..
  · trivial

theorem execSpanDrain_keepsMemOk {k : CoreId} {s : State} : keepsMemOk s (execSpanDrain k s) := by
  refine issueFront_keepsMemOk fun q => ?_
  split
  · refine issueKeepsMem_ite trivial (issueKeepsMem_ite trivial (issueKeepsMem_ite trivial ?_))
    exact mem_ite_eq (tileViol_mem ..) rfl
  · trivial

theorem execVrel_keepsMemOk {k : CoreId} {s : State} : keepsMemOk s (execVrel k s) := by
  refine issueFront_keepsMemOk fun q => ?_
  split
  · exact issueKeepsMem_ite trivial (issueKeepsMem_ite trivial (issueKeepsMem_ite trivial rfl))
  · trivial

theorem execVsets_keepsMemOk {k : CoreId} {s : State} : keepsMemOk s (execVsets k s) := by
  refine issueFront_keepsMemOk fun q => ?_
  split
  · exact issueKeepsMem_ite trivial rfl
  · trivial

theorem execVmovr_keepsMemOk {k : CoreId} {s : State} : keepsMemOk s (execVmovr k s) := by
  refine issueFront_keepsMemOk fun q => ?_
  split
  · refine issueKeepsMem_ite trivial ?_
    split <;> rfl
  · trivial

theorem execVfclr_keepsMemOk {k : CoreId} {s : State} : keepsMemOk s (execVfclr k s) := by
  refine issueFront_keepsMemOk fun q => ?_
  split
  · exact updCore_mem ..
  · trivial

theorem execSld_keepsMemOk {k : CoreId} {s : State} : keepsMemOk s (execSld k s) := by
  refine issueFront_keepsMemOk fun q => ?_
  split
  · exact issueKeepsMem_ite trivial (issueKeepsMem_ite trivial rfl)
  · trivial

theorem execDmaGo_keepsMemOk {k : CoreId} {s : State} : keepsMemOk s (execDmaGo k s) := by
  refine issueFront_keepsMemOk fun q => ?_
  split
  · dsimp only
    split
    · trivial
    · split
      · trivial
      · exact issueKeepsMem_ite trivial (issueKeepsMem_ite trivial (queueDescs_mem ..))
  · trivial

theorem execSyncWait_keepsMemOk {k : CoreId} {s : State} : keepsMemOk s (execSyncWait k s) := by
  refine issueFront_keepsMemOk fun q => ?_
  split
  · split
    · trivial
    · exact issueKeepsMem_ite rfl trivial
  · trivial

theorem execSyncAdd_keepsMemOk {k : CoreId} {s : State} : keepsMemOk s (execSyncAdd k s) := by
  refine issueFront_keepsMemOk fun q => ?_
  split
  · split
    · exact addCounter_mem ..
    · trivial
  · trivial

theorem execSyncTas_keepsMemOk {k : CoreId} {s : State} : keepsMemOk s (execSyncTas k s) := by
  refine issueFront_keepsMemOk fun q => ?_
  split
  · split
    · exact issueKeepsMem_ite rfl trivial
    · trivial
  · trivial

theorem execWorkRouteTimeout_keepsMemOk {idx : Nat} {s : State} : keepsMemOk s (execWorkRouteTimeout idx s) := by
  unfold execWorkRouteTimeout
  split
  · exact keepsMemOk_self s
  · split
    · exact keepsMemOk_self s
    · apply_rules only [keepsMemOk_self, keepsMemOk_live, keepsMemOk_ite] <;> (intro h; simp [h])

theorem execFlintStrobe_keepsMemOk {s : State} : keepsMemOk s (execFlintStrobe s) := by
  refine keepsMemOk_ite (keepsMemOk_self s) (keepsMemOk_live fun h => forEach_memOk (fun net t ht => ?_) h)
  split
  · exact closeSteps_memOk (by simpa using ht)
  · exact ht

theorem execFlintInputWake_keepsMemOk {net : Nat} {s : State} : keepsMemOk s (execFlintInputWake net s) := by
  unfold execFlintInputWake
  split
  · dsimp only
    split
    · exact keepsMemOk_self s
    · refine keepsMemOk_live fun h => bufWrite_memOk ?_
      rw [memOk_iff, putRun_mem]
      exact foldl_snd_memOk (fun a b ha => memOk_of_eq (takeInput_mem ..) ha) h
  · exact keepsMemOk_self s

theorem execTs1_keepsMemOk {p : PortId} {sets : List (Fin 8 × OrdSet)} {s : State} : keepsMemOk s (execTs1 p sets s) := by
  refine keepsMemOk_ite (keepsMemOk_self s) ?_
  split <;> apply_rules only [keepsMemOk_self, keepsMemOk_live, keepsMemOk_ite] <;> (intro h; simp [h])

theorem execTs2_keepsMemOk {p : PortId} {o : OrdSet} {s : State} : keepsMemOk s (execTs2 p o s) := by
  unfold execTs2
  extract_lets x byAddr lead t y m
  refine keepsMemOk_ite (keepsMemOk_self s) ?_
  have ht : memOk s → memOk t := memOk_of_eq (updPort_mem ..)
  refine keepsMemOk_ite (keepsMemOk_live fun h => by simp [h]) (keepsMemOk_ite ?_ (keepsMemOk_ite (keepsMemOk_live ht) ?_))
  · exact keepsMemOk_live fun h => memOk_of_eq (by simp) (ht h)
  · refine keepsMemOk_live fun h => memOk_of_eq ?_ (ht h)
    split <;> simp

theorem execReq_keepsMemOk {p : PortId} {o : OrdSet} {s : State} : keepsMemOk s (execReq p o s) := by
  refine keepsMemOk_ite (keepsMemOk_self s) ?_
  split <;> apply_rules only [keepsMemOk_self, keepsMemOk_live, keepsMemOk_ite] <;> (intro h; simp [h])

theorem execTrainingStageTimeout_keepsMemOk {p : PortId} {s : State} : keepsMemOk s (execTrainingStageTimeout p s) := by
  refine keepsMemOk_ite (keepsMemOk_self s) ?_
  split <;> apply_rules only [keepsMemOk_self, keepsMemOk_live, keepsMemOk_ite] <;> (intro h; simp [h])

theorem execAddressHoldExpiry_keepsMemOk {a : BitVec 12} {s : State} : keepsMemOk s (execAddressHoldExpiry a s) := by
  unfold execAddressHoldExpiry
  split
  · exact keepsMemOk_self s
  · split
    · exact keepsMemOk_ite (keepsMemOk_live id) (keepsMemOk_self s)
    · exact keepsMemOk_live id

theorem execThermalSensorSample_keepsMemOk {readings : List Int} {s : State} : keepsMemOk s (execThermalSensorSample readings s) := by
  unfold execThermalSensorSample
  extract_lets l a b inc cool leave c d e
  have ha : a.mem = s.mem := forEach_mem fun _ _ => updThermal_mem ..
  have hb : b.mem = a.mem := forEach_mem fun _ _ => mem_ite_eq (excludeSensor_mem ..) rfl
  have hd : d.mem = c.mem := by
    simp only [d]
    split <;> simp
  have he : e.mem = d.mem := mem_ite_eq (updThermal_mem ..) rfl
  refine keepsMemOk_done (memOk_of_eq ?_)
  calc (judgeCritical e).mem = b.mem := ((judgeCritical_mem e).trans (he.trans hd)).trans (updThermal_mem ..)
    _ = s.mem := hb.trans ha

theorem execMctpControl_keepsMemOk {req : MctpReq} {s : State} : keepsMemOk s (execMctpControl req s) := by
  refine keepsMemOk_ite (keepsMemOk_self s) ?_
  split <;> exact keepsMemOk_done id

theorem execPldmRequest_keepsMemOk {req : PldmReq} {s : State} : keepsMemOk s (execPldmRequest req s) := by
  refine keepsMemOk_ite (keepsMemOk_self s) ?_
  split <;> apply_rules only [keepsMemOk_done, keepsMemOk_ite] <;> (intro h; simp [h])

theorem execCxlMemRequest_keepsMemOk {line : Nat} {write : Option Unit64} {hold uncorrectable : Bool} {s : State} :
    keepsMemOk s (execCxlMemRequest line write hold uncorrectable s) := by
  refine keepsMemOk_ite (keepsMemOk_self s) ?_
  cases write with
  | some d => exact keepsMemOk_live fun h => by simp [h]
  | none => exact keepsMemOk_ite (keepsMemOk_live fun h => by simp [h]) (keepsMemOk_live fun h => by simp [h])

theorem execStreamChunk_keepsMemOk {n : Nat} {data : Bytes} {s : State} : keepsMemOk s (execStreamChunk n data s) := by
  unfold execStreamChunk
  split
  · exact keepsMemOk_self s
  · refine keepsMemOk_ite (keepsMemOk_self s) ?_
    extract_lets raw
    split
    · exact keepsMemOk_live fun h => by simp [h]
    · extract_lets _ m t u r
      have ht : t.mem = s.mem := putLoad_mem ..
      split
      · exact keepsMemOk_ite (keepsMemOk_live (memOk_of_eq ht)) (keepsMemOk_live fun h => finishAdapter_memOk (memOk_of_eq ht h))
      · refine keepsMemOk_live fun h => ?_
        have hr : memOk r.1 := modelStep_memOk (by simp [u, memOk_of_eq ht h])
        simp [hr]

theorem execNorOperationDone_keepsMemOk {s : State} : keepsMemOk s (execNorOperationDone s) := by
  unfold execNorOperationDone
  split
  · refine keepsMemOk_ite (keepsMemOk_self s) (keepsMemOk_live (memOk_of_eq ?_))
    rw [mem_ite, complete_mem, ite_self]
    split
    · simp
    · simp [apply_ite Prod.snd]
    · simp [apply_ite Prod.snd]
    · simp
  · exact keepsMemOk_self s

theorem execProgLoad_keepsMemOk {f : Fn} {src : Src} {manifest image : Bytes} {s : State} :
    keepsMemOk s (execProgLoad f src manifest image s) := by
  refine command_keepsMemOk fun c t h => ?_
  dsimp only
  split
  · simpa using h
  · split <;> simp [h]

theorem execFlintLoad_keepsMemOk {f : Fn} {src : Src} {image : Bytes} {s : State} : keepsMemOk s (execFlintLoad f src image s) := by
  refine command_keepsMemOk fun c t h => flint_memOk ?_ h
  dsimp only
  split
  · simpa using h
  · split <;> simp [h]

theorem execProfileSet_keepsMemOk {f : Fn} {src : Src} {table : Bytes} {s : State} : keepsMemOk s (execProfileSet f src table s) := by
  refine command_keepsMemOk fun c t h => ?_
  dsimp only
  split
  · simpa using h
  · split <;> simp [h]

theorem execFwUpdate_keepsMemOk {f : Fn} {src : Src} {bundle : Option Bytes} {s : State} :
    keepsMemOk s (execFwUpdate f src bundle s) := by
  refine command_keepsMemOk fun c t h => ?_
  have hend (st : Status) : memOk (c.end st t) := by simpa using h
  refine memOk_ite (by simpa using h) (memOk_ite (by simpa using h) (memOk_ite (hend _) (memOk_ite (hend _) (memOk_ite (hend _) ?_))))
  split
  · exact hend _
  · exact memOk_ite (hend _) (nextTarget_memOk h)

theorem execProvStage_keepsMemOk {f : Fn} {src : Src} {data : Bytes} {s : State} : keepsMemOk s (execProvStage f src data s) := by
  refine command_keepsMemOk fun c t h => ?_
  dsimp only
  split
  · simpa using h
  · split
    · simpa using h
    · split
      · simpa using h
      · split
        · simpa using h
        · split <;> simp [h]

theorem execFlintRun_keepsMemOk {f : Fn} {src : Src} {s : State} : keepsMemOk s (execFlintRun f src s) := by
  refine command_keepsMemOk fun c t h => flint_memOk (withHandle_memOk ?_ h) h
  split
  · simpa using h
  · simp [h]

/-! ### Every command -/

/-- The meanings with a lemma of their own and the shared forms by name. Every other meaning is tests alone, with a state at each leaf
that the operations' own lemmas settle. -/
theorem exec_keepsMemOk (c : Instr) (s : State) : keepsMemOk s (exec c s) := by
  cases c
  all_goals dsimp only [exec]
  case bufAlloc => exact execBufAlloc_keepsMemOk
  case winMap => exact execWinMap_keepsMemOk
  case keyLoad => exact execKeyLoad_keepsMemOk
  case modelUnload => exact execModelUnload_keepsMemOk
  case modelQuery => exact execModelQuery_keepsMemOk
  case reqSubmit => exact execReqSubmit_keepsMemOk
  case reqCancel => exact execReqCancel_keepsMemOk
  case reqQuery => exact execReqQuery_keepsMemOk
  case taskRun => exact execTaskRun_keepsMemOk
  case progLoad => exact execProgLoad_keepsMemOk
  case flintLoad => exact execFlintLoad_keepsMemOk
  case profileSet => exact execProfileSet_keepsMemOk
  case fwUpdate => exact execFwUpdate_keepsMemOk
  case provStage => exact execProvStage_keepsMemOk
  case flintRun => exact execFlintRun_keepsMemOk
  case identify | adopt | ringCreate | ringDelete | list | counters | bufFree | winUnmap | modelLoad | adapterLoad |
      adapterUnload | progUnload | flintUnload | profileFree | poolSet | limitSet | phaseOpSet =>
    exact command_keepsMemOk fun c t h => by simp [h]
  case nop => exact execNop_keepsMemOk
  case spanLoadb => exact execSpanLoadb_keepsMemOk
  case spanMm => exact execSpanMm_keepsMemOk
  case spanDrain => exact execSpanDrain_keepsMemOk
  case vrel => exact execVrel_keepsMemOk
  case vsets => exact execVsets_keepsMemOk
  case vmovr => exact execVmovr_keepsMemOk
  case vfclr => exact execVfclr_keepsMemOk
  case sld => exact execSld_keepsMemOk
  case dmaGo => exact execDmaGo_keepsMemOk
  case syncWait => exact execSyncWait_keepsMemOk
  case syncAdd => exact execSyncAdd_keepsMemOk
  case syncTas => exact execSyncTas_keepsMemOk
  case vadd | vsub | vmul | vfma | vmin | vmax | vcmp | vsel | vexp | vrcp | vrsq | vsin | vcos => exact vecElem_keepsMemOk
  case vcvt | vmaxr | vexps | vresc | vtopk | vrot => exact vecIssue_keepsMemOk
  case loop | seti | inc | setd | halt => exact control_keepsMemOk
  case challenge => exact execChallenge_keepsMemOk
  case ideKm => exact execIdeKm_keepsMemOk
  case getCertificate | keyExchange | getMeasurements | getVersion | getCapabilities | negotiateAlgorithms =>
    exact spdm_keepsMemOk fun h => by simp [h]
  case finish | endSession | keyUpdate | heartbeat => exact inSession_keepsMemOk fun x h => by simp [h]
  case perstAssert => exact execPerstAssert_keepsMemOk
  case hostLinkDown => exact execHostLinkDown_keepsMemOk
  case vddAuxLoss => exact execVddAuxLoss_keepsMemOk
  case configRequest => exact execConfigRequest_keepsMemOk
  case ftNowRead => exact execFtNowRead_keepsMemOk
  case telemetryCounterRead => exact execTelemetryCounterRead_keepsMemOk
  case vfEnable => exact execVfEnable_keepsMemOk
  case initiateFlr => exact execInitiateFlr_keepsMemOk
  case hostWindowRead => exact execHostWindowRead_keepsMemOk
  case hostWindowWrite => exact execHostWindowWrite_keepsMemOk
  case secReset => exact execSecReset_keepsMemOk
  case backInvalidateResponse => exact execBackInvalidateResponse_keepsMemOk
  case writePull => exact execWritePull_keepsMemOk
  case flintRunStart => exact execFlintRunStart_keepsMemOk
  case bundleFetchComplete => exact execBundleFetchComplete_keepsMemOk
  case processorRunning => exact execProcessorRunning_keepsMemOk
  case revocationDeferred => exact execRevocationDeferred_keepsMemOk
  case instructionDispatch => exact execInstructionDispatch_keepsMemOk
  case dmaDescriptorComplete => exact execDmaDescriptorComplete_keepsMemOk
  case taskPlaced => exact execTaskPlaced_keepsMemOk
  case taskEnd => exact execTaskEnd_keepsMemOk
  case visionRecord => exact execVisionRecord_keepsMemOk
  case uncorrectableUnit => exact execUncorrectableUnit_keepsMemOk
  case stepBuild => exact execStepBuild_keepsMemOk
  case stepEnd => exact execStepEnd_keepsMemOk
  case jasperRow => exact execJasperRow_keepsMemOk
  case pageFetch => exact execPageFetch_keepsMemOk
  case sealStart => exact execSealStart_keepsMemOk
  case sealSwitch => exact execSealSwitch_keepsMemOk
  case tierFetchDone => exact execTierFetchDone_keepsMemOk
  case workRouteTimeout => exact execWorkRouteTimeout_keepsMemOk
  case flintStrobe => exact execFlintStrobe_keepsMemOk
  case flintInputWake => exact execFlintInputWake_keepsMemOk
  case ts1 => exact execTs1_keepsMemOk
  case ts2 => exact execTs2_keepsMemOk
  case req => exact execReq_keepsMemOk
  case trainingStageTimeout => exact execTrainingStageTimeout_keepsMemOk
  case addressHoldExpiry => exact execAddressHoldExpiry_keepsMemOk
  case thermalSensorSample => exact execThermalSensorSample_keepsMemOk
  case mctpControl => exact execMctpControl_keepsMemOk
  case pldmRequest => exact execPldmRequest_keepsMemOk
  case cxlMemRequest => exact execCxlMemRequest_keepsMemOk
  case streamChunk => exact execStreamChunk_keepsMemOk
  case norOperationDone => exact execNorOperationDone_keepsMemOk
  case pageFetchDone | sealStarvation | shipOfferRetry | shipTimeout | homeRouteTimeout | flintDurationEnd | rampSettled |
      fwTargetReplaced | handoffSafePoint | instructionComplete | flintLagOverflow | messageForward | vcHeadStall =>
    dsimp only [execPageFetchDone, execSealStarvation, execShipOfferRetry, execShipTimeout, execHomeRouteTimeout,
      execFlintDurationEnd, execRampSettled, execFwTargetReplaced, execHandoffSafePoint, execInstructionComplete,
      execFlintLagOverflow, execMessageForward, execVcHeadStall]
    split <;> apply_rules only [keepsMemOk_done, keepsMemOk_live, keepsMemOk_ite] <;> (intro h; simp [h])
  all_goals apply_rules only [keepsMemOk_done, keepsMemOk_live, keepsMemOk_ite]
  all_goals (intro h; simp [h])

/-- Settles O58: a tick leaves the memory, and every meaning keeps its canonical form. -/
theorem memoryStaysCanonical : Obligations.MemoryStaysCanonical := by
  intro s t h hstep
  unfold step at hstep
  split at hstep
  · cases hstep
    exact memOk_of_eq (tick_mem s) h
  · next c r _ => exact exec_keepsMemOk c { s with pending := r } h t hstep

end Sys2Proof.Proofs
end

section
/-! PROOFS of the statements on a reset of the whole part and on the VDD_CORE rail, the slew governor and ALERT_CAUSE. -/

namespace Sys2Proof.Proofs

open Sys2Proof.Machine Sys2Proof.Safety Sys2Proof.Laws

/-! ## A reset of the whole part (R54, R447, R462) -/

theorem wholeReset_restarted (s : State) : restarted s (wholeReset s) := by simp [restarted, wholeReset]

/-- Settles O7: each of the three is `wholeReset` with its own pins. -/
theorem wholePartResets : Obligations.WholePartResets := by
  intro s
  refine ⟨fun hperst => ?_, fun hperst => ?_, ?_⟩
  · exact completes_of_endsIn (if_neg (by simp [hperst])) ⟨rfl, wholeReset_restarted s⟩
  · exact completes_of_endsIn (if_neg (by simp [hperst])) ⟨rfl, wholeReset_restarted s⟩
  · exact completes_of_endsIn rfl ⟨rfl, rfl, rfl, rfl, rfl, wholeReset_restarted s⟩

/-! ## VDD_CORE, the slew governor and ALERT_CAUSE -/

/-- The current at the end of a window of the governor (R402, R404). -/
def slewNext (free : Bool) (now want limit : Nat) : Nat :=
  if free then want else if want < now then max want (now - limit) else min want (now + limit)

/-- A governed window moves the current towards what is wanted by the lesser of the distance and the limit. -/
theorem slewNext_distance (now want limit : Nat) :
    (slewNext false now want limit - now) + (now - slewNext false now want limit) =
      min ((want - now) + (now - want)) limit := by
  simp only [slewNext, Bool.false_eq_true, if_false]
  split <;> omega

/-- The governor does not bind: BROWN#, reset, after THERMTRIP#, or with an island stretched. -/
def slewFree (s : State) : Bool :=
  s.brown.asserted || s.pins.perst || s.pins.thermtrip || s.power.stretch.any (fun e => decide (0 < e.2))

theorem slewFree_of {s : State}
    (h : s.brown.asserted = true ∨ s.pins.perst = true ∨ s.pins.thermtrip = true ∨ ∃ e ∈ s.power.stretch, 0 < e.2) :
    slewFree s = true := by
  simpa [slewFree, or_assoc] using h

theorem slewFree_eq_false {s : State}
    (h : s.brown.asserted = false ∧ s.pins.perst = false ∧ s.pins.thermtrip = false ∧ ∀ e ∈ s.power.stretch, e.2 = 0) :
    slewFree s = false := by
  obtain ⟨hbrown, hperst, htrip, hstretch⟩ := h
  simpa [slewFree, hbrown, hperst, htrip] using hstretch

theorem slewWindow_endsIn (want : Nat) (s : State) : endsIn (.slewWindow want) s
    (updPower (fun p => { p with slewWin := s.slew, amps := slewNext (slewFree s) s.power.amps want (s.slew * 1000) }) s) := rfl

theorem slewWindow_completes (want : Nat) (s : State) : completes (.slewWindow want) s (fun t =>
    { t with power := { t.power with amps := s.power.amps, slewWin := s.power.slewWin } } = s ∧ t.power.slewWin = s.slew ∧
    (s.brown.asserted = true ∨ s.pins.perst = true ∨ s.pins.thermtrip = true ∨ (∃ e ∈ s.power.stretch, 0 < e.2) →
      t.power.amps = want) ∧
    (s.brown.asserted = false ∧ s.pins.perst = false ∧ s.pins.thermtrip = false ∧ (∀ e ∈ s.power.stretch, e.2 = 0) →
      (t.power.amps - s.power.amps) + (s.power.amps - t.power.amps) =
        min ((want - s.power.amps) + (s.power.amps - want)) (s.slew * 1000))) := by
  refine completes_of_endsIn (slewWindow_endsIn want s) ⟨rfl, rfl, fun h => ?_, fun h => ?_⟩
  · simp [slewFree_of h, slewNext, updPower]
  · simp only [updPower, slewFree_eq_false h]
    exact slewNext_distance ..

/-- A change of point that is given up leaves all but the power state and the part's counters. -/
theorem abandonUp_frame (s : State) : { abandonUp s with power := s.power, cnt := s.cnt } = s := by
  unfold abandonUp
  split <;> rfl

theorem abandonUp_alert (s : State) : (abandonUp s).power.alert = s.power.alert := by
  unfold abandonUp
  split <;> rfl

theorem abandonUp_pwrbrk (s : State) : (abandonUp s).power.pwrbrk = s.power.pwrbrk := by
  unfold abandonUp
  split <;> rfl

theorem abandonUp_change (s : State) : (abandonUp s).power.change = none := by
  unfold abandonUp
  split
  · assumption
  · rfl

theorem abandonUp_settings (s : State) : (abandonUp s).settings = s.settings := by
  unfold abandonUp
  split <;> rfl

/-- While PWRBRK# is asserted the cap on the input power is at most PWRBRK_CAP (R411). -/
theorem capMw_le_pwrbrkCap {s : State} (h : s.power.pwrbrk = true) : s.capMw ≤ s.settings.pwrbrkCap * 1000 := by
  have hcap (two cap d : Nat) : min (min two cap) 275000 * (24 - d) / 24 ≤ cap := by
    have hmul : min (min two cap) 275000 * (24 - d) ≤ cap * 24 := Nat.mul_le_mul (by omega) (by omega)
    omega
  simp only [State.capMw, h, if_true]
  exact hcap ..

theorem pwrbrkAssert_completes {s : State} (h : s.power.pwrbrk = false) : completes .pwrbrkAssert s (fun t =>
    t.power.pwrbrk = true ∧ t.power.op = 0 ∧ t.power.freqOp = 0 ∧ t.power.target = 5600000 ∧ t.power.change = none ∧
    t.power.alert = s.power.alert ||| 0x20#8 ∧ t.capMw ≤ s.settings.pwrbrkCap * 1000 ∧
    { t with power := s.power, cnt := s.cnt } = s) := by
  let u := alert 5 (bumpPart cPwrbrk (updPower (fun p => { p with pwrbrk := true }) s))
  have hframe := abandonUp_frame u
  have hon : (forceOp0 u).power.pwrbrk = true := abandonUp_pwrbrk u
  have hsettings : (forceOp0 u).settings = s.settings := abandonUp_settings u
  refine completes_of_endsIn (if_neg (by simp [h])) ⟨hon, rfl, rfl, rfl, abandonUp_change u, abandonUp_alert u, ?_, ?_⟩
  · exact hsettings ▸ capMw_le_pwrbrkCap hon
  · exact congrArg (fun t : State => { t with power := s.power, cnt := s.cnt, pending := s.pending }) hframe

theorem alertCauseWrite_pf {f : Fn} {v : BitVec 32} {s : State} (hr : reachable f s) (hf : f.val = 0) :
    completes (.alertCauseWrite f v) s (fun t => { t with power := s.power } = s ∧
      ∀ b, b < 8 → t.power.alert.getLsbD b = (s.power.alert.getLsbD b && (b == 7 || !v.getLsbD b))) := by
  refine completes_of_endsIn (endsIn_of_barAccess hr rfl (if_pos hf)) ⟨rfl, fun b hb => ?_⟩
  have hlow : (BitVec.ofNat 8 v.toNat).getLsbD b = v.getLsbD b := by simp [hb]
  rw [← hlow]
  exact getLsbD_clearAlert s.power.alert _ hb

theorem rampSettled_endsIn {s : State} {c : OpChange} (h : s.power.change = some c) : endsIn .rampSettled s { s with
    power := { s.power with setpoint := s.power.target, freqOp := c.dst, change := none } } := by
  show execRampSettled s = _
  simp only [execRampSettled, h]
  rfl

theorem rampSettled_self {s : State} (h : s.power.change = none) : endsIn .rampSettled s s := by
  show execRampSettled s = _
  simp only [execRampSettled, h]
  rfl

/-- Settles O34, clause by clause: the rail, the governor, the overshoot detector, PWRBRK# and ALERT_CAUSE. -/
theorem powerRailEvents : Obligations.PowerRailEvents := by
  intro s
  refine ⟨fun hen htrip => if_neg (by simp [hen, htrip]), fun hen hgood htrip => if_neg (by simp [hen, hgood, htrip]),
    fun hen => if_neg (by simp [hen]), fun c hc => rampSettled_endsIn hc, rampSettled_self, fun h => if_pos h,
    fun h => if_pos (by simpa using h), fun h => if_pos (by simpa [or_assoc] using h), fun want => slewWindow_completes want s,
    completes_of_endsIn rfl ⟨rfl, rfl, rfl, rfl⟩, pwrbrkAssert_completes, rfl, fun f v hr hf => alertCauseWrite_pf hr hf,
    fun f v hr hf => endsIn_of_barAccess hr rfl (if_neg hf)⟩

end Sys2Proof.Proofs
end

section
/-! PROOFS of the statements on the host window and on the buffers and slots it shows. -/

namespace Sys2Proof.Proofs

open Sys2Proof.Machine Sys2Proof.Safety Sys2Proof.Laws

/-! ## The host window (R41) -/

section Window

variable {f : Fn} {off : BitVec 34} {s : State}

theorem hostWindowRead_mapped (hr : reachable f s) {a : Nat} (ha : s.windowAddr f.val off.toNat = some a) (n : Nat) (ue : Bool) :
    endsIn (.hostWindowRead f off n ue) s (emit (.window f.val (if ue then [] else memRead s.mem a n) ue)
      (if ue then tookFree (ueRead (a + freeNumber s % max n 1) s) else s)) :=
  endsIn_of_barAccess hr rfl (by simp only [ha])

theorem hostWindowRead_unmapped (hr : reachable f s) (hnone : s.windowAddr f.val off.toNat = none) (n : Nat) (ue : Bool) :
    endsIn (.hostWindowRead f off n ue) s
      (bump f.val cViolWinUnmapped (emit (.window f.val (List.replicate n 0#8) false) s)) :=
  endsIn_of_barAccess hr rfl (by simp only [hnone])

theorem hostWindowWrite_mapped (hr : reachable f s) {a : Nat} (ha : s.windowAddr f.val off.toNat = some a) (data : Bytes) :
    endsIn (.hostWindowWrite f off data) s (Machine.store a data s) :=
  endsIn_of_barAccess hr rfl (by simp only [ha])

theorem hostWindowWrite_unmapped (hr : reachable f s) (hnone : s.windowAddr f.val off.toNat = none) (data : Bytes) :
    endsIn (.hostWindowWrite f off data) s (bump f.val cViolWinUnmapped s) :=
  endsIn_of_barAccess hr rfl (by simp only [hnone])

end Window

/-- Settles O12: reads and writes of a mapped slot, then of an unmapped one. -/
theorem hostWindow : Obligations.HostWindow := by
  intro f off n data s hr
  refine ⟨fun a ha => ⟨hostWindowRead_mapped hr ha n false, hostWindowRead_mapped hr ha n true, ?_⟩, fun hnone =>
    ⟨fun ue => hostWindowRead_unmapped hr hnone n ue, hostWindowWrite_unmapped hr hnone data⟩⟩
  exact completes_of_endsIn (hostWindowWrite_mapped hr ha data) ⟨rfl, fun hok => ⟨memWrite_wf hok, fun x => memWrite_get hok⟩⟩

/-! ## Buffers and the slots of the window (R41, R69, R265) -/

section Taken

variable {f : Fn} {src : Src} {s t : State} {c : Cmd}

/-- What BUF_ALLOC makes of the units granted, or of their lack. -/
def bufAllocEnd (f : Fn) (c : Cmd) (s t : State) : Grant → State
  | .short => c.end eNoMem t
  | .waits u => { u with funcs := s.funcs, turn := s.turn, cxl := s.cxl }
  | .got us u =>
    let i := issue f.val kBuffer (Tab.keys u.bufs) u
    c.answer stOk i.1 0 { i.2 with bufs := Tab.put i.2.bufs i.1 { fn := f.val, units := us } }

theorem bufAlloc_endsIn (h : taken f.val opBufAlloc src [(0x10, 4)] true s = some (c, t)) (hn : 0 < c.arg 0x10 4)
    (hmax : c.arg 0x10 4 ≤ 4096) (hlost : t.hbmLost = false) (hnone : t.hbmNone = false) {g : Grant}
    (hg : grantUnits .buffer (t.tagOf agSch f.val) (c.arg 0x10 4) t = g) :
    endsIn (.bufAlloc f src) s (bufAllocEnd f c s t g) := by
  show execBufAlloc f src s = _
  unfold execBufAlloc
  refine command_endsIn h ?_
  have hargs : ¬ (c.arg 0x10 4 = 0 ∨ 4096 < c.arg 0x10 4) := by omega
  simp only [if_neg hargs, Cmd.needsHbm, hlost, hnone, Bool.false_eq_true, if_false, hg]
  cases g <;> rfl

theorem bufFree_endsIn (h : taken f.val opBufFree src [] false s = some (c, t))
    (hlive : handleIs t f.val kBuffer c.e.handle.toNat (Tab.has t.bufs c.e.handle.toNat) = .live) :
    endsIn (.bufFree f src) s (
      if t.slotsOf f.val c.e.handle.toNat + t.tasksOn c.e.handle.toNat + t.runsOn c.e.handle.toNat ≠ 0 then c.end eBusy t
      else c.end stOk (dropBuf c.e.handle.toNat t)) := by
  obtain ⟨hf, -, -⟩ := taken_cmd h
  show execBufFree f src s = _
  unfold execBufFree
  exact command_endsIn h (withHandle_live (hf ▸ hlive))

/-- What WIN_MAP makes of a slot and a unit of a live buffer. -/
theorem winMap_endsIn (h : taken f.val opWinMap src [(0x10, 2), (0x14, 4)] false s = some (c, t))
    (hlive : handleIs t f.val kBuffer c.e.handle.toNat (Tab.has t.bufs c.e.handle.toNat) = .live) {b : Buf} {u : Nat}
    (hb : Tab.find t.bufs c.e.handle.toNat = some b) (hu : b.units[c.arg 0x14 4]? = some u) (hslot : c.arg 0x10 2 < 4096) :
    endsIn (.winMap f src) s (
      if t.topUnit ≤ u then c.drop cViolWinAlias t
      else if Tab.has (t.fn f.val).slots (c.arg 0x10 2) then c.end eBusy t
      else c.end stOk (updFn f.val (fun x => { x with
        slots := Tab.put x.slots (c.arg 0x10 2) { buf := c.e.handle.toNat, unit := c.arg 0x14 4 } }) t)) := by
  obtain ⟨hf, -, -⟩ := taken_cmd h
  show execWinMap f src s = _
  unfold execWinMap
  refine command_endsIn h ((withHandle_live (hf ▸ hlive)).trans ?_)
  simp only [hb, Option.map_some, Option.bind_some, hu, if_neg (Nat.not_le.mpr hslot)]

theorem winUnmap_endsIn (h : taken f.val opWinUnmap src [(0x10, 2)] true s = some (c, t)) (hslot : c.arg 0x10 2 < 4096) :
    endsIn (.winUnmap f src) s (c.end stOk (updFn f.val (fun x => { x with slots := Tab.erase x.slots (c.arg 0x10 2) }) t)) := by
  show execWinUnmap f src s = _
  unfold execWinUnmap
  exact command_endsIn h (if_neg (Nat.not_le.mpr hslot))

end Taken

/-- Settles O29: the four commands, each by its own lemma. -/
theorem buffersAndWindows : Obligations.BuffersAndWindows := by
  refine fun f src s t c => ⟨fun h hn hmax hlost hnone => ⟨?_, ?_, ?_⟩, fun h hlive => bufFree_endsIn h hlive, ?_,
    fun h hslot => winUnmap_endsIn h hslot⟩
  · exact fun us u hg => bufAlloc_endsIn h hn hmax hlost hnone hg
  · exact fun hg => bufAlloc_endsIn h hn hmax hlost hnone hg
  · exact fun u hg => bufAlloc_endsIn h hn hmax hlost hnone hg
  · intro handle h hlive b u hb hu hslot
    have hend := winMap_endsIn h hlive hb hu hslot
    refine ⟨fun hle => ?_, fun hlt hfree => ?_⟩
    · rwa [if_pos hle] at hend
    · rwa [if_neg (Nat.not_le.mpr hlt), hfree, if_neg Bool.false_ne_true] at hend

end Sys2Proof.Proofs
end

section
/-! PROOFS of the statements on fences, Function Level Reset and SEC_RESET. -/

namespace Sys2Proof.Proofs

open Sys2Proof.Machine Sys2Proof.Safety Sys2Proof.Laws

/-! ## Writes of a function's configuration space -/

theorem fn_updFn_same (f : Nat) (g : Func → Func) (s : State) : (updFn f g s).fn f = g (s.fn f) := get_upd_same ..

theorem proc_updProc_same (p : Nat) (g : Proc → Proc) (s : State) : (updProc p g s).proc p = g (s.proc p) := get_upd_same ..

/-- A configuration write reaches a function that is there, under no FLR, once CFG is set. -/
theorem configWrite_reachable {f : Fn} {s : State} (h : reachable f s) (run : State → State) : configWrite f.val run s = run s := by
  obtain ⟨-, hcfg, hpresent, hflr⟩ := h
  simp [configWrite, hcfg, hpresent, hflr]

theorem endsIn_of_configWrite {c : Instr} {f : Fn} {s t : State} {run : State → State} (h : reachable f s)
    (hc : exec c s = live s (configWrite f.val run s)) (ht : run s = t) : endsIn c s t := by
  rw [configWrite_reachable h, ht] at hc
  exact endsIn_of_live h.1 hc

/-! ## Fences (R44, R47, R78, R81) -/

section Fences

variable {f : Fn} {s : State}

theorem busMasterEnableClear_endsIn (hr : reachable f s) (hbme : (s.fn f.val).bme = true) (hboot : f.val = 0 → s.boot.fetching = false) :
    endsIn (.busMasterEnableClear f) s (fence f.val 2 (updFn f.val (fun x => { x with bme := false }) s)) := by
  have hfetch : ¬ (f.val = 0 && s.boot.fetching) = true := by
    simpa using hboot
  refine endsIn_of_configWrite hr rfl ((if_neg (by simp [hbme])).trans ?_)
  exact congrArg (fence f.val 2) (if_neg hfetch)

theorem busMasterEnableSet_unfenced (hr : reachable f s) (hf : (s.fn f.val).fenced = false) :
    endsIn (.busMasterEnableSet f) s (updFn f.val (fun x => { x with bme := true }) s) :=
  endsIn_of_configWrite hr rfl (if_neg (by simp [hf]))

theorem busMasterEnableSet_lifts (hr : reachable f s) (hf : (s.fn f.val).fenced = true) (hcause : (s.fn f.val).fenceCause = 2#2)
    (hd3 : (s.fn f.val).d3 = false) :
    endsIn (.busMasterEnableSet f) s (liftFence f.val (updFn f.val (fun x => { x with bme := true }) s)) :=
  endsIn_of_configWrite hr rfl ((if_pos (by simp [hf, hcause])).trans (if_neg (by simp [hd3])))

theorem d3hotEntry_endsIn (hr : reachable f s) (hd3 : (s.fn f.val).d3 = false) : endsIn (.d3hotEntry f) s
    (if s.busyFn f.val then fence f.val 3 (bump f.val cViolD3Active (updFn f.val (fun x => { x with d3 := true }) s))
      else updFn f.val (fun x => { x with d3 := true }) s) :=
  endsIn_of_configWrite hr rfl (if_neg (by simp [hd3]))

theorem d0Return_lifts (hr : reachable f s) (hf : (s.fn f.val).fenced = true) (hcause : (s.fn f.val).fenceCause = 3#2)
    (hbme : (s.fn f.val).bme = true) :
    endsIn (.d0Return f) s (liftFence f.val (updFn f.val (fun x => { x with d3 := false }) s)) :=
  endsIn_of_configWrite hr rfl ((if_pos (by simp [hf, hcause])).trans (if_pos hbme))

theorem fenceDone_endsIn (ha : awake s) (hf : (s.fn f.val).fenced = true) (hdone : (s.fn f.val).fenceDone = false) :
    endsIn (.fenceDone f) s (raiseVec f.val 0 (updFn f.val (fun x => { x with fenceDone := true }) s)) :=
  endsIn_of_guard ha rfl (by simp [hf, hdone])

theorem leaseExpiry_endsIn (ha : awake s) (harmed : (s.fn f.val).armed = true) (hexp : (s.fn f.val).expired = false) :
    endsIn (.leaseExpiry f) s (fence f.val 1 (updFn f.val (fun x => { x with expired := true }) s)) :=
  endsIn_of_guard ha rfl (by simp [harmed, hexp])

end Fences

/-! ## Function Level Reset (R54, R55) -/

/-- The registers that an FLR keeps, in a function otherwise at reset (R55). -/
def flrFunc (x : Func) : Func := { ({} : Func) with
  bme := x.bme, d3 := x.d3, msixEn := x.msixEn, msixMask := x.msixMask, devCtl := x.devCtl, aspm := x.aspm, ats := x.ats,
  pasid := x.pasid, aerMask := x.aerMask, fepoch := x.fepoch + 1 }

/-- A function's reset puts its registers back last of all, in a state that holds none of its keys. -/
theorem functionReset_eq (f : Nat) (s : State) :
    ∃ t, functionReset f s = updFn f flrFunc t ∧ ∀ e ∈ t.sec.keys, e.2.owner.fn ≠ f := by
  unfold functionReset
  extract_lets t₁ t₂ t₃ t₄ t₅ t₆ t₇ t₈ t₉ sec prov t
  clear_value t₉
  refine ⟨t, rfl, fun e he => ?_⟩
  have hkept := (List.mem_filter.mp he).2
  simpa using hkept

theorem fn_functionReset (f : Nat) (s : State) : ∃ x, (functionReset f s).fn f = flrFunc x := by
  obtain ⟨t, ht, -⟩ := functionReset_eq f s
  exact ⟨t.fn f, by rw [ht, fn_updFn_same]⟩

theorem functionReset_keys (f : Nat) (s : State) : ∀ e ∈ (functionReset f s).sec.keys, e.2.owner.fn ≠ f := by
  obtain ⟨t, ht, hkeys⟩ := functionReset_eq f s
  rw [ht]
  exact hkeys

theorem initiateFlr_endsIn {f : Fn} {s : State} (hr : reachable f s) :
    endsIn (.initiateFlr f) s (updFn f.val (fun x => { x with flr := true }) s) := by
  obtain ⟨ha, hcfg, hpresent, hflr⟩ := hr
  refine endsIn_of_live ha (congrArg (live s) ?_)
  simp [configWrite, hcfg, hpresent, hflr]

theorem flrComplete_endsIn {f : Fn} {s : State} (ha : awake s) (hflr : (s.fn f.val).flr = true) :
    let t := resumeLoads (functionReset f.val s)
    endsIn (.flrComplete f) s (if f.val = 0 ∧ t.link.vfEnable = true then endVfs t else t) := by
  refine endsIn_of_live ha ((if_neg (by simp [hflr])).trans (congrArg (live s) ?_))
  simp

/-! ## SEC_RESET (R102) -/

theorem finishUpdate_upd (st : Status) (s : State) : (finishUpdate st s).upd = none := by
  unfold finishUpdate
  split
  · assumption
  · split
    · rfl
    · exact complete_upd ..

theorem stopped_sec_proc (s : State) (k : Nat) : (stopped 0 s).proc k = s.proc k :=
  congrArg (fun l : Tab Proc => Tab.get ({} : Proc) l k) (setReady_procs rSecRom false s)

/-- An advance of SEC's epoch, at once or deferred, writes SEC's own record alone, unless SEC is faulted. -/
theorem revoke_sec {s : State} (cause : Nat) (h : (s.proc 0).state ≠ .faulted) :
    ∃ g : Proc → Proc, revoke 0 cause s = updProc 0 g s ∧ ∀ x, (g x).state = x.state ∧ (g x).lastCause = x.lastCause := by
  have hnow : ∃ g : Proc → Proc, revokeNow 0 cause s = updProc 0 g s ∧ ∀ x, (g x).state = x.state ∧ (g x).lastCause = x.lastCause := by
    refine ⟨_, if_neg ?_, fun x => ⟨rfl, rfl⟩⟩
    rw [proc_updProc_same]
    exact h
  unfold revoke
  extract_lets x soon
  split
  · exact ⟨_, rfl, fun x => ⟨rfl, rfl⟩⟩
  · exact hnow

/-- SEC stopped and its epoch advanced: no session, its bit of READY_MAP cleared, and what it holds of an update left (R102). -/
theorem revoke_stopped_sec {s : State} (h : (s.proc 0).state = .restarting) (cause : Nat) :
    let t := revoke 0 cause (stopped 0 s)
    (t.proc 0).state = .restarting ∧ (t.proc 0).lastCause = (s.proc 0).lastCause ∧ t.upd = s.upd ∧ t.link = s.link ∧
      t.sec.sessions = [] ∧ t.mem = s.mem ∧ t.isReady rSecRom = false := by
  obtain ⟨g, hg, hkeeps⟩ := revoke_sec (s := stopped 0 s) cause (by simp [stopped_sec_proc, h])
  obtain ⟨hstate, hcause⟩ := hkeeps (s.proc 0)
  intro t
  have ht : t = updProc 0 g (stopped 0 s) := hg
  clear_value t
  subst ht
  have hproc : (updProc 0 g (stopped 0 s)).proc 0 = g (s.proc 0) := by rw [proc_updProc_same, stopped_sec_proc]
  exact ⟨(congrArg Proc.state hproc).trans (hstate.trans h), (congrArg Proc.lastCause hproc).trans hcause, setReady_upd ..,
    setReady_link .., rfl, setReady_mem .., (isReady_setReady rSecRom false s (by decide)).trans (if_pos rfl)⟩

theorem secReset_completes {s : State} (ha : awake s) (hcfg : s.isReady rCfg = true) (hflr : (s.fn 0).flr = false)
    (hbusy : s.link.secResetBusy = false) (ok : Bool) : completes (.secReset ok) s (fun t => t.link.secResetBusy = true ∧
      (t.proc 0).state = .restarting ∧ (t.proc 0).lastCause = 5 ∧ t.upd = none ∧ t.sec.sessions = [] ∧ t.mem = s.mem ∧
      t.isReady rSecRom = false) := by
  show ∃ t, execSecReset ok s = .next t ∧ _
  unfold execSecReset
  rw [if_neg (by simp [hcfg, hflr]), if_neg (by simp [hbusy])]
  extract_lets cur a b c d link r boot
  have hb : b.mem = s.mem := by
    have ha : a.mem = s.mem := stageBusy_mem s
    clear_value cur a
    cases cur with
    | none => exact ha
    | some p =>
      simp only [b]
      split <;> simpa using ha
  have hc : c.upd = none ∧ c.mem = s.mem := by
    simp only [c]
    split
    · exact ⟨finishUpdate_upd .., (finishUpdate_mem ..).trans hb⟩
    · next hnone => exact ⟨by simpa using hnone, hb⟩
  obtain ⟨hupd, hmem⟩ := hc
  clear_value c
  have hproc : (d.proc 0).state = .restarting ∧ (d.proc 0).lastCause = 5 := by
    simp only [d, proc_updProc_same, and_self]
  obtain ⟨hstate, hcause⟩ := hproc
  obtain ⟨hrstate, hrcause, hrupd, hrlink, hrsessions, hrmem, hrready⟩ :=
    revoke_stopped_sec (s := { d with link := { link with secResetBusy := true } }) hstate 5
  exact ⟨_, live_awake ha _, congrArg HostLink.secResetBusy hrlink, hrstate, hrcause.trans hcause, hrupd.trans hupd, hrsessions,
    hrmem.trans hmem, hrready⟩

/-- Settles O15: the fences by their causes, then FLR, then SEC_RESET. -/
theorem functionFencesAndResets : Obligations.FunctionFencesAndResets := by
  refine ⟨fun f s ha => ⟨busMasterEnableClear_endsIn, busMasterEnableSet_unfenced, busMasterEnableSet_lifts, ?_, ?_, d0Return_lifts,
    fenceDone_endsIn ha, leaseExpiry_endsIn ha⟩, fun f s => ⟨initiateFlr_endsIn, flrComplete_endsIn, ?_, functionReset_keys f.val s⟩,
    fun ok s ha hcfg hflr => ⟨fun hbusy => ?_, fun hbusy => secReset_completes ha hcfg hflr hbusy ok⟩⟩
  · intro hr hd3 hbusy
    have hend := d3hotEntry_endsIn hr hd3
    rwa [if_pos hbusy] at hend
  · intro hr hd3 hbusy
    have hend := d3hotEntry_endsIn hr hd3
    rwa [if_neg (by simp [hbusy])] at hend
  · obtain ⟨x, hx⟩ := fn_functionReset f.val s
    rw [hx]
    exact ⟨rfl, rfl, rfl, rfl, rfl, rfl, rfl, rfl, rfl, rfl, rfl, rfl, rfl⟩
  · exact endsIn_of_live ha ((if_neg (by simp [hcfg, hflr])).trans (if_pos hbusy))

end Sys2Proof.Proofs
end

section
/-! PROOFS of the statement on CXL.mem, back-invalidation and the device's cache. -/

namespace Sys2Proof.Proofs

open Sys2Proof.Machine Sys2Proof.Safety Sys2Proof.Laws

/-! ## CXL.mem (R51) -/

section Mem

variable {line : Nat} {s : State}

theorem cxlMemRequest_covered (hmem : s.link.cxlMem = true) (hline : line < s.link.winUnits * 4194304)
    (o : Host.Outcome State Fault Refusal) :
    (if !s.link.cxlMem || decide (s.link.winUnits * 4194304 ≤ line) then done s s else o) = o :=
  if_neg (by simp [hmem, hline])

theorem cxlMemRequest_write (ha : awake s) (hmem : s.link.cxlMem = true) (hline : line < s.link.winUnits * 4194304) (d : Unit64) :
    endsIn (.cxlMemRequest line (some d) false false) s (emit (.cxlMem line none false)
      { updCxl (fun x => { x with snoop := x.snoop.erase line }) s with mem := memWrite s.mem (s.winAddr line) (unitBytes d) }) :=
  endsIn_of_live ha (cxlMemRequest_covered hmem hline _)

/-- The memory that the write leaves is named, so that no check of the parts evaluates the bytes written. -/
theorem cxlMemRequest_write_completes (ha : awake s) (hmem : s.link.cxlMem = true) (hline : line < s.link.winUnits * 4194304)
    (d : Unit64) : completes (.cxlMemRequest line (some d) false false) s (fun t =>
      t.cxl = { s.cxl with snoop := s.cxl.snoop.erase line } ∧ t.out = s.out ++ [.cxlMem line none false] ∧
      t.mem = memWrite s.mem (s.winAddr line) (unitBytes d) ∧ { t with cxl := s.cxl, out := s.out, mem := s.mem } = s) := by
  have hend := cxlMemRequest_write ha hmem hline d
  generalize memWrite s.mem (s.winAddr line) (unitBytes d) = m at hend ⊢
  exact completes_of_endsIn hend ⟨rfl, rfl, rfl, rfl⟩

theorem cxlMemRequest_read (ha : awake s) (hmem : s.link.cxlMem = true) (hline : line < s.link.winUnits * 4194304) :
    endsIn (.cxlMemRequest line none false false) s
      (emit (.cxlMem line (some (bytesUnit (memRead s.mem (s.winAddr line) 64))) false) s) :=
  endsIn_of_live ha (cxlMemRequest_covered hmem hline _)

theorem cxlMemRequest_poison (ha : awake s) (hmem : s.link.cxlMem = true) (hline : line < s.link.winUnits * 4194304) :
    endsIn (.cxlMemRequest line none false true) s
      (bumpPart cHbmPoison (emit (.cxlMem line none true) (ueRead (s.winAddr line) s))) :=
  endsIn_of_live ha (cxlMemRequest_covered hmem hline _)

theorem backInvalidateResponse_endsIn (ha : awake s) (hw : line ∈ s.cxl.waiting) (data : Option Unit64) :
    let u := updCxl (fun x => { x with waiting := x.waiting.erase line, snoop := x.snoop.erase line }) s
    endsIn (.backInvalidateResponse line data) s (data.elim u fun d => Machine.store (s.winAddr line) (unitBytes d) u) := by
  refine endsIn_of_live ha ((if_neg (by simp [hw])).trans (congrArg (live s) ?_))
  cases data with
  | none => rfl
  | some d => rfl

end Mem

/-! ## The device's cache (R52, R53) -/

theorem afterSnoop_data {x : Mesi} (h : x ≠ .i) : afterSnoop .data x = .s := by
  cases x <;> simp_all [afterSnoop]

theorem afterSnoop_inv (x : Mesi) : afterSnoop .inv x = .i := by
  cases x <;> rfl

theorem afterSnoop_cur (x : Mesi) : afterSnoop .cur x = x := by
  cases x <;> rfl

section Cache

variable {line : Nat} {s : State}

/-- What a snoop leaves of a line of the cache that is not being evicted. -/
theorem answerSnoop_cached (hev : s.cxl.evict.find? (fun e => e.line == line) = none) {c : CacheLine}
    (hc : Tab.find s.cxl.lines line = some c) (k : SnoopKind) :
    answerSnoop k line s = emit (.cxlSnp line (if c.state = .m then some c.data else none) (afterSnoop k c.state))
      (updCxl (fun x => { x with
        lines := if afterSnoop k c.state = .i then Tab.erase x.lines line
          else Tab.put x.lines line { c with state := afterSnoop k c.state } }) s) := by
  simp only [answerSnoop, hev, hc]

theorem answerSnoop_absent (hev : s.cxl.evict.find? (fun e => e.line == line) = none) (hc : Tab.find s.cxl.lines line = none)
    (k : SnoopKind) : answerSnoop k line s = emit (.cxlSnp line none .i) s := by
  simp only [answerSnoop, hev, hc]

theorem snpData_endsIn (ha : awake s) (hcache : s.link.cxlCache = true) : endsIn (.snpData line) s (answerSnoop .data line s) :=
  endsIn_of_live ha (if_pos hcache)

theorem snpInv_endsIn (ha : awake s) (hcache : s.link.cxlCache = true) : endsIn (.snpInv line) s (answerSnoop .inv line s) :=
  endsIn_of_live ha (if_pos hcache)

theorem snpCur_endsIn (ha : awake s) (hcache : s.link.cxlCache = true) : endsIn (.snpCur line) s (answerSnoop .cur line s) :=
  endsIn_of_live ha (if_pos hcache)

theorem writePull_endsIn (ha : awake s) {e : Evict} (he : s.cxl.evict.find? (fun e => e.line == line) = some e) (hd : e.kind = .dirty) :
    endsIn (.writePull line) s (emit (.cxlPull line e.data e.snooped) s) := by
  refine endsIn_of_live ha ?_
  show execWritePull line s = _
  simp only [execWritePull, he, if_pos hd]

theorem evictionGo_completes (ha : awake s) (line : Nat) : completes (.evictionGo line) s (fun t =>
    (∀ e ∈ t.cxl.evict, e.line ≠ line) ∧ (∀ e ∈ s.cxl.evict, e.line ≠ line → e ∈ t.cxl.evict) ∧
    { t with cxl := { t.cxl with evict := s.cxl.evict } } = s) := by
  refine completes_of_endsIn (endsIn_of_live ha rfl) ⟨fun e he => ?_, fun e he hne => ?_, rfl⟩
  · simpa using (List.mem_filter.mp he).2
  · exact List.mem_filter.mpr ⟨he, by simpa using hne⟩

end Cache

/-- Settles O16: CXL.mem and back-invalidation, then the snoops and the evictions. -/
theorem cxlMemory : Obligations.CxlMemory := by
  refine ⟨fun line d s ha => ⟨fun hmem hline => ⟨cxlMemRequest_write_completes ha hmem hline d,
        cxlMemRequest_read ha hmem hline, cxlMemRequest_poison ha hmem hline⟩,
      fun hw => ⟨backInvalidateResponse_endsIn ha hw none, backInvalidateResponse_endsIn ha hw (some d)⟩⟩,
    fun line s ha => ⟨fun hcache hev => ⟨fun c hc hne => ⟨?_, ?_, ?_⟩, fun hc => ⟨?_, ?_, ?_⟩⟩,
      fun e he hd => writePull_endsIn ha he hd, evictionGo_completes ha line⟩⟩
  · have h := snpData_endsIn (line := line) ha hcache
    simpa only [answerSnoop_cached hev hc, afterSnoop_data hne, reduceCtorEq, if_false] using h
  · have h := snpInv_endsIn (line := line) ha hcache
    simpa only [answerSnoop_cached hev hc, afterSnoop_inv, if_true] using h
  · have h := snpCur_endsIn (line := line) ha hcache
    simpa only [answerSnoop_cached hev hc, afterSnoop_cur, if_neg hne] using h
  · exact answerSnoop_absent hev hc .data ▸ snpData_endsIn ha hcache
  · exact answerSnoop_absent hev hc .inv ▸ snpInv_endsIn ha hcache
  · exact answerSnoop_absent hev hc .cur ▸ snpCur_endsIn ha hcache

end Sys2Proof.Proofs
end

section
/-! PROOFS of the statement on handles: the fields of a handle read back, and a GEN is taken that no issued handle carries. -/

namespace Sys2Proof.Proofs

open Sys2Proof.Machine Sys2Proof.Safety Sys2Proof.Laws

/-! ## The fields of a handle (R66) -/

theorem hFunc_mkHandle (f kind gen idx : Nat) : hFunc (mkHandle f kind gen idx) = f % 32 := by
  unfold hFunc mkHandle
  omega

theorem hKind_mkHandle (f kind gen idx : Nat) : hKind (mkHandle f kind gen idx) = kind % 8 := by
  unfold hKind mkHandle
  omega

theorem hGen_mkHandle (f kind gen idx : Nat) : hGen (mkHandle f kind gen idx) = gen % 2 ^ 24 := by
  unfold hGen mkHandle
  omega

/-- Handles with GENs in range are the same only where the GENs are. -/
theorem mkHandle_gen_inj {f kind idx a b : Nat} (ha : a < 2 ^ 24) (hb : b < 2 ^ 24)
    (h : mkHandle f kind a idx = mkHandle f kind b idx) : a = b := by
  have hgen := congrArg hGen h
  rwa [hGen_mkHandle, hGen_mkHandle, Nat.mod_eq_of_lt ha, Nat.mod_eq_of_lt hb] at hgen

/-! ## A GEN that is not in use (log 15) -/

/-- The search goes up by as many GENs as it finds in use, at most n, and stops at the first that is not. -/
theorem freshGen_spec (issued : List Nat) (f kind idx n g : Nat) :
    ∃ k ≤ n, freshGen issued f kind idx g n = g + k ∧ (∀ j < k, mkHandle f kind (g + j) idx ∈ issued) ∧
      (k < n → mkHandle f kind (g + k) idx ∉ issued) := by
  induction n generalizing g with
  | zero => exact ⟨0, le_rfl, rfl, by simp, by simp⟩
  | succ n ih =>
    simp only [freshGen, List.contains_iff_mem]
    split
    · next hused =>
      obtain ⟨k, hk, heq, hbelow, hstop⟩ := ih (g + 1)
      refine ⟨k + 1, by omega, by omega, fun j hj => ?_, fun hlt => ?_⟩
      · cases j with
        | zero => exact hused
        | succ j => simpa only [Nat.add_right_comm, Nat.add_assoc] using hbelow j (by omega)
      · simpa only [Nat.add_right_comm, Nat.add_assoc] using hstop (by omega)
    · next hfree => exact ⟨0, by omega, rfl, by simp, fun _ => hfree⟩

/-- A list that holds the handles of all the first m GENs from g on has at least m entries. -/
theorem le_length_of_gens_mem {issued : List Nat} {f kind idx g m : Nat} (hrange : g + m ≤ 2 ^ 24)
    (hmem : ∀ j < m, mkHandle f kind (g + j) idx ∈ issued) : m ≤ issued.length := by
  have hnodup : ((List.range m).map (fun j => mkHandle f kind (g + j) idx)).Nodup := by
    refine List.Nodup.map_on (fun a ha b hb h => ?_) List.nodup_range
    rw [List.mem_range] at ha hb
    have := mkHandle_gen_inj (by omega) (by omega) h
    omega
  have hsub : (List.range m).map (fun j => mkHandle f kind (g + j) idx) ⊆ issued := by
    intro h hin
    obtain ⟨j, hj, rfl⟩ := List.mem_map.mp hin
    exact hmem j (List.mem_range.mp hj)
  simpa using (hnodup.subperm hsub).length_le

/-- As many tries as there are handles find a GEN that none of them carries. -/
theorem freshGen_not_mem {issued : List Nat} {g : Nat} (f kind idx : Nat) (hrange : g + issued.length < 2 ^ 24) :
    mkHandle f kind (freshGen issued f kind idx g issued.length) idx ∉ issued := by
  obtain ⟨k, hk, heq, hbelow, hstop⟩ := freshGen_spec issued f kind idx issued.length g
  rw [heq]
  by_cases hlt : k < issued.length
  · exact hstop hlt
  · intro hin
    have hall : ∀ j < k + 1, mkHandle f kind (g + j) idx ∈ issued := fun j hj =>
      (Nat.lt_succ_iff_lt_or_eq.mp hj).elim (hbelow j) (fun h => h ▸ hin)
    have := le_length_of_gens_mem (by omega) hall
    omega

theorem issueAt_not_mem (f kind idx : Nat) {s : State} (h : s.issued.length < 2 ^ 23) : (issueAt f kind idx s).1 ∉ s.issued := by
  have hfirst : freeNumber s % 2 ^ 23 < 2 ^ 23 := Nat.mod_lt _ (by decide)
  exact freshGen_not_mem f kind idx (by omega)

theorem handleIs_bad {s : State} {f kind h : Nat} (hfn : hFunc h ≠ f) (live : Bool) : handleIs s f kind h live = .bad :=
  if_neg fun hall => hfn hall.1

/-- What is issued is a handle with the function and the kind asked for. -/
theorem issue_fst (f kind : Nat) (live : List Nat) (s : State) : ∃ gen idx, (issue f kind live s).1 = mkHandle f kind gen idx :=
  ⟨_, _, rfl⟩

/-- Issuing lists the handle and takes two free values. -/
theorem issue_snd (f kind : Nat) (live : List Nat) (s : State) :
    (issue f kind live s).2 = { s with issued := (issue f kind live s).1 :: s.issued, free := s.free + 1 + 1 } := rfl

/-- Settles O30: a fresh GEN is found, the fields read back, and another function's handle is bad. -/
theorem handlesAreFresh : Obligations.HandlesAreFresh := by
  intro f kind live s hf hkind hissued r
  obtain ⟨gen, idx, hr⟩ : ∃ gen idx, r.1 = mkHandle f kind gen idx := issue_fst f kind live s
  have hfn : hFunc r.1 = f := by rw [hr, hFunc_mkHandle, Nat.mod_eq_of_lt hf]
  have hk : hKind r.1 = kind := by rw [hr, hKind_mkHandle, Nat.mod_eq_of_lt hkind]
  have hfresh : r.1 ∉ s.issued := issueAt_not_mem f kind _ (s := tookFree s) hissued
  have hnext : r.2 = { s with issued := r.1 :: s.issued, free := s.free + 1 + 1 } := issue_snd f kind live s
  exact ⟨hfresh, hfn, hk, by rw [hnext], fun g hg => handleIs_bad (fun h => hg (h.symm.trans hfn)) true, by rw [hnext]⟩

end Sys2Proof.Proofs
end

section
/-! PROOFS of the statements on doorbells and registers of the mailbox: ring pair 0, the doorbells, the coalescing time, the direct
slot, CANCEL_DB and the lease. -/

namespace Sys2Proof.Proofs

open Sys2Proof.Machine Sys2Proof.Safety Sys2Proof.Laws

/-! ## Ring pair 0 by its registers (R57, R58) -/

/-- What a write of RING_CFG puts into a ring pair's registers (R57). -/
def ringCfgReg (v : BitVec 32) (r : Ring) : Ring := { r with
  vector := BitVec.ofNat 6 (bits v 25 6), weight := BitVec.ofNat 4 (bits v 21 4),
  sqLog := BitVec.ofNat 5 (bits v 16 5), cqLog := BitVec.ofNat 5 (bits v 11 5) }

section RingCfg

variable {f : Nat} {v : BitVec 32} {s : State}

theorem wrRingCfg_enabled (hen : (s.ring f 0).enable = true) :
    wrRingCfg f v s = if v.getLsbD 31 then bump f cViolIarekRing s else stopRing f 0 s := if_pos hen

theorem wrRingCfg_disabled (hen : (s.ring f 0).enable = false) :
    wrRingCfg f v s = if !v.getLsbD 31 then updRing f 0 (fun _ => ringCfgReg v (s.ring f 0)) s
      else if ringOk f (ringCfgReg v (s.ring f 0)) then startRing f 0 (fun _ => ringCfgReg v (s.ring f 0)) s
      else bump f cViolIarekRing (updRing f 0 (fun _ => ringCfgReg v (s.ring f 0)) s) := if_neg (by simp [hen])

end RingCfg

theorem ringEnable_endsIn {f : Fn} {v : BitVec 32} {s t : State} (hr : reachable f s) (hv : v.getLsbD 31 = true)
    (ht : wrRingCfg f.val v s = t) : endsIn (.ringEnable f v) s t :=
  endsIn_of_barAccess hr (if_pos hv) ht

theorem ringDisable_endsIn {f : Fn} {v : BitVec 32} {s t : State} (hr : reachable f s) (hv : v.getLsbD 31 = false)
    (ht : wrRingCfg f.val v s = t) : endsIn (.ringDisable f v) s t :=
  endsIn_of_barAccess hr (if_neg (ne_true_of_eq_false hv)) ht

/-! ## The doorbells (R59, R79) -/

section Doorbells

variable {f q : Nat} {v : BitVec 32} {s : State}

theorem wrSqTail_expired (hexp : (s.fn f).expired = true) : wrSqTail f q v s = bump f cViolLeaseLate s := if_pos hexp

theorem wrCqHead_expired (hexp : (s.fn f).expired = true) : wrCqHead f q v s = bump f cViolLeaseLate s := if_pos hexp

theorem wrSqTail_refused (hexp : (s.fn f).expired = false) (h : (s.ring f q).enable = false ∨ (s.ring f q).sqSize ≤ v.toNat) :
    wrSqTail f q v s = bump f cViolIarekDoorbell s :=
  (if_neg (by simp [hexp])).trans (if_pos (by simpa using h))

/-- On an enabled ring a tail within its size is taken where it leaves the queue at most full. -/
theorem wrSqTail_inSize (hexp : (s.fn f).expired = false) (hen : (s.ring f q).enable = true) (hv : v.toNat < (s.ring f q).sqSize) :
    let r := s.ring f q
    wrSqTail f q v s =
      if r.sqSize ≤ (v.toNat + r.sqSize - r.sqTail) % r.sqSize + (r.sqTail + r.sqSize - r.sqHead) % r.sqSize then
        bump f cViolIarekDoorbell s
      else updFn f (fun x => { x with armed := x.armed || q == 0 }) (updRing f q (fun r => { r with sqTail := v.toNat }) s) :=
  (if_neg (by simp [hexp])).trans (if_neg (by simp [hen, hv]))

/-- On an enabled ring a head within its size is taken up to the tail. -/
theorem wrCqHead_inSize (hexp : (s.fn f).expired = false) (hen : (s.ring f q).enable = true) (hv : v.toNat < (s.ring f q).cqSize) :
    let r := s.ring f q
    wrCqHead f q v s =
      if (r.cqTail + r.cqSize - r.cqHead) % r.cqSize < (v.toNat + r.cqSize - r.cqHead) % r.cqSize then bump f cViolIarekDoorbell s
      else pauseNow (flushHeld f q (updRing f q (fun r => { r with cqHead := v.toNat }) s)) :=
  (if_neg (by simp [hexp])).trans (if_neg (by simp [hen, hv]))

theorem wrCqHead_refused (hexp : (s.fn f).expired = false)
    (h : let r := s.ring f q
      r.enable = false ∨ r.cqSize ≤ v.toNat ∨
        (r.cqTail + r.cqSize - r.cqHead) % r.cqSize < (v.toNat + r.cqSize - r.cqHead) % r.cqSize) :
    wrCqHead f q v s = bump f cViolIarekDoorbell s := by
  by_cases hsize : (s.ring f q).enable = true ∧ v.toNat < (s.ring f q).cqSize
  · obtain ⟨hen, hv⟩ := hsize
    refine (wrCqHead_inSize hexp hen hv).trans (if_pos ?_)
    rcases h with hoff | hbig | hpast
    · simp [hen] at hoff
    · omega
    · exact hpast
  · refine (if_neg (by simp [hexp])).trans (if_pos ?_)
    simpa [imp_iff_not_or] using hsize

end Doorbells

section DoorbellCommands

variable {f : Fn} {q : RingId} {v : BitVec 32} {s t : State}

theorem sqTailDb_endsIn (hr : reachable f s) (ht : wrSqTail f.val q.val v s = t) : endsIn (.sqTailDb f q v) s t :=
  endsIn_of_barAccess hr rfl ht

theorem cqHeadDb_endsIn (hr : reachable f s) (ht : wrCqHead f.val q.val v s = t) : endsIn (.cqHeadDb f q v) s t :=
  endsIn_of_barAccess hr rfl ht

theorem coalesceTimeout_endsIn (ha : awake s) (hunsig : (s.ring f.val q.val).unsig ≠ 0) :
    endsIn (.coalesceTimeout f q) s
      (raiseVec f.val (s.ring f.val q.val).vector.toNat (updRing f.val q.val (fun r => { r with unsig := 0 }) s)) :=
  endsIn_of_live ha (if_neg hunsig)

end DoorbellCommands

/-- Settles O25: the writes of RING_CFG, then the two doorbells and the coalescing time. -/
theorem ringsByRegister : Obligations.RingsByRegister := by
  refine ⟨fun f v s hr => ⟨fun hv hen hok => ?_, fun hv hen hok => ?_, fun hv hen => ?_, fun hv hen => ?_, fun hv hen => ?_⟩,
    fun f q v s hr => ⟨fun hexp => ⟨?_, ?_⟩, fun hexp h => ?_, fun hexp hen hv hroom => ?_, fun hexp hen hv hroom => ?_,
      fun hexp h => ?_, fun hexp hen hv hroom => ?_, fun hunsig => ?_, fun hunsig => ?_⟩⟩
  · exact ringEnable_endsIn hr hv ((wrRingCfg_disabled hen).trans ((if_neg (by simp [hv])).trans (if_pos hok)))
  · exact ringEnable_endsIn hr hv ((wrRingCfg_disabled hen).trans ((if_neg (by simp [hv])).trans (if_neg (ne_true_of_eq_false hok))))
  · exact ringEnable_endsIn hr hv ((wrRingCfg_enabled hen).trans (if_pos hv))
  · exact ringDisable_endsIn hr hv ((wrRingCfg_enabled hen).trans (if_neg (ne_true_of_eq_false hv)))
  · exact ringDisable_endsIn hr hv ((wrRingCfg_disabled hen).trans (if_pos (by rw [hv]; rfl)))
  · exact sqTailDb_endsIn hr (wrSqTail_expired hexp)
  · exact cqHeadDb_endsIn hr (wrCqHead_expired hexp)
  · exact sqTailDb_endsIn hr (wrSqTail_refused hexp h)
  · exact sqTailDb_endsIn hr ((wrSqTail_inSize hexp hen hv).trans (if_neg (Nat.not_le.mpr hroom)))
  · exact sqTailDb_endsIn hr ((wrSqTail_inSize hexp hen hv).trans (if_pos hroom))
  · exact cqHeadDb_endsIn hr (wrCqHead_refused hexp h)
  · exact cqHeadDb_endsIn hr ((wrCqHead_inSize hexp hen hv).trans (if_neg (Nat.not_lt.mpr hroom)))
  · exact coalesceTimeout_endsIn hr.1 hunsig
  · exact if_pos hunsig

/-! ## The direct slot (R65) -/

section Slot

variable {f : Nat} {v : BitVec 32} {s : State}

theorem wrDirectDb_busy (hbusy : (s.fn f).busy = true) : wrDirectDb f v s = bump f cViolIarekDoorbell s := if_pos hbusy

theorem wrDirectDb_one (hbusy : (s.fn f).busy = false) :
    wrDirectDb f 1 s = if !isAdminOp (bits (s.fn f).directCmd 0 16) then bump f cViolIarekOpcode s
      else updFn f (fun x => { x with directCpl := x.directCpl ||| BitVec.ofNat 512 (2 ^ 505) }) s :=
  (if_neg (by simp [hbusy])).trans (if_neg (by simp))

/-! ## CANCEL_DB (R74) -/

theorem wrCancelHigh_none (h : (s.fn f).cancelLow = none) : wrCancelHigh f v s = bump f cViolBarAccess s := by
  simp only [wrCancelHigh, h]

theorem wrCancelHigh_some {l : BitVec 32} (h : (s.fn f).cancelLow = some l) :
    wrCancelHigh f v s = cancelHandle f (v ++ l) (updFn f (fun x => { x with cancelLow := none }) s) := by
  simp only [wrCancelHigh, h]

/-! ## The lease (R78, R79) -/

theorem wrLeaseCtrl_expired (hexp : (s.fn f).expired = true) : wrLeaseCtrl f v s = bump f cViolBarWrite s := if_pos hexp

theorem wrLeaseCtrl_inRange (hexp : (s.fn f).expired = false) (hp : 10 ≤ bits v 0 14 ∧ bits v 0 14 ≤ 10000) :
    wrLeaseCtrl f v s = updFn f (fun x => { x with period := BitVec.ofNat 14 (bits v 0 14) })
      (updFn f (fun x => { x with policy := BitVec.ofNat 2 (bits v 30 2) }) s) :=
  (if_neg (by simp [hexp])).trans (if_pos hp)

end Slot

section SlotCommands

variable {f : Fn} {s : State}

theorem directDb_endsIn {v : BitVec 32} {t : State} (hr : reachable f s) (ht : wrDirectDb f.val v s = t) :
    endsIn (.directDb f v) s t := endsIn_of_barAccess hr rfl ht

theorem cancelDb_high_endsIn {h : BitVec 64} {t : State} (hr : reachable f s) (ht : wrCancelHigh f.val (h.truncate 32) s = t) :
    endsIn (.cancelDb f true h) s t := endsIn_of_barAccess hr rfl ht

theorem leaseCtrlWrite_endsIn {v : BitVec 32} {t : State} (hr : reachable f s) (ht : wrLeaseCtrl f.val v s = t) :
    endsIn (.leaseCtrlWrite f v) s t := endsIn_of_barAccess hr rfl ht

theorem leaseHeartbeat_endsIn (hr : reachable f s) :
    endsIn (.leaseHeartbeat f) s (if (s.fn f.val).expired then bump f.val cViolLeaseLate s else s) :=
  endsIn_of_barAccess hr rfl rfl

theorem fn_updFn_updFn (f : Nat) (g h : Func → Func) (s : State) : (updFn f g (updFn f h s)).fn f = g (h (s.fn f)) := by
  rw [fn_updFn_same, fn_updFn_same]

/-- A period in range is taken with the policy, and nothing but the function's own registers changes. -/
theorem leaseCtrlWrite_completes (hr : reachable f s) (hexp : (s.fn f.val).expired = false) {v : BitVec 32}
    (hp : 10 ≤ bits v 0 14 ∧ bits v 0 14 ≤ 10000) : completes (.leaseCtrlWrite f v) s (fun t =>
      (t.fn f.val).policy = BitVec.ofNat 2 (bits v 30 2) ∧ (t.fn f.val).period = BitVec.ofNat 14 (bits v 0 14) ∧
        { t with funcs := s.funcs } = s) := by
  have hfn := fn_updFn_updFn f.val (fun x => { x with period := BitVec.ofNat 14 (bits v 0 14) })
    (fun x => { x with policy := BitVec.ofNat 2 (bits v 30 2) }) s
  exact completes_of_endsIn (leaseCtrlWrite_endsIn hr (wrLeaseCtrl_inRange hexp hp))
    ⟨congrArg Func.policy hfn, congrArg Func.period hfn, rfl⟩

end SlotCommands

/-- Settles O26: DIRECT_DB, CANCEL_DB in one write and in two, then the lease. -/
theorem slotCancelLease : Obligations.SlotCancelLease := by
  intro f s hr
  refine ⟨fun hbusy v => directDb_endsIn hr (wrDirectDb_busy hbusy), fun hbusy hop => ?_, fun hbusy hop => ?_,
    fun v => endsIn_of_barAccess hr rfl rfl, fun h => endsIn_of_barAccess hr rfl rfl,
    fun l h hl => cancelDb_high_endsIn hr (wrCancelHigh_some hl), fun h hl => cancelDb_high_endsIn hr (wrCancelHigh_none hl),
    fun hexp => ⟨?_, fun v => leaseCtrlWrite_endsIn hr (wrLeaseCtrl_expired hexp)⟩,
    fun hexp => ⟨?_, fun v hlo hhi => leaseCtrlWrite_completes hr hexp ⟨hlo, hhi⟩⟩⟩
  · exact directDb_endsIn hr ((wrDirectDb_one hbusy).trans (if_neg (by simp [hop])))
  · exact directDb_endsIn hr ((wrDirectDb_one hbusy).trans (if_pos (by simp [hop])))
  · have hend := leaseHeartbeat_endsIn hr
    rwa [if_pos hexp] at hend
  · have hend := leaseHeartbeat_endsIn hr
    rwa [if_neg (by simp [hexp])] at hend

end Sys2Proof.Proofs
end

section
/-! PROOFS of the statement on IDENTIFY, ADOPT, COUNTERS and LIST. -/

namespace Sys2Proof.Proofs

open Sys2Proof.Machine Sys2Proof.Safety Sys2Proof.Laws

/-- What ADOPT makes of a function's registers: the lease armed afresh and every ring pair disabled (R80). -/
def adopted (c : Cmd) (y : Func) : Func := { y with
  expired := false, settled := false, armed := true, period := BitVec.ofNat 14 (c.arg 0x10 4), policy := BitVec.ofNat 2 (c.arg 0x14 1),
  rings := Tab.mapVals y.rings (fun _ r => { r with enable := false, tag := { r.tag with agent := 15 } }) }

/-- The fence of an adopted function is lifted, or goes on with the cause that Bus Master Enable or D3hot is (R47, R80); x holds the
registers as they were. -/
def adoptFence (f : Nat) (x : Func) (u : State) : State :=
  let still := fun (cause : BitVec 2) => raiseVec f 0 (updFn f (fun y => { y with fenceCause := cause }) u)
  if x.bme = false then still 2 else if x.d3 = true then still 3 else liftFence f u

/-- The records that LIST names, by their handles' INDEX (R77). -/
def listed (f kind : Nat) (s : State) : List (Nat × Bytes) :=
  (listOf f kind s).foldr (insertBy (fun a b => decide (hIndex a.1 < hIndex b.1))) []

section Taken

variable {f : Fn} {src : Src} {s t : State} {c : Cmd}

theorem identify_endsIn (h : taken f.val opIdentify src [(0x10, 8)] true s = some (c, t)) :
    endsIn (.identify f src) s (c.answer stOk 0 (result [(0, 2, t.boot.runLevel.toNat), (2, 1, 32), (4, 4, t.iarekCap)])
      (if c.arg 0x10 8 = 0 then t else c.write (c.arg 0x10 8) (identifyPage f.val t) t)) := by
  show execIdentify f src s = _
  unfold execIdentify
  exact command_endsIn h rfl

/-- What ADOPT makes of a period and a policy in range. -/
theorem adopt_endsIn (h : taken f.val opAdopt src [(0x10, 4), (0x14, 1)] true s = some (c, t))
    (hperiod : 10 ≤ c.arg 0x10 4 ∧ c.arg 0x10 4 ≤ 10000) (hpolicy : c.arg 0x14 1 ≤ 3) :
    endsIn (.adopt f src) s (if (t.fn f.val).expired = false then c.end eBusy t else c.answer stOk 0
      (result [(0, 4, (t.homeOf f.val).length), (4, 4, (t.fn f.val).held.length), (8, 1, (t.fn f.val).fenceCause.toNat)])
      (adoptFence f.val (t.fn f.val) (updFn f.val (adopted c) t))) := by
  show execAdopt f src s = _
  unfold execAdopt
  have hargs : ¬ (c.arg 0x10 4 < 10 ∨ 10000 < c.arg 0x10 4 ∨ 3 < c.arg 0x14 1) := by omega
  refine command_endsIn h ((if_neg hargs).trans ?_)
  simp only [Bool.not_eq_true']
  rfl

theorem counters_endsIn (h : taken f.val opCounters src [(0x10, 8), (0x18, 1)] true s = some (c, t)) (hclear : c.arg 0x18 1 ≤ 1) :
    let u := c.write (c.arg 0x10 8) (((List.range counterCount).map (fun k => toLe 8 (t.counter f.val k))).flatten) t
    endsIn (.counters f src) s (c.answer stOk 0 (result [(0, 4, 8 * counterCount)])
      (if c.arg 0x18 1 = 1 then clearCounters f.val u else u)) := by
  show execCounters f src s = _
  unfold execCounters
  exact command_endsIn h (if_neg (Nat.not_lt.mpr hclear))

theorem list_endsIn (h : taken f.val opList src [(0x10, 8), (0x18, 4), (0x1C, 1)] true s = some (c, t))
    (hlen : c.arg 0x18 4 % 64 = 0 ∧ 64 ≤ c.arg 0x18 4) (hkind : c.arg 0x1C 1 ≤ 7) :
    let all := listed f.val (c.arg 0x1C 1) t
    let some_ := if srcQ c.src = none then [] else all.take (c.arg 0x18 4 / 64)
    endsIn (.list f src) s (c.answer stOk 0 (result [(0, 4, some_.length), (4, 4, all.length)])
      (c.write (c.arg 0x10 8) ((some_.map (fun e => fit 64 e.2)).flatten) t)) := by
  show execList f src s = _
  unfold execList
  have hargs : ¬ (c.arg 0x18 4 % 64 ≠ 0 ∨ c.arg 0x18 4 < 64 ∨ 7 < c.arg 0x1C 1) := by omega
  exact command_endsIn h (if_neg hargs)

end Taken

/-- Settles O27: the four commands, ADOPT by whether the lease has expired. -/
theorem adminReports : Obligations.AdminReports := by
  intro f src s t c
  refine ⟨identify_endsIn, fun h hlo hhi hpolicy => ⟨fun hexp => ?_, fun hexp => ?_⟩, counters_endsIn,
    fun h hmod hlen hkind => list_endsIn h ⟨hmod, hlen⟩ hkind⟩
  · have hend := adopt_endsIn h ⟨hlo, hhi⟩ hpolicy
    rwa [if_pos hexp] at hend
  · have hend := adopt_endsIn h ⟨hlo, hhi⟩ hpolicy
    rwa [if_neg (by simp [hexp])] at hend

end Sys2Proof.Proofs
end

section
/-! PROOFS of the statement on programs, Flint networks and profiles. -/

namespace Sys2Proof.Proofs

open Sys2Proof.Machine Sys2Proof.Safety Sys2Proof.Laws

/-! ## Loading and unloading -/

/-- Where IAREK_CAP.FLINT is set, a Flint command runs (R57). -/
theorem flint_run {c : Cmd} {run : State → State} {s : State} (hcap : s.boot.cap.getLsbD 1 = true) : c.flint run s = run s :=
  if_pos hcap

section Taken

variable {f : Fn} {src : Src} {a b : Bytes} {s t : State} {c : Cmd}

/-- A command that has passed its shared checks ends in what its meaning makes of a live handle. -/
theorem command_live_endsIn {op kind : Nat} {fields : List (Nat × Nat)} {live free : Bool} {u : State} {run : Cmd → State → State}
    {meaning : State → State} (h : taken f.val op src fields false s = some (c, t))
    (hrun : run c t = c.withHandle kind live free meaning t) (hlive : handleIs t f.val kind c.e.handle.toNat live = .live)
    (hu : meaning t = u) : command f.val op src fields false run s = .next { u with pending := s.pending } := by
  obtain ⟨hf, -, -⟩ := taken_cmd h
  exact command_endsIn h ((hrun.trans (withHandle_live (hf ▸ hlive))).trans hu)

/-! ## Programs (R156, R215, R217) -/

section ProgLoad

variable {streams : List (List (BitVec 64))}
  (h : taken f.val opProgLoad src [(0x10, 8), (0x18, 8), (0x20, 4)] true s = some (c, t))
  (himage : imageStreams (b.take (c.arg 0x20 4)) = some streams)
include h himage

theorem progLoad_refused {r d : Nat} (hadm : admission a (programOf f.val a (b.take (c.arg 0x20 4)) streams) t = some (r, d)) :
    endsIn (.progLoad f src a b) s (c.answer eNoFit 0 (result [(0, 2, r), (4, 4, d)]) t) := by
  show execProgLoad f src a b s = _
  unfold execProgLoad
  refine command_endsIn h ?_
  simp only [himage, hadm]

theorem progLoad_kept (hadm : admission a (programOf f.val a (b.take (c.arg 0x20 4)) streams) t = none) :
    let i := issue f.val kProgram (Tab.keys t.progs) t
    endsIn (.progLoad f src a b) s (c.answer stOk i.1 0
      { i.2 with progs := Tab.put i.2.progs i.1 (programOf f.val a (b.take (c.arg 0x20 4)) streams) }) := by
  show execProgLoad f src a b s = _
  unfold execProgLoad
  refine command_endsIn h ?_
  simp only [himage, hadm]

end ProgLoad

theorem progUnload_endsIn (h : taken f.val opProgUnload src [] false s = some (c, t))
    (hlive : handleIs t f.val kProgram c.e.handle.toNat (Tab.has t.progs c.e.handle.toNat) = .live) :
    endsIn (.progUnload f src) s (
      if ((t.prog c.e.handle.toNat).map (·.builtin)).getD false || t.tasks.any (fun e => e.2.prog == c.e.handle.toNat) then c.end eBusy t
      else c.end stOk { t with progs := Tab.erase t.progs c.e.handle.toNat }) := by
  show execProgUnload f src s = _
  unfold execProgUnload
  exact command_live_endsIn h rfl hlive rfl

/-! ## Flint networks (R336) -/

section FlintLoad

variable (h : taken f.val opFlintLoad src [(0x10, 8), (0x18, 4)] true s = some (c, t)) (hcap : t.boot.cap.getLsbD 1 = true)
  (hready : t.isReady rFlint = true)
include h hcap hready

theorem flintLoad_refused {r d : Nat} (hfault : flintFault (a.take (c.arg 0x18 4)) (c.arg 0x18 4) = some (r, d)) :
    endsIn (.flintLoad f src a) s (c.answer eNoFit 0 (result [(0, 2, r), (4, 4, d)]) t) := by
  show execFlintLoad f src a s = _
  unfold execFlintLoad
  refine command_endsIn h ((flint_run hcap).trans ((if_neg (by simp [hready])).trans ?_))
  simp only [hfault]

theorem flintLoad_kept (hfault : flintFault (a.take (c.arg 0x18 4)) (c.arg 0x18 4) = none)
    (htiles : rd (a.take (c.arg 0x18 4)) 6 1 ≤ t.freeTiles.length) :
    let g := a.take (c.arg 0x18 4)
    let i := issue f.val kNetwork (Tab.keys t.flint.nets) t
    let tiles := t.freeTiles.take (rd g 6 1)
    endsIn (.flintLoad f src a) s (c.answer stOk i.1 0 (updFlint (fun x => { x with
      nets := Tab.put x.nets i.1 (netOf f.val g tiles),
      tiles := tiles.foldl (fun tab k => Tab.put tab k (t.tagOf agSch f.val)) x.tiles }) i.2)) := by
  show execFlintLoad f src a s = _
  unfold execFlintLoad
  refine command_endsIn h ((flint_run hcap).trans ((if_neg (by simp [hready])).trans ?_))
  simp only [hfault, if_neg (Nat.not_lt.mpr htiles)]

end FlintLoad

theorem flintUnload_endsIn (h : taken f.val opFlintUnload src [] false s = some (c, t))
    (hlive : handleIs t f.val kNetwork c.e.handle.toNat (Tab.has t.flint.nets c.e.handle.toNat) = .live) {g : Net}
    (hnet : Tab.find t.flint.nets c.e.handle.toNat = some g) :
    endsIn (.flintUnload f src) s (if t.flint.runs.any (·.net == c.e.handle.toNat) then c.end eBusy t
      else c.end stOk (updFlint (fun x => { x with
        nets := Tab.erase x.nets c.e.handle.toNat, tiles := g.granted.foldl Tab.erase x.tiles }) t)) := by
  show execFlintUnload f src s = _
  unfold execFlintUnload
  refine command_live_endsIn h rfl hlive ?_
  simp only [hnet, Option.map_some, Option.getD_some]

/-! ## Profiles (R305) -/

section ProfileSet

variable (h : taken f.val opProfileSet src [(0x10, 8), (0x18, 4)] true s = some (c, t)) (hlen : c.arg 0x18 4 ≤ 67108864)
include h hlen

theorem profileSet_refused {r d : Nat} (hfault : profFault (fit (c.arg 0x18 4) a) = some (r, d)) :
    endsIn (.profileSet f src a) s (c.answer eNoFit 0 (result [(0, 2, r), (4, 4, d)]) t) := by
  show execProfileSet f src a s = _
  unfold execProfileSet
  refine command_endsIn h ((if_neg (Nat.not_lt.mpr hlen)).trans ?_)
  simp only [hfault]

theorem profileSet_kept (hfault : profFault (fit (c.arg 0x18 4) a) = none) (htree : (profOf (fit (c.arg 0x18 4) a)).isTree = false)
    (hroom : t.serve.profs.length < 256 ∧ (t.serve.profs.filter (fun e => e.2.fn == f.val)).length < 32 ∧
      (t.serve.profs.map (fun e => e.2.bytes)).sum + c.arg 0x18 4 ≤ 268435456) :
    let g := fit (c.arg 0x18 4) a
    let i := issue f.val kProfile (Tab.keys t.serve.profs) t
    endsIn (.profileSet f src a) s (c.answer stOk i.1 0 (updServe (fun x => { x with
      profs := Tab.put x.profs i.1 { fn := f.val, prof := profOf g, bytes := c.arg 0x18 4, table := g } }) i.2)) := by
  show execProfileSet f src a s = _
  unfold execProfileSet
  refine command_endsIn h ((if_neg (Nat.not_lt.mpr hlen)).trans ?_)
  have hfull : ¬ (256 ≤ t.serve.profs.length ∨ 32 ≤ (t.serve.profs.filter (fun e => e.2.fn == f.val)).length ∨
      268435456 < (t.serve.profs.map (fun e => e.2.bytes)).sum + c.arg 0x18 4) := by omega
  simp only [hfault, htree, Bool.false_eq_true, false_and, if_false, if_neg hfull]

end ProfileSet

theorem profileFree_endsIn (h : taken f.val opProfileFree src [] false s = some (c, t))
    (hlive : handleIs t f.val kProfile c.e.handle.toNat (Tab.has t.serve.profs c.e.handle.toNat) = .live) :
    endsIn (.profileFree f src) s (if t.profUsers c.e.handle.toNat ≠ 0 then c.end eBusy t
      else c.end stOk (updServe (fun x => { x with profs := Tab.erase x.profs c.e.handle.toNat }) t)) := by
  show execProfileFree f src s = _
  unfold execProfileFree
  exact command_live_endsIn h rfl hlive rfl

end Taken

/-- Settles O32: programs, networks and profiles, each loaded or refused and then unloaded. -/
theorem programsNetworksProfiles : Obligations.ProgramsNetworksProfiles := fun _ _ _ _ _ _ _ =>
  ⟨fun h _ himage => ⟨fun _ _ hadm => progLoad_refused h himage hadm, fun hadm => progLoad_kept h himage hadm⟩,
    progUnload_endsIn,
    fun h hcap hready => ⟨fun _ _ hfault => flintLoad_refused h hcap hready hfault,
      fun hfault htiles => flintLoad_kept h hcap hready hfault htiles⟩,
    fun h hlive _ hnet => flintUnload_endsIn h hlive hnet,
    fun h hlen => ⟨fun _ _ hfault => profileSet_refused h hlen hfault,
      fun hfault htree hpart hfn hbytes => profileSet_kept h hlen hfault htree ⟨hpart, hfn, hbytes⟩⟩,
    profileFree_endsIn⟩

end Sys2Proof.Proofs
end

section
/-! PROOFS of the statement on requests, tasks, Flint runs and POOL_SET. -/

namespace Sys2Proof.Proofs

open Sys2Proof.Machine Sys2Proof.Safety Sys2Proof.Laws

section Taken

variable {f : Fn} {src : Src} {s t : State} {c : Cmd}

/-! ## Requests (R71, R283 to R285, R297) -/

/-- A request that passes its checks: its context and its acceptance, in the state that its handle's issue leaves. -/
def acceptRequest (f : Nat) (c : Cmd) (q : Nat) (prompt : List (BitVec 32)) (cp : Copy) (t : State) : State :=
  let idx := t.serve.ctxs.fresh
  let i := issueAt f kRequest idx t
  post f q (c.entry false stOk i.1 0 i.2)
    (updServe (fun y => { y with ctxs := Tab.put y.ctxs idx (homeCtx c q i.1 prompt cp i.2) }) (tookFree i.2))

theorem reqSubmit_endsIn {prompt : List (BitVec 32)} {cp : Copy} {q : Nat}
    (h : taken f.val opReqSubmit src [(0x10, 8), (0x18, 4), (0x1C, 4), (0x20, 8), (0x28, 8), (0x30, 8), (0x38, 8)] false s = some (c, t))
    (hlive : handleIs t f.val kModel c.e.handle.toNat (t.modelLive c.e.handle.toNat) = .live)
    (hcopy : t.copyOf c.e.handle.toNat = some cp) (hq : srcQ c.src = some q) (hfault : submitFault c prompt cp t = none)
    (hlost : t.hbmLost = false) (hcrit : t.thermal.critical = false) (hfree : t.freeCtxs ≠ 0) :
    endsIn (.reqSubmit f src prompt) s
      (if cp.state = .damaged ∨ (t.copyOf (c.arg 0x38 8)).any (fun d => d.state == .damaged) = true then
        endRequest t.serve.ctxs.fresh eEvicted (acceptRequest f.val c q prompt cp t)
       else tryAssign t.serve.ctxs.fresh (acceptRequest f.val c q prompt cp t)) := by
  show execReqSubmit f src prompt s = _
  unfold execReqSubmit
  refine command_live_endsIn h rfl hlive ?_
  simp only [hcopy, hq, hfault, hlost, hcrit, Bool.false_eq_true, if_false, if_neg hfree]
  rfl

section Live

variable {k : Nat} (hk : t.liveRequest f.val c.e.handle.toNat = some k)
  (hlive : handleIs t f.val kRequest c.e.handle.toNat true = .live)
include hk hlive

/-- The handle of a live request is live as REQ_CANCEL and REQ_QUERY see it. -/
theorem handleIs_liveRequest :
    handleIs t f.val kRequest c.e.handle.toNat (t.liveRequest f.val c.e.handle.toNat).isSome = .live := by
  rw [hk]
  exact hlive

theorem reqCancel_endsIn (h : taken f.val opReqCancel src [] false s = some (c, t)) :
    endsIn (.reqCancel f src) s (c.end stOk (endRequest k eCancelled t)) := by
  show execReqCancel f src s = _
  unfold execReqCancel
  refine command_live_endsIn h rfl (handleIs_liveRequest hk hlive) ?_
  simp only [hk]

theorem reqQuery_endsIn {x : Ctx} (h : taken f.val opReqQuery src [] false s = some (c, t)) (hx : t.ctx k = some x) :
    endsIn (.reqQuery f src) s (c.answer stOk c.e.handle.toNat (requestResult x false 0) t) := by
  show execReqQuery f src s = _
  unfold execReqQuery
  refine command_live_endsIn h rfl (handleIs_liveRequest hk hlive) ?_
  simp only [hk, Option.bind_some, hx]

end Live

/-! ## POOL_SET (R281) -/

/-- Another part of this part's Rod has a role in a pool. -/
def otherHasRole (pool role : Nat) (t : State) : Prop := ∃ e ∈ t.rod, e.1 ≠ t.fab.addr ∧ e.2.pool = pool ∧ e.2.role = role

/-- What POOL_SET refuses: a clash of roles in the pool, a change of role under another part's requests, and a load over the Rod. -/
def poolBusy (role pool : Nat) (t : State) : Prop :=
  role = 3 ∧ (otherHasRole pool 1 t ∨ otherHasRole pool 2 t) ∨ (role = 1 ∨ role = 2) ∧ otherHasRole pool 3 t ∨
    role ≠ t.serve.role ∧ (∃ e ∈ t.serve.ctxs, e.2.work = true ∧ e.2.home = false) ∨ t.rodLoading = true

/-- The roles that POOL_SET finds in a pool beside this part's own. -/
def otherRoles (pool : Nat) (t : State) : List Nat :=
  (t.rod.filter (fun e => e.1 != t.fab.addr && e.2.pool == pool)).map (fun e => e.2.role)

theorem mem_otherRoles (pool role : Nat) (t : State) : role ∈ otherRoles pool t ↔ otherHasRole pool role t := by
  simp [otherRoles, otherHasRole, and_assoc]

/-- The test that POOL_SET makes of its role and pool. -/
def poolTest (role pool : Nat) (t : State) : Bool :=
  ((role == 3 && (otherRoles pool t).any (fun r => r == 1 || r == 2)) || ((role == 1 || role == 2) && (otherRoles pool t).contains 3)) ||
    (role != t.serve.role && t.serve.ctxs.any (fun e => e.2.work && !e.2.home)) || t.rodLoading

theorem poolTest_iff (role pool : Nat) (t : State) : poolTest role pool t = true ↔ poolBusy role pool t := by
  have hany : (otherRoles pool t).any (fun r => r == 1 || r == 2) = true ↔ otherHasRole pool 1 t ∨ otherHasRole pool 2 t := by
    simp [List.any_eq_true, and_or_left, exists_or, mem_otherRoles]
  have hholds : t.serve.ctxs.any (fun e => e.2.work && !e.2.home) = true ↔
      ∃ e ∈ t.serve.ctxs, e.2.work = true ∧ e.2.home = false := by simp [List.any_eq_true]
  simp only [poolTest, poolBusy, Bool.or_eq_true, Bool.and_eq_true, beq_iff_eq, bne_iff_ne, hany, hholds, List.contains_iff_mem,
    mem_otherRoles, or_assoc]

section PoolSet

variable (h : taken f.val opPoolSet src [(0x10, 1), (0x11, 1)] true s = some (c, t)) (hrole : c.arg 0x10 1 ≤ 3)
  (hpool : c.arg 0x11 1 ≤ 15)
include h hrole hpool

/-- What POOL_SET makes of a role and a pool in range. -/
theorem poolSet_endsIn : endsIn (.poolSet f src) s (
    if !t.isReady rFabricAny then c.end eFabric t
    else if poolTest (c.arg 0x10 1) (c.arg 0x11 1) t then c.end eBusy t
    else c.end stOk (poolChanged (updServe (fun x => { x with role := c.arg 0x10 1, pool := c.arg 0x11 1 }) t))) := by
  show execPoolSet f src s = _
  unfold execPoolSet
  have hargs : ¬ (3 < c.arg 0x10 1 ∨ 15 < c.arg 0x11 1) := by omega
  exact command_endsIn h (if_neg hargs)

theorem poolSet_noFabric (hfab : t.isReady rFabricAny = false) : endsIn (.poolSet f src) s (c.end eFabric t) := by
  have hend := poolSet_endsIn h hrole hpool
  rwa [if_pos (by simp [hfab])] at hend

theorem poolSet_busy (hfab : t.isReady rFabricAny = true) (hbusy : poolBusy (c.arg 0x10 1) (c.arg 0x11 1) t) :
    endsIn (.poolSet f src) s (c.end eBusy t) := by
  have hend := poolSet_endsIn h hrole hpool
  rwa [if_neg (by simp [hfab]), if_pos ((poolTest_iff ..).mpr hbusy)] at hend

theorem poolSet_taken (hfab : t.isReady rFabricAny = true) (hidle : ¬ poolBusy (c.arg 0x10 1) (c.arg 0x11 1) t) :
    endsIn (.poolSet f src) s
      (c.end stOk (poolChanged (updServe (fun x => { x with role := c.arg 0x10 1, pool := c.arg 0x11 1 }) t))) := by
  have hend := poolSet_endsIn h hrole hpool
  rwa [if_neg (by simp [hfab]), if_neg (hidle ∘ (poolTest_iff ..).mp)] at hend

end PoolSet

/-! ## Tasks and Flint runs (R217, R341) -/

theorem taskRun_endsIn {p : Program} {q : Nat}
    (h : taken f.val opTaskRun src [(0x10, 8), (0x18, 8), (0x20, 8), (0x28, 1)] false s = some (c, t))
    (hlive : handleIs t f.val kProgram c.e.handle.toNat (Tab.has t.progs c.e.handle.toNat) = .live)
    (hprog : t.prog c.e.handle.toNat = some p) (hq : srcQ c.src = some q) (hcls : c.arg 0x28 1 ≤ 4)
    (hbufs : ∀ k, k < 3 → bufArg f.val (c.arg (0x10 + 8 * k) 8) (p.uses k) t = .fine) (hlost : t.hbmLost = false)
    (hcrit : t.thermal.critical = false) :
    endsIn (.taskRun f src) s { t with nextTask := t.nextTask + 1, tasks := Tab.put t.tasks t.nextTask {
      fn := f.val, q := q, tag := c.e.tag, prog := c.e.handle.toNat, buf0 := c.arg 0x10 8, buf1 := c.arg 0x18 8,
      buf2 := c.arg 0x20 8, cls := c.arg 0x28 1, prio := c.prio, order := t.nextTask } } := by
  show execTaskRun f src s = _
  unfold execTaskRun
  refine command_live_endsIn h rfl hlive ?_
  have hfine : (List.range 3).map (fun k => bufArg f.val (c.arg (0x10 + 8 * k) 8) (p.uses k) t) = [.fine, .fine, .fine] := by
    rw [List.map_congr_left (g := fun _ => BufArg.fine) (fun k hk => hbufs k (List.mem_range.mp hk))]
    rfl
  have hbad : ([.fine, .fine, .fine] : List BufArg).contains .bad = false := rfl
  have hmissing : ([.fine, .fine, .fine] : List BufArg).contains .missing = false := rfl
  simp only [hprog, hfine, hbad, hmissing, hq, if_neg (Nat.not_lt.mpr hcls), hlost, hcrit, Bool.false_eq_true, if_false]

theorem flintRun_endsIn {q : Nat}
    (h : taken f.val opFlintRun src [(0x10, 8), (0x18, 8), (0x20, 4)] false s = some (c, t)) (hcap : t.boot.cap.getLsbD 1 = true)
    (hlive : handleIs t f.val kNetwork c.e.handle.toNat (Tab.has t.flint.nets c.e.handle.toNat) = .live) (hq : srcQ c.src = some q)
    (hin : handleIs t f.val kBuffer (c.arg 0x10 8) (Tab.has t.bufs (c.arg 0x10 8)) = .live)
    (hout : handleIs t f.val kBuffer (c.arg 0x18 8) (Tab.has t.bufs (c.arg 0x18 8)) = .live) :
    endsIn (.flintRun f src) s (updFlint (fun x => { x with runs := x.runs ++ [{
      fn := f.val, q := q, tag := c.e.tag, net := c.e.handle.toNat, inBuf := c.arg 0x10 8, outBuf := c.arg 0x18 8,
      duration := c.arg 0x20 4 }] }) t) := by
  show execFlintRun f src s = _
  unfold execFlintRun
  refine command_live_endsIn h (flint_run hcap) hlive ?_
  simp only [hin, hout, hq, beq_self_eq_true, Bool.not_true, Bool.or_self, Bool.false_eq_true, if_false]

end Taken

/-- Settles O33: requests, then POOL_SET, then tasks and runs, each by its own lemma. -/
theorem requestsTasksRuns : Obligations.RequestsTasksRuns := fun _ _ _ _ _ _ =>
  ⟨fun h hlive _ _ hcopy hq hfault hlost hcrit hfree => reqSubmit_endsIn h hlive hcopy hq hfault hlost hcrit hfree,
    fun h _ hk hlive => reqCancel_endsIn hk hlive h,
    fun h _ _ hk hx hlive => reqQuery_endsIn hk hlive h hx,
    fun h hrole hpool => ⟨poolSet_noFabric h hrole hpool, poolSet_busy h hrole hpool, poolSet_taken h hrole hpool⟩,
    fun h hlive _ _ hprog hq hcls hbufs hlost hcrit => taskRun_endsIn h hlive hprog hq hcls hbufs hlost hcrit,
    fun h hcap hlive _ hq hin hout => flintRun_endsIn h hcap hlive hq hin hout⟩

end Sys2Proof.Proofs
end

section
/-! PROOFS of the statement on the checks of a bundle (R86, R106). -/

namespace Sys2Proof.Proofs

open Sys2Proof.Machine Sys2Proof.Safety Sys2Proof.Laws

/-- What holds of a bundle that no check turns down (R86). -/
structure bundleGood (rev : BitVec 4) (floor len : Nat) (b : Bytes) (x : Bundle) : Prop where
  fields : x = bundleOf b
  notRevoked : rev.getLsbD x.keyIdx = false
  level : x.level.toNat / 256 = 3
  svn : floor ≤ x.svn
  held : len ≤ b.length
  small : len ≤ 4194304
  signed : Config.verify (Config.fwKey x.keyIdx) (b.take 0x300) (slice b 0x300 96) = true
  digests : ∀ i ∈ x.images, Config.sha384 (slice b i.off (i.codeLen + i.dataLen)) = i.digest

/-- The verdict on a bundle's bytes: one of two codes, or a bundle that is good. -/
def bundleVerdict (rev : BitVec 4) (floor len : Nat) (b : Bytes) : Except Status Bundle → Prop
  | .error e => e = eSig ∨ e = eLevel
  | .ok x => bundleGood rev floor len b x

/-- The verdict by the first check that fails, in the order of R86. -/
theorem checkBundle_verdict (rev : BitVec 4) (floor len : Nat) (b : Bytes) :
    bundleVerdict rev floor len b (checkBundle rev floor len (some b)) := by
  simp only [checkBundle]
  split
  · exact .inl rfl
  next hform =>
  split
  · exact .inl rfl
  next hkey =>
  split
  · exact .inr rfl
  next hlevel =>
  split
  · exact .inl rfl
  next hsvn =>
  split
  · exact .inl rfl
  next hdigests =>
  simp only [Bool.not_eq_true', Bool.not_eq_false, Bool.and_eq_true, decide_eq_true_eq, List.all_eq_true, beq_iff_eq]
    at hform hkey hdigests
  obtain ⟨⟨⟨⟨-, hheld⟩, hsmall⟩, -⟩, -⟩ := hform
  obtain ⟨⟨-, hrev⟩, hsigned⟩ := hkey
  exact ⟨rfl, hrev, not_not.mp hlevel, not_lt.mp hsvn, hheld, hsmall, hsigned, hdigests⟩

/-- Settles O18, by the verdict on the bundle. -/
theorem bundleChecks : Obligations.BundleChecks := by
  intro rev floor len b
  have hverdict := checkBundle_verdict rev floor len b
  refine ⟨fun x hx => ?_, fun e he => ?_, rfl⟩
  · rw [hx] at hverdict
    obtain ⟨hfields, hrev, hlevel, hsvn, hheld, hsmall, hsigned, hdigests⟩ := hverdict
    exact ⟨hfields, hrev, hlevel, hsvn, hheld, hsmall, hsigned, hdigests⟩
  · rw [he] at hverdict
    exact hverdict

end Sys2Proof.Proofs
end

section
/-! PROOFS of the statement on the completion of tile instructions and descriptors (R138, R161, R174, R188, R193). -/

namespace Sys2Proof.Proofs

open Sys2Proof.Machine Sys2Proof.Safety Sys2Proof.Laws

/-! ## Cores after an update -/

theorem core_updCore_same (k : Nat) (g : Core → Core) (s : State) : (updCore k g s).core k = g (s.core k) := get_upd_same ..

theorem core_updCore_ne {j k : Nat} (h : j ≠ k) (g : Core → Core) (s : State) : (updCore k g s).core j = s.core j :=
  get_upd_ne _ _ g h

theorem core_eq_of_cores {s t : State} (h : t.cores = s.cores) (k : Nat) : t.core k = s.core k :=
  congrArg (fun c => Tab.get ({} : Core) c k) h

/-! ## Issue (R161, R187) -/

/-- From c to d the contents of the memories, and what has issued, are kept. -/
structure sameContents (c d : Core) : Prop where
  inflight : d.inflight = c.inflight
  slate : d.slate = c.slate
  plane : d.plane = c.plane
  aRows : d.aRows = c.aRows
  bRows : d.bRows = c.bRows

theorem queue_setQueue_same (slot : SlotKind) (l : List Queued) (c : Core) : (c.setQueue slot l).queue slot = l := by
  cases slot with
  | span | vec | xfer => rfl

theorem setQueue_contents (slot : SlotKind) (l : List Queued) (c : Core) : sameContents c (c.setQueue slot l) := by
  cases slot with
  | span | vec | xfer => exact ⟨rfl, rfl, rfl, rfl, rfl⟩

theorem queue_withEv (slot : SlotKind) (ev : Tab Nat) (c : Core) : ({ c with ev := ev } : Core).queue slot = c.queue slot := by
  cases slot with
  | span | vec | xfer => rfl

/-- The front instruction leaves its queue, and the core keeps its contents. -/
theorem core_popIssued (k : Nat) (slot : SlotKind) (q : Queued) (s : State) :
    ((popIssued k slot q s).core k).queue slot = ((s.core k).queue slot).tail ∧
      sameContents (s.core k) ((popIssued k slot q s).core k) := by
  obtain ⟨hinflight, hslate, hplane, haRows, hbRows⟩ :=
    setQueue_contents slot ((s.core k).queue slot).tail (s.core k)
  unfold popIssued
  rw [core_updCore_same]
  extract_lets d
  split
  · exact ⟨(queue_withEv ..).trans (queue_setQueue_same ..), hinflight, hslate, hplane, haRows, hbRows⟩
  · exact ⟨queue_setQueue_same .., hinflight, hslate, hplane, haRows, hbRows⟩

/-- The conflicts of an issue are counted, and nothing else changes. -/
def onlyCounted (s u : State) : Prop := { u with cnt := s.cnt, fcnt := s.fcnt } = s

theorem onlyCounted.cores {s u : State} (h : onlyCounted s u) : u.cores = s.cores := by
  have hcores := congrArg State.cores h
  exact hcores

/-- An issue counts its conflicts, takes the instruction from its queue and adds it to what has issued. -/
theorem goesOn_eq (k : Nat) (slot : SlotKind) (q : Queued) (writes : List Write) (descs : Nat) (groups : List (List Nat)) (s : State) :
    ∃ u, onlyCounted s u ∧ goesOn k slot q writes descs groups s s = updCore k (fun c => { c with
      inflight := c.inflight ++ [{ id := q.word + 16384 * (s.core k).nextId, slot := slot, st := q.instr.st, sev := q.instr.sev.toNat,
                                   writes := writes, descs := descs }],
      nextId := c.nextId + 1 }) (popIssued k slot q u) := by
  unfold goesOn
  extract_lets n u
  refine ⟨u, ?_, rfl⟩
  unfold u
  split
  · rfl
  · split
    · rfl
    · rfl

theorem goesOn_issues (k : Nat) (slot : SlotKind) (q : Queued) (writes : List Write) (descs : Nat) (groups : List (List Nat))
    (s : State) :
    let t := goesOn k slot q writes descs groups s s
    (t.core k).queue slot = ((s.core k).queue slot).tail ∧ (t.core k).inflight.length = (s.core k).inflight.length + 1 ∧
      (t.core k).slate = (s.core k).slate ∧ (t.core k).plane = (s.core k).plane ∧ (t.core k).aRows = (s.core k).aRows ∧
      (t.core k).bRows = (s.core k).bRows ∧ (∀ j, j ≠ k → t.core j = s.core j) ∧
      { t with cores := s.cores, cnt := s.cnt, fcnt := s.fcnt } = s := by
  intro t
  obtain ⟨u, hcounted, ht⟩ := goesOn_eq k slot q writes descs groups s
  change t = _ at ht
  clear_value t
  have hcore (j : Nat) : u.core j = s.core j := core_eq_of_cores hcounted.cores j
  obtain ⟨hqueue, hinflight, hslate, hplane, haRows, hbRows⟩ := core_popIssued k slot q u
  rw [hcore] at hqueue hinflight hslate hplane haRows hbRows
  have hother (j : Nat) (hj : j ≠ k) : t.core j = s.core j := by
    rw [ht, core_updCore_ne hj]
    exact (core_updCore_ne hj _ u).trans (hcore j)
  have hframe : { t with cores := s.cores, cnt := s.cnt, fcnt := s.fcnt } = s := by
    rw [ht]
    exact congrArg (fun v : State => { v with cores := s.cores }) hcounted
  have hself := congrArg (fun v : State => v.core k) ht
  rw [core_updCore_same] at hself
  rw [hself]
  refine ⟨?_, ?_, hslate, hplane, haRows, hbRows, hother, hframe⟩
  · rw [← hqueue]
    cases slot with
    | span | vec | xfer => rfl
  · rw [List.length_append, hinflight]
    rfl

/-! ## Results (R138) -/

theorem aRow_put (c : Core) (b r : Nat) (v : Unit64) :
    ({ c with aRows := Tab.put c.aRows (256 * b + r) v } : Core).aRow b r = v := by
  unfold Core.aRow
  rw [find_put_same, Option.getD_some]

theorem unit_putUnit_same (c : Core) (r : Nat) (v : Unit64) : (c.putUnit r v).unit r = v := by
  unfold Core.unit Core.putUnit
  rw [find_put_same, Option.getD_some]

theorem unit_putUnit_ne (c : Core) {j r : Nat} (h : j ≠ r) (v : Unit64) : (c.putUnit r v).unit j = c.unit j := by
  unfold Core.unit Core.putUnit
  rw [find_put_ne _ v h]
  rfl

/-- A write into a segment that is present is dropped and counted (R138). -/
theorem applyWrite_aRow_present {k b r : Nat} {s : State} (h : (s.core k).hasA b (r / 16) = true) (v : Unit64) :
    applyWrite k (.aRow b r v) s = tileViol k cViolGrainsOverwrite s := if_pos h

theorem applyWrite_aRow_absent {k b r : Nat} {s : State} (h : (s.core k).hasA b (r / 16) = false) (v : Unit64) :
    ((applyWrite k (.aRow b r v) s).core k).aRow b r = v := by
  have hwrite : applyWrite k (.aRow b r v) s =
      updCore k (fun c => { c with aRows := Tab.put c.aRows (256 * b + r) v }) s := if_neg (by simp [h])
  rw [hwrite, core_updCore_same, aRow_put]

theorem core_applyWrite_slate (k r : Nat) (v : Unit64) (s : State) :
    (applyWrite k (.slate r v) s).core k = (s.core k).putUnit r v := core_updCore_same ..

/-! ## Completion of instructions (R161, R193) -/

section Complete

variable {k : CoreId} {n : Nat} {f : InFlight} {s : State} (ha : awake s) (hf : (s.core k.val).inflight[n]? = some f)
include hf

theorem instructionComplete_waits
    (h : 0 < f.descs ∨ f.accumulates = true ∧ ((s.core k.val).inflight.take n).any InFlight.accumulates = true) :
    endsIn (.instructionComplete k n) s s := by
  show execInstructionComplete k n s = _
  unfold execInstructionComplete
  rw [hf]
  exact if_pos h

include ha

theorem instructionComplete_writes
    (h : ¬ (0 < f.descs ∨ f.accumulates = true ∧ ((s.core k.val).inflight.take n).any InFlight.accumulates = true)) :
    let u := forEach f.writes (applyWrite k.val) (updCore k.val (fun c => { c with inflight := c.inflight.eraseIdx n }) s)
    endsIn (.instructionComplete k n) s (if f.st then raiseEvent k.val f.sev u else u) := by
  refine endsIn_of_live ha ?_
  show execInstructionComplete k n s = _
  unfold execInstructionComplete
  rw [hf]
  exact if_neg h

end Complete

/-! ## Completion of descriptors (R97, R174) -/

/-- The oldest descriptor of an engine has left its queue. -/
def descTaken (e : EngineId) (s : State) : State :=
  { s with engines := Tab.upd {} s.engines e.val (fun x => { x with queue := x.queue.tail }) }

section Descriptor

variable {e : EngineId} {d : QDesc} {r : List QDesc} {s : State} (ha : awake s)
  (hq : (Tab.get {} s.engines e.val).queue = d :: r)
include ha hq

/-- What becomes of the descriptor at the front: it is discarded, or transferred with or without a signal. -/
theorem dmaDescriptorComplete_endsIn : endsIn (.dmaDescriptorComplete e) s (descDone d.core d.go
    (if !s.engineTakes (Tab.get {} s.engines e.val) d then bumpPart cViolEpochStale (descTaken e s)
      else match d.sig with
        | some (h, i) => addCounter i h 1 (transfer d.core d.desc (descTaken e s))
        | none => transfer d.core d.desc (descTaken e s))) := by
  refine endsIn_of_live ha ?_
  show execDmaDescriptorComplete e s = _
  unfold execDmaDescriptorComplete
  extract_lets x
  rw [show x.queue = d :: r from hq]
  rfl

theorem dmaDescriptorComplete_discarded (h : s.engineTakes (Tab.get {} s.engines e.val) d = false) :
    endsIn (.dmaDescriptorComplete e) s (descDone d.core d.go (bumpPart cViolEpochStale (descTaken e s))) := by
  have hend := dmaDescriptorComplete_endsIn ha hq
  rwa [h] at hend

theorem dmaDescriptorComplete_taken (h : s.engineTakes (Tab.get {} s.engines e.val) d = true) (hsig : d.sig = none) :
    endsIn (.dmaDescriptorComplete e) s (descDone d.core d.go (transfer d.core d.desc (descTaken e s))) := by
  have hend := dmaDescriptorComplete_endsIn ha hq
  rwa [h, hsig] at hend

theorem dmaDescriptorComplete_signals (h : s.engineTakes (Tab.get {} s.engines e.val) d = true) {c : Nat} {i : Tag}
    (hsig : d.sig = some (c, i)) :
    endsIn (.dmaDescriptorComplete e) s (descDone d.core d.go (addCounter i c 1 (transfer d.core d.desc (descTaken e s)))) := by
  have hend := dmaDescriptorComplete_endsIn ha hq
  rwa [h, hsig] at hend

end Descriptor

/-! ## Bank starvation (R188) -/

theorem bankStarvation_completes {s : State} (ha : awake s) (k : CoreId) (b : Fin 32) :
    completes (.bankStarvation k b) s (fun t =>
      b.val ∈ (t.core k.val).starved ∧ (∀ x ∈ (s.core k.val).starved, x ∈ (t.core k.val).starved) ∧ { t with cores := s.cores } = s) := by
  have hstarved (l : List Nat) : b.val ∈ (if l.contains b.val then l else l ++ [b.val]) ∧
      ∀ x ∈ l, x ∈ (if l.contains b.val then l else l ++ [b.val]) := by
    split
    · next h => exact ⟨List.contains_iff_mem.mp h, fun _ hx => hx⟩
    · exact ⟨List.mem_append_right l (List.mem_singleton_self _), fun _ hx => List.mem_append_left _ hx⟩
  have hcore : (updCore k.val (fun c => { c with
      starved := if c.starved.contains b.val then c.starved else c.starved ++ [b.val] }) s).core k.val = _ := core_updCore_same ..
  obtain ⟨hself, hkept⟩ := hstarved (s.core k.val).starved
  refine completes_of_endsIn (endsIn_of_live ha rfl) ⟨?_, ?_, rfl⟩
  · exact (congrArg (fun c : Core => b.val ∈ c.starved) hcore).mpr hself
  · exact (congrArg (fun c : Core => ∀ x ∈ (s.core k.val).starved, x ∈ c.starved) hcore).mpr hkept

/-- Settles O52: the issue, the completion by what it waits for, the writes, the descriptors, and starvation. -/
theorem tileCompletions : Obligations.TileCompletions := by
  refine ⟨goesOn_issues, fun k n f s ha hf => ?_, fun k b r v s => ⟨?_, ?_, ?_, fun j hj => ?_⟩, fun e d r s ha hq => ?_,
    fun k b s ha => bankStarvation_completes ha k b⟩
  · exact ⟨instructionComplete_waits hf, instructionComplete_writes ha hf⟩
  · exact fun h => applyWrite_aRow_present h v
  · exact fun h => applyWrite_aRow_absent h v
  · rw [core_applyWrite_slate, unit_putUnit_same]
  · rw [core_applyWrite_slate, unit_putUnit_ne _ hj]
  · exact ⟨dmaDescriptorComplete_discarded ha hq, dmaDescriptorComplete_taken ha hq,
      fun _ _ ht hsig => dmaDescriptorComplete_signals ha hq ht hsig⟩

end Sys2Proof.Proofs
end

section
/-! PROOFS of the statement on the messages of the fabric at their destination (R97, R276, R281, R282, R289 to R293, R298, R379 to
R382). -/

namespace Sys2Proof.Proofs

open Sys2Proof.Machine Sys2Proof.Safety Sys2Proof.Laws

/-! ## Commands whose whole meaning is a handler -/

/-- Commands that end in `live` each end in the state their handler makes. -/
theorem endsIn_of_handlers {s : State} (ha : awake s) {l : List (Instr × State)} (h : l.Forall fun e => exec e.1 s = live s e.2) :
    ∀ e ∈ l, endsIn e.1 s e.2 := fun e he => endsIn_of_live ha (List.forall_iff_forall_mem.mp h e he)

/-- Commands whose messages are too short all end in the one state that counts them. -/
theorem endsIn_of_short {s t : State} (ha : awake s) {b : Bytes} {l : List (Instr × Nat)}
    (h : l.Forall fun e => b.length < e.2 → exec e.1 s = live s t) : ∀ e ∈ l, b.length < e.2 → endsIn e.1 s t :=
  fun e he hshort => endsIn_of_live ha (List.forall_iff_forall_mem.mp h e he hshort)

/-! ## Messages that are too short (R379) -/

theorem bodyOk_short {b : Bytes} {n : Nat} (h : b.length < n) (reserved : List (Nat × Nat)) : bodyOk b n reserved = false := by
  simp [bodyOk, Nat.not_le.mpr h]

/-- A payload shorter than the fixed part of its message is shorter than the whole. -/
theorem bodyOk_shortFixed {b : Bytes} {n : Nat} (h : b.length < n) (more : Nat) (reserved : List (Nat × Nat)) :
    bodyOk b (n + more) reserved = false := bodyOk_short (h.trans_le (Nat.le_add_right n more)) reserved

theorem chunkMsgOk_short {b : Bytes} (h : b.length < 0x20) : chunkMsgOk b = false := by
  simp only [chunkMsgOk, bodyOk_shortFixed h, Bool.false_and]

section Short

variable {src : Nat} {tag : BitVec 32} {b : Bytes} {s : State}

theorem rxAssign_short (h : b.length < 0x60) : rxAssign src tag b s = badServe tag s :=
  if_pos (by simp only [bodyOk_short h, Bool.not_false, Bool.true_or])

theorem rxAssignAck_short (h : b.length < 0x10) : rxAssignAck src tag b s = badServe tag s :=
  if_pos (by simp only [bodyOk_short h, Bool.not_false, Bool.true_or])

theorem rxTokenSeg_short (h : b.length < 0x10) : rxTokenSeg src tag b s = badServe tag s :=
  if_pos (by simp only [bodyOk_shortFixed h, Bool.not_false, Bool.true_or])

theorem rxTokens_short (h : b.length < 0x44) : rxTokens src tag b s = badServe tag s :=
  if_pos (by simp only [bodyOk_short h, Bool.not_false, Bool.true_or])

theorem rxCancel_short (h : b.length < 0x10) : rxCancel src tag b s = badServe tag s :=
  if_pos (by simp only [bodyOk_short h, Bool.not_false, Bool.true_or])

theorem rxShipOffer_short (h : b.length < 0x68) : rxShipOffer src tag b s = badServe tag s :=
  if_pos (by simp only [bodyOk_short h, Bool.not_false])

theorem rxShipAccept_short (h : b.length < 0x18) : rxShipAccept src tag b s = badServe tag s :=
  if_pos (by simp only [bodyOk_short h, Bool.not_false, Bool.true_or])

theorem rxShipRefuse_short (h : b.length < 0x10) : rxShipRefuse src tag b s = badServe tag s :=
  if_pos (by simp only [bodyOk_short h, Bool.not_false, Bool.true_or])

theorem rxShipPage_short (h : b.length < 0x20) : rxShipPage src tag b s = badServe tag s :=
  if_pos (by simp only [bodyOk_shortFixed h, Bool.not_false, Bool.true_or])

theorem rxShipEnd_short (h : b.length < 0x28) : rxShipEnd src tag b s = badServe tag s :=
  if_pos (by simp only [bodyOk_short h, Bool.not_false])

theorem rxShipDone_short (h : b.length < 0x10) : rxShipDone src tag b s = badServe tag s :=
  if_pos (by simp only [bodyOk_short h, Bool.not_false])

theorem rxShipAbort_short (h : b.length < 0x10) : rxShipAbort src tag b s = badServe tag s :=
  if_pos (by simp only [bodyOk_short h, Bool.not_false, Bool.true_or])

theorem rxPoolView_short (h : b.length < 0x10) : rxPoolView src b s = badFab s :=
  if_pos (by simp only [bodyOk_shortFixed h, Bool.not_false, Bool.true_or])

theorem rxAdvert_short (h : b.length < 0x10) : rxAdvert src b s = badFab s :=
  if_pos (by simp only [bodyOk_short h, Bool.not_false])

theorem rxProfileSeg_short (h : b.length < 0x20) : rxProfileSeg b s = badFab s :=
  if_pos (by simp only [bodyOk_shortFixed h, Bool.not_false, Bool.true_or])

theorem rxLoadBegin_short (h : b.length < 0x20) : rxLoadBegin src b s = badFab s :=
  if_pos (by simp only [bodyOk_short h, Bool.not_false, Bool.true_or])

theorem rxWeightChunk_short (h : b.length < 0x20) : rxWeightChunk src b s = badFab s :=
  if_pos (by simp only [chunkMsgOk_short h, Bool.not_false])

theorem rxLoadStatus_short (h : b.length < 0x0C) : rxLoadStatus src b s = badFab s :=
  if_pos (by simp only [bodyOk_short h, Bool.not_false])

theorem rxLoadEnd_short (h : b.length < 0x08) : rxLoadEnd src b s = badFab s :=
  if_pos (by simp only [bodyOk_short h, Bool.not_false, Bool.true_or])

theorem rxRepairReq_short (h : b.length < 0x28) : rxRepairReq src b s = badFab s :=
  if_pos (by simp only [bodyOk_short h, Bool.not_false])

theorem rxRepairData_short (h : b.length < 0x20) : rxRepairData b s = badFab s :=
  if_pos (by simp only [chunkMsgOk_short h, Bool.not_false, Bool.true_or])

theorem rxPartial_short (h : b.length < 0x20) (reduce : Bool) : rxPartial reduce src b s = badFab s :=
  if_pos (by simp only [bodyOk_short h, bodyOk_shortFixed h, Bool.false_and, ite_self, Bool.not_false])

end Short

/-- Each message of a request that is too short is counted for the request's function. -/
theorem serveMsg_short {s : State} (ha : awake s) (src : BitVec 12) (tag : BitVec 32) (b : Bytes) :
    ∀ e ∈ [(Instr.assign src tag b, 0x60), (.assignAck src tag b, 0x10), (.tokenSeg src tag b, 0x10), (.tokens src tag b, 0x44),
        (.cancel src tag b, 0x10), (.shipOffer src tag b, 0x68), (.shipAccept src tag b, 0x18), (.shipRefuse src tag b, 0x10),
        (.shipPage src tag b, 0x20), (.shipEnd src tag b, 0x28), (.shipDone src tag b, 0x10), (.shipAbort src tag b, 0x10)],
      b.length < e.2 → endsIn e.1 s (badServe tag s) :=
  endsIn_of_short ha ⟨
    fun h => congrArg (live s) (rxAssign_short h), fun h => congrArg (live s) (rxAssignAck_short h),
    fun h => congrArg (live s) (rxTokenSeg_short h), fun h => congrArg (live s) (rxTokens_short h),
    fun h => congrArg (live s) (rxCancel_short h), fun h => congrArg (live s) (rxShipOffer_short h),
    fun h => congrArg (live s) (rxShipAccept_short h), fun h => congrArg (live s) (rxShipRefuse_short h),
    fun h => congrArg (live s) (rxShipPage_short h), fun h => congrArg (live s) (rxShipEnd_short h),
    fun h => congrArg (live s) (rxShipDone_short h), fun h => congrArg (live s) (rxShipAbort_short h)⟩

/-- Each other message that is too short is counted for the part. -/
theorem fabricMsg_short {s : State} (ha : awake s) (src : BitVec 12) (tag : BitVec 32) (b : Bytes) :
    ∀ e ∈ [(Instr.poolView src tag b, 0x10), (.advert src tag b, 0x10), (.profileSeg src tag b, 0x20), (.loadBegin src tag b, 0x20),
        (.weightChunk src tag b, 0x20), (.loadStatus src tag b, 0x0C), (.loadEnd src tag b, 0x08), (.repairReq src tag b, 0x28),
        (.repairData src tag b, 0x20), (.reduce src tag b, 0x20), (.gather src tag b, 0x20)],
      b.length < e.2 → endsIn e.1 s (badFab s) :=
  endsIn_of_short ha ⟨
    fun h => congrArg (live s) (rxPoolView_short h), fun h => congrArg (live s) (rxAdvert_short h),
    fun h => congrArg (live s) (rxProfileSeg_short h), fun h => congrArg (live s) (rxLoadBegin_short h),
    fun h => congrArg (live s) (rxWeightChunk_short h), fun h => congrArg (live s) (rxLoadStatus_short h),
    fun h => congrArg (live s) (rxLoadEnd_short h), fun h => congrArg (live s) (rxRepairReq_short h),
    fun h => congrArg (live s) (rxRepairData_short h), fun h => congrArg (live s) (rxPartial_short h true),
    fun h => congrArg (live s) (rxPartial_short h false)⟩

/-! ## A message and its request's context (R97) -/

section WithCtx

variable {o : Option Nat} {tag : BitVec 32} {g : Nat → Ctx → State → State} {s : State} {i : Nat} {c : Ctx} (ho : o = some i)
  (hc : s.ctx i = some c)
include ho hc

theorem withCtx_stale (htag : c.tag.word ≠ tag) : withCtx o tag g s = bump (tagOfWord tag.toNat).fn cViolEpochStale s := by
  simp only [withCtx, ho, hc, if_neg htag]

theorem withCtx_current (htag : c.tag.word = tag) : withCtx o tag g s = g i c s := by
  simp only [withCtx, ho, hc, if_pos htag]

end WithCtx

/-! ## The handlers of the shortest messages -/

section Handlers

variable {src : Nat} {tag : BitVec 32} {b : Bytes} {s : State}

/-- The member that an ADVERT comes from has the frames, contexts and rows it names (R290). -/
def advertised (src : Nat) (b : Bytes) (s : State) : State :=
  updServe (fun x => { x with members := Tab.upd {} x.members src (fun m => { m with
    frames := mfield b 0x20 4, ctxs := mfield b 0x24 4, queued := mfield b 0x28 4, adv := true }) }) s

theorem rxAdvert_wellFormed (h : bodyOk b 0x10 [(0x2D, 3)] = true) :
    rxAdvert src b s = forEach (Tab.keys (advertised src b s).serve.ctxs) tryAssign (advertised src b s) :=
  if_neg (by simp [h])

theorem member_advertised (src : Nat) (b : Bytes) (s : State) :
    Tab.get {} (advertised src b s).serve.members src = { Tab.get {} s.serve.members src with
      frames := mfield b 0x20 4, ctxs := mfield b 0x24 4, queued := mfield b 0x28 4, adv := true } := by
  unfold advertised updServe
  simp only [get_upd_same]

section Cancel

variable {st : Status} {i : Nat} {c : Ctx} (h : bodyOk b 0x10 [(0x2A, 6)] = true)
  (hst : st = BitVec.ofNat 16 (mfield b 0x28 2)) (hcode : st = eCancelled ∨ st = eLease)
  (hi : s.findCtx src (mfield b 0x20 8) = some i) (hc : s.ctx i = some c)
include h hst hcode

/-- A CANCEL with one of its two codes goes to its request's context. -/
theorem rxCancel_wellFormed : rxCancel src tag b s = withCtx (s.findCtx src (mfield b 0x20 8)) tag (fun i c t =>
    if c.home ∨ c.state = .ended then t
    else freeProfiles (dropWork i st (updCtx i (fun c => { c with state := .ended, late := true }) t))) s := by
  subst hst
  refine if_neg ?_
  rcases hcode with hcode | hcode
  · simp [h, hcode]
  · simp [h, hcode]

include hi hc

theorem rxCancel_stale (htag : c.tag.word ≠ tag) :
    rxCancel src tag b s = bump (tagOfWord tag.toNat).fn cViolEpochStale s :=
  (rxCancel_wellFormed h hst hcode).trans (withCtx_stale hi hc htag)

theorem rxCancel_ends (htag : c.tag.word = tag) (hhome : c.home = false) (hlive : c.state ≠ .ended) :
    rxCancel src tag b s =
      freeProfiles (dropWork i st (updCtx i (fun c => { c with state := .ended, late := true }) s)) :=
  ((rxCancel_wellFormed h hst hcode).trans (withCtx_current hi hc htag)).trans (if_neg (by simp [hhome, hlive]))

end Cancel

/-- A SHIP_DONE for another number of pages than were sent abandons the shipment (R292). -/
theorem rxShipDone_mismatch {i : Nat} {c : Ctx} {m : Ship} (h : bodyOk b 0x10 [] = true)
    (hi : s.outShip src (mfield b 0x20 8) (mfield b 0x28 4) = some i) (hc : s.ctx i = some c) (htag : c.tag.word = tag)
    (hm : s.ship i = some m) (hst : m.st = .waitDone) (hpages : m.pages ≠ mfield b 0x2C 4) :
    rxShipDone src tag b s = abandonOut i (sendAbort c m 2 s) := by
  refine (if_neg (by simp [h])).trans ((withCtx_current hi hc htag).trans ?_)
  simp only [hm]
  exact (if_neg (by simp [hst])).trans (if_pos hpages)

/-- A LOAD_END with KEEP set makes the member's copy READY (R277). -/
theorem rxLoadEnd_kept {r : Nat} {l : Copy} (h : bodyOk b 0x08 [(0x25, 3)] = true) (hkeep : mfield b 0x24 1 = 1)
    (hcopy : s.serve.copies.find? (fun e => e.2.rodId == some (src, mfield b 0x20 4)) = some (r, l)) :
    rxLoadEnd src b s = resumeLoads (poolChanged (updCopy r (fun c => { c with state := if c.state = .damaged then .damaged else .ready })
      (updServe (fun x => { x with rod := x.rod.filter (fun r => !(r.id == mfield b 0x20 4 && r.loader == src)) }) s))) := by
  refine (if_neg (by simp [h, hkeep])).trans ?_
  simp only [hcopy, Option.map_some]
  exact if_pos hkeep

/-- A REDUCE in form joins the sums of the running step (R382). -/
theorem rxPartial_reduce (h : bodyOk b 0x20 [(0x29, 1), (0x34, 12)] = true) (hfmt : mfield b 0x25 1 = 4)
    (hplace : mfield b 0x27 1 < mfield b 0x28 1) (hstep : s.serve.step ≠ none) :
    rxPartial true src b s =
      { s with serve := { s.serve with sums := s.serve.sums ++ [{ reduce := true, src := src, body := b }] } } :=
  (if_neg (by simp [h, hfmt, hplace])).trans (if_neg (by simpa using hstep))

end Handlers

/-- Settles O56: each message by its handler, the handlers of the shortest, and the messages that are too short. -/
theorem messageHandlers : Obligations.MessageHandlers := by
  refine ⟨fun src tag b s ha => ⟨?_, fun h => ?_, fun i c h hcode hi hc => ⟨fun htag => ?_, fun htag hhome hlive => ?_⟩,
    fun i c m h hi hc htag hm hst hpages => ?_, fun r l h hkeep hcopy => ?_, fun h hfmt hplace hstep => ?_⟩,
    fun src tag b s ha => ⟨serveMsg_short ha src tag b, fabricMsg_short ha src tag b⟩⟩
  · exact endsIn_of_handlers ha
      ⟨rfl, rfl, rfl, rfl, rfl, rfl, rfl, rfl, rfl, rfl, rfl, rfl, rfl, rfl, rfl, rfl, rfl, rfl, rfl, rfl, rfl, rfl, rfl⟩
  · have hmember := member_advertised src.toNat b s
    exact ⟨advertised src.toNat b s, congrArg Member.frames hmember, congrArg Member.ctxs hmember, congrArg Member.queued hmember, rfl,
      endsIn_of_live ha (congrArg (live s) (rxAdvert_wellFormed h))⟩
  · exact endsIn_of_live ha (congrArg (live s) (rxCancel_stale h rfl hcode hi hc htag))
  · exact endsIn_of_live ha (congrArg (live s) (rxCancel_ends h rfl hcode hi hc htag hhome hlive))
  · exact endsIn_of_live ha (congrArg (live s) (rxShipDone_mismatch h hi hc htag hm hst hpages))
  · exact endsIn_of_live ha (congrArg (live s) (rxLoadEnd_kept h hkeep hcopy))
  · exact endsIn_of_live ha (congrArg (live s) (rxPartial_reduce h hfmt hplace hstep))

end Sys2Proof.Proofs
end

section
/-! PROOFS of what leaves the processors, the pins and READY_MAP as they are: one lemma for each operation that a fault, a revocation or
a running processor brings about. -/

namespace Sys2Proof.Proofs

open Sys2Proof.Machine Sys2Proof.Safety Sys2Proof.Laws

/-- From s to t the processors, the pins and READY_MAP are kept. -/
structure keepsProcs (s t : State) : Prop where
  procs : t.procs = s.procs
  pins : t.pins = s.pins
  ready : t.ready = s.ready

/-- From s to t the boot channel is kept as well. -/
structure keepsBoot (s t : State) : Prop where
  kept : keepsProcs s t
  boot : t.boot = s.boot

theorem keepsProcs.refl (s : State) : keepsProcs s s := ⟨rfl, rfl, rfl⟩

theorem keepsProcs.trans {s t u : State} (h : keepsProcs s t) (k : keepsProcs t u) : keepsProcs s u :=
  ⟨k.procs.trans h.procs, k.pins.trans h.pins, k.ready.trans h.ready⟩

/-- A step may be led by another. -/
theorem keepsProcs.after {s t u : State} (k : keepsProcs t u) (h : keepsProcs s t) : keepsProcs s u := h.trans k

theorem keepsProcs.of_reports {s t : State} (h : reportsOnly s t) : keepsProcs s t := ⟨h.procs, h.pins, h.ready⟩

theorem keepsBoot.refl (s : State) : keepsBoot s s := ⟨.refl s, rfl⟩

theorem keepsBoot.trans {s t u : State} (h : keepsBoot s t) (k : keepsBoot t u) : keepsBoot s u :=
  ⟨h.kept.trans k.kept, k.boot.trans h.boot⟩

theorem forEach_keepsProcs {α : Type} (l : List α) {f : α → State → State} (h : ∀ x s, keepsProcs s (f x s)) (s : State) :
    keepsProcs s (forEach l f s) := forEach_rel .refl .trans l f h s

theorem forEach_keepsBoot {α : Type} (l : List α) {f : α → State → State} (h : ∀ x s, keepsBoot s (f x s)) (s : State) :
    keepsBoot s (forEach l f s) := forEach_rel .refl .trans l f h s

theorem keepsProcs_ite {c : Prop} [Decidable c] {s a b : State} (ha : keepsProcs s a) (hb : keepsProcs s b) :
    keepsProcs s (if c then a else b) := by
  split
  · exact ha
  · exact hb

theorem onlyIf_keepsProcs {c : Bool} {f : State → State} {s : State} (h : keepsProcs s (f s)) : keepsProcs s (onlyIf c f s) :=
  keepsProcs_ite h (.refl s)

theorem bump_keepsProcs (f k : Nat) (s : State) : keepsProcs s (bump f k s) := ⟨rfl, rfl, rfl⟩

theorem updKv_keepsProcs (g : Kv → Kv) (s : State) : keepsProcs s (updKv g s) := ⟨rfl, rfl, rfl⟩

theorem putPage_keepsProcs (k : Nat) (p : Page) (s : State) : keepsProcs s (putPage k p s) := ⟨rfl, rfl, rfl⟩

theorem updCtx_keepsProcs (i : Nat) (g : Ctx → Ctx) (s : State) : keepsProcs s (updCtx i g s) :=
  ⟨updCtx_procs .., updCtx_pins .., updCtx_ready ..⟩

/-! ### Sending on the fabric -/

theorem pump_keepsBoot (p n : Nat) (s : State) : keepsBoot s (pump p n s) := by
  induction n generalizing s with
  | zero => exact .refl s
  | succ n ih =>
    unfold pump
    extract_lets x owed
    split
    · exact .refl s
    · split
      · exact .refl s
      · extract_lets fr left y
        have hsent : keepsBoot s (emit (.frame p fr) (updPort p (fun _ => y) s)) := ⟨⟨rfl, rfl, rfl⟩, rfl⟩
        exact hsent.trans (ih _)

theorem flushPort_keepsBoot (p : Nat) (s : State) : keepsBoot s (flushPort p s) := pump_keepsBoot p _ s

theorem queueFrames_keepsBoot (p vc : Nat) (l : List Bytes) (s : State) : keepsBoot s (queueFrames p vc l s) := by
  have hqueued : keepsBoot s (updPort p (fun x => { x with queues := Tab.upd [] x.queues vc (· ++ l) }) s) := ⟨⟨rfl, rfl, rfl⟩, rfl⟩
  exact hqueued.trans (flushPort_keepsBoot p _)

theorem sendLink_keepsBoot (p ltype : Nat) (body : Bytes) (s : State) : keepsBoot s (sendLink p ltype body s) :=
  queueFrames_keepsBoot p 0 _ s

theorem sendMsg_keepsProcs (dest cls mtype : Nat) (tag : BitVec 32) (body : Bytes) (s : State) :
    keepsProcs s (sendMsg dest cls mtype tag body s) := by
  unfold sendMsg
  split
  · exact .refl s
  · exact .after (queueFrames_keepsBoot ..).kept ⟨rfl, rfl, rfl⟩

theorem sendRecord_keepsBoot (r : LsRecord) (skip : Option Nat) (s : State) : keepsBoot s (sendRecord r skip s) :=
  forEach_keepsBoot _ (fun p t => queueFrames_keepsBoot p 7 _ t) s

theorem renew_keepsBoot (s : State) : keepsBoot s (renew s) := by
  have horiginate : keepsBoot s (originate s) := by
    unfold originate
    split
    · exact .refl s
    · extract_lets r
      have hstored : keepsBoot s (storeRecord r (updFab (fun x => { x with seq := x.seq + 1 }) s)) := ⟨⟨rfl, rfl, rfl⟩, rfl⟩
      exact hstored.trans (sendRecord_keepsBoot r none _)
  unfold renew
  split
  · exact .refl s
  · exact horiginate

theorem sendProof_keepsBoot (p : Nat) (s : State) : keepsBoot s (sendProof p s) := by
  unfold sendProof
  extract_lets x
  split
  · exact .refl s
  · split
    · exact .refl s
    · have hport : keepsBoot s (updPort p (fun x => { x with proofSent := true }) s) := ⟨⟨rfl, rfl, rfl⟩, rfl⟩
      exact hport.trans (sendLink_keepsBoot p 5 _ _)

theorem sendCerts_keepsBoot (p : Nat) (s : State) : keepsBoot s (sendCerts p s) := by
  unfold sendCerts
  split
  · exact .refl s
  · extract_lets l t u
    have ht : keepsBoot s t := forEach_keepsBoot _ (fun _ t => sendLink_keepsBoot p 3 _ t) s
    have hu : keepsBoot t u := ⟨⟨rfl, rfl, rfl⟩, rfl⟩
    exact ((ht.trans hu).trans (sendLink_keepsBoot p 4 _ u)).trans (sendProof_keepsBoot p _)

/-! ### Keys -/

theorem keysInForce_keepsProcs (p : Nat) (s : State) : keepsProcs s (keysInForce p s) := by
  unfold keysInForce
  split
  · exact ((flushPort_keepsBoot p _).trans (renew_keepsBoot _)).kept.after ⟨rfl, rfl, rfl⟩
  · exact .refl s

theorem judgeProof_keepsProcs (p : Nat) (sig : Bytes) (s : State) : keepsProcs s (judgeProof p sig s) := by
  unfold judgeProof
  extract_lets x chain own pub svnOk good secret
  split
  · exact ((sendLink_keepsBoot p 6 _ _).kept.trans (keysInForce_keepsProcs p _)).after ⟨rfl, rfl, rfl⟩
  · exact (keepsProcs.of_reports (postEvent_reports ..)).after ⟨rfl, rfl, rfl⟩

theorem rxKeyProof_keepsProcs (p : Nat) (sig : Bytes) (s : State) : keepsProcs s (rxKeyProof p sig s) :=
  keepsProcs_ite (.refl s) (keepsProcs_ite ⟨rfl, rfl, rfl⟩ (judgeProof_keepsProcs p sig s))

theorem keyWork_keepsProcs (p : Nat) (s : State) : keepsProcs s (keyWork p s) := by
  unfold keyWork
  extract_lets t u
  have hu : keepsProcs s u := (sendCerts_keepsBoot p s).kept.trans
    (keepsProcs_ite (sendProof_keepsBoot p t).kept (.refl t))
  split
  · exact hu
  · exact hu.trans (.after (rxKeyProof_keepsProcs p _ _) ⟨rfl, rfl, rfl⟩)

/-! ### Frames, ghosts and columns -/

theorem freeFrame_keepsProcs (k : Nat) (s : State) : keepsProcs s (freeFrame k s) := by
  have habandon : keepsProcs s (abandonSeal k s) := keepsProcs_ite ⟨rfl, rfl, rfl⟩ (.refl s)
  exact habandon.trans ⟨rfl, rfl, rfl⟩

theorem strand_keepsProcs (idx : Nat) (s : State) : keepsProcs s (strand idx s) := by
  unfold strand
  extract_lets top
  split
  · exact .refl s
  · refine forEach_keepsProcs _ (fun g t => ?_) s
    exact ⟨rfl, rfl, rfl⟩

theorem reclaimGhost_keepsProcs {s t : State} (h : reclaimGhost s = some t) : keepsProcs s t := by
  unfold reclaimGhost at h
  split at h
  · cases h
  · cases h
    exact (strand_keepsProcs _ _).after ⟨rfl, rfl, rfl⟩

theorem trimGhosts_keepsProcs (n fuel : Nat) (s : State) : keepsProcs s (trimGhosts n fuel s) := by
  induction fuel generalizing s with
  | zero => exact .refl s
  | succ fuel ih =>
    unfold trimGhosts
    split
    · exact .refl s
    · split
      · exact .refl s
      · next t ht => exact (reclaimGhost_keepsProcs ht).trans (ih t)

theorem ensureGrans_keepsProcs (n fuel : Nat) (s : State) : keepsProcs s (ensureGrans n fuel s) := by
  induction fuel generalizing s with
  | zero => exact .refl s
  | succ fuel ih =>
    unfold ensureGrans
    split
    · exact .refl s
    · split
      · exact .refl s
      · next t ht => exact (reclaimGhost_keepsProcs ht).trans (ih t)

theorem takeGrans_keepsProcs (n : Nat) (owner : Tag) (zeroing : Bool) (s : State) : keepsProcs s (takeGrans n owner zeroing s).2 :=
  ⟨rfl, rfl, rfl⟩

theorem grantGrans_keepsProcs (n : Nat) (owner : Tag) (zeroing : Bool) (s : State) : keepsProcs s (grantGrans n owner zeroing s).2 :=
  (ensureGrans_keepsProcs n _ s).trans (takeGrans_keepsProcs ..)

theorem openPage_keepsProcs (idx : Nat) (draft : Bool) (h : ModelHdr) (layer col : Nat) (s : State) :
    keepsProcs s (openPage idx draft h layer col s) := by
  have hgrant := grantGrans_keepsProcs h.rawGrans (s.ctxTag idx) true s
  unfold openPage
  generalize grantGrans h.rawGrans (s.ctxTag idx) true s = r at hgrant
  obtain ⟨l, t⟩ := r
  exact hgrant.trans ⟨rfl, rfl, rfl⟩

theorem openColumn_keepsProcs (idx col : Nat) (s : State) : keepsProcs s (openColumn idx col s) := by
  unfold openColumn
  split
  · exact .refl s
  · refine forEach_keepsProcs _ (fun m t => forEach_keepsProcs _ (fun l u => ?_) t) s
    exact keepsProcs_ite (openPage_keepsProcs idx m.1 m.2 l col u) (.refl u)

theorem dropPage_keepsProcs (k : Nat) (s : State) : keepsProcs s (dropPage k s) := by
  unfold dropPage
  extract_lets p f x keep t g
  split
  · exact .refl s
  · exact .refl s
  · exact .refl s
  · exact ((freeFrame_keepsProcs k s).trans (putPage_keepsProcs ..)).trans (bump_keepsProcs ..)
  · have ht : keepsProcs s t := keepsProcs_ite (.refl s) (trimGhosts_keepsProcs _ _ s)
    split
    · exact (((ht.trans (freeFrame_keepsProcs k t)).trans (updKv_keepsProcs ..)).trans (putPage_keepsProcs ..)).trans
        ((bump_keepsProcs ..).trans (bump_keepsProcs ..))
    · exact ((freeFrame_keepsProcs k s).trans (putPage_keepsProcs ..)).trans (bump_keepsProcs ..)

theorem dropColumn_keepsProcs (idx col : Nat) (s : State) : keepsProcs s (dropColumn idx col s) := by
  unfold dropColumn
  extract_lets t u v
  have ht : keepsProcs s t := forEach_keepsProcs _ dropPage_keepsProcs s
  have hu : keepsProcs t u := ⟨rfl, rfl, rfl⟩
  have hv : keepsProcs u v := updCtx_keepsProcs ..
  exact ((ht.trans hu).trans hv).trans (strand_keepsProcs idx v)

theorem makeRoom_keepsProcs (n : Nat) (prep : List Nat) (fuel : Nat) (s : State) : keepsProcs s (makeRoom n prep fuel s) := by
  induction fuel generalizing s with
  | zero => exact .refl s
  | succ fuel ih =>
    unfold makeRoom
    split
    · exact .refl s
    · split
      · exact .refl s
      · exact (dropColumn_keepsProcs _ _ s).trans (ih _)

theorem roomFor_keepsProcs (n : Nat) (prep : List Nat) (s : State) : keepsProcs s (roomFor n prep s).2 :=
  (makeRoom_keepsProcs n prep _ s).trans ⟨rfl, rfl, rfl⟩

theorem freePages_keepsProcs (idx : Nat) (s : State) : keepsProcs s (freePages idx s) := by
  refine forEach_keepsProcs _ (fun k t => ?_) s
  split
  · exact .refl t
  · exact ⟨rfl, rfl, rfl⟩
  · exact (freeFrame_keepsProcs k t).trans (putPage_keepsProcs ..)

theorem closeUnused_keepsProcs (r : StepReq) (s : State) : keepsProcs s (closeUnused r s) := by
  refine forEach_keepsProcs _ (fun c t => forEach_keepsProcs _ (fun k u => ?_) t) s
  exact keepsProcs_ite ((freeFrame_keepsProcs k u).trans (putPage_keepsProcs ..)) (.refl u)

/-! ### Requests, tasks and runs -/

theorem dropShips_keepsProcs (idx reason : Nat) (s : State) : keepsProcs s (dropShips idx reason s) := by
  unfold dropShips
  extract_lets mine t
  have ht : keepsProcs s t := ⟨rfl, rfl, rfl⟩
  split
  · exact ht
  · refine ht.trans (forEach_keepsProcs _ (fun m u => ?_) t)
    exact keepsProcs_ite (.refl u) ((sendMsg_keepsProcs ..).trans (onlyIf_keepsProcs ⟨rfl, rfl, rfl⟩))

theorem dropWork_keepsProcs (idx : Nat) (st : Status) (s : State) : keepsProcs s (dropWork idx st s) := by
  unfold dropWork
  extract_lets t u
  have ht : keepsProcs s t := dropShips_keepsProcs idx _ s
  have hu : keepsProcs t u := freePages_keepsProcs idx t
  split
  · exact ht.trans (.after (updCtx_keepsProcs ..) ⟨rfl, rfl, rfl⟩)
  · split
    · exact ht.trans hu
    · exact (ht.trans hu).trans (keepsProcs_ite (updCtx_keepsProcs ..) ⟨rfl, rfl, rfl⟩)

theorem checkSettled_keepsProcs (f : Nat) (s : State) : keepsProcs s (checkSettled f s) := keepsProcs_ite ⟨rfl, rfl, rfl⟩ (.refl s)

theorem post_keepsProcs (f q : Nat) (e : Cqe) (s : State) : keepsProcs s (post f q e s) := .of_reports (post_reports ..)

theorem finishHome_keepsProcs (idx : Nat) (st : Status) (end1 : Bool) (s : State) : keepsProcs s (finishHome idx st end1 s) := by
  unfold finishHome
  split
  · exact .refl s
  · split
    · exact .refl s
    · extract_lets e t u
      have ht : keepsProcs s t := post_keepsProcs ..
      have hu : keepsProcs t u := keepsProcs_ite ⟨rfl, rfl, rfl⟩ (.refl t)
      exact ((ht.trans hu).trans (updCtx_keepsProcs ..)).trans (checkSettled_keepsProcs _ _)

theorem tellHolders_keepsProcs (idx : Nat) (c : Ctx) (st : Status) (s : State) : keepsProcs s (tellHolders idx c st s) :=
  forEach_keepsProcs _ (fun _ _ => sendMsg_keepsProcs ..) s

theorem endRequest_keepsProcs (idx : Nat) (st : Status) (s : State) : keepsProcs s (endRequest idx st s) := by
  unfold endRequest
  split
  · exact .refl s
  · split
    · exact .refl s
    · split
      · exact ((finishHome_keepsProcs idx st false s).trans (tellHolders_keepsProcs ..)).trans (dropWork_keepsProcs ..)
      · extract_lets t u
        have ht : keepsProcs s t := sendMsg_keepsProcs ..
        have hu : keepsProcs t u := keepsProcs_ite ⟨rfl, rfl, rfl⟩ (.refl t)
        exact ((ht.trans hu).trans (updCtx_keepsProcs ..)).trans (dropWork_keepsProcs ..)

theorem pauseStep_keepsProcs (stop : Bool) (s : State) : keepsProcs s (pauseStep stop s) :=
  forEach_keepsProcs _ (fun i t => updCtx_keepsProcs i _ t) s

theorem pauseNow_keepsProcs (s : State) : keepsProcs s (pauseNow s) := keepsProcs_ite ⟨rfl, rfl, rfl⟩ (.refl s)

theorem freePlace_keepsProcs (p : Place) (s : State) : keepsProcs s (freePlace p s) :=
  (forEach_keepsProcs p.cores (f := fun k => updCore k Core.leave) (fun _ _ => ⟨rfl, rfl, rfl⟩) s).trans ⟨rfl, rfl, rfl⟩

theorem endRun_keepsProcs (r : Run) (st : Status) (silent : Bool) (s : State) : keepsProcs s (endRun r st silent s) := by
  unfold endRun
  extract_lets t
  refine keepsProcs_ite ⟨rfl, rfl, rfl⟩ (keepsProcs_ite ⟨rfl, rfl, rfl⟩ ?_)
  exact ((post_keepsProcs ..).trans (checkSettled_keepsProcs ..)).after ⟨rfl, rfl, rfl⟩

/-! ### The running step and its clusters -/

theorem stepLoses_keepsProcs (n : Nat) (s : State) : keepsProcs s (stepLoses n s) := by
  unfold stepLoses
  split
  · exact .refl s
  · split
    · exact .refl s
    · extract_lets fns t
      have hcounted (u : State) : keepsProcs u (forEach fns (fun f => bump f cKvInterrupted) u) :=
        forEach_keepsProcs _ (fun f v => bump_keepsProcs f _ v) u
      have ht : keepsProcs s t :=
        keepsProcs_ite ((forEach_keepsProcs _ closeUnused_keepsProcs s).trans (hcounted _)) (.refl s)
      exact ht.trans (.after (pauseStep_keepsProcs true _) ⟨rfl, rfl, rfl⟩)

theorem reopenStep_keepsProcs (s : State) : keepsProcs s (reopenStep s) := by
  refine forEach_keepsProcs _ (fun r t => keepsProcs_ite (.refl t) ?_) s
  have hroom := roomFor_keepsProcs (t.newPages r) t.running t
  exact keepsProcs_ite (hroom.trans (forEach_keepsProcs _ (openColumn_keepsProcs r.idx) _)) (hroom.trans (endRequest_keepsProcs ..))

theorem stepRegains_keepsProcs (n : Nat) (s : State) : keepsProcs s (stepRegains n s) := by
  unfold stepRegains
  split
  · exact .refl s
  · split
    · exact .refl s
    · extract_lets t
      have ht : keepsProcs s t := ⟨rfl, rfl, rfl⟩
      exact ht.trans (keepsProcs_ite ((reopenStep_keepsProcs t).trans (pauseStep_keepsProcs false _)) (.refl t))

theorem displace_keepsProcs (n : Nat) (s : State) : keepsProcs s (displace n s) := by
  refine forEach_keepsProcs _ (fun k t => ?_) s
  split
  · exact .refl t
  · split
    · exact .refl t
    · exact keepsProcs_ite (.after (freePlace_keepsProcs _ _) ⟨rfl, rfl, rfl⟩) (.refl t)

theorem requeueSeals_keepsProcs (n : Nat) (s : State) : keepsProcs s (requeueSeals n s) :=
  .after (forEach_keepsProcs _ (fun _ t => bump_keepsProcs _ _ t) _) ⟨rfl, rfl, rfl⟩

theorem clusterStops_keepsProcs (n : Nat) (s : State) : keepsProcs s (clusterStops n s) :=
  ((displace_keepsProcs n s).trans (stepLoses_keepsProcs n _)).trans (requeueSeals_keepsProcs n _)

theorem clusterLost_keepsProcs (n : Nat) (s : State) : keepsProcs s (clusterLost n s) :=
  (clusterStops_keepsProcs n s).trans ⟨rfl, rfl, rfl⟩

/-! ### Loads, stages and updates -/

theorem dropCopy_keepsProcs (k : Nat) (s : State) : keepsProcs s (dropCopy k s) := by
  unfold dropCopy
  split
  · exact .refl s
  · exact ⟨rfl, rfl, rfl⟩

theorem dropLoad_keepsProcs (l : Load) (s : State) : keepsProcs s (dropLoad l s) := by
  unfold dropLoad
  extract_lets t u
  have ht : keepsProcs s t := ⟨rfl, rfl, rfl⟩
  have hu : keepsProcs t u := by
    unfold u
    split
    · exact .refl t
    · exact forEach_keepsProcs _ (fun _ _ => sendMsg_keepsProcs ..) t
  refine (ht.trans hu).trans ?_
  split
  · exact ⟨rfl, rfl, rfl⟩
  · exact keepsProcs_ite (dropCopy_keepsProcs ..) ⟨rfl, rfl, rfl⟩

theorem complete_keepsProcs (f : Nat) (q : Option Nat) (e : Cqe) (s : State) : keepsProcs s (complete f q e s) :=
  .of_reports (complete_reports ..)

theorem abortLoads_keepsProcs (s : State) : keepsProcs s (abortLoads s) :=
  forEach_keepsProcs _ (fun l t => (dropLoad_keepsProcs l t).trans (complete_keepsProcs ..)) s

theorem journal_keepsProcs (st : JState) (y x tries : Nat) (s : State) : keepsProcs s (journal st y x tries s) :=
  keepsProcs_ite ⟨rfl, rfl, rfl⟩ ⟨rfl, rfl, rfl⟩

theorem abortStage_keepsProcs (s : State) : keepsProcs s (abortStage s) := by
  unfold abortStage
  split
  · extract_lets prov t u
    have ht : keepsProcs s t := ⟨rfl, rfl, rfl⟩
    have hu : keepsProcs t u := by
      unfold u
      split
      · exact journal_keepsProcs ..
      · exact journal_keepsProcs ..
      · exact journal_keepsProcs ..
      · exact journal_keepsProcs ..
      · exact .refl t
    exact (ht.trans hu).trans (keepsProcs_ite (complete_keepsProcs ..) (.refl u))
  · exact .refl s

theorem finishUpdate_keepsProcs (st : Status) (s : State) : keepsProcs s (finishUpdate st s) := by
  unfold finishUpdate
  split
  · exact .refl s
  · extract_lets _ t
    have ht : keepsProcs s t := ⟨rfl, rfl, rfl⟩
    exact ht.trans (keepsProcs_ite (.refl t) ((complete_keepsProcs ..).after ⟨rfl, rfl, rfl⟩))

theorem stageBusy_keepsProcs (s : State) : keepsProcs s (stageBusy s) := by
  unfold stageBusy
  split
  · exact .refl s
  · exact (keepsProcs_ite (complete_keepsProcs ..) (.refl _)).after ⟨rfl, rfl, rfl⟩

theorem procEvent_keepsProcs (p cause : Nat) (s : State) : keepsProcs s (procEvent p cause s) :=
  keepsProcs_ite (.of_reports (postEvent_reports ..)) ⟨rfl, rfl, rfl⟩

theorem forceOp0_keepsProcs (s : State) : keepsProcs s (forceOp0 s) := by
  have habandon : keepsProcs s (abandonUp s) := by
    unfold abandonUp
    split
    · exact .refl s
    · exact ⟨rfl, rfl, rfl⟩
  exact habandon.trans ⟨rfl, rfl, rfl⟩

/-! ### A processor stops (R90, R91, R102) -/

/-- Beside its bit of READY_MAP, a processor that stops takes nothing from the processors, the pins or the map. -/
theorem stopped_keepsProcs (p : Nat) (s : State) : keepsProcs (setReady (procReady p) false s) (stopped p s) := by
  unfold stopped
  extract_lets t
  split
  · exact ⟨rfl, rfl, rfl⟩
  · exact ⟨rfl, rfl, rfl⟩
  · exact ((abortLoads_keepsProcs _).trans (abortStage_keepsProcs _)).trans (pauseNow_keepsProcs _)
  · exact stepLoses_keepsProcs ..

end Sys2Proof.Proofs
end

section
/-! PROOFS of the statement on the faults of a firmware processor and on revocation (R97 to R103). -/

namespace Sys2Proof.Proofs

open Sys2Proof.Machine Sys2Proof.Safety Sys2Proof.Laws

/-! ## Processors after an update -/

theorem proc_updProc_ne {p q : Nat} (h : q ≠ p) (g : Proc → Proc) (s : State) : (updProc p g s).proc q = s.proc q :=
  get_upd_ne _ _ g h

theorem proc_eq_of_procs {s t : State} (h : t.procs = s.procs) (q : Nat) : t.proc q = s.proc q :=
  congrArg (fun l : Tab Proc => Tab.get ({} : Proc) l q) h

theorem keepsProcs.proc {s t : State} (h : keepsProcs s t) (q : Nat) : t.proc q = s.proc q := proc_eq_of_procs h.procs q

/-- A processor keeps what each change of another leaves alone, and what a change of its own does. -/
theorem proc_updProc_field {α : Type} (φ : Proc → α) {g : Proc → Proc} (hg : ∀ x, φ (g x) = φ x) (p q : Nat) (s : State) :
    φ ((updProc p g s).proc q) = φ (s.proc q) := by
  by_cases hq : q = p
  · rw [hq, proc_updProc_same, hg]
  · rw [proc_updProc_ne hq]

/-- From s to t every processor keeps its state and its last cause, and the pins are kept. -/
structure keepsRuns (s t : State) : Prop where
  state : ∀ q, (t.proc q).state = (s.proc q).state
  cause : ∀ q, (t.proc q).lastCause = (s.proc q).lastCause
  pins : t.pins = s.pins

theorem keepsRuns.refl (s : State) : keepsRuns s s := ⟨fun _ => rfl, fun _ => rfl, rfl⟩

theorem keepsRuns.trans {s t u : State} (h : keepsRuns s t) (k : keepsRuns t u) : keepsRuns s u :=
  ⟨fun q => (k.state q).trans (h.state q), fun q => (k.cause q).trans (h.cause q), k.pins.trans h.pins⟩

theorem keepsRuns.of_procs {s t : State} (h : t.procs = s.procs) (hpins : t.pins = s.pins) : keepsRuns s t :=
  ⟨fun q => congrArg Proc.state (proc_eq_of_procs h q), fun q => congrArg Proc.lastCause (proc_eq_of_procs h q), hpins⟩

theorem keepsProcs.runs {s t : State} (h : keepsProcs s t) : keepsRuns s t := .of_procs h.procs h.pins

theorem updProc_keepsRuns (p : Nat) (g : Proc → Proc) (hstate : ∀ x, (g x).state = x.state)
    (hcause : ∀ x, (g x).lastCause = x.lastCause) (s : State) : keepsRuns s (updProc p g s) :=
  ⟨fun q => proc_updProc_field Proc.state hstate p q s, fun q => proc_updProc_field Proc.lastCause hcause p q s, rfl⟩

/-! ## Revocation (R97, R98) -/

/-- A processor whose epoch has advanced. -/
def advanced (time : Nat) (x : Proc) : Proc :=
  { x with aepoch := x.aepoch + 1, lastAdv := some time, deferred := none, revoked := true }

/-- A processor whose revocation is put off. -/
def putOff (cause : Nat) (x : Proc) : Proc := { x with deferred := some cause, revoked := false }

/-- A revocation advances the agent's epoch and leaves the other processors, the pins and READY_MAP. -/
theorem revokeNow_keepsProcs (p cause : Nat) (s : State) : keepsProcs (updProc p (advanced s.time) s) (revokeNow p cause s) := by
  unfold revokeNow
  extract_lets t u
  have hu : keepsProcs t u := by
    unfold u
    split
    · exact ⟨rfl, rfl, rfl⟩
    · next n =>
      extract_lets v
      have hv : keepsProcs t v := keepsProcs_ite (clusterStops_keepsProcs n t) (clusterLost_keepsProcs n t)
      exact hv.trans (keepsProcs_ite (stepRegains_keepsProcs n v) (.refl v))
    · exact .refl t
  exact hu.trans (keepsProcs_ite (procEvent_keepsProcs p cause u) (.refl u))

theorem proc_revokeNow_same (p cause : Nat) (s : State) : (revokeNow p cause s).proc p = advanced s.time (s.proc p) :=
  ((revokeNow_keepsProcs p cause s).proc p).trans (proc_updProc_same ..)

theorem proc_revokeNow_ne {p q : Nat} (h : q ≠ p) (cause : Nat) (s : State) : (revokeNow p cause s).proc q = s.proc q :=
  ((revokeNow_keepsProcs p cause s).proc q).trans (proc_updProc_ne h _ s)

theorem revokeNow_keepsRuns (p cause : Nat) (s : State) : keepsRuns s (revokeNow p cause s) :=
  (updProc_keepsRuns p (advanced s.time) (fun _ => rfl) (fun _ => rfl) s).trans (revokeNow_keepsProcs p cause s).runs

/-- Within 1 ms of the last advance a revocation is put off (R98). -/
theorem revoke_soon {p a : Nat} {s : State} (hlast : (s.proc p).lastAdv = some a) (hsoon : s.time < a + ticksMs) (cause : Nat) :
    revoke p cause s = updProc p (putOff cause) s := by
  unfold revoke
  extract_lets x soon
  have hput : soon = true := by
    simp only [soon, x, hlast, hsoon, decide_true]
  exact if_pos hput

/-- A revocation is done now or put off. -/
theorem revoke_cases (p cause : Nat) (s : State) :
    revoke p cause s = updProc p (putOff cause) s ∨ revoke p cause s = revokeNow p cause s := by
  unfold revoke
  extract_lets x soon
  split
  · exact .inl rfl
  · exact .inr rfl

theorem revoke_keepsRuns (p cause : Nat) (s : State) : keepsRuns s (revoke p cause s) := by
  obtain h | h := revoke_cases p cause s
  · rw [h]
    exact updProc_keepsRuns p (putOff cause) (fun _ => rfl) (fun _ => rfl) s
  · rw [h]
    exact revokeNow_keepsRuns p cause s

theorem revoke_ready (p cause : Nat) (s : State) : (revoke p cause s).ready = s.ready := by
  obtain h | h := revoke_cases p cause s
  · rw [h]
    rfl
  · rw [h]
    exact (revokeNow_keepsProcs p cause s).ready

/-! ## The fault path (R99 to R103) -/

theorem procReady_lt : ∀ p : AgentId, procReady p.val < 32 := by decide

/-- Processor p as a fault leaves it. -/
def haltedBy (p cause : Nat) (s : State) (x : Proc) : Proc := { x with
  state := if decide (3 ≤ (s.faultsNow p).length) || x.halted then .faulted else .restarting, faults := s.faultsNow p,
  lastCause := cause, revoked := false, slotB := if x.fresh.isSome then x.oldSlotB else x.slotB, fresh := none,
  halted := decide (3 ≤ (s.faultsNow p).length) || x.halted }

/-- A processor that halts stops, and its bit of READY_MAP falls. -/
theorem haltProc_keepsProcs (p cause : Nat) (s : State) :
    keepsProcs (setReady (procReady p) false (updProc p (haltedBy p cause s) s)) (haltProc p cause s) := by
  unfold haltProc
  extract_lets recent third t u v
  have hu : keepsProcs (setReady (procReady p) false t) u := stopped_keepsProcs p t
  have hv : keepsProcs u v := keepsProcs_ite ⟨rfl, rfl, rfl⟩ (.refl u)
  exact (hu.trans hv).trans (keepsProcs_ite (forceOp0_keepsProcs v) (.refl v))

theorem proc_haltProc (p cause : Nat) (s : State) : (haltProc p cause s).proc p = haltedBy p cause s (s.proc p) :=
  ((haltProc_keepsProcs p cause s).proc p).trans
    ((proc_eq_of_procs (setReady_procs ..) p).trans (proc_updProc_same ..))

theorem haltProc_notReady (p : AgentId) (cause : Nat) (s : State) : (haltProc p.val cause s).isReady (procReady p.val) = false := by
  have hready := congrArg (fun m => BitVec.getLsbD m (procReady p.val)) (haltProc_keepsProcs p.val cause s).ready
  exact hready.trans ((isReady_setReady _ _ _ (procReady_lt p)).trans (if_pos rfl))

theorem revokeFaulty_keepsRuns (p cause : Nat) (s : State) :
    keepsRuns s (revokeFaulty p cause s) ∧ (revokeFaulty p cause s).ready = s.ready := by
  unfold revokeFaulty
  split
  · exact ⟨revoke_keepsRuns p cause s, revoke_ready p cause s⟩
  · split
    · exact ⟨.refl s, rfl⟩
    · exact ⟨updProc_keepsRuns p (fun x => { x with waitingSec := true }) (fun _ => rfl) (fun _ => rfl) s, rfl⟩

/-- A fault halts the processor, and its revocation leaves it halted. -/
theorem procFault_keepsRuns (p cause : Nat) (s : State) :
    keepsRuns (haltProc p cause s) (procFault p cause s) ∧ (procFault p cause s).ready = (haltProc p cause s).ready := by
  unfold procFault
  extract_lets t u v
  have ht : keepsProcs (haltProc p cause s) t := ⟨rfl, rfl, rfl⟩
  have hu : keepsProcs t u := keepsProcs_ite (finishUpdate_keepsProcs eBusy t) (.refl t)
  have hv : keepsProcs u v := keepsProcs_ite ((procEvent_keepsProcs 0 cause u).trans (stageBusy_keepsProcs _)) (.refl u)
  obtain ⟨hruns, hready⟩ := revokeFaulty_keepsRuns p cause v
  have hkept := (ht.trans hu).trans hv
  exact ⟨hkept.runs.trans hruns, hready.trans hkept.ready⟩

/-! ## Faults while no step runs leave the memories -/

theorem stepLoses_noStep {s : State} (h : s.serve.step = none) (n : Nat) : stepLoses n s = s := by
  unfold stepLoses
  rw [h]

theorem stepRegains_noStep {s : State} (h : s.serve.step = none) (n : Nat) : stepRegains n s = s := by
  unfold stepRegains
  rw [h]

theorem forEach_serve {α : Type} (l : List α) {f : α → State → State} (h : ∀ x s, (f x s).serve = s.serve) (s : State) :
    (forEach l f s).serve = s.serve := forEach_rel (R := fun a b => b.serve = a.serve) (fun _ => rfl) (fun h k => k.trans h) l f h s

theorem displace_serve (n : Nat) (s : State) : (displace n s).serve = s.serve := by
  have hplace (p : Place) (t : State) : (freePlace p t).serve = t.serve :=
    forEach_serve p.cores (f := fun k => updCore k Core.leave) (fun _ _ => rfl) t
  refine forEach_serve _ (fun k t => ?_) s
  split
  · rfl
  · split
    · rfl
    · split
      · exact hplace _ _
      · rfl

/-- Where no step runs, none runs once a cluster has stopped. -/
theorem clusterStops_noStep {s : State} (h : s.serve.step = none) (n : Nat) : (clusterStops n s).serve.step = none := by
  have hdisplaced : (displace n s).serve.step = none := (congrArg Serve.step (displace_serve n s)).trans h
  have hstops : clusterStops n s = requeueSeals n (displace n s) :=
    congrArg (requeueSeals n) (stepLoses_noStep hdisplaced n)
  have hseals : (requeueSeals n (displace n s)).serve = (displace n s).serve :=
    forEach_serve _ (fun _ t => bump_serve _ _ t) _
  rw [hstops, hseals, hdisplaced]

theorem revokeNow_mem {p : Nat} {s : State} (h : 3 ≤ p → s.serve.step = none) (cause : Nat) :
    (revokeNow p cause s).mem = s.mem := by
  unfold revokeNow
  extract_lets t u
  have hu : u.mem = s.mem := by
    unfold u
    split
    · rfl
    · next n =>
      extract_lets v
      have hstep : t.serve.step = none := h (by omega)
      have hv : v.serve.step = none ∧ v.mem = s.mem := by
        unfold v
        split
        · exact ⟨clusterStops_noStep hstep n, clusterStops_mem n t⟩
        · exact ⟨clusterStops_noStep hstep n, clusterLost_mem n t⟩
      obtain ⟨hvstep, hvmem⟩ := hv
      rw [stepRegains_noStep hvstep, ite_self, hvmem]
    · rfl
  exact mem_ite_eq ((procEvent_mem ..).trans hu) hu

theorem revokeFaulty_mem {p : Nat} {s : State} (h : 3 ≤ p → s.serve.step = none) (cause : Nat) :
    (revokeFaulty p cause s).mem = s.mem := by
  have hrevoke : (revoke p cause s).mem = s.mem := by
    obtain hr | hr := revoke_cases p cause s
    · rw [hr]
      rfl
    · rw [hr, revokeNow_mem h]
  exact mem_ite_eq hrevoke (mem_ite_eq rfl rfl)

theorem finishUpdate_serve (st : Status) (s : State) : (finishUpdate st s).serve = s.serve := by
  unfold finishUpdate
  split
  · rfl
  · split
    · rfl
    · exact complete_serve ..

/-- A CCC that halts while no step runs leaves it so. -/
theorem haltProc_ccc_noStep {s : State} (h : s.serve.step = none) (n cause : Nat) :
    (haltProc (n + 3) cause s).serve.step = none := by
  have hready : (setReady (procReady (n + 3)) false (updProc (n + 3) (haltedBy (n + 3) cause s) s)).serve.step = none :=
    (congrArg Serve.step (setReady_serve ..)).trans h
  unfold haltProc
  extract_lets recent third t u v
  have hu : u.serve.step = none := (congrArg (fun w : State => w.serve.step) (stepLoses_noStep hready n)).trans hready
  have hv : v = u := if_neg (by omega)
  rw [if_neg (by omega), hv]
  exact hu

theorem procFault_mem {s : State} (h : s.serve.step = none) (p cause : Nat) : (procFault p cause s).mem = s.mem := by
  unfold procFault
  extract_lets t u v
  have hvmem : v.mem = s.mem := by
    simp [v, u, t]
  have hvstep (hp : 3 ≤ p) : v.serve.step = none := by
    obtain ⟨n, rfl⟩ := Nat.exists_eq_add_of_le' hp
    have ht : t.serve.step = none := haltProc_ccc_noStep h n cause
    have hu : u.serve.step = none := by
      unfold u
      split
      · exact (congrArg Serve.step (finishUpdate_serve eBusy t)).trans ht
      · exact ht
    have hv : v = u := if_neg (by omega)
    rw [hv, hu]
  exact (revokeFaulty_mem hvstep cause).trans hvmem

/-! ## The statement -/

theorem procFault_leaves (p : AgentId) (cause : Nat) (s : State) :
    let t := procFault p.val cause s
    let n := (s.time :: (s.proc p.val).faults.filter (fun a => decide (s.time < a + ticksS))).length
    (t.proc p.val).state = (if 3 ≤ n ∨ (s.proc p.val).halted = true then .faulted else .restarting) ∧ (t.proc p.val).lastCause = cause ∧
      t.isReady (procReady p.val) = false ∧ (s.serve.step = none → t.mem = s.mem) := by
  intro t n
  obtain ⟨hruns, hready⟩ := procFault_keepsRuns p.val cause s
  have hproc := proc_haltProc p.val cause s
  have hhalted : (haltedBy p.val cause s (s.proc p.val)).state =
      if 3 ≤ n ∨ (s.proc p.val).halted = true then .faulted else .restarting := by
    refine if_congr ?_ rfl rfl
    rw [Bool.or_eq_true, decide_eq_true_eq]
    rfl
  refine ⟨?_, ?_, ?_, fun hstep => procFault_mem hstep p.val cause⟩
  · rw [hruns.state, hproc, hhalted]
  · rw [hruns.cause, hproc]
    rfl
  · exact (congrArg (fun m => BitVec.getLsbD m (procReady p.val)) hready).trans (haltProc_notReady p cause s)

/-- Settles O19: the three faults and what each leaves, then the revocation. -/
theorem processorFaults : Obligations.ProcessorFaults := by
  refine ⟨fun p s ha hmay => ⟨?_, ?_, ?_, fun cause => procFault_leaves p cause s⟩, fun p cause s _ => ⟨?_, ?_, fun a hlast hsoon => ?_,
    fun q hq => ?_⟩⟩
  · exact endsIn_of_live ha (if_pos hmay)
  · exact endsIn_of_live ha (if_pos hmay)
  · exact endsIn_of_live ha (if_pos hmay)
  · rw [proc_revokeNow_same]
    rfl
  · rw [proc_revokeNow_same]
    rfl
  · rw [revoke_soon hlast hsoon, proc_updProc_same]
    exact ⟨rfl, rfl⟩
  · rw [proc_revokeNow_ne hq]

end Sys2Proof.Proofs
end

section
/-! PROOFS of the statement on the boot channel (R84 to R88, R102). -/

namespace Sys2Proof.Proofs

open Sys2Proof.Machine Sys2Proof.Safety Sys2Proof.Laws

/-! ## BOOT_CTRL (R84, R85) -/

/-- GO starts a fetch in this state (R85). -/
abbrev bootTakesGo (s : State) : Prop :=
  (s.boot.state = .wait ∨ s.boot.state = .refused) ∧ s.boot.src.toNat % 4096 = 0 ∧ 1024 ≤ s.boot.len.toNat ∧
    s.boot.len.toNat ≤ 4194304 ∧ (s.fn 0).bme = true

theorem bootCtrl_go {v : BitVec 32} {s : State} (hv : v.getLsbD 0 = true) :
    bootCtrl v s = if bootTakesGo s then { s with boot := { s.boot with state := .fetch, fetching := true } }
      else bumpPart cViolBootChannel s := by
  refine (if_neg (by simp [hv])).trans (if_congr ?_ rfl rfl)
  simp [bootTakesGo, and_assoc]

theorem bootGo_endsIn {v : BitVec 32} {s t : State} (hr : reachable 0 s) (ht : bootCtrl v s = t) : endsIn (.bootGo 0 v) s t :=
  endsIn_of_barAccess hr rfl ht

/-! ## Images are loaded (R82, R83) -/

/-- Loading an image writes a processor's memories alone. -/
theorem loadFrom_frame (b : Bundle) (p : Nat) (s : State) : { loadFrom b p s with procs := s.procs } = s := by
  unfold loadFrom
  split
  · rfl
  · rfl

theorem loadFrom_field {α : Type} (φ : Proc → α) (hφ : ∀ x i d, φ { x with imem := i, dmem := d } = φ x) (b : Bundle) (p q : Nat)
    (s : State) : φ ((loadFrom b p s).proc q) = φ (s.proc q) := by
  unfold loadFrom
  split
  · rfl
  · exact proc_updProc_field φ (fun x => hφ x _ _) p q s

theorem loadImage_frame (p : Nat) (s : State) : { loadImage p s with procs := s.procs } = s := by
  unfold loadImage
  split
  · rfl
  · exact loadFrom_frame ..

theorem loadImage_field {α : Type} (φ : Proc → α) (hφ : ∀ x i d, φ { x with imem := i, dmem := d } = φ x) (p q : Nat) (s : State) :
    φ ((loadImage p s).proc q) = φ (s.proc q) := by
  unfold loadImage
  split
  · rfl
  · exact loadFrom_field φ hφ ..

/-- Processor p is given its image of slot A (R87). -/
def givesImage (p : Nat) (s : State) : State :=
  loadImage p (updProc p (fun x => { x with state := .loading, imaged := true, slotB := false }) s)

/-- Processor q has its image and loads it. -/
def loadsNow (s : State) (q : Nat) : Prop := (s.proc q).state = .loading ∧ (s.proc q).imaged = true

theorem loadsNow_givesImage {p q : Nat} {s : State} (h : q = p ∨ loadsNow s q) : loadsNow (givesImage p s) q := by
  have hgiven : loadsNow (updProc p (fun x => { x with state := .loading, imaged := true, slotB := false }) s) q := by
    unfold loadsNow
    by_cases hq : q = p
    · rw [hq, proc_updProc_same]
      exact ⟨rfl, rfl⟩
    · rw [proc_updProc_ne hq]
      exact h.resolve_left hq
  obtain ⟨hstate, himaged⟩ := hgiven
  exact ⟨(loadImage_field Proc.state (fun _ _ _ => rfl) p q _).trans hstate,
    (loadImage_field Proc.imaged (fun _ _ _ => rfl) p q _).trans himaged⟩

theorem forEach_givesImage (l : List Nat) {q : Nat} {s : State} (h : q ∈ l ∨ loadsNow s q) : loadsNow (forEach l givesImage s) q := by
  induction l generalizing s with
  | nil => exact h.resolve_left List.not_mem_nil
  | cons p r ih =>
    refine ih ?_
    obtain hq | hq := h
    · obtain rfl | hq := List.mem_cons.mp hq
      · exact .inr (loadsNow_givesImage (.inl rfl))
      · exact .inl hq
    · exact .inr (loadsNow_givesImage (.inr hq))

theorem givesImage_boot (p : Nat) (s : State) : (givesImage p s).boot = s.boot := by
  have hboot := congrArg State.boot
    (loadImage_frame p (updProc p (fun x => { x with state := .loading, imaged := true, slotB := false }) s))
  exact hboot

theorem forEach_givesImage_boot (l : List Nat) (s : State) : (forEach l givesImage s).boot = s.boot :=
  forEach_rel (R := fun a b => b.boot = a.boot) (fun _ => rfl) (fun h k => k.trans h) l givesImage givesImage_boot s

/-! ## The end of the fetch (R86 to R88, R102) -/

/-- The bundle that has been fetched is in slot A and runs (R87, R88). -/
def tookBundle (b : Bundle) (s : State) : State :=
  deriveAk b.svn (runsImage b { s with boot := { s.boot with
    slotA := some b, state := .running, result := stOk, fetching := false, bad := s.boot.bad.filter (·.1) } })

/-- Every processor has its image of the bundle, and READY_MAP.FW is set (R87, R88). -/
def startsBundle (b : Bundle) (s : State) : State := setReady rFw true (forEach (List.range 11) givesImage (tookBundle b s))

/-- The certificates that waited for the bundle go out, and the part's record (R107, R370). -/
def announcesBundle (s : State) : State := renew (forEach (Tab.keys (s.fab.ports.filter (fun e => e.2.st = .up))) sendCerts s)

theorem announcesBundle_keepsBoot (s : State) : keepsBoot s (announcesBundle s) :=
  (forEach_keepsBoot _ sendCerts_keepsBoot s).trans (renew_keepsBoot _)

/-- The bundle goes to SEC alone (R102). -/
def pushedToSec (b : Bundle) (s : State) : State :=
  loadFrom b agSec (updProc agSec (fun x => { x with pushed := true })
    { s with boot := { s.boot with state := .running, result := stOk, fetching := false, secOnly := false } })

theorem startsBundle_boot (b : Bundle) (s : State) : (startsBundle b s).boot = (tookBundle b s).boot :=
  (setReady_boot ..).trans (forEach_givesImage_boot ..)

theorem startsBundle_ready (b : Bundle) (s : State) : (startsBundle b s).isReady rFw = true :=
  (isReady_setReady rFw true _ (by decide)).trans (if_pos rfl)

theorem startsBundle_loads (b : Bundle) (s : State) (p : AgentId) : loadsNow (startsBundle b s) p.val := by
  have h := forEach_givesImage (List.range 11) (s := tookBundle b s) (.inl (List.mem_range.mpr p.isLt))
  unfold loadsNow startsBundle
  rw [proc_eq_of_procs (setReady_procs ..)]
  exact h

/-- The part runs a bundle from slot A, and every processor loads its image of it (R88). -/
def runsBundle (b : Bundle) (t : State) : Prop :=
  t.boot.slotA = some b ∧ t.boot.state = .running ∧ t.boot.runLevel = b.level ∧ t.boot.runBuild = b.build ∧ t.boot.fetching = false ∧
    t.isReady rFw = true ∧ ∀ p : AgentId, (t.proc p.val).state = .loading ∧ (t.proc p.val).imaged = true

theorem runsBundle.withPending {b : Bundle} {t : State} (h : runsBundle b t) (l : List Instr) : runsBundle b { t with pending := l } := h

theorem announcesBundle_startsBundle (b : Bundle) (s : State) : runsBundle b (announcesBundle (startsBundle b s)) := by
  obtain ⟨hkept, hboot⟩ := announcesBundle_keepsBoot (startsBundle b s)
  generalize announcesBundle (startsBundle b s) = t at hkept hboot
  have hready : t.isReady rFw = true := (congrArg (fun m => BitVec.getLsbD m rFw) hkept.ready).trans (startsBundle_ready b s)
  have hproc (p : AgentId) : loadsNow t p.val := by
    unfold loadsNow
    rw [hkept.proc]
    exact startsBundle_loads b s p
  unfold runsBundle
  rw [hboot, startsBundle_boot]
  exact ⟨rfl, rfl, rfl, rfl, rfl, hready, hproc⟩

theorem pushedToSec_leaves (b : Bundle) (s : State) :
    let t := pushedToSec b s
    t.boot = { s.boot with state := .running, result := stOk, fetching := false, secOnly := false } ∧ (t.proc 0).pushed = true ∧
      { t with boot := s.boot, procs := s.procs } = s := by
  intro t
  have hframe := loadFrom_frame b agSec (updProc agSec (fun x => { x with pushed := true })
    { s with boot := { s.boot with state := .running, result := stOk, fetching := false, secOnly := false } })
  have hpushed : (t.proc 0).pushed = true := by
    refine (loadFrom_field Proc.pushed (fun _ _ _ => rfl) b agSec 0 _).trans ?_
    exact congrArg Proc.pushed (proc_updProc_same agSec (fun x => { x with pushed := true }) _)
  have hrest := congrArg (fun u : State => { u with boot := s.boot, procs := s.procs }) hframe
  exact ⟨(congrArg State.boot hframe :), hpushed, hrest⟩

section Fetched

variable {s : State} (ha : awake s) (hfetch : s.boot.fetching = true) (hbasalt : s.isReady rBasalt = true) {bundle : Option Bytes}
include ha hfetch hbasalt

theorem bundleFetchComplete_refused {st : Status}
    (h : checkBundle s.fuses.keyRevoke s.fwFloor s.boot.len.toNat bundle = .error st) :
    endsIn (.bundleFetchComplete bundle) s (bootRefuse st s) := by
  refine endsIn_of_live ha ((if_neg (by simp [hfetch, hbasalt])).trans ?_)
  rw [h]

variable {b : Bundle} (h : checkBundle s.fuses.keyRevoke s.fwFloor s.boot.len.toNat bundle = .ok b)
include h

theorem bundleFetchComplete_loaded (hsec : s.boot.secOnly = false) :
    endsIn (.bundleFetchComplete bundle) s (announcesBundle (startsBundle b s)) := by
  refine endsIn_of_live ha ((if_neg (by simp [hfetch, hbasalt])).trans ?_)
  rw [h]
  exact if_neg (by simp [hsec])

theorem bundleFetchComplete_secRefused (hsec : s.boot.secOnly = true) (habi : b.abi ≠ s.boot.runAbi) :
    endsIn (.bundleFetchComplete bundle) s (bootRefuse eLevel s) := by
  refine endsIn_of_live ha ((if_neg (by simp [hfetch, hbasalt])).trans ?_)
  rw [h]
  exact (if_pos hsec).trans (if_pos habi)

theorem bundleFetchComplete_secPushed (hsec : s.boot.secOnly = true) (habi : b.abi = s.boot.runAbi) :
    endsIn (.bundleFetchComplete bundle) s (pushedToSec b s) := by
  refine endsIn_of_live ha ((if_neg (by simp [hfetch, hbasalt])).trans ?_)
  rw [h]
  exact (if_pos hsec).trans (if_neg (not_not_intro habi))

end Fetched

/-- Settles O17: GO by the state it finds, then the end of the fetch by the checks and by who waits for the bundle. -/
theorem bootChannel : Obligations.BootChannel := by
  refine fun s => ⟨fun hr v hv => ⟨fun hok => ?_, fun hno => ?_⟩, fun ha hfetch hbasalt bundle => ⟨fun st h => ?_, fun b h hsec => ?_,
    fun b h hsec => ⟨fun habi => ?_, fun habi => ?_⟩⟩⟩
  · exact bootGo_endsIn hr ((bootCtrl_go hv).trans (if_pos hok))
  · exact bootGo_endsIn hr ((bootCtrl_go hv).trans (if_neg hno))
  · exact bundleFetchComplete_refused ha hfetch hbasalt h
  · exact completes_of_endsIn (bundleFetchComplete_loaded ha hfetch hbasalt h hsec) ((announcesBundle_startsBundle b s).withPending s.pending)
  · exact bundleFetchComplete_secRefused ha hfetch hbasalt h hsec habi
  · obtain ⟨hboot, hpushed, hrest⟩ := pushedToSec_leaves b s
    exact completes_of_endsIn (bundleFetchComplete_secPushed ha hfetch hbasalt h hsec habi)
      ⟨hboot, hpushed, congrArg (fun u : State => { u with pending := s.pending }) hrest⟩

end Sys2Proof.Proofs
end

section
/-! PROOFS of the statement on the replacement of firmware (R90 to R95, R98, R102 to R104). -/

namespace Sys2Proof.Proofs

open Sys2Proof.Machine Sys2Proof.Safety Sys2Proof.Laws

/-! ## What follows when a processor runs keeps every processor's state -/

theorem keepsRuns_ite {c : Prop} [Decidable c] {s a b : State} (ha : keepsRuns s a) (hb : keepsRuns s b) :
    keepsRuns s (if c then a else b) := by
  split
  · exact ha
  · exact hb

theorem forEach_keepsRuns {α : Type} (l : List α) {f : α → State → State} (h : ∀ x s, keepsRuns s (f x s)) (s : State) :
    keepsRuns s (forEach l f s) := forEach_rel .refl .trans l f h s

/-- A step may be led by another. -/
theorem keepsRuns.after {s t u : State} (k : keepsRuns t u) (h : keepsRuns s t) : keepsRuns s u := h.trans k

theorem setReady_keepsRuns (b : Nat) (v : Bool) (s : State) : keepsRuns s (setReady b v s) :=
  .of_procs (setReady_procs ..) (setReady_pins ..)

theorem postEvent_keepsRuns (code : Nat) (st : Status) (detail : Nat) (s : State) : keepsRuns s (postEvent code st detail s) :=
  .of_procs (postEvent_procs ..) (postEvent_pins ..)

theorem brownCheck_keepsRuns (s : State) : keepsRuns s (brownCheck s) := by
  have hevent (ticks : Nat) (d : BrownDue) (t : State) : keepsRuns t (brownEvent ticks d t) :=
    keepsRuns_ite (postEvent_keepsRuns ..) (keepsRuns_ite (.of_procs rfl rfl) (.refl t))
  exact keepsRuns_ite (.after (forEach_keepsRuns _ (hevent _) _) (.of_procs rfl rfl)) (.refl s)

theorem clusterUp_keepsRuns (n : Nat) (s : State) : keepsRuns s (clusterUp n s) := by
  unfold clusterUp
  extract_lets back
  have hregains := forEach_keepsRuns back (fun k t => (stepRegains_keepsProcs k t).runs) (setReady (rCl n) true s)
  exact keepsRuns_ite (.refl s) (((setReady_keepsRuns ..).trans hregains).trans (.after (brownCheck_keepsRuns _) (.of_procs rfl rfl)))

theorem mendJournal_keepsRuns (s : State) : keepsRuns s (mendJournal s) := by
  have hjournal (st : JState) (y x tries : Nat) (t : State) : keepsRuns t (journal st y x tries t) := (journal_keepsProcs ..).runs
  have hfuses (b : Bytes) : keepsRuns s (programFuses b s) := keepsRuns_ite (.refl s) (.of_procs rfl rfl)
  unfold mendJournal
  split
  · exact .refl s
  · split
    · exact .refl s
    · extract_lets y x ok
      split
      · exact hjournal ..
      · exact hjournal ..
      · exact keepsRuns_ite (hjournal ..) (hjournal ..)
      · exact (hfuses _).trans (hjournal ..)
      · exact .refl s

/-- SEC runs, and what waited for it is revoked (R102). -/
theorem secUp_keepsRuns (reset : Bool) (s : State) : keepsRuns s (secUp reset s) := by
  unfold secUp
  extract_lets side link t u v w
  have ht : keepsRuns s t := .after (setReady_keepsRuns ..) (.of_procs rfl rfl)
  have hu : keepsRuns t u := .of_procs rfl rfl
  have hv : keepsRuns u v := keepsRuns_ite ((mendJournal_keepsRuns u).trans (procEvent_keepsProcs ..).runs) (.refl u)
  have hw : keepsRuns v w := forEach_keepsRuns _ (fun p t => (keyWork_keepsProcs p t).runs) v
  refine (((ht.trans hu).trans hv).trans hw).trans (forEach_keepsRuns _ (fun p t => ?_) w)
  exact .after (revoke_keepsRuns ..) (updProc_keepsRuns p (fun x => { x with waitingSec := false }) (fun _ => rfl) (fun _ => rfl) t)

theorem takeTables_keepsRuns (s : State) : keepsRuns s (takeTables s) := keepsRuns_ite (.refl s) (.of_procs rfl rfl)

theorem issueVision_keepsRuns (s : State) : keepsRuns s (issueVision s) := by
  refine forEach_keepsRuns _ (fun f t => ?_) s
  exact .of_procs rfl rfl

theorem finishRuns_keepsRuns (s : State) : keepsRuns s (finishRuns s) :=
  forEach_keepsRuns _ (fun r t => (endRun_keepsProcs r _ false t).runs) s

/-- SCH serves (R22, R33, R104). -/
theorem schUp_keepsRuns (s : State) : keepsRuns s (schUp s) := by
  unfold schUp
  extract_lets t u v late hbm kept boot w x y
  have ht : keepsRuns s t := (((setReady_keepsRuns rSch true s).trans (takeTables_keepsRuns _)).trans (issueVision_keepsRuns _)).trans
    (.of_procs rfl rfl)
  have hu : keepsRuns t u := forEach_keepsRuns _ (fun n a => keepsRuns_ite (clusterUp_keepsRuns n a) (.refl a)) t
  have hv : keepsRuns u v := setReady_keepsRuns ..
  have hw : keepsRuns v w := .of_procs rfl rfl
  have hx : keepsRuns w x := forEach_keepsRuns _ (fun _ _ => postEvent_keepsRuns ..) w
  have hy : keepsRuns x y := forEach_keepsRuns _ (fun _ _ => postEvent_keepsRuns ..) x
  have hlate := forEach_keepsRuns late (fun d t => postEvent_keepsRuns evFw stOk d t) y
  exact (((((ht.trans hu).trans hv).trans hw).trans hx).trans hy).trans (hlate.trans (finishRuns_keepsRuns _))

/-! ## An image runs (R90) -/

/-- Processor p as its image sets RUNNING. -/
def setsRunning (again : Bool) (y : Proc) : Proc := { y with
  state := if y.imaged then .running else .rom, waitingSec := false,
  restarts := if again then min 255 (y.restarts + 1) else y.restarts, pushed := false }

theorem updProc_setsRunning {p : Nat} {again : Bool} {s : State} (h : (s.proc p).imaged = true) :
    ((updProc p (setsRunning again) s).proc p).state = .running := by
  rw [proc_updProc_same]
  exact if_pos h

/-- An image that is loaded where it must be leaves whether a processor has one, and the pins. -/
theorem ite_loadImage_keeps (c : Prop) [Decidable c] (p : Nat) (s : State) :
    ((if c then s else loadImage p s).proc p).imaged = (s.proc p).imaged ∧ (if c then s else loadImage p s).pins = s.pins := by
  have hpins := congrArg State.pins (loadImage_frame p s)
  split
  · exact ⟨rfl, rfl⟩
  · exact ⟨loadImage_field Proc.imaged (fun _ _ _ => rfl) p p s, hpins⟩

theorem processorRunning_completes {p : AgentId} {s : State} (ha : awake s) (hmay : s.mayRun p.val = true)
    (himaged : (s.proc p.val).imaged = true) :
    completes (.processorRunning p) s (fun t => (t.proc p.val).state = .running ∧ t.pins = s.pins) := by
  show ∃ t, execProcessorRunning p s = .next t ∧ _
  unfold execProcessorRunning
  rw [if_neg (by simp [hmay])]
  extract_lets x again a b caps image c d
  obtain ⟨hloaded, hloadedPins⟩ := ite_loadImage_keeps ((x.state == .loading || x.pushed) = true) p.val s
  have hrunning : (a.proc p.val).state = .running := updProc_setsRunning (again := again) (hloaded.trans himaged)
  have hpins : a.pins = s.pins := hloadedPins
  have hb : keepsRuns a b := keepsRuns_ite (.of_procs rfl rfl) (.refl a)
  have hc : keepsRuns b c := by
    unfold c
    split
    · exact secUp_keepsRuns ..
    · have hcaps : keepsRuns b caps := keepsRuns_ite (.of_procs rfl rfl) (.refl b)
      exact keepsRuns_ite (hcaps.trans (setReady_keepsRuns ..)) hcaps
    · have himage : keepsRuns b image := by
        unfold image
        split
        · exact .refl b
        · exact .of_procs rfl rfl
      exact himage.trans (keepsRuns_ite (.refl image) (schUp_keepsRuns image))
    · exact clusterUp_keepsRuns ..
  have hd : keepsRuns c d := keepsRuns_ite (procEvent_keepsProcs ..).runs (.refl c)
  have hend := ((hb.trans hc).trans hd).trans (pauseNow_keepsProcs d).runs
  exact ⟨_, live_awake ha _, (hend.state p.val).trans hrunning, hend.pins.trans hpins⟩

/-! ## Revocations put off, and new images (R92, R93, R94, R98) -/

/-- The old image's block is in the handoff area, and the new image is the processor's (R92). -/
def handedOff (p : Nat) (toB : Bool) (block : Bytes) (s : State) : State :=
  updProc p (fun x => { x with slotB := toB, fresh := some true })
    { s with hand := some { agent := p, fmt := (((s.bundleOf p).bind (·.image p)).map (·.fmt)).getD 0, block := block } }

theorem handedOff_leaves (p : Nat) (toB : Bool) (block : Bytes) (s : State) :
    let t := handedOff p toB block s
    (t.hand.map (·.block)) = some block ∧ (t.proc p).slotB = toB ∧ (t.proc p).fresh = some true ∧
      { t with hand := s.hand, procs := s.procs } = s := by
  intro t
  have hproc : t.proc p = { s.proc p with slotB := toB, fresh := some true } := proc_updProc_same ..
  rw [hproc]
  exact ⟨rfl, rfl, rfl, rfl⟩

section Replacement

variable {p : AgentId} {s : State} (ha : awake s)
include ha

theorem revocationDeferred_endsIn {c a : Nat} (hdeferred : (s.proc p.val).deferred = some c) (hlast : (s.proc p.val).lastAdv = some a)
    (hpast : a + ticksMs ≤ s.time) : endsIn (.revocationDeferred p) s (revokeNow p.val c s) := by
  refine endsIn_of_live ha ?_
  show execRevocationDeferred p s = _
  unfold execRevocationDeferred
  rw [hdeferred, hlast]
  exact if_neg (Nat.not_lt.mpr hpast)

theorem pauseLimitExpiry_endsIn (hfresh : (s.proc p.val).fresh.isSome = true) (hstate : (s.proc p.val).state ≠ .running)
    (hcur : s.upd.bind (·.cur) = some p.val) : endsIn (.pauseLimitExpiry p) s (rollBack p.val false s) :=
  endsIn_of_live ha (if_pos (by simp [hfresh, hstate, hcur]))

theorem handoffSafePoint_endsIn {u : FwUpdate} {block : Bytes} (hupd : s.upd = some u) (hcur : u.cur = some p.val)
    (hstate : (s.proc p.val).state = .handoff) (hfresh : (s.proc p.val).fresh = none) (hfits : block.length ≤ (procMem p.val).2) :
    endsIn (.handoffSafePoint p block) s (handedOff p.val u.toB block s) := by
  refine endsIn_of_live ha ?_
  show execHandoffSafePoint p block s = _
  unfold execHandoffSafePoint handedOff
  rw [hupd]
  have hguard : ¬ (u.cur ≠ some p.val ∨ (s.proc p.val).state ≠ .handoff ∨ (s.proc p.val).fresh.isSome = true ∨
      (procMem p.val).2 < block.length) := by
    simp [hcur, hstate, hfresh, hfits]
  exact if_neg hguard

theorem fwTargetReplaced_endsIn {h : Bool} (hfresh : (s.proc p.val).fresh = some h) (hcur : s.upd.bind (·.cur) = some p.val)
    (hstate : (s.proc p.val).state = .running) (hsec : s.secRuns = true) :
    endsIn (.fwTargetReplaced p) s (nextTarget (replaced p.val h s)) := by
  refine endsIn_of_live ha ?_
  show execFwTargetReplaced p s = _
  unfold execFwTargetReplaced
  extract_lets x
  have hx : x.fresh = some h := hfresh
  rw [hx]
  exact if_neg (by simp [x, hcur, hstate, hsec])

end Replacement

/-! ## FW_UPDATE (R94, R95) -/

/-- The targets that FW_UPDATE names, in the order in which it replaces them (R94). -/
def updateTargets (targets : Nat) : List Nat := ([3, 4, 5, 6, 7, 8, 9, 10, 2, 1, 0] : List Nat).filter (fun p => targets.testBit p)

/-- The handoff format of an agent's image, where it has one (R83). -/
def fmtOf (x : Option Bundle) (p : Nat) : Option Nat := (x.bind (·.image p)).map (·.fmt)

/-- What a handoff asks for, beside the mode (R92, R94): an image that can hand off, a stack to hold the block, and for each target one
format in both images. -/
def handsOff (targets : Nat) (b : Bundle) (t : State) : Prop :=
  t.boot.cap.getLsbD capHandoff = true ∧ (List.range 6).any (fun h => (Tab.get {} t.hbm h).usable) = true ∧
    ∀ p ∈ updateTargets targets, ∃ n, n ≠ 0 ∧ fmtOf (some b) p = some n ∧ fmtOf (t.bundleOf p) p = some n

/-- The bundle is in the free slot and the update has begun (R94, R95). -/
def updateBegun (c : Cmd) (f : Nat) (src : Src) (b : Bundle) (t : State) : State :=
  let toB := t.slotUsed false
  { t with
    upd := some { fn := f, q := srcQ src, tag := c.e.tag, cur := none, handoff := c.arg 0x1E 1 == 1, toB := toB, orphan := false,
                  todo := updateTargets (c.arg 0x1C 2) },
    boot := { t.boot with
      state := .updating, slotA := if toB then t.boot.slotA else some b, slotB := if toB then some b else t.boot.slotB,
      bad := t.boot.bad.filter (·.1 != toB) } }

/-- An image with a handoff format that both bundles give passes the check of formats. -/
theorem sameFmt_of_fmtOf {b : Bundle} {t : State} {p n : Nat} (hn : n ≠ 0) (hnew : fmtOf (some b) p = some n)
    (hold : fmtOf (t.bundleOf p) p = some n) :
    (((b.image p).map (·.fmt)).getD 0 != 0 && some (((b.image p).map (·.fmt)).getD 0) == ((t.bundleOf p).bind (·.image p)).map (·.fmt)) =
      true := by
  have hnew' : (b.image p).map (·.fmt) = some n := hnew
  have hold' : ((t.bundleOf p).bind (·.image p)).map (·.fmt) = some n := hold
  simp [hnew', hold', hn]

theorem fwUpdate_endsIn {f : Fn} {src : Src} {bundle : Option Bytes} {s t : State} {c : Cmd} {b : Bundle}
    (h : taken f.val opFwUpdate src [(0x10, 8), (0x18, 4), (0x1C, 2), (0x1E, 1)] true s = some (c, t))
    (htargets : 0 < c.arg 0x1C 2 ∧ c.arg 0x1C 2 < 2048)
    (hmode : c.arg 0x1E 1 = 0 ∨ c.arg 0x1E 1 = 1 ∧ handsOff (c.arg 0x1C 2) b t)
    (hsec : (t.proc agSec).state = .running) (hupd : t.upd = none)
    (hrestart : (List.range 11).any (fun p => (t.proc p).state == .restarting) = false) (hstage : t.prov.stage = none)
    (hslots : (t.slotUsed false && t.slotUsed true) = false)
    (hcheck : checkBundle t.fuses.keyRevoke t.fwFloor (c.arg 0x18 4) bundle = .ok b) (habi : b.abi = t.boot.runAbi) :
    endsIn (.fwUpdate f src bundle) s (nextTarget (updateBegun c f.val c.src b t)) := by
  show execFwUpdate f src bundle s = _
  unfold execFwUpdate
  refine command_endsIn h ?_
  have hfield : ¬ (c.arg 0x1C 2 = 0 ∨ 2048 ≤ c.arg 0x1C 2 ∨ 1 < c.arg 0x1E 1 ∨
      (c.arg 0x1E 1 = 1 ∧ (!t.boot.cap.getLsbD capHandoff) = true)) := by
    rcases hmode with h0 | ⟨h1, hcap, -⟩
    · simp [h0]; omega
    · simp [h1, hcap]; omega
  have htakes : ¬ (!t.secTakes) = true := by simp [State.secTakes, hsec]
  have hidle : ¬ (t.upd.isSome || (List.range 11).any (fun p => (t.proc p).state == .restarting) || t.prov.stage.isSome) = true := by
    rw [hupd, hrestart, hstage]
    decide
  have hstack : ¬ (c.arg 0x1E 1 = 1 ∧ (!(List.range 6).any (fun h => (Tab.get {} t.hbm h).usable)) = true) := by
    rintro ⟨h1, hnone⟩
    obtain h0 | ⟨-, -, hany, -⟩ := hmode
    · omega
    · rw [hany] at hnone
      cases hnone
  have hformats : ¬ (b.abi ≠ t.boot.runAbi ∨ (c.arg 0x1E 1 = 1 ∧ (!(updateTargets (c.arg 0x1C 2)).all (fun p =>
      ((b.image p).map (·.fmt)).getD 0 != 0 && some (((b.image p).map (·.fmt)).getD 0) ==
        ((t.bundleOf p).bind (·.image p)).map (·.fmt))) = true)) := by
    rintro (hne | ⟨h1, hnot⟩)
    · exact hne habi
    · obtain h0 | ⟨-, -, -, hfmt⟩ := hmode
      · omega
      · rw [List.all_eq_true.mpr fun p hp => ?_] at hnot
        · cases hnot
        · obtain ⟨n, hn, hnew, hold⟩ := hfmt p hp
          exact sameFmt_of_fmtOf hn hnew hold
  refine (if_neg hfield).trans ((if_neg htakes).trans ((if_neg hidle).trans ((if_neg hstack).trans ((if_neg (by simp [hslots])).trans ?_))))
  rw [hcheck]
  exact if_neg hformats

/-- Settles O20: an image that runs, a revocation put off, a new image, and FW_UPDATE whose checks pass. -/
theorem firmwareReplacement : Obligations.FirmwareReplacement := by
  refine ⟨fun p s ha => ⟨processorRunning_completes ha, fun c a => revocationDeferred_endsIn ha, pauseLimitExpiry_endsIn ha,
    fun u block hupd hcur hstate hfresh hfits => ?_, fun h => fwTargetReplaced_endsIn ha⟩, fun f src bundle s t c b h => ?_⟩
  · exact completes_of_endsIn (handoffSafePoint_endsIn ha hupd hcur hstate hfresh hfits) (handedOff_leaves p.val u.toB block s)
  · intro todo fmts hpos hlt hmode hsec hupd hrestart hstage hslots hcheck habi
    exact fwUpdate_endsIn h ⟨hpos, hlt⟩ hmode hsec hupd hrestart hstage hslots hcheck habi

end Sys2Proof.Proofs
end

section
/-! PROOFS of the statements on SPDM: the requests of a connection and those inside a session (R108 to R112). -/

namespace Sys2Proof.Proofs

open Sys2Proof.Machine Sys2Proof.Safety Sys2Proof.Laws

/-! ## Requests of a transport on which SEC answers (R110) -/

section Request

variable {c : Instr} {mctp inSeq : Bool} {run : State → State} {s t : State} (ha : awake s) (hans : s.answers mctp = true)
include ha hans

/-- A well-formed request in sequence is answered by its meaning. -/
theorem endsIn_of_spdm (h : exec c s = spdm mctp true inSeq run s) (hseq : inSeq = true) (hrun : run s = t) : endsIn c s t :=
  endsIn_of_live ha (h.trans ((if_neg (by simp [hans])).trans (congrArg (live s) (by simpa [hseq] using hrun))))

/-- A malformed request is answered with InvalidRequest, whatever its sequence and its meaning. -/
theorem endsIn_bad_of_malformed (h : exec c s = if !s.answers mctp then done s s else live s (spdmBad mctp errInvalid s)) :
    endsIn c s (spdmBad mctp errInvalid s) :=
  endsIn_of_guard ha h (by simp [hans])

/-- A well-formed request that its connection's phase does not allow is answered with UnexpectedRequest. -/
theorem endsIn_bad_of_outOfSequence {p : SpdmPhase} (hne : s.sec.phase mctp ≠ p)
    (h : exec c s = spdm mctp true (s.sec.phase mctp == p) run s) : endsIn c s (spdmBad mctp errUnexpected s) :=
  endsIn_of_live ha (h.trans ((if_neg (by simp [hans])).trans (congrArg (live s) (by simp [hne]))))

end Request

/-! ## The connection of a transport (R109, R110) -/

/-- SEC's state with the connection of a transport in a phase. -/
def inPhase (mctp : Bool) (p : SpdmPhase) (x : Sec) : Sec :=
  { x with phaseMctp := if mctp then p else x.phaseMctp, phaseDoe := if mctp then x.phaseDoe else p }

@[simp] theorem phase_inPhase_same (mctp : Bool) (p : SpdmPhase) (x : Sec) : (inPhase mctp p x).phase mctp = p := by
  cases mctp <;> rfl

@[simp] theorem phase_inPhase_other (mctp : Bool) (p : SpdmPhase) (x : Sec) : (inPhase mctp p x).phase (!mctp) = x.phase (!mctp) := by
  cases mctp <;> rfl

/-- SEC's state with the version of a transport's connection. -/
def withVersion (mctp : Bool) (v : Nat) (x : Sec) : Sec :=
  { x with verMctp := if mctp then v else x.verMctp, verDoe := if mctp then x.verDoe else v }

theorem version_withVersion (mctp : Bool) (v : Nat) (x : Sec) :
    (if mctp then (withVersion mctp v x).verMctp else (withVersion mctp v x).verDoe) = v := by
  cases mctp <;> rfl

section Connection

variable {mctp : Bool} {s : State} (ha : awake s) (hans : s.answers mctp = true)
include ha hans

theorem getVersion_endsIn {v12 v13 : Bool} (hv : (v12 || v13) = true) : endsIn (.getVersion mctp v12 v13 true) s
    (emit (.spdm mctp 0x04 [0x12, 0x13])
      (updSec (fun x => inPhase mctp .version (withVersion mctp (if v13 then 0x13 else 0x12) x)) s)) := by
  have hcommon : ¬ (!v12 && !v13) = true := by rw [← Bool.not_or, hv]; decide
  exact endsIn_of_spdm ha hans (by rfl) rfl (if_neg hcommon)

theorem getCapabilities_endsIn (hphase : s.sec.phase mctp = .version) : endsIn (.getCapabilities mctp true) s
    (emit (.spdm mctp 0x61 (toLe 4 0x262F6)) (updSec (inPhase mctp .capabilities) s)) :=
  endsIn_of_spdm ha hans (by rfl) (beq_iff_eq.mpr hphase) rfl

theorem negotiateAlgorithms_endsIn (hphase : s.sec.phase mctp = .capabilities) : endsIn (.negotiateAlgorithms mctp true true) s
    (emit (.spdm mctp 0x63 (toLe 4 0x80 ++ toLe 4 0x02 ++ toLe 2 0x10 ++ toLe 2 0x02)) (updSec (inPhase mctp .algorithms) s)) :=
  endsIn_of_spdm ha hans (by rfl) (beq_iff_eq.mpr hphase) rfl

end Connection

/-! ## Requests once algorithms are agreed (R108 to R111) -/

/-- The answer of a request on slot 0 whose chain is there (R110). -/
theorem withChain_run {mctp : Bool} {run : State → State} {s : State} (hid : s.sec.identityOk = true) (hak : s.sec.akReady = true) :
    withChain mctp 0 run s = run s := (if_neg (by simp [hid, hak])).trans (if_neg (by simp))

theorem withChain_failed {mctp : Bool} {slot : Nat} {run : State → State} {s : State} (hid : s.sec.identityOk = false) :
    withChain mctp slot run s = spdmError mctp errUnspecified s := if_pos (by simp [hid])

/-- The signed answer to GET_MEASUREMENTS. -/
def signedMeasurements (mctp : Bool) (nonce : BitVec 256) (s : State) (l : Bytes) : State :=
  emit (.spdm mctp 0x60 (l ++ toLe 32 nonce.toNat ++ Config.akSign s.sec.ak (l ++ toLe 32 nonce.toNat))) s

/-- What GET_MEASUREMENTS reports for an operation (R111). -/
def measurementReport (op : Nat) (s : State) : Bytes :=
  if op = 0 then [17#8] else if op = 0xFF then ((List.range 17).map (fun k => measurementBlock (k + 1) s)).flatten
  else measurementBlock op s

section Agreed

variable {mctp : Bool} {s : State} (ha : awake s) (hans : s.answers mctp = true) (hphase : s.sec.phase mctp = .algorithms)
include ha hans hphase

/-- A well-formed request that needs the agreed algorithms is answered by its meaning. -/
theorem endsIn_of_agreed {c : Instr} {run : State → State} {t : State}
    (h : exec c s = spdm mctp true (s.sec.phase mctp == .algorithms) run s) (hrun : run s = t) : endsIn c s t :=
  endsIn_of_spdm ha hans h (beq_iff_eq.mpr hphase) hrun

theorem chainRequests_endsIn_failed (hid : s.sec.identityOk = false) (slot off len : Nat) (nonce : BitVec 256) (share : Bytes) :
    endsIn (.getCertificate mctp slot off len true) s (spdmError mctp errUnspecified s) ∧
    endsIn (.challenge mctp slot nonce true) s (spdmError mctp errUnspecified s) ∧
    endsIn (.keyExchange mctp slot share true) s (spdmError mctp errUnspecified s) :=
  ⟨endsIn_of_agreed ha hans hphase rfl (withChain_failed hid), endsIn_of_agreed ha hans hphase rfl (withChain_failed hid),
    endsIn_of_agreed ha hans hphase rfl (withChain_failed hid)⟩

section Measurements

variable (hak : s.sec.akReady = true) (nonce : BitVec 256)
include hak

theorem getMeasurements_endsIn {op : Nat} (hop : op ≤ 17 ∨ op = 0xFF) :
    endsIn (.getMeasurements mctp op nonce true) s (signedMeasurements mctp nonce s (measurementReport op s)) := by
  have hknown : ¬ (17 < op ∧ op ≠ 0xFF) := by omega
  refine endsIn_of_agreed ha hans hphase (by rfl) ?_
  exact (if_neg hknown).trans (if_neg (by simp [hak]))

theorem getMeasurements_block {k : Nat} (hpos : 1 ≤ k) (hmax : k ≤ 17) :
    endsIn (.getMeasurements mctp k nonce true) s (signedMeasurements mctp nonce s (measurementBlock k s)) := by
  have hreport : measurementReport k s = measurementBlock k s := (if_neg (by omega)).trans (if_neg (by omega))
  exact hreport ▸ getMeasurements_endsIn ha hans hphase hak nonce (.inl hmax)

end Measurements

section Chain

variable (hid : s.sec.identityOk = true) (hak : s.sec.akReady = true)
include hid hak

theorem getCertificate_endsIn {off len : Nat} (hoff : off ≤ s.chain.length) :
    endsIn (.getCertificate mctp 0 off len true) s (emit (.spdm mctp 0x02 (slice s.chain off len)) s) :=
  endsIn_of_agreed ha hans hphase rfl ((withChain_run hid hak).trans (if_neg (Nat.not_lt.mpr hoff)))

theorem challenge_endsIn (nonce : BitVec 256) : endsIn (.challenge mctp 0 nonce true) s
    (emit (.spdm mctp 0x03 (Config.akSign s.sec.ak (toLe 32 nonce.toNat ++ toLe 48 (Config.sha384 s.chain).toNat))) s) :=
  endsIn_of_agreed ha hans hphase rfl (withChain_run hid hak)

theorem keyExchange_begins (share : Bytes) (hroom : s.sec.sessions.length < 4) : endsIn (.keyExchange mctp 0 share true) s
    (emit (.spdm mctp 0x64 (toLe 2 s.sec.newSession ++ Config.akSign s.sec.ak share)) (updSec (fun x => { x with sessions := x.sessions ++
      [{ id := s.sec.newSession, via := if mctp then .mctp else .doe, established := false, updates := 0 }] }) s)) :=
  endsIn_of_agreed ha hans hphase rfl ((withChain_run hid hak).trans (if_neg (Nat.not_le.mpr hroom)))

theorem keyExchange_full (share : Bytes) (hfull : 4 ≤ s.sec.sessions.length) :
    endsIn (.keyExchange mctp 0 share true) s (spdmError mctp errSessions s) :=
  endsIn_of_agreed ha hans hphase rfl ((withChain_run hid hak).trans (if_pos hfull))

end Chain

end Agreed

/-- Settles O22: the connection's three requests, what follows once algorithms are agreed, and what is malformed or out of sequence. -/
theorem spdmConnection : Obligations.SpdmConnection := by
  refine ⟨fun mctp s ha hans => ⟨fun v12 v13 hv => ?_, fun hphase => ?_, fun hphase => ?_⟩,
    fun mctp s ha hans hphase => ⟨fun hid hak => ?_, fun hid slot off len nonce share =>
      chainRequests_endsIn_failed ha hans hphase hid slot off len nonce share⟩, fun mctp s ha hans => ?_⟩
  · exact completes_of_endsIn (getVersion_endsIn ha hans hv)
      ⟨phase_inPhase_same .., phase_inPhase_other .., version_withVersion .., rfl, rfl⟩
  · exact completes_of_endsIn (getCapabilities_endsIn ha hans hphase) ⟨phase_inPhase_same .., rfl, rfl⟩
  · exact completes_of_endsIn (negotiateAlgorithms_endsIn ha hans hphase) ⟨phase_inPhase_same .., rfl⟩
  · exact ⟨fun _ _ hoff => getCertificate_endsIn ha hans hphase hid hak hoff, challenge_endsIn ha hans hphase hid hak,
      keyExchange_begins ha hans hphase hid hak, keyExchange_full ha hans hphase hid hak,
      fun nonce => ⟨getMeasurements_endsIn ha hans hphase hak nonce (.inl (Nat.zero_le _)),
        fun _ hpos hmax => getMeasurements_block ha hans hphase hak nonce hpos hmax,
        getMeasurements_endsIn ha hans hphase hak nonce (.inr rfl)⟩⟩
  · have hmalformed {c : Instr} := endsIn_bad_of_malformed (c := c) ha hans
    have hearly {c : Instr} {p : SpdmPhase} {run : State → State} := endsIn_bad_of_outOfSequence (c := c) (p := p) (run := run) ha hans
    exact ⟨fun _ _ => hmalformed rfl, hmalformed rfl, fun _ => hmalformed rfl, fun _ _ _ => hmalformed rfl, fun _ _ => hmalformed rfl,
      fun _ _ => hmalformed rfl, fun _ _ => hmalformed rfl, fun hne => hearly hne (by rfl), fun hne _ => hearly hne (by rfl),
      fun hne _ _ => ⟨hearly hne (by rfl), hearly hne (by rfl), hearly hne (by rfl)⟩⟩

/-! ## Requests inside a session (R109, R110, R112) -/

section Sessions

/-- A change of the session with a number leaves numbers alone, so that the number finds it changed. -/
theorem find_updSession {id : Nat} {g : Session → Session} (hg : ∀ z, (g z).id = z.id) (l : List Session) :
    (l.map (fun z => if z.id = id then g z else z)).find? (·.id == id) = (l.find? (·.id == id)).map g := by
  induction l with
  | nil => rfl
  | cons z r ih =>
    by_cases hz : z.id = id
    · simp [hz, hg]
    · simp [hz, ih]

theorem find_dropSession (id : Nat) (l : List Session) : (l.filter (·.id != id)).find? (·.id == id) = none := by
  simp [List.find?_eq_none]

variable {id : Nat} {x : Session} {s : State} (ha : awake s) (hx : s.sec.session id = some x)
  (hans : s.answers (x.via == .mctp) = true)
include ha hx hans

/-- A well-formed request inside a session that is as far as it needs is answered by its meaning. -/
theorem endsIn_of_inSession {c : Instr} {established : Bool} {run : Session → State → State} {t : State}
    (h : exec c s = inSession id established true run s) (hest : x.established = established) (hrun : run x s = t) : endsIn c s t := by
  have hspdm : inSession id established true run s = spdm (x.via == .mctp) true (x.established == established) (run x) s := by
    unfold inSession
    rw [hx]
  exact endsIn_of_spdm ha hans (h.trans hspdm) (beq_iff_eq.mpr hest) hrun

theorem finish_completes (hest : x.established = false) : completes (.finish id true true) s (fun t : State =>
    t.out = s.out ++ [Out.spdm (x.via == .mctp) 0x65 []] ∧ (t.sec.session id).map (·.established) = some true ∧
    t.sec.sessions.length = s.sec.sessions.length ∧ { t with sec := s.sec, out := s.out } = s) := by
  refine completes_of_endsIn (endsIn_of_inSession ha hx hans rfl hest rfl) ⟨rfl, ?_, List.length_map .., rfl⟩
  have hfind := find_updSession (id := id) (g := fun z => { z with established := true }) (fun _ => rfl) s.sec.sessions
  exact congrArg (Option.map (·.established)) (hfind.trans (congrArg _ hx))

section Established

variable (hest : x.established = true)
include hest

theorem keyUpdate_completes : completes (.keyUpdate id true) s (fun t : State =>
    t.out = s.out ++ [Out.spdm (x.via == .mctp) 0x69 []] ∧ (t.sec.session id).map (·.updates) = some (x.updates + 1) ∧
    { t with sec := s.sec, out := s.out } = s) := by
  refine completes_of_endsIn (endsIn_of_inSession ha hx hans rfl hest rfl) ⟨rfl, ?_, rfl⟩
  have hfind := find_updSession (id := id) (g := fun z => { z with updates := z.updates + 1 }) (fun _ => rfl) s.sec.sessions
  exact congrArg (Option.map (·.updates)) (hfind.trans (congrArg _ hx))

theorem heartbeat_endsIn : endsIn (.heartbeat id true) s (emit (.spdm (x.via == .mctp) 0x68 []) s) :=
  endsIn_of_inSession ha hx hans rfl hest rfl

theorem endSession_completes : completes (.endSession id true) s (fun t : State =>
    t.sec.session id = none ∧ t.out = s.out ++ [Out.spdm (x.via == .mctp) 0x6C []] ∧ { t with sec := s.sec, out := s.out } = s) :=
  completes_of_endsIn (endsIn_of_inSession ha hx hans rfl hest rfl) ⟨find_dropSession id s.sec.sessions, rfl, rfl⟩

section IdeKm

variable (hdoe : (x.via == .mctp) = false) {n : Nat} (hn : n ≤ 32)
include hdoe hn

theorem ideKm_programs : completes (.ideKm id n false true) s (fun t =>
    Tab.find t.sec.ide n = some (.programmed, s.free) ∧ { t with sec := s.sec, out := s.out, free := s.free } = s) := by
  refine completes_of_endsIn (t := emit (.spdm (x.via == .mctp) 0x7E [0, BitVec.ofNat 8 n])
    (tookFree (updSec (fun y => { y with ide := Tab.put y.ide n (.programmed, s.free) }) s)))
    (endsIn_of_inSession ha hx hans rfl hest ?_) ⟨find_put_same .., ?_⟩
  · simp only [hdoe, if_neg (Nat.not_lt.mpr hn), Bool.false_eq_true, if_false]
  · unfold emit tookFree updSec
    rfl

theorem ideKm_sets_going {e : IdeState × Nat} (he : Tab.find s.sec.ide n = some e) : completes (.ideKm id n true true) s (fun t =>
    Tab.find t.sec.ide n = some (.active, e.2) ∧ { t with sec := s.sec, out := s.out } = s) := by
  refine completes_of_endsIn (t := emit (.spdm (x.via == .mctp) 0x7E [1, BitVec.ofNat 8 n])
    (updSec (fun y => { y with ide := Tab.put y.ide n (.active, e.2) }) s)) (endsIn_of_inSession ha hx hans rfl hest ?_)
    ⟨find_put_same .., rfl⟩
  simp only [hdoe, if_neg (Nat.not_lt.mpr hn), he, Bool.false_eq_true, if_false, if_true]

end IdeKm

end Established

end Sessions

/-- Settles O23: FINISH of a session begun, and each request of one that is established. -/
theorem spdmSessions : Obligations.SpdmSessions := fun _ _ _ ha hx hans =>
  ⟨finish_completes ha hx hans, fun hest => ⟨keyUpdate_completes ha hx hans hest, heartbeat_endsIn ha hx hans hest,
    endSession_completes ha hx hans hest, fun hdoe _ hn => ⟨ideKm_programs ha hx hans hest hdoe hn,
      fun _ he => ideKm_sets_going ha hx hans hest hdoe hn he⟩⟩⟩

end Sys2Proof.Proofs
end

section
/-! PROOFS of the statement on provisioning: how PROV_STAGE begins a stage and how the end of the NOR operation finishes it (R126,
R128, R131). -/

namespace Sys2Proof.Proofs

open Sys2Proof.Machine Sys2Proof.Safety Sys2Proof.Laws

/-! ## A stage begins (R128) -/

/-- STAGE and LENGTH of PROV_STAGE are in range. -/
def stageArgsOk (c : Cmd) : Prop := c.arg 0x10 1 ≤ 3 ∧ (c.arg 0x10 1 = 0 → 0 < c.arg 0x20 4 ∧ c.arg 0x20 4 ≤ 131072)

/-- The state of the journal from which a stage begins. -/
def stageAllowed (stage : Nat) (e : JEntry) (t : State) : Prop :=
  stage = 0 ∧ (e.state = .idle ∨ e.state = .downloaded ∨ e.state = .verified ∨ e.state = .invalid) ∨
    stage = 1 ∧ e.state = .downloaded ∨ stage = 2 ∧ e.state = .verified ∨ stage = 3 ∧ e.state = .trial ∧ e.slot = t.prov.slot

/-- The first entry of a stage, with the free slot written and then erased where it is a download. -/
def stageEntry (stage : Nat) (e : JEntry) (data : Bytes) (t : State) : State :=
  if stage = 0 then putSlot t.freeSlot [] (journal .downloading t.freeSlot t.prov.slot 0 (putSlot t.freeSlot data t))
  else journal (if stage = 1 then .verifying else if stage = 2 then .activating else .confirming) e.slot e.xslot 0 t

/-- The stage of a command is in progress. -/
def stageBegun (f : Nat) (c : Cmd) (data : Bytes) (u : State) : State :=
  { u with prov := { u.prov with stage := some (c.arg 0x10 1, f, srcQ c.src, c.e.tag, data) } }

theorem stageArgsOk.inRange {c : Cmd} (h : stageArgsOk c) :
    ¬ (3 < c.arg 0x10 1 ∨ c.arg 0x10 1 = 0 ∧ (c.arg 0x20 4 = 0 ∨ 131072 < c.arg 0x20 4)) := by
  obtain ⟨hstage, hlen⟩ := h
  omega

/-- No stage, no update and no operation of the NOR is in progress. -/
def stageIdle (t : State) : Prop := t.prov.stage = none ∧ t.upd = none ∧ t.nor.busy = false

/-- What PROV_STAGE makes of a stage in range, once its checks before the journal's have passed. -/
theorem stageChecks_pass {c : Cmd} {t a b d u : State} (hargs : stageArgsOk c) (hsec : t.secTakes = true) (hidle : stageIdle t) :
    (if 3 < c.arg 0x10 1 ∨ c.arg 0x10 1 = 0 ∧ (c.arg 0x20 4 = 0 ∨ 131072 < c.arg 0x20 4) then a
      else if !t.secTakes then b
      else if t.prov.stage.isSome || t.upd.isSome || t.nor.busy then d else u) = u := by
  obtain ⟨hstage, hupd, hnor⟩ := hidle
  exact (if_neg hargs.inRange).trans ((if_neg (by simp [hsec])).trans (if_neg (by simp [hstage, hupd, hnor])))

section ProvStage

variable {f : Fn} {src : Src} {data : Bytes} {s t : State} {c : Cmd}
  (h : taken f.val opProvStage src [(0x10, 1), (0x18, 8), (0x20, 4)] true s = some (c, t))
include h

theorem provStage_badField (hbad : 3 < c.arg 0x10 1 ∨ c.arg 0x10 1 = 0 ∧ (c.arg 0x20 4 = 0 ∨ 131072 < c.arg 0x20 4)) :
    endsIn (.provStage f src data) s (c.drop cViolIarekField t) := by
  show execProvStage f src data s = _
  unfold execProvStage
  exact command_endsIn h (if_pos hbad)

section InRange

variable (hargs : stageArgsOk c)
include hargs

theorem provStage_noSec (hsec : t.secTakes = false) : endsIn (.provStage f src data) s (c.endRetry eBusy 0 t) := by
  show execProvStage f src data s = _
  unfold execProvStage
  exact command_endsIn h ((if_neg hargs.inRange).trans (if_pos (by simp [hsec])))

section SecTakes

variable (hsec : t.secTakes = true)
include hsec

theorem provStage_busy (hbusy : t.prov.stage.isSome = true ∨ t.upd.isSome = true ∨ t.nor.busy = true) :
    endsIn (.provStage f src data) s (c.end eBusy t) := by
  have htest : (t.prov.stage.isSome || t.upd.isSome || t.nor.busy) = true := by simpa [or_assoc] using hbusy
  show execProvStage f src data s = _
  unfold execProvStage
  exact command_endsIn h ((if_neg hargs.inRange).trans ((if_neg (by simp [hsec])).trans (if_pos htest)))

section Idle

variable (hidle : stageIdle t)
include hidle

theorem provStage_noEntry (hforce : t.inForce = none) : endsIn (.provStage f src data) s (c.drop cViolProvOrder t) := by
  show execProvStage f src data s = _
  unfold execProvStage
  refine command_endsIn h ((stageChecks_pass hargs hsec hidle).trans ?_)
  simp only [hforce]

variable {e : JEntry} (hforce : t.inForce = some e)
include hforce

theorem provStage_begins (hallowed : stageAllowed (c.arg 0x10 1) e t) : endsIn (.provStage f src data) s
    (stageBegun f.val c (fit (c.arg 0x20 4) data) (stageEntry (c.arg 0x10 1) e (fit (c.arg 0x20 4) data) t)) := by
  show execProvStage f src data s = _
  unfold execProvStage
  refine command_endsIn h ((stageChecks_pass hargs hsec hidle).trans ?_)
  unfold stageBegun stageEntry
  obtain ⟨h0, hst⟩ | ⟨h1, hst⟩ | ⟨h2, hst⟩ | ⟨h3, hst, hslot⟩ := hallowed
  · obtain hst | hst | hst | hst := hst <;> simp only [hforce, h0, hst, if_true]
  · simp only [hforce, h1, hst, if_true, if_neg one_ne_zero]
  · simp only [hforce, h2, hst]
    rfl
  · simp only [hforce, h3, hst, if_pos hslot]
    rfl

theorem provStage_refused (hnot : ¬ stageAllowed (c.arg 0x10 1) e t) :
    endsIn (.provStage f src data) s (c.drop cViolProvOrder t) := by
  show execProvStage f src data s = _
  unfold execProvStage
  refine command_endsIn h ((stageChecks_pass hargs hsec hidle).trans ?_)
  simp only [hforce]
  split
  · next h0 hst => exact absurd (.inl ⟨h0, .inl hst⟩) hnot
  · next h0 hst => exact absurd (.inl ⟨h0, .inr (.inl hst)⟩) hnot
  · next h0 hst => exact absurd (.inl ⟨h0, .inr (.inr (.inl hst))⟩) hnot
  · next h0 hst => exact absurd (.inl ⟨h0, .inr (.inr (.inr hst))⟩) hnot
  · next h1 hst => exact absurd (.inr (.inl ⟨h1, hst⟩)) hnot
  · next h2 hst => exact absurd (.inr (.inr (.inl ⟨h2, hst⟩))) hnot
  · next h3 hst => exact if_neg fun hslot => hnot (.inr (.inr (.inr ⟨h3, hst, hslot⟩)))
  · rfl

end Idle

end SecTakes

end InRange

end ProvStage

/-! ## The NOR finishes a stage (R128, R131) -/

/-- What the end of a stage's operation finds: the status, and the journal, slots and fuses that it leaves. -/
def stageOutcome (stage : Nat) (e : JEntry) (data : Bytes) (s : State) : Status × State :=
  let ok := recordOk s.fuses false (s.slot e.slot)
  match stage with
  | 0 => (stOk, journal .downloaded e.slot e.xslot 0 (putSlot e.slot data s))
  | 1 =>
    if ok && decide ((s.prov.record.map (·.seq)).getD 0 < rdBV 32 (s.slot e.slot) 8) then (stOk, journal .verified e.slot e.xslot 0 s)
    else (eSig, journal .invalid e.slot e.xslot 0 s)
  | 2 => if ok then (stOk, journal .trial e.slot e.xslot 0 s) else (eSig, journal .invalid e.slot e.xslot 0 s)
  | _ => (stOk, journal .idle e.slot e.slot 0 (programFuses (s.slot e.slot) s))

/-- A stage is over: no stage is in progress, and its command completes unless an FLR ended it. -/
def stageEnded (f : Nat) (q : Option Nat) (tag : BitVec 32) (e : JEntry) (r : Status × State) : State :=
  let t := { r.2 with prov := { r.2.prov with stage := none } }
  if f < 32 then complete f q { kind := 0, status := r.1, tag := tag, result := slotResult e.slot, opcode := opProvStage } t else t

theorem norOperationDone_noStage {s : State} (hnone : s.prov.stage = none) : endsIn .norOperationDone s s := by
  show execNorOperationDone s = _
  unfold execNorOperationDone
  rw [hnone]
  rfl

theorem norOperationDone_noSec {s : State} (hsec : (s.proc agSec).state ≠ .running) : endsIn .norOperationDone s s := by
  show execNorOperationDone s = _
  unfold execNorOperationDone
  split
  · exact if_pos hsec
  · rfl

theorem norOperationDone_endsIn {s : State} (ha : awake s) (hsec : (s.proc agSec).state = .running) {stage f : Nat} {q : Option Nat}
    {tag : BitVec 32} {data : Bytes} {e : JEntry} (hstage : s.prov.stage = some (stage, f, q, tag, data)) (hforce : s.inForce = some e) :
    endsIn .norOperationDone s (stageEnded f q tag e (stageOutcome stage e data s)) := by
  refine endsIn_of_live ha ?_
  show execNorOperationDone s = _
  unfold execNorOperationDone
  rw [hstage, hforce]
  exact if_neg (not_not_intro hsec)

section Outcome

variable {e : JEntry} (data : Bytes) {s : State}

theorem verify_good (hgood : recordOk s.fuses false (s.slot e.slot) = true)
    (hnewer : (s.prov.record.map (·.seq)).getD 0 < rdBV 32 (s.slot e.slot) 8) :
    stageOutcome 1 e data s = (stOk, journal .verified e.slot e.xslot 0 s) :=
  if_pos (Bool.and_eq_true_iff.mpr ⟨hgood, decide_eq_true hnewer⟩)

theorem verify_bad (hbad : ¬ (recordOk s.fuses false (s.slot e.slot) = true ∧
      (s.prov.record.map (·.seq)).getD 0 < rdBV 32 (s.slot e.slot) 8)) :
    stageOutcome 1 e data s = (eSig, journal .invalid e.slot e.xslot 0 s) :=
  if_neg fun h => hbad ((Bool.and_eq_true_iff.mp h).imp_right of_decide_eq_true)

theorem activate_good (hgood : recordOk s.fuses false (s.slot e.slot) = true) :
    stageOutcome 2 e data s = (stOk, journal .trial e.slot e.xslot 0 s) := if_pos hgood

theorem activate_bad (hbad : ¬ recordOk s.fuses false (s.slot e.slot) = true) :
    stageOutcome 2 e data s = (eSig, journal .invalid e.slot e.xslot 0 s) := if_neg hbad

end Outcome

/-- Settles O21: PROV_STAGE check by check, then the end of the NOR operation by the stage it finishes. -/
theorem provisioningStages : Obligations.ProvisioningStages := by
  refine ⟨fun f src data c s t h => ⟨provStage_badField h, fun hstage hlen => ?_⟩,
    fun s => ⟨norOperationDone_noStage, norOperationDone_noSec, fun ha hsec stage f q tag data e hstage _ hforce => ?_⟩⟩
  · have hargs : stageArgsOk c := ⟨hstage, hlen⟩
    refine ⟨provStage_noSec h hargs, provStage_busy h hargs, fun hsec hnone hupd hnor => ?_⟩
    have hidle : stageIdle t := ⟨hnone, hupd, hnor⟩
    exact ⟨provStage_noEntry h hargs hsec hidle, fun e hforce =>
      ⟨provStage_refused h hargs hsec hidle hforce, provStage_begins h hargs hsec hidle hforce⟩⟩
  · have hend := norOperationDone_endsIn ha hsec hstage hforce
    refine ⟨?_, ?_, ?_, ?_, ?_, ?_⟩
    · rintro rfl
      exact hend
    · rintro rfl ⟨hgood, hnewer⟩
      rwa [verify_good data hgood hnewer] at hend
    · rintro rfl hbad
      rwa [verify_bad data hbad] at hend
    · rintro rfl hgood
      rwa [activate_good data hgood] at hend
    · rintro rfl hbad
      rwa [activate_bad data hbad] at hend
    · rintro rfl
      exact hend

end Sys2Proof.Proofs
end

section
/-! PROOFS of the statement on link keys: the exchange on a port that has none in force, and rekeying on one that has (R119, R120,
R352). -/

namespace Sys2Proof.Proofs

open Sys2Proof.Machine Sys2Proof.Safety Sys2Proof.Laws

/-! ## The exchange (R119, R352) -/

/-- The partner's proof satisfies SEC (R119): its chain is whole and ends at the root, its SVN is at or above the floor, and the
signature is good. -/
def proofGood (x : Port) (sig : Bytes) (s : State) : Prop :=
  x.certsDone = true ∧ x.partnerPub.isSome = true ∧ (∃ v, Config.chainSvn x.certs.flatten = some v ∧ s.fwFloor ≤ v) ∧
    Config.verify (Config.chainKey x.certs.flatten)
      (x.partnerPub.getD [] ++ Config.ephPub x.ephNo ++ toLe 8 x.partnerNonce.toNat ++ toLe 8 x.nonce.toNat) (fit 96 sig) = true

/-- The port of a partner that SEC accepts: both directions have their key (R352). -/
def acceptPartner (x y : Port) : Port :=
  { y with
    accept := true, partnerId := Config.chainPart x.certs.flatten,
    keyTx := Config.hkdf (Config.ecdh x.ephNo (x.partnerPub.getD [])) (linkInfo x.nonce x.partnerNonce),
    keyRx := Config.hkdf (Config.ecdh x.ephNo (x.partnerPub.getD [])) (linkInfo x.partnerNonce x.nonce) }

/-- What SEC's judgement of a proof comes to. -/
theorem judgeProof_cases (p : Nat) (sig : Bytes) (s : State) :
    (proofGood (s.port p) sig s →
      judgeProof p sig s = keysInForce p (sendLink p 6 (toLe 4 0) (updPort p (acceptPartner (s.port p)) s))) ∧
    (¬ proofGood (s.port p) sig s →
      judgeProof p sig s =
        portEvent p (s.port p).mode 4 (bumpPart cLinkAuthFail (updPort p (fun y => { y with rejected := true }) s))) := by
  unfold judgeProof
  extract_lets x chain own pub svnOk good secret
  have hsvn : svnOk = true ↔ ∃ v, Config.chainSvn chain = some v ∧ s.fwFloor ≤ v := by
    simp only [svnOk]
    cases Config.chainSvn chain with
    | none => simp
    | some v => simp
  have hgood : good = true ↔ proofGood x sig s := by
    simp only [good, Bool.and_eq_true, hsvn, and_assoc]
    rfl
  exact ⟨fun h => if_pos (hgood.mpr h), fun h => if_neg (h ∘ hgood.mp)⟩

section Exchange

variable {p : PortId} {s : State} (ha : awake s) (hex : s.exchanges p.val = true)
include ha hex

theorem keyCert_endsIn {frag frags : Nat} {data : Bytes} (hfrag : frag < frags) (hfrags : frags ≤ 16) (hne : data ≠ [])
    (hlen : data.length ≤ 984) (hnext : frag = (s.port p.val).certs.length) (hopen : (s.port p.val).certsDone = false) :
    endsIn (.keyCert p frag frags data) s
      (updPort p.val (fun x => { x with certs := x.certs ++ [data], certsDone := frag + 1 == frags }) s) := by
  have hform : ¬ (frags = 0 ∨ 16 < frags ∨ frags ≤ frag ∨ data = [] ∨ 984 < data.length) := by
    simp only [hne, false_or]
    omega
  exact endsIn_of_live ha (congrArg (live s) ((if_neg hform).trans (if_neg (by simp [hex, hopen, hnext]))))

theorem keyShare_endsIn (pub : Bytes) (hnone : (s.port p.val).partnerPub = none) : endsIn (.keyShare p pub) s
    (sendProof p.val (updPort p.val (fun x => { x with partnerPub := some (fit 97 pub) }) s)) :=
  endsIn_of_live ha (congrArg (live s) (if_neg (by simp [hex, hnone])))

theorem keyDone_endsIn : endsIn (.keyDone p 0) s (keysInForce p.val (updPort p.val (fun x => { x with doneSeen := true }) s)) :=
  endsIn_of_live ha (congrArg (live s) (if_neg (by simp [hex])))

section Proof

variable (sig : Bytes) (hacc : (s.port p.val).accept = false) (hrej : (s.port p.val).rejected = false)
  (heph : (s.port p.val).ephNo ≠ 0)
include hacc hrej heph

/-- A proof that the port still needs: SEC judges it, or it waits until SEC runs (R102). -/
theorem keyProof_endsIn : endsIn (.keyProof p sig) s
    (if !s.secRuns then updPort p.val (fun x => { x with proofIn := some sig }) s else judgeProof p.val sig s) :=
  endsIn_of_live ha (congrArg (live s) (if_neg (by simp [hex, hacc, hrej, heph])))

theorem keyProof_judged (hsec : s.secRuns = true) : endsIn (.keyProof p sig) s (judgeProof p.val sig s) := by
  have hend := keyProof_endsIn ha hex sig hacc hrej heph
  rwa [if_neg (by simp [hsec])] at hend

theorem keyProof_waits (hsec : s.secRuns = false) :
    endsIn (.keyProof p sig) s (updPort p.val (fun x => { x with proofIn := some sig }) s) := by
  have hend := keyProof_endsIn ha hex sig hacc hrej heph
  rwa [if_pos (by simp [hsec])] at hend

end Proof

end Exchange

/-! ## Rekeying (R120, R352) -/

theorem rekey_otherPhase {p : PortId} {s : State} (ha : awake s) {phase : BitVec 32} (hne : phase ≠ (s.port p.val).phaseRx + 1) :
    endsIn (.rekey p phase) s s :=
  endsIn_of_live ha (congrArg (live s) (if_pos (Bool.or_eq_true_iff.mpr (.inr (bne_iff_ne.mpr hne)))))

section Rekey

variable {p : PortId} {s : State} (ha : awake s) (hup : (s.port p.val).st = .up)
include ha hup

theorem rekeyAck_endsIn (hrekey : (s.port p.val).rekeying = true) : endsIn (.rekeyAck p ((s.port p.val).phaseTx + 1)) s
    (updPort p.val (fun y => { y with
      rekeying := false, keyTx := nextKey y.keyTx ((s.port p.val).phaseTx + 1), phaseTx := (s.port p.val).phaseTx + 1,
      framesTx := 0, wrapsTx := 0 }) s) :=
  endsIn_of_live ha (congrArg (live s) (if_neg (by simp [hup, hrekey])))

section Keyed

variable (hkeyed : (s.port p.val).keyed = true)
include hkeyed

theorem rekeyDue_endsIn (hidle : (s.port p.val).rekeying = false) (hsec : s.secRuns = true) : endsIn (.rekeyDue p) s
    (sendLink p.val 7 (toLe 4 ((s.port p.val).phaseTx + 1).toNat) (updPort p.val (fun x => { x with rekeying := true }) s)) :=
  endsIn_of_live ha (if_neg (by simp [hup, hkeyed, hidle, hsec]))

theorem rekey_nextPhase : endsIn (.rekey p ((s.port p.val).phaseRx + 1)) s
    (sendLink p.val 8 (toLe 4 ((s.port p.val).phaseRx + 1).toNat) (updPort p.val (fun y => { y with
      keyRxOld := some y.keyRx, keyRx := nextKey y.keyRx ((s.port p.val).phaseRx + 1), phaseRx := (s.port p.val).phaseRx + 1 }) s)) :=
  endsIn_of_live ha (congrArg (live s) (if_neg (by simp [hup, hkeyed])))

end Keyed

end Rekey

/-- Settles O24: the messages of the exchange, the proof by whether SEC runs and what it finds, then rekeying. -/
theorem linkKeyExchange : Obligations.LinkKeyExchange := by
  refine ⟨fun p s ha hex => ⟨fun _ _ _ hfrag hfrags hne hlen hnext hopen => keyCert_endsIn ha hex hfrag hfrags hne hlen hnext hopen,
    fun pub hnone => keyShare_endsIn ha hex pub hnone, fun sig hacc hrej heph hsec => ?_,
    fun sig hacc hrej heph hsec => keyProof_waits ha hex sig hacc hrej heph hsec, keyDone_endsIn ha hex⟩,
    fun p s ha hup hkeyed => ⟨rekeyDue_endsIn ha hup hkeyed, rekey_nextPhase ha hup hkeyed, rekeyAck_endsIn ha hup,
      fun _ hne => rekey_otherPhase ha hne⟩⟩
  have hjudged := keyProof_judged ha hex sig hacc hrej heph hsec
  obtain ⟨haccepts, hrejects⟩ := judgeProof_cases p.val sig s
  exact ⟨fun hgood => haccepts hgood ▸ hjudged, fun hbad => hrejects hbad ▸ hjudged⟩

end Sys2Proof.Proofs
end

section
/-! PROOFS of the statement on keys, models and adapters: KEY_LOAD, the loads, what is unloaded, and MODEL_QUERY (R114 to R117, R262,
R263, R269, R270, R275, R278, R280). -/

namespace Sys2Proof.Proofs

open Sys2Proof.Machine Sys2Proof.Safety Sys2Proof.Laws

/-! ## Commands that are taken -/

/-- The fetch of an entry leaves the processors. -/
theorem fetched_procs (f q : Nat) (s : State) : (fetched f q s).procs = s.procs := by
  have hframe := congrArg State.procs (fetched_frame f q s)
  exact hframe

/-- Taking a command leaves the processors. -/
theorem taken_procs {f op : Nat} {src : Src} {fields : List (Nat × Nat)} {noHandle : Bool} {s t : State} {c : Cmd}
    (h : taken f op src fields noHandle s = some (c, t)) : t.procs = s.procs := by
  cases src with
  | ring q e =>
    simp only [taken, Option.ite_none_right_eq_some, Option.some.injEq, Prod.mk.injEq] at h
    obtain ⟨-, -, rfl⟩ := h
    exact fetched_procs f q.val s
  | direct =>
    simp only [taken, Option.ite_none_right_eq_some, Option.some.injEq, Prod.mk.injEq] at h
    obtain ⟨-, -, rfl⟩ := h
    rfl
  | alien q e op' => simp [taken] at h

/-- A command that needs HBM runs where a stack is usable and none is lost (R75, R205). -/
theorem needsHbm_run {c : Cmd} {run : State → State} {s : State} (hlost : s.hbmLost = false) (hnone : s.hbmNone = false) :
    c.needsHbm run s = run s := (if_neg (by simp [hlost])).trans (if_neg (by simp [hnone]))

section Taken

variable {f : Fn} {src : Src} {s t : State} {c : Cmd}

/-! ## KEY_LOAD (R114 to R116) -/

/-- What KEY_LOAD makes of a blob by what its opening gives. -/
def keyLoadEnd (f : Fn) (c : Cmd) (b : Bytes) (t : State) : Option (BitVec 256) → State
  | none => c.end eSig t
  | some k =>
    if 256 ≤ t.sec.keys.length ∨ 16 ≤ (t.sec.keys.filter (fun e => e.2.owner.fn == f.val)).length then c.end eBusy t
    else
      let i := issue f.val kKey (Tab.keys t.sec.keys) t
      c.answer stOk i.1 0 { i.2 with sec := { i.2.sec with keys := Tab.put i.2.sec.keys i.1 {
        use := rd b 6 1, fnByte := rd b 7 1, kwkId := rdBV 64 b 8, modelId := rdBV 128 b 0x10, key := k,
        owner := t.tagOf agSec f.val } } }

theorem keyLoad_endsIn {blob : Bytes} (h : taken f.val opKeyLoad src [(0x10, 8), (0x18, 4)] true s = some (c, t))
    (hlen : 64 ≤ c.arg 0x18 4 ∧ c.arg 0x18 4 ≤ 4096) (hsec : (t.proc agSec).state = .running) :
    endsIn (.keyLoad f src blob) s
      (keyLoadEnd f c (fit (c.arg 0x18 4) blob) t (unwrap f.val (fit (c.arg 0x18 4) blob) t)) := by
  have hproc : (s.proc agSec).state = .running := by
    rw [← hsec, State.proc, State.proc, taken_procs h]
  have htakes : ¬ (!t.secTakes) = true := by simp [State.secTakes, hsec]
  show execKeyLoad f src blob s = _
  unfold execKeyLoad
  refine (if_neg (by simp [hproc])).trans (command_endsIn h ((if_neg (by omega)).trans ((if_neg htakes).trans ?_)))
  extract_lets b
  cases unwrap f.val b t <;> rfl

/-! ## Loads begin (R117, R262, R263, R275) -/

theorem modelLoad_endsIn {header : Bytes}
    (h : taken f.val opModelLoad src [(0x10, 8), (0x18, 8), (0x20, 1), (0x21, 1), (0x22, 2)] false s = some (c, t))
    (hlive : handleIs t f.val kKey c.e.handle.toNat (Tab.has t.sec.keys c.e.handle.toNat) = .live)
    (hargs : c.arg 0x20 1 ≤ 1 ∧ c.arg 0x21 1 ≤ 1 ∧ c.arg 0x22 2 ≤ c.arg 0x21 1) (hpf : f.val = 0 ∨ c.arg 0x21 1 = 0)
    (hlost : t.hbmLost = false) (hnone : t.hbmNone = false) (hsec : t.secTakes = true) :
    endsIn (.modelLoad f src header) s (if 4 ≤ t.serve.loads.length then c.end eBusy t else
      beginLoad c .model c.e.handle.toNat 0 header (c.arg 0x10 8) (c.arg 0x18 8) (c.arg 0x20 1 == 0) (c.arg 0x21 1 == 1)
        (c.arg 0x22 2 == 1) t) := by
  show execModelLoad f src header s = _
  unfold execModelLoad
  refine command_live_endsIn h rfl hlive ?_
  exact (if_neg (by omega)).trans ((if_neg (by omega)).trans ((if_neg (by omega)).trans
    ((needsHbm_run hlost hnone).trans (if_neg (by simp [hsec])))))

theorem adapterLoad_endsIn {header : Bytes} {cp : Copy}
    (h : taken f.val opAdapterLoad src [(0x10, 8), (0x18, 8), (0x20, 8)] false s = some (c, t))
    (hlive : handleIs t f.val kModel c.e.handle.toNat (t.modelLive c.e.handle.toNat) = .live)
    (hkey : handleIs t f.val kKey (c.arg 0x20 8) (Tab.has t.sec.keys (c.arg 0x20 8)) = .live)
    (hlost : t.hbmLost = false) (hnone : t.hbmNone = false) (hsec : t.secTakes = true)
    (hcopy : (Tab.find t.serve.models c.e.handle.toNat).bind (fun x => t.copy x.copy) = some cp)
    (hown : cp.share = false ∧ cp.spread = false)
    (hroom : t.adapterCount (fun _ => true) < 1024 ∧ t.adapterCount (· == f.val) < 64) :
    endsIn (.adapterLoad f src header) s (if 4 ≤ t.serve.loads.length then c.end eBusy t else
      beginLoad c (.adapter c.e.handle.toNat) (c.arg 0x20 8) 1 header (c.arg 0x10 8) (c.arg 0x18 8) false false false t) := by
  obtain ⟨hshare, hspread⟩ := hown
  show execAdapterLoad f src header s = _
  unfold execAdapterLoad
  refine command_live_endsIn h rfl hlive ?_
  exact (if_neg (not_not_intro hkey)).trans ((needsHbm_run hlost hnone).trans ((if_neg (by simp [hsec])).trans
    ((if_neg (by simp [hcopy, hshare, hspread])).trans (if_neg (by omega)))))

/-! ## Unloading (R69, R270, R280) -/

section ModelUnload

variable (h : taken f.val opModelUnload src [] false s = some (c, t))
  (hlive : handleIs t f.val kModel c.e.handle.toNat (Tab.has t.serve.models c.e.handle.toNat) = .live) {m : ModelH}
  (hm : Tab.find t.serve.models c.e.handle.toNat = some m)
include h hlive hm

theorem modelUnload_busy (hbusy : t.modelBusy c.e.handle.toNat m = true) : endsIn (.modelUnload f src) s (c.end eBusy t) := by
  show execModelUnload f src s = _
  unfold execModelUnload
  refine command_live_endsIn h rfl hlive ?_
  simp only [hm, hbusy, if_true]

variable (hfree : t.modelBusy c.e.handle.toNat m = false)
include hfree

/-- A handle whose release leaves a copy, or had none, is released. -/
theorem modelUnload_released
    (hkept : t.copy m.copy = none ∨ ((releaseModel c.e.handle.toNat true t).copy m.copy).isSome = true) :
    endsIn (.modelUnload f src) s (c.end stOk (releaseModel c.e.handle.toNat true t)) := by
  show execModelUnload f src s = _
  unfold execModelUnload
  refine command_live_endsIn h rfl hlive ?_
  simp only [hm, hfree, Bool.false_eq_true, if_false]
  split
  · next hx hnone => simp [hx, hnone] at hkept
  · rfl

/-- The release of a handle that ends its copy: the members of a Rod-wide load hear of it, and the pool's view changes. -/
theorem modelUnload_ends {x : Copy} (hx : t.copy m.copy = some x) (hnone : (releaseModel c.e.handle.toNat true t).copy m.copy = none) :
    endsIn (.modelUnload f src) s (c.end stOk (poolChanged (
      match x.rodId with
      | some id => sendLoadEnd f.val id.2 t.rodMembers false (releaseModel c.e.handle.toNat true t)
      | none => releaseModel c.e.handle.toNat true t))) := by
  show execModelUnload f src s = _
  unfold execModelUnload
  refine command_live_endsIn h rfl hlive ?_
  simp only [hm, hfree, hx, hnone, Bool.false_eq_true, if_false]
  cases x.rodId <;> rfl

end ModelUnload

theorem adapterUnload_endsIn (h : taken f.val opAdapterUnload src [] false s = some (c, t))
    (hlive : handleIs t f.val kAdapter c.e.handle.toNat (Tab.has t.serve.adapters c.e.handle.toNat) = .live) :
    endsIn (.adapterUnload f src) s (
      if t.serve.ctxs.any (fun e => e.2.home && e.2.adapter == c.e.handle.toNat && e.2.state != .ended) then c.end eBusy t
      else c.end stOk (dropAdapter c.e.handle.toNat t)) := by
  show execAdapterUnload f src s = _
  unfold execAdapterUnload
  exact command_live_endsIn h rfl hlive rfl

theorem modelQuery_endsIn (h : taken f.val opModelQuery src [(0x10, 8), (0x18, 4)] false s = some (c, t))
    (hlive : handleIs t f.val kModel c.e.handle.toNat (Tab.has t.serve.models c.e.handle.toNat) = .live) {m : ModelH}
    (hm : Tab.find t.serve.models c.e.handle.toNat = some m) (hroom : 64 ≤ c.arg 0x18 4) :
    endsIn (.modelQuery f src) s (c.answer stOk c.e.handle.toNat (result [(0, 4, 64)])
      (c.write (c.arg 0x10 8) (modelRecord f.val c.e.handle.toNat m t) t)) := by
  show execModelQuery f src s = _
  unfold execModelQuery
  refine command_live_endsIn h rfl hlive ?_
  simp only [hm, if_neg (Nat.not_lt.mpr hroom)]

end Taken

/-! ## A load's key (R114, R115, R262) -/

section BeginLoad

variable (c : Cmd) (kind : LoadKind) {key bit : Nat} {header : Bytes} (src : Nat) {len : Nat} (tier share spread : Bool)
  {k : KeyRec} {s : State}
  (hkey : Tab.find s.sec.keys key = some k) (hheader : allZero (slice (fit 64 header) 0x18 40) = true) (hlen : 64 + 17 ≤ len)
include hkey hheader hlen

/-- A load under a key that permits it joins the loads in progress and holds one of SCH's engines. -/
theorem beginLoad_permitted (hpermits : k.permits bit (rdBV 128 (fit 64 header) 0) = true) :
    ∃ l, beginLoad c kind key bit header src len tier share spread s =
      takeDma (s.freeDma.getD 0) (s.tagOf agSch c.f) (updServe (fun x => { x with loads := x.loads ++ [l] }) s) := by
  unfold beginLoad
  have hform : ¬ ((!allZero (slice (fit 64 header) 0x18 40)) = true ∨ len < 64 + 17) := by simp [hheader, hlen]
  simp only [if_neg hform, hkey, hpermits, Bool.not_true, Bool.false_eq_true, if_false]
  exact ⟨_, rfl⟩

/-- A load under a key that does not permit it ends E_SIG with reason 2. -/
theorem beginLoad_refused (hpermits : k.permits bit (rdBV 128 (fit 64 header) 0) = false) :
    beginLoad c kind key bit header src len tier share spread s = c.answer eSig 0 (loadResult 2 0 0) s := by
  unfold beginLoad
  have hform : ¬ ((!allZero (slice (fit 64 header) 0x18 40)) = true ∨ len < 64 + 17) := by simp [hheader, hlen]
  simp only [if_neg hform, hkey, hpermits, Bool.not_false, if_true]

end BeginLoad

/-- Settles O31: KEY_LOAD, the commands on models and adapters, and the key of a load. -/
theorem keysModelsAdapters : Obligations.KeysModelsAdapters := by
  refine ⟨fun f src blob s t c h hmin hmax hsec => ?_,
    fun f src header s t c => ⟨fun h hlive htier hshare hspread hpf hlost hnone hsec =>
      modelLoad_endsIn h hlive ⟨htier, hshare, hspread⟩ hpf hlost hnone hsec,
      fun h hlive hkey hlost hnone hsec cp hcopy hshare hspread hpart hfn =>
        adapterLoad_endsIn h hlive hkey hlost hnone hsec hcopy ⟨hshare, hspread⟩ ⟨hpart, hfn⟩,
      fun h hlive m hm => ⟨modelUnload_busy h hlive hm, modelUnload_released h hlive hm, fun x hfree hx hnone => ?_⟩,
      adapterUnload_endsIn, fun h hlive m hm hroom => modelQuery_endsIn h hlive hm hroom⟩,
    fun c kind key bit header src len tier share spread k s hkey hheader hlen => ⟨fun hpermits => ?_, fun hpermits => ?_⟩⟩
  · have hend := keyLoad_endsIn (blob := blob) h ⟨hmin, hmax⟩ hsec
    refine ⟨fun hopen => by rwa [hopen] at hend, fun k hopen hpart hfn => ?_⟩
    rwa [hopen, keyLoadEnd, if_neg (by omega)] at hend
  · have hends := modelUnload_ends h hlive hm hfree hx hnone
    exact ⟨fun hrod => by simpa only [hrod] using hends, fun id hrod => by simpa only [hrod] using hends⟩
  · obtain ⟨l, hl⟩ := beginLoad_permitted c kind src tier share spread hkey hheader hlen hpermits
    rw [hl]
    exact ⟨List.length_append, rfl, rfl, rfl⟩
  · rw [beginLoad_refused c kind src tier share spread hkey hheader hlen hpermits]
    have hreports := answer_reports c eSig 0 (loadResult 2 0 0) s
    exact ⟨hreports.serve, hreports⟩

end Sys2Proof.Proofs
end

section
/-! PROOFS of the statement on the issue of the vector forms (R149 to R153, R160, R171): what an instruction at the front of its slot
leads to, and the results of the functions of R150. -/

namespace Sys2Proof.Proofs

open Sys2Proof.Machine Sys2Proof.Safety Sys2Proof.Laws

/-! ## Issue at the front of a slot (R139, R161) -/

/-- The state that the outcome of an issue leaves, where no bank cycle is withheld. -/
def issueEnd (k : CoreId) (slot : SlotKind) (q : Queued) (s : State) : Issue → State
  | .waits => s
  | .retires v => finishInstr k.val q.instr (tileViol k.val v (popIssued k.val slot q s))
  | .instant t => finishInstr k.val q.instr (popIssued k.val slot q t)
  | .goes t writes descs groups => goesOn k.val slot q writes descs groups s t

section Front

variable {k : CoreId} {slot : SlotKind} {q : Queued} {s : State} {i : Instr} {want : TileOp → Bool} {run : Queued → State → Issue}

/-- The instruction that is wanted, at the front of its slot, has the outcome of its own conditions. -/
theorem issueFront_eq (h : atFront k slot q s) (hwant : want q.instr.op = true) :
    issueFront k slot want run s = .next { issueEnd k slot q s (run q s) with pending := s.pending } := by
  obtain ⟨ha, hruns, hqueue, hstarved, hevent⟩ := h
  obtain ⟨l, hl⟩ : ∃ l, (s.core k.val).queue slot = q :: l := ⟨_, hqueue⟩
  have hgo : ¬ (!s.coreRuns k.val || !want q.instr.op ||
      (q.instr.wt && Tab.get 0 (s.core k.val).ev q.instr.wev.toNat == 0)) = true := by
    cases hwt : q.instr.wt with
    | false => simp [hruns, hwant]
    | true => simp [hruns, hwant, Nat.ne_of_gt (hevent hwt)]
  unfold issueFront
  simp only [hl, if_neg hgo]
  cases run q s with
  | waits => rfl
  | retires v => exact live_awake ha _
  | instant t => exact live_awake ha _
  | goes t writes descs groups =>
    have hbanks : ¬ (groups.any fun l => l.any fun u => (s.core k.val).starved.contains (bankOf u)) = true := by
      simp [hstarved]
    exact (if_neg hbanks).trans (live_awake ha _)

theorem endsIn_of_issueFront (h : atFront k slot q s) (hexec : exec i s = issueFront k slot want run s)
    (hwant : want q.instr.op = true) {r : Issue} (hrun : run q s = r) : endsIn i s (issueEnd k slot q s r) := by
  rw [← hrun]
  exact hexec.trans (issueFront_eq h hwant)

end Front

/-! ## The functions of R150 -/

/-- A result is the FP32 value nearest to v, or lies at most n ulp from it. -/
def nearTo (n : Nat) (r : BitVec 32) (v : Machine.Num) : Prop :=
  r = (code32 false v).1 ∨ ∃ s m e, v = .fin s m e ∧ m ≠ 0 ∧ (code32 false v).2 = false ∧ withinUlp n s m e (num32 r) = true

theorem nearResult_near (n err : Nat) (v : Machine.Num) : nearTo n (nearResult n err v) v := by
  unfold nearResult
  extract_lets best
  cases v with
  | nan => exact .inl rfl
  | inf s => exact .inl rfl
  | fin s m e =>
    dsimp only
    split
    next h =>
      obtain ⟨hm, hover, hwithin⟩ := h
      exact .inr ⟨s, m, e, rfl, hm, by simpa using hover, hwithin⟩
    next => exact .inl rfl

/-- What overflows is given as the infinity of its sign. -/
theorem code32_of_overflow {m : Nat} {e : Int} (h : (code32 false (.fin false m e)).2 = true) :
    (code32 false (.fin false m e)).1 = 0x7F800000#32 := by
  simp only [code32, FloatFmt.encode] at h ⊢
  split at h
  next hover => simp only [if_pos hover]; rfl
  next => cases h

theorem nearResult_of_overflow {n err : Nat} {v : Machine.Num} (h : (code32 false v).2 = true) :
    nearResult n err v = (code32 false v).1 := by
  unfold nearResult
  cases v with
  | nan | inf => rfl
  | fin s m e => exact if_neg (by simp [h])

/-- The exponential is no negative value. -/
theorem expNum_positive (s : Bool) (m : Nat) (e : Int) : ∃ n f, expNum s m e = .fin false n f := by
  unfold expNum
  split
  · exact ⟨_, _, rfl⟩
  · exact ⟨_, _, rfl⟩

section Functions

variable {a : BitVec 32} {s : Bool} {m : Nat} {e : Int} (h : num32 a = .fin s m e)
include h

theorem expOf_fin : expOf a = nearResult 2 (Config.vecError 0 a) (expNum s m e) := by
  unfold expOf expAt expNear
  rw [h]

theorem expOf_near : nearTo 2 (expOf a) (expNum s m e) := expOf_fin h ▸ nearResult_near ..

theorem expOf_of_overflow (hover : (code32 false (expNum s m e)).2 = true) : expOf a = 0x7F800000#32 := by
  rw [expOf_fin h, nearResult_of_overflow hover]
  obtain ⟨n, f, hexp⟩ := expNum_positive s m e
  rw [hexp] at hover ⊢
  exact code32_of_overflow hover

theorem rcpOf_near (hm : m ≠ 0) : nearTo 1 (rcpOf a) (rcpNum s m e) := by
  unfold rcpOf
  rw [h]
  simpa only [if_neg hm] using nearResult_near ..

theorem rsqOf_nonzero (hm : m ≠ 0) : if s then rsqOf a = nan32 else nearTo 1 (rsqOf a) (rsqNum m e) := by
  unfold rsqOf
  rw [h]
  cases s with
  | true => simp [hm]
  | false => simpa [hm] using nearResult_near ..

theorem sinOf_near (quarter : Nat) : nearTo 2 (sinOf quarter a) (sinNum quarter s m e) := by
  unfold sinOf
  rw [h]
  exact nearResult_near ..

end Functions

/-! ## Issue of a vector form (R139, R160, R178) -/

/-- A vector form issues by its form, where its operands stand, and what is in flight: the clauses of the statement for one row of its
table. -/
def vecIssuesAs (k : CoreId) (q : Queued) (x : VecFields) (s : State)
    (e : Instr × VecOp × Rows × Rows × Bool × List Write × BitVec 5) : Prop :=
  let c := s.core k.val
  let retires := fun (i : Instr) (v : Nat) => endsIn i s (finishInstr k.val q.instr (tileViol k.val v (popIssued k.val .vec q s)))
  let cycles := fun (rows : Rows) => (List.range x.count).map (fun j =>
    slateUnits ((rows.filter (fun e => min e.2 (x.count - 1) == j)).map (fun e => (e.1.locs e.2).getD [])).flatten)
  let (i, op, srcs, dsts, form, writes, flags) := e
  let state := OpState.all (srcs.map (fun e => c.source e.1 e.2) ++ dsts.map (fun e => c.dest e.1 e.2))
  let waits := c.hazard (op.scalars x ++ ((srcs ++ dsts).map (fun e => (e.1.locs e.2).getD [])).flatten)
  q.instr.op = .vec op x →
  (form = false → retires i cViolTileField) ∧ (form = true → state = .field → retires i cViolTileField) ∧
  (form = true → state = .bounds → retires i cViolTileBounds) ∧
  (form = true → state = .waits ∨ state = .ready ∧ waits = true → endsIn i s s) ∧
  (form = true → state = .ready → waits = false → endsIn i s (goesOn k.val .vec q
    (writes ++ (if flags = 0 then [] else [.flag flags]) ++ presenceOf writes) 0 (cycles (srcs ++ dsts)) s s))

section VecIssue

variable {k : CoreId} {q : Queued} {s : State} (h : atFront k .vec q s) (x : VecFields) {i : Instr} {op : VecOp}
include h

theorem vecIssue_issues {srcs dsts : VecFields → Queued → Rows} {formOk : VecFields → Queued → Bool}
    {compute : Core → VecFields → Queued → List Write × BitVec 5} (hexec : exec i s = vecIssue k op srcs dsts formOk compute s) :
    vecIssuesAs k q x s (i, op, srcs x q, dsts x q, formOk x q, compute (s.core k.val) x q) := by
  intro hop
  have hend {r : Issue} := endsIn_of_issueFront (r := r) h hexec (by simp [hop])
  refine ⟨fun hform => hend (r := .retires cViolTileField) ?_, fun hform hstate => hend (r := .retires cViolTileField) ?_,
    fun hform hstate => hend (r := .retires cViolTileBounds) ?_, fun hform hwaits => hend (r := .waits) ?_,
    fun hform hstate hfree => hend (r := .goes _ _ _ _) ?_⟩
  · simp [hop, hform]
  · simp only [hop, hform, hstate]; rfl
  · simp only [hop, hform, hstate]; rfl
  · rcases hwaits with hstate | ⟨hstate, hhazard⟩
    · simp only [hop, hform, hstate]; rfl
    · simp only [hop, hform, hstate, hhazard]; rfl
  · simp only [hop, hform, hstate, hfree]
    rfl

/-- An elementwise operation. -/
theorem vecElem_issues {n : Nat} {f : VecFields → BitVec 32 → BitVec 32 → BitVec 32 → BitVec 32 × Bool}
    (hexec : exec i s = vecElem k op n f s) :
    vecIssuesAs k q x s (i, op, elemSrcs n x q, elemDsts x q, elemForm n x q, elemCompute n f (s.core k.val) x q) :=
  vecIssue_issues h x hexec

end VecIssue

/-- The exponential and the reciprocals where R150 gives the result itself. -/
theorem functions_special : expOf 0xFF800000#32 = 0 ∧ rcpOf 0#32 = 0x7F800000#32 ∧ rcpOf 0x80000000#32 = 0xFF800000#32 ∧
    rsqOf 0#32 = 0x7F800000#32 := ⟨rfl, rfl, rfl, rfl⟩

/-- Settles O50: the functions of R150, then the vector forms, each by the operands and results of its own row. -/
theorem vectorIssue : Obligations.VectorIssue := by
  obtain ⟨hexp, hrcp, hrcpNeg, hrsq⟩ := functions_special
  refine ⟨⟨hexp, hrcp, hrcpNeg, hrsq, fun a s m e h => ⟨expOf_of_overflow h, expOf_near h, rcpOf_near h, rsqOf_nonzero h,
    sinOf_near h 0, sinOf_near h 1⟩⟩, fun k q x s h => ?_⟩
  intro c retires cycles elem
  change ∀ e ∈ _, vecIssuesAs k q x s e
  simp only [List.forall_mem_append, List.forall_mem_cons]
  have elementwise {i op n f} (hexec : exec i s = vecElem k op n f s) := vecElem_issues h x hexec
  exact ⟨⟨elementwise rfl, elementwise rfl, elementwise rfl, elementwise rfl, elementwise rfl, elementwise rfl, elementwise rfl,
    elementwise rfl, elementwise rfl, elementwise rfl, elementwise rfl, List.forall_mem_nil _⟩,
    elementwise rfl, elementwise rfl, (vecIssue_issues h x (i := .vcvt k) rfl :), (vecIssue_issues h x (i := .vmaxr k) rfl :),
    (vecIssue_issues h x (i := .vexps k) rfl :), (vecIssue_issues h x (i := .vresc k) rfl :),
    (vecIssue_issues h x (i := .vtopk k) rfl :), (vecIssue_issues h x (i := .vrot k) rfl :), List.forall_mem_nil _⟩

end Sys2Proof.Proofs
end

section
/-! PROOFS of the statement on the instructions of the Span, of transfers and of counters, and on those of the vector slot that touch
planes, scalars and flags (R134, R135, R137, R142, R147, R171, R173, R174, R208, R209). -/

namespace Sys2Proof.Proofs

open Sys2Proof.Machine Sys2Proof.Safety Sys2Proof.Laws

/-! ## What an issue does to its core (R161, R187) -/

/-- From c to d at most the queues, the events and what has issued differ. -/
def sameButIssue (c d : Core) : Prop :=
  { d with ev := c.ev, qs := c.qs, qv := c.qv, qx := c.qx, inflight := c.inflight, nextId := c.nextId } = c

section SameButIssue

variable {c d : Core} (h : sameButIssue c d)
include h

theorem sameButIssue.keeps {α : Type} (g : Core → α) :
    g { d with ev := c.ev, qs := c.qs, qv := c.qv, qx := c.qx, inflight := c.inflight, nextId := c.nextId } = g c := congrArg g h

theorem sameButIssue.setRow (n r : Nat) : d.setRow n r = c.setRow n r := h.keeps fun e => e.setRow n r
theorem sameButIssue.setSide (n r : Nat) : d.setSide n r = c.setSide n r := h.keeps fun e => e.setSide n r
theorem sameButIssue.hasB (b n : Nat) : d.hasB b n = c.hasB b n := h.keeps fun e => e.hasB b n
theorem sameButIssue.planeSt (p : Nat) : d.planeSt p = c.planeSt p := h.keeps fun e => e.planeSt p
theorem sameButIssue.isInt (p : Nat) : d.isInt p = c.isInt p := h.keeps fun e => e.isInt p
theorem sameButIssue.plane : d.plane = c.plane := h.keeps fun e => e.plane
theorem sameButIssue.flags : d.flags = c.flags := h.keeps fun e => e.flags

end SameButIssue

theorem setQueue_sameButIssue (slot : SlotKind) (l : List Queued) (c : Core) : sameButIssue c (c.setQueue slot l) := by
  cases slot with
  | span | vec | xfer => rfl

theorem popIssued_sameButIssue (k : Nat) (slot : SlotKind) (q : Queued) (s : State) :
    sameButIssue (s.core k) ((popIssued k slot q s).core k) := by
  unfold popIssued
  rw [core_updCore_same]
  extract_lets d
  split
  · exact setQueue_sameButIssue slot _ _
  · exact setQueue_sameButIssue slot _ _

/-- What an issue adds to those in flight. -/
def issuedAs (q : Queued) (slot : SlotKind) (writes : List Write) (descs nextId : Nat) : InFlight :=
  { id := q.word + 16384 * nextId, slot := slot, st := q.instr.st, sev := q.instr.sev.toNat, writes := writes, descs := descs }

section GoesOn

variable (k : Nat) (slot : SlotKind) (q : Queued) (writes : List Write) (descs : Nat) (groups : List (List Nat)) (s t : State)

/-- An issue that goes on counts its conflicts, takes the instruction from its queue and adds it to what has issued, whatever state t its
own effect has left (`goesOn_eq` is the case of none). -/
theorem goesOn_counted : ∃ u, onlyCounted t u ∧ goesOn k slot q writes descs groups s t =
    updCore k (fun c => { c with inflight := c.inflight ++ [issuedAs q slot writes descs (s.core k).nextId], nextId := c.nextId + 1 })
      (popIssued k slot q u) := by
  unfold goesOn
  extract_lets n u
  refine ⟨u, ?_, rfl⟩
  unfold u
  split
  · rfl
  · split
    · rfl
    · rfl

/-- The core after an issue that goes on: its queue, what is in flight, and everything else as it was. -/
theorem core_goesOn :
    let d := (goesOn k slot q writes descs groups s t).core k
    d.queue slot = ((t.core k).queue slot).tail ∧
      d.inflight = (t.core k).inflight ++ [issuedAs q slot writes descs (s.core k).nextId] ∧ sameButIssue (t.core k) d := by
  intro d
  obtain ⟨u, hcounted, hgo⟩ := goesOn_counted k slot q writes descs groups s t
  have hd : d = _ := (congrArg (fun v : State => v.core k) hgo).trans (core_updCore_same ..)
  have hpop := core_popIssued k slot q u
  have hsame := popIssued_sameButIssue k slot q u
  rw [core_eq_of_cores hcounted.cores] at hpop hsame
  obtain ⟨hqueue, hcontents⟩ := hpop
  rw [hd]
  refine ⟨?_, ?_, hsame⟩
  · rw [← hqueue]
    cases slot with
    | span | vec | xfer => rfl
  · exact congrArg (· ++ _) hcontents.inflight

theorem goesOn_frame : { goesOn k slot q writes descs groups s t with cores := t.cores, cnt := t.cnt, fcnt := t.fcnt } = t := by
  obtain ⟨u, hcounted, hgo⟩ := goesOn_counted k slot q writes descs groups s t
  rw [hgo]
  exact congrArg (fun v : State => { v with cores := t.cores }) hcounted

/-- An issue without bank conflicts counts nothing. -/
theorem goesOn_frame_of_no_conflict (h : conflictCycles groups = 0) :
    { goesOn k slot q writes descs groups s t with cores := t.cores } = t := by
  unfold goesOn
  simp only [h, if_true]
  rfl

end GoesOn

section Completes

variable {k : Nat} {slot : SlotKind} {q : Queued} {writes : List Write} {descs : Nat} {groups : List (List Nat)} {s : State} {i : Instr}

/-- An issue that has changed the state to t and goes on completes with t, its own core after the issue. -/
theorem completes_of_goesOn {t : State} (h : endsIn i s (goesOn k slot q writes descs groups s t)) :
    completes i s (fun u => (u.core k).queue slot = ((t.core k).queue slot).tail ∧
      (u.core k).inflight = (t.core k).inflight ++ [issuedAs q slot writes descs (s.core k).nextId] ∧
      sameButIssue (t.core k) (u.core k) ∧
      { u with cores := t.cores, cnt := t.cnt, fcnt := t.fcnt } = { t with pending := s.pending } ∧
      (conflictCycles groups = 0 → { u with cores := t.cores } = { t with pending := s.pending })) := by
  have hcore := core_goesOn k slot q writes descs groups s t
  have hframe := goesOn_frame k slot q writes descs groups s t
  have hquiet := goesOn_frame_of_no_conflict k slot q writes descs groups s t
  dsimp only at hcore
  generalize goesOn k slot q writes descs groups s t = u at h hcore hframe hquiet
  obtain ⟨hqueue, hinflight, hsame⟩ := hcore
  exact completes_of_endsIn h ⟨hqueue, hinflight, hsame, congrArg (fun v : State => { v with pending := s.pending }) hframe,
    fun hgroups => congrArg (fun v : State => { v with pending := s.pending }) (hquiet hgroups)⟩

/-- An issue that changes its own core by g, without bank conflicts, completes with what g leaves. -/
theorem completes_of_goesOn_updCore (g : Core → Core) (h : endsIn i s (goesOn k slot q writes descs groups s (updCore k g s)))
    (hgroups : conflictCycles groups = 0) :
    completes i s (fun u => (u.core k).queue slot = ((g (s.core k)).queue slot).tail ∧ sameButIssue (g (s.core k)) (u.core k) ∧
      { u with cores := s.cores } = s) := by
  obtain ⟨u, hexec, hqueue, -, hsame, -, hframe⟩ := completes_of_goesOn h
  rw [core_updCore_same] at hqueue hsame
  exact ⟨u, hexec, hqueue, hsame, congrArg (fun v : State => { v with cores := s.cores }) (hframe hgroups)⟩

end Completes

/-! ## Pairs of formats (R136, R142) -/

theorem pairOk_iff (a b : Fmt) : pairOk a b = true ↔ (a = .int8 ∧ b = .int8) ∨ (a = .int4 ∧ b = .int4) ∨
    (a ∈ [Fmt.mxint8, .e4m3, .e5m2, .e3m2] ∧ b ∈ [Fmt.mxint8, .e4m3, .e5m2, .e3m2]) ∨ (a = .e2m1 ∧ b = .e2m1) ∨
    (a ∈ [Fmt.bf16, .fp16] ∧ b ∈ [Fmt.bf16, .fp16]) := by
  simp [pairOk, or_assoc]

/-- A 6-bit format is paired with 8-bit and 6-bit formats alone, whose geometry is the same. -/
theorem geometry_of_sixBit {a b : Fmt} (h : pairOk a b = true) (hsix : a.bits = 6 ∨ b.bits = 6) : geometry a = (64, 64) := by
  have hmx : ∀ f ∈ [Fmt.mxint8, .e4m3, .e5m2, .e3m2], geometry f = (64, 64) := by decide
  rcases (pairOk_iff a b).mp h with ⟨rfl, rfl⟩ | ⟨rfl, rfl⟩ | ⟨ha, -⟩ | ⟨rfl, rfl⟩ | ⟨ha, hb⟩
  · rfl
  · simp [Fmt.bits] at hsix
  · exact hmx a ha
  · simp [Fmt.bits] at hsix
  · have hbits : ∀ f ∈ [Fmt.bf16, .fp16], f.bits = 16 := by decide
    simp [hbits a ha, hbits b hb] at hsix

/-! ## NOP -/

theorem nop_endsIn {k : CoreId} {slot sl : SlotKind} {q : Queued} {s : State} (h : atFront k slot q s) (hop : q.instr.op = .nop sl) :
    endsIn (.nop k (some slot)) s (finishInstr k.val q.instr (popIssued k.val slot q s)) := by
  have hexec : exec (.nop k (some slot)) s =
      issueFront k slot (fun o => match o with | .nop _ => true | _ => false) (fun _ s => .instant s) s := rfl
  exact endsIn_of_issueFront h hexec (by simp only [hop]) (r := .instant s) rfl

/-! ## SPAN.LOADB (R134) -/

/-- The rows g 0 to g (n − 1) put from key b on. -/
def putRows {α : Type} (b n : Nat) (g : Nat → α) (t : Tab α) : Tab α :=
  (List.range n).foldl (fun t r => Tab.put t (b + r) (g r)) t

/-- Rows that have been put read back, each at its key. -/
theorem find_putRows {α : Type} (b : Nat) (g : Nat → α) (t : Tab α) {n r : Nat} (h : r < n) :
    Tab.find (putRows b n g t) (b + r) = some (g r) := by
  unfold putRows
  induction n with
  | zero => omega
  | succ n ih =>
    rw [List.range_succ, List.foldl_append]
    by_cases hr : r = n
    · subst hr
      exact find_put_same ..
    · exact (find_put_ne _ _ (by omega)).trans (ih (by omega))

/-- A core whose stationary set has taken a tile slot, which loses its presence where the load releases it. -/
def loadTile (release : Bool) (set buf slot : Nat) (c : Core) : Core :=
  { c with
    setRows := putRows (64 * set) 64 (fun r => c.bRow buf (64 * slot + r)) c.setRows,
    setScale := putRows (64 * set) 64 (fun r => c.bSide buf (64 * slot + r)) c.setScale,
    bPres := if release then setBit c.bPres (4 * buf + slot) false else c.bPres }

/-- A bit that is cleared reads as clear. -/
theorem getLsbD_setBit_false {w : Nat} (v : BitVec w) (k : Nat) : (setBit v k false).getLsbD k = false := by
  unfold setBit
  rw [if_neg Bool.false_ne_true, BitVec.getLsbD_and, BitVec.getLsbD_not, BitVec.getLsbD_ofNat, Nat.testBit_two_pow_self]
  simp

section LoadTile

variable (release : Bool) (set buf slot : Nat) (c : Core)

theorem qs_loadTile : (loadTile release set buf slot c).qs = c.qs := by simp only [loadTile]

theorem setRow_loadTile {r : Nat} (h : r < 64) : (loadTile release set buf slot c).setRow set r = c.bRow buf (64 * slot + r) := by
  simp only [Core.setRow, loadTile]
  rw [find_putRows _ _ _ h, Option.getD_some]

theorem setSide_loadTile {r : Nat} (h : r < 64) : (loadTile release set buf slot c).setSide set r = c.bSide buf (64 * slot + r) := by
  simp only [Core.setSide, loadTile]
  rw [find_putRows _ _ _ h, Option.getD_some]

theorem hasB_loadTile (h : c.hasB buf slot = true) : (loadTile release set buf slot c).hasB buf slot = !release := by
  unfold Core.hasB at h ⊢
  cases release with
  | false => simp [loadTile, h]
  | true => simp [loadTile, getLsbD_setBit_false]

end LoadTile

theorem spanLoadb_completes {k : CoreId} {q : Queued} {s : State} {rel st bf : Bool} {tl : BitVec 2} (h : atFront k .span q s)
    (hop : q.instr.op = .loadb rel st bf tl) (hpresent : (s.core k.val).hasB bf.toNat tl.toNat = true) :
    completes (.spanLoadb k) s (fun t =>
      (∀ r, r < 64 → (t.core k.val).setRow st.toNat r = (s.core k.val).bRow bf.toNat (64 * tl.toNat + r) ∧
        (t.core k.val).setSide st.toNat r = (s.core k.val).bSide bf.toNat (64 * tl.toNat + r)) ∧
      (t.core k.val).hasB bf.toNat tl.toNat = !rel ∧ (t.core k.val).qs = (s.core k.val).qs.tail ∧ { t with cores := s.cores } = s) := by
  obtain ⟨t, hexec, hqueue, hsame, hframe⟩ := completes_of_goesOn_updCore (loadTile rel st.toNat bf.toNat tl.toNat)
    (endsIn_of_issueFront (i := .spanLoadb k) h (.refl (execSpanLoadb k s)) (by simp only [hop])
      (r := .goes (updCore k.val _ s) [] 0 []) (by
        simp only [hop, hpresent, Bool.not_true, Bool.false_eq_true, if_false]
        cases rel with
        | false | true => simp only [Core.presB, Bool.false_eq_true, if_false, if_true]; rfl)) rfl
  refine ⟨t, hexec, fun r hr => ⟨?_, ?_⟩, ?_, ?_, hframe⟩
  · rw [hsame.setRow, setRow_loadTile _ _ _ _ _ hr]
  · rw [hsame.setSide, setSide_loadTile _ _ _ _ _ hr]
  · rw [hsame.hasB, hasB_loadTile _ _ _ _ _ hpresent]
  · simpa only [Core.queue, qs_loadTile] using hqueue

/-! ## SPAN.MM (R135, R137, R142) -/

theorem spanMm_badPair {k : CoreId} {q : Queued} {x : MmFields} {s : State} (h : atFront k .span q s) (hop : q.instr.op = .mm x)
    (hpair : pairOk x.fmtA x.fmtB = false) :
    endsIn (.spanMm k) s (finishInstr k.val q.instr (tileViol k.val cViolSpanFormat (popIssued k.val .span q s))) :=
  endsIn_of_issueFront (i := .spanMm k) h (.refl (execSpanMm k s)) (by simp only [hop]) (r := .retires cViolSpanFormat)
    (by simp only [hop, hpair]; rfl)

/-- A run of rows changes the accumulators and the flags alone. -/
theorem mmRun_frame (x : MmFields) (a : Nat) (c : Core) (n : Nat) :
    ∃ plane flags, c.mmRun x a n = { c with plane := plane, flags := flags } := by
  induction n with
  | zero => exact ⟨_, _, rfl⟩
  | succ n ih =>
    obtain ⟨plane, flags, hrun⟩ := ih
    unfold Core.mmRun
    rw [hrun]
    exact ⟨_, _, rfl⟩

/-- The segments of an A-side buffer that lose their presence. -/
def releaseSegs (buf : Nat) (segs : List Nat) (c : Core) : Core := segs.foldl (fun d g => d.presA buf g false) c

theorem releaseSegs_frame (buf : Nat) (segs : List Nat) (c : Core) : ∃ a, releaseSegs buf segs c = { c with aPres := a } := by
  unfold releaseSegs
  induction segs generalizing c with
  | nil => exact ⟨_, rfl⟩
  | cons g segs ih =>
    obtain ⟨a, hsegs⟩ := ih (c.presA buf g false)
    exact ⟨a, hsegs⟩

/-- A core whose plane has taken a run of rows: it accumulates values of the run's kind, and the segments that the run read lose their
presence where it releases them. -/
def mmIssued (x : MmFields) (addr : Nat) (segs : List Nat) (c : Core) : Core :=
  let p := x.p.toNat
  let d := (c.mmRun x addr (x.rowsM1.toNat + 1)).setPlane p .accumulating
  let d := if p = 0 then { d with int0 := x.fmtA.isInt } else { d with int1 := x.fmtA.isInt }
  if x.release then releaseSegs x.abuf.toNat segs d else d

theorem mmIssued_spec (x : MmFields) (addr : Nat) (segs : List Nat) (c : Core) :
    let d := mmIssued x addr segs c
    d.planeSt x.p.toNat = .accumulating ∧ d.isInt x.p.toNat = x.fmtA.isInt ∧ d.qs = c.qs ∧
      d.plane = (c.mmRun x addr (x.rowsM1.toNat + 1)).plane := by
  obtain ⟨plane, flags, hrun⟩ := mmRun_frame x addr c (x.rowsM1.toNat + 1)
  intro d
  obtain ⟨a, hd⟩ : ∃ a, d = { (if x.p.toNat = 0 then
      { (c.mmRun x addr (x.rowsM1.toNat + 1)).setPlane x.p.toNat .accumulating with int0 := x.fmtA.isInt } else
      { (c.mmRun x addr (x.rowsM1.toNat + 1)).setPlane x.p.toNat .accumulating with int1 := x.fmtA.isInt }) with aPres := a } := by
    unfold d mmIssued
    split
    · exact releaseSegs_frame ..
    · exact ⟨_, rfl⟩
  rw [hd, hrun]
  cases x.p with
  | false | true => exact ⟨rfl, rfl, rfl, rfl⟩

theorem spanMm_completes {k : CoreId} {q : Queued} {x : MmFields} {s : State} (h : atFront k .span q s) (hop : q.instr.op = .mm x)
    (hpair : pairOk x.fmtA x.fmtB = true) (hrows : q.addr + x.rowsM1.toNat + 1 ≤ 256) (hdest : x.d0.toNat + x.rowsM1.toNat + 1 ≤ 64)
    (hplane : (s.core k.val).planeSt x.p.toNat = .free ∨ (s.core k.val).planeSt x.p.toNat = .accumulating)
    (hlast : (s.core k.val).inflight.any (fun f => f.writes.contains (.planeTo x.p.toNat .full)) = false)
    (hpresent : ∀ g, g < 16 → (s.core k.val).hasA x.abuf.toNat g = true)
    (hfirst : x.first = true ∨ (s.core k.val).planeSt x.p.toNat = .accumulating) :
    completes (.spanMm k) s (fun t => (t.core k.val).planeSt x.p.toNat = .accumulating ∧
      (t.core k.val).isInt x.p.toNat = x.fmtA.isInt ∧ (t.core k.val).qs = (s.core k.val).qs.tail ∧
      (t.core k.val).plane = ((s.core k.val).mmRun x q.addr (x.rowsM1.toNat + 1)).plane ∧ { t with cores := s.cores } = s) := by
  let segs := (List.range 16).filter (fun g => decide (q.addr < 16 * g + 16 ∧ 16 * g < q.addr + (x.rowsM1.toNat + 1)))
  have hinside : ¬ (256 < q.addr + (x.rowsM1.toNat + 1) ∨ 64 < x.d0.toNat + (x.rowsM1.toNat + 1)) := by omega
  have haccepts : ¬ ((s.core k.val).planeSt x.p.toNat = .full ∨ (s.core k.val).planeSt x.p.toNat = .draining ∨
      (s.core k.val).inflight.any (fun f => f.writes.contains (.planeTo x.p.toNat .full)) = true) := by
    rcases hplane with hp | hp
    · rw [hp, hlast]; decide
    · rw [hp, hlast]; decide
  have hsegs : ¬ segs.any (fun g => !(s.core k.val).hasA x.abuf.toNat g) = true := by
    simp only [List.any_eq_true, Bool.not_eq_true', not_exists, not_and, Bool.not_eq_false]
    exact fun g hg => hpresent g (List.mem_range.mp (List.mem_filter.mp hg).1)
  have hbegins : ¬ ((!x.first) = true ∧ (s.core k.val).planeSt x.p.toNat = .free) := by
    rcases hfirst with hf | hp
    · simp [hf]
    · simp [hp]
  obtain ⟨t, hexec, hqueue, hsame, hframe⟩ := completes_of_goesOn_updCore (mmIssued x q.addr segs)
    (endsIn_of_issueFront (i := .spanMm k) h (.refl (execSpanMm k s)) (by simp only [hop])
      (r := .goes (updCore k.val _ s) (if x.last then [.planeTo x.p.toNat .full] else []) 0 []) (by
        simp only [hop, hpair]
        rw [if_neg (by simp), if_neg hinside, if_neg haccepts, if_neg hsegs, if_neg hbegins]
        rfl)) rfl
  obtain ⟨hst, hint, hqs, hrun⟩ := mmIssued_spec x q.addr segs (s.core k.val)
  refine ⟨t, hexec, ?_, ?_, ?_, ?_, hframe⟩
  · rw [hsame.planeSt, hst]
  · rw [hsame.isInt, hint]
  · simpa only [Core.queue, hqs] using hqueue
  · rw [hsame.plane, hrun]

/-! ## SPAN.DRAIN (R137, R147) -/

/-- A violation of a core's program is counted, and nothing else changes. -/
theorem tileViol_counted (k v : Nat) (s : State) : onlyCounted s (tileViol k v s) := by
  unfold tileViol
  split
  · rfl
  · rfl

theorem onlyCounted_ite {p : Prop} [Decidable p] {s t u : State} (ht : onlyCounted s t) (hu : onlyCounted s u) :
    onlyCounted s (if p then t else u) := by
  split
  · exact ht
  · exact hu

theorem planeSt_setPlane (c : Core) (p : Nat) (st : PlaneState) : (c.setPlane p st).planeSt p = st := by
  unfold Core.setPlane Core.planeSt
  split
  · rfl
  · rfl

theorem setPlane_keeps (c : Core) (p : Nat) (st : PlaneState) :
    (c.setPlane p st).qs = c.qs ∧ (c.setPlane p st).inflight = c.inflight := by
  unfold Core.setPlane
  split
  · exact ⟨rfl, rfl⟩
  · exact ⟨rfl, rfl⟩

section Drain

variable {k : CoreId} {q : Queued} {x : DrainFields} {s : State} (h : atFront k .span q s) (hop : q.instr.op = .drain x)
  (hlast : (s.core k.val).inflight.any (fun f => f.writes.contains (.planeTo x.p.toNat .full)) = false)
include h hop hlast

theorem spanDrain_notFull (hplane : (s.core k.val).planeSt x.p.toNat ≠ .full) :
    endsIn (.spanDrain k) s (finishInstr k.val q.instr (tileViol k.val cViolSpanPlane (popIssued k.val .span q s))) :=
  endsIn_of_issueFront (i := .spanDrain k) h (.refl (execSpanDrain k s)) (by simp only [hop]) (r := .retires cViolSpanPlane) (by
    simp only [hop]
    rw [if_neg (Bool.eq_false_iff.mp hlast), if_pos hplane])

theorem spanDrain_completes (hplane : (s.core k.val).planeSt x.p.toNat = .full) (hpitch : x.fmt.rowUnits ≤ x.pitch.toNat)
    (hform : drainOk ((s.core k.val).isInt x.p.toNat) x.fmt x.acc = true) :
    completes (.spanDrain k) s (fun t => (t.core k.val).planeSt x.p.toNat = .draining ∧ (t.core k.val).qs = (s.core k.val).qs.tail ∧
      (∃ f, (t.core k.val).inflight = (s.core k.val).inflight ++ [f] ∧
        f.writes = ((List.range 64).map ((s.core k.val).drainWrites x q.addr)).flatten ++ [.planeTo x.p.toNat .free]) ∧
      { t with cores := s.cores, cnt := s.cnt, fcnt := s.fcnt } = s) := by
  let drained := updCore k.val (fun c => c.setPlane x.p.toNat .draining) s
  let t := if (List.range 64).any (fun j => !(s.core k.val).drainInside x q.addr j) then tileViol k.val cViolTileBounds drained
    else drained
  have hform' : ¬ (x.pitch.toNat < x.fmt.rowUnits ∨ (!drainOk ((s.core k.val).isInt x.p.toNat) x.fmt x.acc) = true) := by
    rw [hform]
    simpa using hpitch
  have hcounted : onlyCounted drained t := onlyCounted_ite (tileViol_counted ..) rfl
  have hcore : t.core k.val = (s.core k.val).setPlane x.p.toNat .draining :=
    (core_eq_of_cores hcounted.cores k.val).trans (core_updCore_same ..)
  obtain ⟨u, hexec, hqueue, hinflight, hsame, hframe, -⟩ := completes_of_goesOn (endsIn_of_issueFront (i := .spanDrain k) h
    (.refl (execSpanDrain k s)) (by simp only [hop])
    (r := .goes t (((List.range 64).map ((s.core k.val).drainWrites x q.addr)).flatten ++ [.planeTo x.p.toNat .free]) 0 _) (by
      simp only [hop]
      rw [if_neg (Bool.eq_false_iff.mp hlast), if_neg (not_not_intro hplane), if_neg hform']))
  obtain ⟨hqs, hflight⟩ := setPlane_keeps (s.core k.val) x.p.toNat .draining
  rw [hcore] at hqueue hinflight hsame
  rw [hflight] at hinflight
  refine ⟨u, hexec, ?_, ?_, ⟨_, hinflight, rfl⟩, ?_⟩
  · rw [hsame.planeSt, planeSt_setPlane]
  · simpa only [Core.queue, hqs] using hqueue
  · exact (congrArg (fun v : State => { v with cores := s.cores, cnt := s.cnt, fcnt := s.fcnt }) hframe).trans
      (congrArg (fun v : State => { v with cores := s.cores, pending := s.pending }) hcounted)

end Drain

/-! ## Transfers (R173, R174) -/

theorem sld_goesOn {k : CoreId} {q : Queued} {x : SldFields} {s : State} (h : atFront k .xfer q s) (hop : q.instr.op = .sld x)
    (hside : x.sideB = true → x.rowsM1 = 63) (htr : x.tr = true → x.rowsM1 = 63)
    (hslots : x.sideB = false → x.dslot.toNat + x.rowsM1.toNat + 1 ≤ 256)
    (hinside : ∀ r, r ≤ x.rowsM1.toNat → q.addr + r * x.pitch.toNat < (s.core k.val).dataUnits) :
    ∃ groups, endsIn (.sld k) s (goesOn k.val .xfer q ((s.core k.val).sldWrites x q.addr) 0 groups s s) := by
  have hall (hrows : x.rowsM1 = 63) : x.rowsM1.toNat + 1 = 64 := by rw [hrows]; rfl
  have hform : ¬ ((x.sideB = true ∧ x.rowsM1.toNat + 1 ≠ 64) ∨ (x.tr = true ∧ x.rowsM1.toNat + 1 ≠ 64) ∨
      ((!x.sideB) = true ∧ 256 < x.dslot.toNat + (x.rowsM1.toNat + 1))) := by
    rintro (⟨hb, hn⟩ | ⟨hb, hn⟩ | ⟨hb, hn⟩)
    · exact hn (hall (hside hb))
    · exact hn (hall (htr hb))
    · have := hslots (by simpa using hb)
      omega
  have hunits : ¬ ((List.range (x.rowsM1.toNat + 1)).map (fun r => q.addr + r * x.pitch.toNat)).any
      (fun u => decide ((s.core k.val).dataUnits ≤ u)) = true := by
    simp only [List.any_map, List.any_eq_true, Function.comp_apply, decide_eq_true_eq, not_exists, not_and, Nat.not_le, List.mem_range]
    exact fun r hr => hinside r (by omega)
  exact ⟨_, endsIn_of_issueFront (i := .sld k) h (.refl (execSld k s)) (by simp only [hop])
    (r := .goes s ((s.core k.val).sldWrites x q.addr) 0 _) (by
      simp only [hop]
      rw [if_neg hform, if_neg hunits])⟩

theorem foldl_max_le {n a : Nat} {l : List Nat} (ha : a ≤ n) (hl : ∀ x ∈ l, x ≤ n) : l.foldl max a ≤ n := by
  induction l generalizing a with
  | nil => exact ha
  | cons x l ih =>
    obtain ⟨hx, hl⟩ := List.forall_mem_cons.mp hl
    exact ih (max_le ha hx) hl

/-- One unit at a time meets no bank conflict. -/
theorem conflictCycles_single (l : List Nat) : conflictCycles (l.map (fun u => [u])) = 0 := by
  have hone (u : Nat) : conflict [u] - 1 = 0 := by
    refine Nat.sub_eq_zero_of_le (foldl_max_le (Nat.zero_le 1) fun n hn => ?_)
    obtain ⟨b, -, rfl⟩ := List.mem_map.mp hn
    exact List.length_filter_le _ [u]
  unfold conflictCycles
  refine List.sum_eq_zero fun n hn => ?_
  simp only [List.map_map, List.mem_map] at hn
  obtain ⟨u, -, rfl⟩ := hn
  exact hone u

theorem queue_queueDescs (e : Nat) (l : List QDesc) (s : State) :
    (Tab.get {} (queueDescs e l s).engines e).queue = (Tab.get {} s.engines e).queue ++ l := by
  unfold queueDescs
  rw [get_upd_same]

theorem dmaGo_completes {k : CoreId} {q : Queued} {x : GoFields} {t : Task} {p : Place} {e : Nat} {s : State}
    (h : atFront k .xfer q s) (hop : q.instr.op = .dmaGo x) (htask : s.coreTask k.val = some t) (hplace : t.place = some p)
    (hengine : p.engine k.val x.engine.toNat = some e) (hinside : q.addr + x.countM1.toNat + 1 ≤ (s.core k.val).dataUnits)
    (hroom : (Tab.get {} s.engines e).queue.length + x.countM1.toNat + 1 ≤ 64) :
    let c := s.core k.val
    let eng := Tab.get {} s.engines e
    let sig := if x.sig then (p.counter x.counter.toNat).map (fun h => (h, s.counterTag t.fn h)) else none
    completes (.dmaGo k) s (fun u => (Tab.get {} u.engines e).queue = eng.queue ++
        (List.range (x.countM1.toNat + 1)).map (fun i => {
          core := k.val, go := q.word + 16384 * c.nextId, desc := c.unit (q.addr + i), sig := sig,
          tag := s.tagOf (agCcc (k.val / 8)) t.fn, grant := eng.grant }) ∧
      (u.core k.val).qx = c.qx.tail ∧ { u with cores := s.cores, engines := s.engines } = s) := by
  intro c eng sig
  let descs : List QDesc := ((List.range (x.countM1.toNat + 1)).map (q.addr + ·)).map (fun u => {
    core := k.val, go := q.word + 16384 * c.nextId, desc := c.unit u, sig := sig,
    tag := s.tagOf (agCcc (k.val / 8)) t.fn, grant := eng.grant })
  obtain ⟨u, hexec, hqueue, -, -, -, hframe⟩ := completes_of_goesOn (endsIn_of_issueFront (i := .dmaGo k) h
    (.refl (execDmaGo k s)) (by simp only [hop]) (r := .goes (queueDescs e descs s) [] (x.countM1.toNat + 1)
      (((List.range (x.countM1.toNat + 1)).map (q.addr + ·)).map (fun u => [u]))) (by
      simp only [hop, htask, hplace, Option.bind_some, hengine]
      rw [if_neg (by omega), if_neg (by omega)]))
  have hu := hframe (conflictCycles_single _)
  have hengines := congrArg State.engines hu
  change u.engines = _ at hengines
  refine ⟨u, hexec, ?_, hqueue, congrArg (fun v : State => { v with cores := s.cores, engines := s.engines }) hu⟩
  rw [hengines, queue_queueDescs]
  simp only [descs, List.map_map]
  rfl

/-! ## Counters (R208, R209) -/

section Counters

variable {k : CoreId} {q : Queued} {n : Nat} {s : State} (h : atFront k .xfer q s)
include h

theorem syncWait_endsIn {eq : Bool} {i : BitVec 12} {v : BitVec 32} (hop : q.instr.op = .syncWait eq i v)
    (hbound : s.boundCounter k.val i.toNat = some n) :
    let a := (Tab.get {} s.ctrs n).value
    endsIn (.syncWait k) s (if (if eq then a == v else decide (v.toNat ≤ a.toNat))
      then finishInstr k.val q.instr (popIssued k.val .xfer q s) else s) := by
  intro a
  have hend {r : Issue} := endsIn_of_issueFront (i := .syncWait k) (r := r) h (.refl (execSyncWait k s)) (by simp only [hop])
  simp only [hop, hbound] at hend
  by_cases hholds : (if eq then a == v else decide (v.toNat ≤ a.toNat)) = true
  · rw [if_pos hholds]
    exact hend (r := .instant s) (if_pos hholds)
  · rw [if_neg hholds]
    exact hend (r := .waits) (if_neg hholds)

theorem syncAdd_endsIn {i : BitVec 12} {v : BitVec 32} {t : Task} (hop : q.instr.op = .syncAdd i v)
    (hbound : s.boundCounter k.val i.toNat = some n) (htask : s.coreTask k.val = some t) :
    endsIn (.syncAdd k) s (finishInstr k.val q.instr (popIssued k.val .xfer q (addCounter (s.counterTag t.fn n) n v.toInt s))) :=
  endsIn_of_issueFront (i := .syncAdd k) h (.refl (execSyncAdd k s)) (by simp only [hop]) (r := .instant _)
    (by simp only [hop, hbound, htask])

end Counters

theorem raiseEvent_ctrs (k e : Nat) (s : State) : (raiseEvent k e s).ctrs = s.ctrs := by
  unfold raiseEvent
  split
  · have hcounted := congrArg State.ctrs (tileViol_counted k cViolTileEvent s)
    exact hcounted
  · rfl

theorem finishInstr_ctrs (k : Nat) (x : TileInstr) (s : State) : (finishInstr k x s).ctrs = s.ctrs := by
  unfold finishInstr
  split
  · exact raiseEvent_ctrs ..
  · rfl

/-- SYNC.TAS at the front of any core's transfer slot waits while the counter bound to it is not 0 (R209). -/
theorem syncTas_waits {k : CoreId} {q : Queued} {i : BitVec 12} {n : Nat} {s : State}
    (hqueue : (s.core k.val).queue .xfer = q :: ((s.core k.val).queue .xfer).tail) (hop : q.instr.op = .syncTas i)
    (hbound : s.boundCounter k.val i.toNat = some n) (hvalue : (Tab.get {} s.ctrs n).value ≠ 0) : endsIn (.syncTas k) s s := by
  obtain ⟨l, hl⟩ : ∃ l, (s.core k.val).queue .xfer = q :: l := ⟨_, hqueue⟩
  show execSyncTas k s = _
  unfold execSyncTas issueFront
  simp only [hl, hop, hbound]
  split
  · rfl
  · cases s.coreTask k.val with
    | none => rfl
    | some t => simp only [if_neg (fun hboth => hvalue (And.left hboth))]; rfl

section TestAndSet

variable {k : CoreId} {q : Queued} {i : BitVec 12} {n : Nat} {x : Task} {s : State} (h : atFront k .xfer q s)
  (hop : q.instr.op = .syncTas i) (hbound : s.boundCounter k.val i.toNat = some n) (htask : s.coreTask k.val = some x)
include h hop hbound htask

theorem syncTas_takes (htakes : (Tab.get {} s.ctrs n).value = 0 ∧ s.counterTakes (s.counterTag x.fn n) n = true) :
    completes (.syncTas k) s (fun t => (Tab.get {} t.ctrs n).value = 1 ∧
      ∀ j, j ≠ n → Tab.get {} t.ctrs j = Tab.get {} s.ctrs j) := by
  let one : State := { s with ctrs := Tab.upd {} s.ctrs n (fun c => { c with value := 1 }) }
  have hend := endsIn_of_issueFront (i := .syncTas k) h (.refl (execSyncTas k s)) (by simp only [hop]) (r := .instant one) (by
    simp only [hop, hbound, htask]
    exact if_pos htakes)
  have hctrs : (finishInstr k.val q.instr (popIssued k.val .xfer q one)).ctrs = one.ctrs := finishInstr_ctrs ..
  refine completes_of_endsIn hend ⟨?_, fun j hj => ?_⟩
  · change (Tab.get {} (finishInstr k.val q.instr (popIssued k.val .xfer q one)).ctrs n).value = 1
    rw [hctrs, get_upd_same]
  · change Tab.get {} (finishInstr k.val q.instr (popIssued k.val .xfer q one)).ctrs j = _
    rw [hctrs, get_upd_ne _ _ _ hj]

theorem syncTas_refused (htakes : ¬ ((Tab.get {} s.ctrs n).value = 0 ∧ s.counterTakes (s.counterTag x.fn n) n = true)) :
    endsIn (.syncTas k) s s :=
  endsIn_of_issueFront (i := .syncTas k) h (.refl (execSyncTas k s)) (by simp only [hop]) (r := .waits) (by
    simp only [hop, hbound, htask]
    exact if_neg htakes)

end TestAndSet

/-! ## Planes, scalars and flags (R137, R171) -/

/-- Bit b of the flags that a mask leaves. -/
theorem getLsbD_cleared (flags : BitVec 5) (mask : BitVec 8) {b : Nat} (hb : b < 5) :
    (flags &&& ~~~ BitVec.ofNat 5 (bits mask 0 5)).getLsbD b = (flags.getLsbD b && !mask.getLsbD b) := by
  rw [BitVec.getLsbD_and, BitVec.getLsbD_not, BitVec.getLsbD_ofNat, bits, Nat.testBit_mod_two_pow, Nat.testBit_shiftRight, Nat.zero_add,
    BitVec.testBit_toNat]
  simp [hb]

section VectorSlot

variable {k : CoreId} {q : Queued} {s : State} (h : atFront k .vec q s)
include h

theorem vrel_goesOn {x : VecFields} (hop : q.instr.op = .vec .vrel x) (hplane : (s.core k.val).planeSt (bits x.mod 0 1) = .full)
    (hlast : (s.core k.val).inflight.any (fun f => f.writes.contains (.planeTo (bits x.mod 0 1) .full)) = false)
    (hfree : (s.core k.val).hazard ((List.range 64).map (fun r => .plane (bits x.mod 0 1) r)) = false) :
    endsIn (.vrel k) s (goesOn k.val .vec q [.planeTo (bits x.mod 0 1) .free] 0 [] s s) :=
  endsIn_of_issueFront (i := .vrel k) h (.refl (execVrel k s)) (by simp only [hop])
    (r := .goes s [.planeTo (bits x.mod 0 1) .free] 0 []) (by
      simp only [hop]
      rw [if_neg (Bool.eq_false_iff.mp hlast), if_neg (Bool.eq_false_iff.mp hfree), if_neg (not_not_intro hplane)])

theorem vsets_goesOn {r : BitVec 4} {v : BitVec 32} (hop : q.instr.op = .vsets r v)
    (hfree : (s.core k.val).hazard [.scalar r.toNat] = false) :
    endsIn (.vsets k) s (goesOn k.val .vec q [.scalar r.toNat v] 0 [] s s) :=
  endsIn_of_issueFront (i := .vsets k) h (.refl (execVsets k s)) (by simp only [hop]) (r := .goes s [.scalar r.toNat v] 0 []) (by
    simp only [hop]
    exact if_neg (Bool.eq_false_iff.mp hfree))

theorem vmovr_goesOn {r : BitVec 4} {src : BitVec 8} (hop : q.instr.op = .vmovr r src)
    (hfree : (s.core k.val).hazard [.scalar r.toNat] = false) :
    let c := s.core k.val
    let now := s.ftNow.toNat
    let hi := BitVec.ofNat 32 (now / 2 ^ 32)
    (src = 0 → endsIn (.vmovr k) s (goesOn k.val .vec q [.scalar r.toNat (c.flags.zeroExtend 32)] 0 [] s s)) ∧
    (src = 1 → endsIn (.vmovr k) s (goesOn k.val .vec q [.scalar r.toNat (BitVec.ofNat 32 now)] 0 [] s
      (updCore k.val (fun c => { c with ftLatch := some hi }) s))) ∧
    (src = 2 → endsIn (.vmovr k) s (goesOn k.val .vec q [.scalar r.toNat (c.ftLatch.getD hi)] 0 [] s
      (updCore k.val (fun c => { c with ftLatch := none }) s))) ∧
    (src = 3 → endsIn (.vmovr k) s (goesOn k.val .vec q [.scalar r.toNat (BitVec.ofNat 32 k.val)] 0 [] s s)) ∧
    (src = 4 → endsIn (.vmovr k) s (goesOn k.val .vec q [.scalar r.toNat (BitVec.ofNat 32 c.localIdx)] 0 [] s s)) := by
  intro c now hi
  have hend {o : Issue} := endsIn_of_issueFront (i := .vmovr k) (r := o) h (.refl (execVmovr k s)) (by simp only [hop])
  simp only [hop, hfree, Bool.false_eq_true, if_false] at hend
  refine ⟨?_, ?_, ?_, ?_, ?_⟩
  all_goals
    rintro rfl
    exact hend (o := .goes _ _ _ _) rfl

theorem vfclr_completes {x : VecFields} (hop : q.instr.op = .vec .vfclr x) :
    completes (.vfclr k) s (fun t =>
      (∀ b, b < 5 → (t.core k.val).flags.getLsbD b = ((s.core k.val).flags.getLsbD b && !x.mod.getLsbD b)) ∧
      { t with cores := s.cores } = s) := by
  obtain ⟨t, hexec, -, hsame, hframe⟩ := completes_of_goesOn_updCore
    (fun c => { c with flags := c.flags &&& ~~~ BitVec.ofNat 5 (bits x.mod 0 5) })
    (endsIn_of_issueFront (i := .vfclr k) h (.refl (execVfclr k s)) (by simp only [hop])
      (r := .goes (updCore k.val _ s) [] 0 []) (by simp only [hop])) rfl
  refine ⟨t, hexec, fun b hb => ?_, hframe⟩
  rw [hsame.flags]
  exact getLsbD_cleared _ _ hb

end VectorSlot

/-- Settles O51: the pairs of formats, then each instruction by its own lemma; a counter that SYNC.TAS has taken is not 0, so that every
other one waits. -/
theorem spanTransferSync : Obligations.SpanTransferSync := by
  refine ⟨⟨pairOk_iff, fun _ _ => geometry_of_sixBit, fun _ _ _ _ => spanMm_badPair⟩, fun k q s =>
    ⟨fun _ h hop => nop_endsIn h hop, fun _ _ _ _ h => spanLoadb_completes h, fun _ h => spanMm_completes h,
      fun _ h hop hfull hlast => spanDrain_completes h hop hlast hfull,
      fun _ h hop hplane hlast => spanDrain_notFull h hop hlast hplane, fun _ h => sld_goesOn h, fun _ _ _ _ h => dmaGo_completes h,
      fun _ _ _ _ h => syncWait_endsIn h, fun _ _ _ _ h => syncAdd_endsIn h,
      fun i n x h hop hbound htask => ⟨fun htakes => ?_, syncTas_refused h hop hbound htask⟩,
      fun _ h => vrel_goesOn h, fun _ _ h => vsets_goesOn h, fun _ _ h => vmovr_goesOn h, fun _ h => vfclr_completes h⟩⟩
  obtain ⟨t, hexec, hone, hothers⟩ := syncTas_takes h hop hbound htask htakes
  refine ⟨t, hexec, hone, hothers, fun k2 q2 i2 hqueue hop2 hbound2 => syncTas_waits hqueue hop2 hbound2 ?_⟩
  rw [hone]
  decide

end Sys2Proof.Proofs
end

section
/-! PROOFS of the statement on the words of tile programs: decoding and encoding agree (R157, R164 to R174, R177). -/

namespace Sys2Proof.Proofs

open Sys2Proof.Machine Sys2Proof.Safety Sys2Proof.Laws

/-! ## Fields of a stream word (R164) -/

section Fields

variable {n m lo lo' k : Nat}

theorem getElem_fld (w : BitVec 64) (lo n : Nat) {i : Nat} (hi : i < n) : (fld w lo n)[i] = w.getLsbD (lo + i) := by
  simp [fld]

theorem getLsbD_at (n lo : Nat) (v : BitVec n) (i : Nat) :
    (at_ n lo v).getLsbD i = (decide (i < 64) && decide (lo ≤ i) && v.getLsbD (i - lo)) := by
  simp only [at_, BitVec.zeroExtend, BitVec.getLsbD_shiftLeft, BitVec.getLsbD_setWidth]
  by_cases h : i < lo
  · simp [h, Nat.not_le.mpr h]
  · by_cases h' : i < 64
    · simp [h, h', Nat.not_lt.mp h, show i - lo < 64 by omega]
    · simp [h']

@[simp] theorem fld_or (v w : BitVec 64) (lo n : Nat) : fld (v ||| w) lo n = fld v lo n ||| fld w lo n :=
  BitVec.eq_of_getElem_eq fun i hi => by simp [getElem_fld]

@[simp] theorem bit_or (v w : BitVec 64) (k : Nat) : bit (v ||| w) k = (bit v k || bit w k) := BitVec.getLsbD_or

@[simp] theorem fld_at_same (v : BitVec n) (h : lo + n ≤ 64) : fld (at_ n lo v) lo n = v :=
  BitVec.eq_of_getElem_eq fun i hi => by
    rw [getElem_fld, getLsbD_at, Nat.add_sub_cancel_left, BitVec.getLsbD_eq_getElem hi]
    simp
    omega

@[simp] theorem fld_at_apart (v : BitVec n) (h : lo' + m ≤ lo ∨ lo + n ≤ lo') : fld (at_ n lo v) lo' m = 0#m :=
  BitVec.eq_of_getElem_eq fun i hi => by
    rw [getElem_fld, getLsbD_at]
    rcases h with h | h
    · simp
      omega
    · simp [v.getLsbD_of_ge (lo' + i - lo) (by omega)]

@[simp] theorem bit_at_apart (v : BitVec n) (h : k < lo ∨ lo + n ≤ k) : bit (at_ n lo v) k = false := by
  unfold bit
  rw [getLsbD_at]
  rcases h with h | h
  · simp
    omega
  · simp [v.getLsbD_of_ge (k - lo) (by omega)]

@[simp] theorem bit_flagAt_same (b : Bool) (h : k < 64) : bit (flagAt k b) k = b :=
  (getLsbD_at 1 k (.ofBool b) k).trans (by simp [h])

@[simp] theorem fld_flagAt_apart (b : Bool) (h : lo + n ≤ k ∨ k < lo) : fld (flagAt k b) lo n = 0#n :=
  fld_at_apart (.ofBool b) h

@[simp] theorem bit_flagAt_apart (b : Bool) (h : k < lo ∨ lo < k) : bit (flagAt lo b) k = false := bit_at_apart (.ofBool b) h

/-- A field inside one that is clear. -/
theorem fld_inside {w : BitVec 64} (h : fld w lo n = 0#n) (hlo : lo ≤ lo') (hm : lo' + m ≤ lo + n) : fld w lo' m = 0#m :=
  BitVec.eq_of_getElem_eq fun i hi => by
    have hbit := congrArg (fun v => v.getLsbD (lo' - lo + i)) h
    rw [BitVec.getLsbD_eq_getElem (by omega), getElem_fld, show lo + (lo' - lo + i) = lo' + i by omega] at hbit
    rw [getElem_fld]
    simpa using hbit

/-- A flag inside a field that is clear. -/
theorem bit_inside {w : BitVec 64} (h : fld w lo n = 0#n) (hlo : lo ≤ k) (hk : k < lo + n) : bit w k = false := by
  have hone := congrArg (fun v => v.getLsbD 0) (fld_inside (m := 1) h hlo hk)
  rw [BitVec.getLsbD_eq_getElem Nat.one_pos, getElem_fld] at hone
  exact hone

end Fields

@[simp] theorem ofCode_code (f : Fmt) : Fmt.ofCode (f.code % 16) = some f := by
  cases f with
  | int8 | int4 | mxint8 | e4m3 | e5m2 | e3m2 | e2m1 | bf16 | fp16 | fp32 | int32 => rfl

theorem code_of_ofCode {c : Nat} {f : Fmt} (h : Fmt.ofCode c = some f) : f.code = c := by
  unfold Fmt.ofCode at h
  obtain ⟨hc, rfl⟩ := List.getElem?_eq_some_iff.mp h
  have hcode : ∀ c : Fin 11, ([Fmt.int8, .int4, .mxint8, .e4m3, .e5m2, .e3m2, .e2m1, .bf16, .fp16, .fp32, .int32][c]).code = c := by
    decide
  exact hcode ⟨c, hc⟩

/-- The tile slot of a B-side SLD is below 4 where the upper six bits of DSLOT are clear (R172). -/
theorem clear_dslot (w : BitVec 64) : clear w 11 6 = ((fld w 9 8).toNat / 4 == 0) := by
  rw [Bool.eq_iff_iff, clear, beq_iff_eq, beq_iff_eq, BitVec.toNat_eq]
  change (w.toNat >>> 11) % 2 ^ 6 = 0 ↔ (w.toNat >>> 9) % 2 ^ 8 / 4 = 0
  omega

/-! ## Operations that their ranges allow (R157, R171, R172) -/

/-- An operation keeps the ranges that its field tables give it. -/
def opOk (o : TileOp) : Bool := ({ op := o } : TileInstr).wf

theorem opOk_drain (x : DrainFields) : opOk (.drain x) = (x.pitch != 0) := Bool.and_true _
theorem opOk_vec (op : VecOp) (x : VecFields) : opOk (.vec op x) = vecOk op x := Bool.and_true _
theorem opOk_vmovr (r : BitVec 4) (src : BitVec 8) : opOk (.vmovr r src) = decide (src.toNat < 5) := Bool.and_true _
theorem opOk_sld (x : SldFields) : opOk (.sld x) = (x.pitch != 0 && (!x.sideB || x.dslot.toNat / 4 == 0)) := Bool.and_true _
theorem opOk_loop (n : BitVec 16) (b : BitVec 12) : opOk (.loop n b) = (b != 0) := Bool.and_true _
theorem opOk_seti (r : BitVec 4) (v : BitVec 32) : opOk (.seti r v) = (r != 0) := Bool.and_true _
theorem opOk_inc (r : BitVec 4) (v : BitVec 32) : opOk (.inc r v) = (r != 0) := Bool.and_true _

/-- An instruction is well-formed where its operation is, and a control operation has no event fields. -/
theorem wf_iff (x : TileInstr) : x.wf = true ↔ opOk x.op = true ∧ (x.op.isCtl = true → x = { op := x.op }) := by
  obtain ⟨wt, wev, st, sev, op⟩ := x
  cases hctl : op.isCtl with
  | false => simp [opOk, TileInstr.wf, hctl]
  | true => simp [opOk, TileInstr.wf, hctl, and_assoc]

/-! ## A word and its operation -/

/-- What a word's CLASS and OP make of its operand bits. -/
def decodeOp (w : BitVec 64) : Option TileOp :=
  match (fld w 62 2).toNat with
  | 0 => decodeSpan w
  | 1 => decodeVec w
  | 2 => decodeXfer w
  | _ => decodeCtl w

/-- An operation with the event fields of a word. -/
def withHead (w : BitVec 64) (o : TileOp) : TileInstr := { wt := bit w 55, wev := fld w 51 4, st := bit w 50, sev := fld w 46 4, op := o }

theorem decodeTile_eq (w : BitVec 64) : decodeTile w = (decodeOp w).map (withHead w) := rfl

/-! ## Decoding the word of an instruction -/

theorem decodeVec_op {w : BitVec 64} {op : VecOp} (h : fld w 56 6 = BitVec.ofNat 6 op.code) :
    decodeVec w = if clear w 0 7 && vecOk op (vecFields w) then some (.vec op (vecFields w)) else none := by
  unfold decodeVec
  rw [h]
  cases op <;> rfl

theorem encodeTile_of_ctl {x : TileInstr} (h : x = { op := x.op }) : encodeTile x = encodeOp x.op := by
  rw [h]
  simp [encodeTile, flagAt, at_]

/-- The word of a control operation, whose event fields are clear. -/
theorem decodeOp_encodeOp_ctl {o : TileOp} (hctl : o.isCtl = true) (h : opOk o = true) : decodeOp (encodeOp o) = some o := by
  cases o with
  | ctlNop | halt => simp [decodeOp, encodeOp, opBits, decodeCtl, clear]
  | loop n b =>
    rw [opOk_loop] at h
    simpa [decodeOp, encodeOp, opBits, decodeCtl, clear] using h
  | seti r v =>
    rw [opOk_seti] at h
    simpa [decodeOp, encodeOp, opBits, decodeCtl, clear] using h
  | inc r v =>
    rw [opOk_inc] at h
    simpa [decodeOp, encodeOp, opBits, decodeCtl, clear] using h
  | setd x => simp [decodeOp, encodeOp, opBits, fmtBits, fmtAt, decodeCtl, clear]
  | nop | loadb | mm | drain | vec | vsets | vmovr | sld | dmaGo | syncWait | syncAdd | syncTas => nomatch hctl

/-- The word of an operation of a slot, whatever its event fields. -/
theorem decodeOp_encodeTile_slot {x : TileInstr} (hslot : x.op.isCtl = false) (h : opOk x.op = true) :
    decodeOp (encodeTile x) = some x.op := by
  obtain ⟨wt, wev, st, sev, op⟩ := x
  cases op with
  | nop slot =>
    cases slot with
    | span | vec | xfer => simp [decodeOp, encodeTile, encodeOp, opBits, decodeSpan, decodeVec, decodeXfer, clear]
  | loadb | mm => simp [decodeOp, encodeTile, encodeOp, opBits, fmtBits, fmtAt, decodeSpan, clear]
  | drain x =>
    rw [opOk_drain] at h
    simpa [decodeOp, encodeTile, encodeOp, opBits, fmtBits, fmtAt, decodeSpan, clear] using h
  | vec op x =>
    rw [opOk_vec] at h
    have hop : fld (encodeTile ⟨wt, wev, st, sev, .vec op x⟩) 56 6 = BitVec.ofNat 6 op.code := by
      simp [encodeTile, encodeOp, opBits, vecBits]
    have hcls : fld (encodeTile ⟨wt, wev, st, sev, .vec op x⟩) 62 2 = 1#2 := by
      simp [encodeTile, encodeOp, opBits, vecBits]
    unfold decodeOp
    rw [hcls, decodeVec_op hop]
    simp [encodeTile, encodeOp, opBits, vecFields, vecBits, clear, h]
  | vsets => simp [decodeOp, encodeTile, encodeOp, opBits, decodeVec, clear]
  | vmovr r src =>
    rw [opOk_vmovr] at h
    simpa [decodeOp, encodeTile, encodeOp, opBits, decodeVec, clear] using h
  | sld x =>
    rw [opOk_sld] at h
    unfold decodeOp decodeXfer
    rw [clear_dslot]
    obtain ⟨ix, src, pitch, sideB, buf, dslot, rowsM1, tr, sc⟩ := x
    cases sideB with
    | false | true => simpa [encodeTile, encodeOp, opBits, clear] using h
  | dmaGo | syncWait | syncAdd | syncTas => simp [decodeOp, encodeTile, encodeOp, opBits, decodeXfer, clear]
  | ctlNop | loop | seti | inc | setd | halt => nomatch hslot

/-- No operation sets bits 55:46. -/
theorem fld_encodeOp_head (o : TileOp) : fld (encodeOp o) 46 10 = 0#10 := by
  cases o with
  | nop slot =>
    cases slot with
    | span | vec | xfer => simp [encodeOp, opBits]
  | vec op x => simp [encodeOp, opBits, vecBits]
  | mm | drain | setd => simp [encodeOp, opBits, fmtBits]
  | loadb | vsets | vmovr | sld | dmaGo | syncWait | syncAdd | syncTas | ctlNop | loop | seti | inc | halt => simp [encodeOp, opBits]

theorem withHead_encodeTile (x : TileInstr) : withHead (encodeTile x) x.op = x := by
  have hbit {k : Nat} (hlo : 46 ≤ k) (hk : k < 56) : bit (encodeOp x.op) k = false := bit_inside (fld_encodeOp_head x.op) hlo hk
  have hfld {lo m : Nat} (hlo : 46 ≤ lo) (hm : lo + m ≤ 56) : fld (encodeOp x.op) lo m = 0#m :=
    fld_inside (fld_encodeOp_head x.op) hlo hm
  simp [withHead, encodeTile, hbit, hfld]

theorem decodeTile_encodeTile {x : TileInstr} (h : x.wf = true) : decodeTile (encodeTile x) = some x := by
  obtain ⟨hok, hhead⟩ := (wf_iff x).mp h
  have hop : decodeOp (encodeTile x) = some x.op := by
    cases hctl : x.op.isCtl with
    | false => exact decodeOp_encodeTile_slot hctl hok
    | true => rw [encodeTile_of_ctl (hhead hctl), decodeOp_encodeOp_ctl hctl hok]
  rw [decodeTile_eq, hop, Option.map_some, withHead_encodeTile]

/-! ## Encoding what a word decodes to -/

/-- The bits that fields of a word take up. -/
def fieldMask (lo n : Nat) : BitVec 64 := at_ n lo (.allOnes n)

/-- A field of a word put back in its place. -/
theorem at_fld (w : BitVec 64) (lo n : Nat) : at_ n lo (fld w lo n) = w &&& fieldMask lo n :=
  BitVec.eq_of_getLsbD_eq fun i hi => by
    rw [BitVec.getLsbD_and, fieldMask, getLsbD_at, getLsbD_at]
    by_cases hlo : lo ≤ i
    · by_cases hn : i - lo < n
      · rw [BitVec.getLsbD_eq_getElem hn, getElem_fld, Nat.add_sub_cancel' hlo]
        simp [hi, hlo, hn]
      · simp [hn, (fld w lo n).getLsbD_of_ge (i - lo) (by omega)]
    · simp [hlo]

theorem flagAt_bit (w : BitVec 64) (k : Nat) : flagAt k (bit w k) = w &&& fieldMask k 1 := by
  have hone : BitVec.ofBool (bit w k) = fld w k 1 := BitVec.eq_of_getElem_eq fun i hi => by
    obtain rfl := Nat.lt_one_iff.mp hi
    simp [getElem_fld, bit]
  rw [← at_fld, ← hone]
  rfl

theorem fmtBits_fmtAt {w : BitVec 64} {lo : Nat} {f : Fmt} (h : fmtAt w lo = some f) : fmtBits lo f = w &&& fieldMask lo 4 := by
  unfold fmtBits
  rw [code_of_ofCode h, BitVec.ofNat_toNat, BitVec.setWidth_eq, at_fld]

theorem opBits_fld {w : BitVec 64} {cls op : Nat} (hcls : (fld w 62 2).toNat = cls) (hop : (fld w 56 6).toNat = op) :
    opBits cls op = w &&& fieldMask 62 2 ||| w &&& fieldMask 56 6 := by
  subst hcls hop
  simp [opBits, at_fld]

/-- CLASS, OP and the operand bits of a word. -/
def wordBody (w : BitVec 64) : BitVec 64 := w &&& (fieldMask 56 8 ||| fieldMask 0 46)

theorem and_mask_of_clear {w : BitVec 64} {lo n : Nat} (h : clear w lo n = true) : w &&& fieldMask lo n = 0#64 := by
  rw [← at_fld, eq_of_beq h]
  exact BitVec.eq_of_getLsbD_eq fun i _ => by simp [getLsbD_at]

theorem and_masks_of_clear {w : BitVec 64} {lo n lo' n' : Nat} (h : (clear w lo n && clear w lo' n') = true) :
    w &&& (fieldMask lo n ||| fieldMask lo' n') = 0#64 := by
  obtain ⟨hlo, hlo'⟩ := Bool.and_eq_true_iff.mp h
  rw [BitVec.and_or_distrib_left, and_mask_of_clear hlo, and_mask_of_clear hlo', BitVec.or_zero]

section Decoded

variable {w : BitVec 64} {o : TileOp}

/-- An operation that a word decodes to under a condition: where the condition leaves the bits z clear, and the operation's fields are the
rest of the word, its CLASS, OP and operand bits are the word's own. -/
theorem encodeOp_of_ite {c : Bool} {o' : TileOp} {z : BitVec 64} (h : (if c then some o' else none) = some o)
    (henc : encodeOp o' ||| w &&& z = wordBody w) (hz : c = true → w &&& z = 0#64) (hok : c = true → opOk o' = true) :
    encodeOp o = wordBody w ∧ opOk o = true := by
  obtain ⟨hc, ⟨⟩⟩ := Option.ite_none_right_eq_some.mp h
  rw [hz hc, BitVec.or_zero] at henc
  exact ⟨henc, hok hc⟩

theorem encodeOp_decodeSpan (hcls : (fld w 62 2).toNat = 0) (h : decodeSpan w = some o) : encodeOp o = wordBody w ∧ opOk o = true := by
  unfold decodeSpan at h
  split at h
  next hop =>
    exact encodeOp_of_ite h (by simp only [encodeOp, opBits_fld hcls hop, wordBody, ← BitVec.and_or_distrib_left]; rfl)
      and_mask_of_clear fun _ => rfl
  next hop =>
    exact encodeOp_of_ite h (by simp only [encodeOp, opBits_fld hcls hop, at_fld, flagAt_bit, wordBody, ← BitVec.and_or_distrib_left]; rfl)
      and_masks_of_clear fun _ => rfl
  next hop =>
    split at h
    next ha hb =>
      exact encodeOp_of_ite h (by simp only [encodeOp, opBits_fld hcls hop, at_fld, flagAt_bit, fmtBits_fmtAt ha,
        fmtBits_fmtAt hb, wordBody, ← BitVec.and_or_distrib_left]; rfl)
        and_mask_of_clear fun _ => rfl
    next => nomatch h
  next hop =>
    split at h
    next hf =>
      exact encodeOp_of_ite h (by simp only [encodeOp, opBits_fld hcls hop, at_fld, flagAt_bit, fmtBits_fmtAt hf,
        wordBody, ← BitVec.and_or_distrib_left]; rfl)
        (fun hc => and_mask_of_clear (Bool.and_elim_left hc)) fun hc => (opOk_drain ..).trans (Bool.and_elim_right hc)
    next => nomatch h
  next => nomatch h

theorem code_of_find {k c : Nat} {op : VecOp} (h : vecOps.find? (fun e => e.1 == k) = some (c, op)) : k = op.code := by
  have hcode : ∀ e ∈ vecOps, e.1 = e.2.code := by decide
  exact (eq_of_beq (List.find?_some h :)).symm.trans (hcode _ (List.mem_of_find?_eq_some h))

theorem encodeOp_decodeVec (hcls : (fld w 62 2).toNat = 1) (h : decodeVec w = some o) : encodeOp o = wordBody w ∧ opOk o = true := by
  unfold decodeVec at h
  split at h
  next hop =>
    exact encodeOp_of_ite h (by simp only [encodeOp, opBits_fld hcls hop, wordBody, ← BitVec.and_or_distrib_left]; rfl)
      and_mask_of_clear fun _ => rfl
  next hop =>
    exact encodeOp_of_ite h (by simp only [encodeOp, opBits_fld hcls hop, at_fld, wordBody, ← BitVec.and_or_distrib_left]; rfl)
      and_mask_of_clear fun _ => rfl
  next hop =>
    exact encodeOp_of_ite h (by simp only [encodeOp, opBits_fld hcls hop, at_fld, wordBody, ← BitVec.and_or_distrib_left]; rfl)
      (fun hc => and_masks_of_clear (Bool.and_elim_left hc)) fun hc => (opOk_vmovr ..).trans (Bool.and_elim_right hc)
  next =>
    split at h
    next => nomatch h
    next hfind =>
      have hop := code_of_find hfind
      exact encodeOp_of_ite h (by simp only [encodeOp, opBits_fld hcls hop, vecBits, vecFields, at_fld,
        wordBody, ← BitVec.and_or_distrib_left]; rfl)
        (fun hc => and_mask_of_clear (Bool.and_elim_left hc)) fun hc => (opOk_vec ..).trans (Bool.and_elim_right hc)

theorem encodeOp_decodeXfer (hcls : (fld w 62 2).toNat = 2) (h : decodeXfer w = some o) : encodeOp o = wordBody w ∧ opOk o = true := by
  unfold decodeXfer at h
  split at h
  next hop =>
    exact encodeOp_of_ite h (by simp only [encodeOp, opBits_fld hcls hop, wordBody, ← BitVec.and_or_distrib_left]; rfl)
      and_mask_of_clear fun _ => rfl
  next hop =>
    rw [clear_dslot, Bool.and_assoc] at h
    exact encodeOp_of_ite h (by simp only [encodeOp, opBits_fld hcls hop, at_fld, flagAt_bit, wordBody, ← BitVec.and_or_distrib_left]; rfl)
      (fun hc => and_mask_of_clear (Bool.and_elim_left hc)) fun hc => (opOk_sld ..).trans (Bool.and_elim_right hc)
  next hop =>
    exact encodeOp_of_ite h (by simp only [encodeOp, opBits_fld hcls hop, at_fld, flagAt_bit, wordBody, ← BitVec.and_or_distrib_left]; rfl)
      and_mask_of_clear fun _ => rfl
  next hop =>
    exact encodeOp_of_ite h (by simp only [encodeOp, opBits_fld hcls hop, at_fld, flagAt_bit, wordBody, ← BitVec.and_or_distrib_left]; rfl)
      and_mask_of_clear fun _ => rfl
  next hop =>
    exact encodeOp_of_ite h (by simp only [encodeOp, opBits_fld hcls hop, at_fld, wordBody, ← BitVec.and_or_distrib_left]; rfl)
      and_mask_of_clear fun _ => rfl
  next hop =>
    exact encodeOp_of_ite h (by simp only [encodeOp, opBits_fld hcls hop, at_fld, wordBody, ← BitVec.and_or_distrib_left]; rfl)
      and_masks_of_clear fun _ => rfl
  next => nomatch h

theorem encodeOp_decodeCtl (hcls : (fld w 62 2).toNat = 3) (h : decodeCtl w = some o) :
    clear w 46 10 = true ∧ encodeOp o = wordBody w ∧ opOk o = true := by
  unfold decodeCtl at h
  obtain ⟨hhead, h⟩ := Option.ite_none_left_eq_some.mp h
  refine ⟨by simpa using hhead, ?_⟩
  split at h
  next hop =>
    exact encodeOp_of_ite h (by simp only [encodeOp, opBits_fld hcls hop, wordBody, ← BitVec.and_or_distrib_left]; rfl)
      and_mask_of_clear fun _ => rfl
  next hop =>
    exact encodeOp_of_ite h (by simp only [encodeOp, opBits_fld hcls hop, at_fld, wordBody, ← BitVec.and_or_distrib_left]; rfl)
      (fun hc => and_mask_of_clear (Bool.and_elim_left hc)) fun hc => (opOk_loop ..).trans (Bool.and_elim_right hc)
  next hop =>
    exact encodeOp_of_ite h (by simp only [encodeOp, opBits_fld hcls hop, at_fld, wordBody, ← BitVec.and_or_distrib_left]; rfl)
      (fun hc => and_mask_of_clear (Bool.and_elim_left hc)) fun hc => (opOk_seti ..).trans (Bool.and_elim_right hc)
  next hop =>
    exact encodeOp_of_ite h (by simp only [encodeOp, opBits_fld hcls hop, at_fld, wordBody, ← BitVec.and_or_distrib_left]; rfl)
      (fun hc => and_mask_of_clear (Bool.and_elim_left hc)) fun hc => (opOk_inc ..).trans (Bool.and_elim_right hc)
  next hop =>
    split at h
    next hf =>
      exact encodeOp_of_ite h (by simp only [encodeOp, opBits_fld hcls hop, at_fld, flagAt_bit, fmtBits_fmtAt hf,
        wordBody, ← BitVec.and_or_distrib_left]; rfl)
        and_mask_of_clear fun _ => rfl
    next => nomatch h
  next hop =>
    exact encodeOp_of_ite h (by simp only [encodeOp, opBits_fld hcls hop, wordBody, ← BitVec.and_or_distrib_left]; rfl)
      and_mask_of_clear fun _ => rfl
  next => nomatch h

theorem encodeOp_decodeOp (h : decodeOp w = some o) : encodeOp o = wordBody w ∧ opOk o = true := by
  unfold decodeOp at h
  split at h
  next hcls => exact encodeOp_decodeSpan hcls h
  next hcls => exact encodeOp_decodeVec hcls h
  next hcls => exact encodeOp_decodeXfer hcls h
  next hspan hvec hxfer =>
    have hcls : (fld w 62 2).toNat = 3 := by
      have hlt : (fld w 62 2).toNat < 4 := (fld w 62 2).isLt
      simp only [imp_false] at hspan hvec hxfer
      omega
    obtain ⟨-, hbody⟩ := encodeOp_decodeCtl hcls h
    exact hbody

/-- CLASS of an operation is that of the word that it comes from. -/
theorem fld_wordBody_cls (w : BitVec 64) : fld (wordBody w) 62 2 = fld w 62 2 := by
  have hones : fld (fieldMask 56 8 ||| fieldMask 0 46) 62 2 = BitVec.allOnes 2 := by decide
  refine BitVec.eq_of_getElem_eq fun i hi => ?_
  have hone : (fieldMask 56 8 ||| fieldMask 0 46).getLsbD (62 + i) = true := by
    rw [← getElem_fld _ 62 2 hi]
    exact (congrArg (fun v : BitVec 2 => v[i]) hones).trans (BitVec.getElem_allOnes i hi)
  rw [getElem_fld, getElem_fld, wordBody, BitVec.getLsbD_and, hone, Bool.and_true]

theorem fld_encodeOp_ctl (hctl : o.isCtl = true) : fld (encodeOp o) 62 2 = 3#2 := by
  cases o with
  | ctlNop | loop | seti | inc | halt => simp [encodeOp, opBits]
  | setd => simp [encodeOp, opBits, fmtBits]
  | nop | loadb | mm | drain | vec | vsets | vmovr | sld | dmaGo | syncWait | syncAdd | syncTas => nomatch hctl

/-- A control word has no event fields (R164). -/
theorem clear_head_of_ctl (h : decodeOp w = some o) (hctl : o.isCtl = true) : fld w 46 10 = 0#10 := by
  obtain ⟨hbody, -⟩ := encodeOp_decodeOp h
  have hcls : fld w 62 2 = 3#2 := by rw [← fld_wordBody_cls, ← hbody, fld_encodeOp_ctl hctl]
  unfold decodeOp at h
  rw [hcls] at h
  obtain ⟨hhead, -⟩ := encodeOp_decodeCtl (congrArg BitVec.toNat hcls) h
  exact eq_of_beq hhead

theorem wordBody_or_head (w : BitVec 64) : wordBody w ||| flagAt 55 (bit w 55) ||| at_ 4 51 (fld w 51 4) ||| flagAt 50 (bit w 50) |||
    at_ 4 46 (fld w 46 4) = w := by
  simp only [wordBody, at_fld, flagAt_bit, ← BitVec.and_or_distrib_left]
  exact BitVec.and_allOnes

theorem encodeTile_decodeTile {x : TileInstr} (h : decodeTile w = some x) : encodeTile x = w ∧ x.wf = true := by
  obtain ⟨o, hop, rfl⟩ := Option.map_eq_some_iff.mp h
  obtain ⟨hbody, hok⟩ := encodeOp_decodeOp hop
  refine ⟨?_, (wf_iff _).mpr ⟨hok, fun hctl => ?_⟩⟩
  · exact (congrArg (· ||| flagAt 55 (bit w 55) ||| at_ 4 51 (fld w 51 4) ||| flagAt 50 (bit w 50) ||| at_ 4 46 (fld w 46 4)) hbody).trans
      (wordBody_or_head w)
  · have hhead := clear_head_of_ctl hop hctl
    change ({ wt := bit w 55, wev := fld w 51 4, st := bit w 50, sev := fld w 46 4, op := o } : TileInstr) = { op := o }
    rw [bit_inside hhead (by omega) (by omega), bit_inside hhead (by omega) (by omega), fld_inside hhead (by omega) (by omega),
      fld_inside hhead (by omega) (by omega)]
    rfl

end Decoded

/-- Settles O48: both ways operation by operation, then the event fields, which no operation shares. -/
theorem tileWordsRoundTrip : Obligations.TileWordsRoundTrip :=
  ⟨fun _ => decodeTile_encodeTile, fun _ _ => encodeTile_decodeTile⟩

end Sys2Proof.Proofs
end

section
/-! PROOFS of the statement on dispatch: words for a slot and control words (R158, R169, R177). -/

namespace Sys2Proof.Proofs

open Sys2Proof.Machine Sys2Proof.Safety Sys2Proof.Laws

/-- From s to t core k alone has changed, and is d. -/
structure coreIs (k : Nat) (d : Core) (s t : State) : Prop where
  core : t.core k = d
  others : ∀ j, j ≠ k → t.core j = s.core j
  frame : { t with cores := s.cores } = s

theorem coreIs_updCore (k : Nat) (g : Core → Core) (s : State) :
    coreIs k (g (s.core k)) s { updCore k g s with pending := s.pending } :=
  ⟨core_updCore_same k g s, fun _ hj => core_updCore_ne hj g s, rfl⟩

/-! ## Words for a slot -/

theorem queue_advance (slot : SlotKind) (c : Core) : c.advance.queue slot = c.queue slot := by
  cases slot with
  | span | vec | xfer => rfl

theorem queue_autoAdvance (slot : SlotKind) (o : TileOp) (c : Core) : (c.autoAdvance o).queue slot = c.queue slot := by
  unfold Core.autoAdvance
  split
  · cases slot with
    | span | vec | xfer => rfl
  · rfl

section Dispatch

variable {k : CoreId} {x : TileInstr} {s : State} (h : atDispatch k x s)
include h

theorem execInstructionDispatch_slot {sl : SlotKind} (hslot : x.op.slot = some sl) :
    execInstructionDispatch k s = if 32 ≤ ((s.core k.val).queue sl).length then done s s else
      live s (updCore k.val (fun c => ((c.setQueue sl (c.queue sl ++ [c.resolve x])).autoAdvance x.op).advance) s) := by
  obtain ⟨-, hruns, hnext⟩ := h
  unfold execInstructionDispatch
  simp only [hnext, hslot, hruns, Bool.not_true, Bool.false_or, decide_eq_true_eq]

theorem dispatch_room {sl : SlotKind} (hslot : x.op.slot = some sl) (hroom : ((s.core k.val).queue sl).length < 32) :
    completes (.instructionDispatch k) s (fun t =>
      (t.core k.val).queue sl = (s.core k.val).queue sl ++ [(s.core k.val).resolve x] ∧
      (∀ j, j ≠ k.val → t.core j = s.core j) ∧ { t with cores := s.cores } = s) := by
  have hlive := (execInstructionDispatch_slot h hslot).trans (if_neg (Nat.not_le.mpr hroom))
  obtain ⟨hawake, -, -⟩ := h
  have hend := endsIn_of_live (c := .instructionDispatch k) hawake hlive
  obtain ⟨hcore, hothers, hframe⟩ := coreIs_updCore k.val
    (fun c => ((c.setQueue sl (c.queue sl ++ [c.resolve x])).autoAdvance x.op).advance) s
  refine ⟨_, hend, ?_, hothers, hframe⟩
  rw [hcore, queue_advance, queue_autoAdvance, queue_setQueue_same]

theorem dispatch_full {sl : SlotKind} (hslot : x.op.slot = some sl) (hfull : 32 ≤ ((s.core k.val).queue sl).length) :
    endsIn (.instructionDispatch k) s s := (execInstructionDispatch_slot h hslot).trans (if_pos hfull)

/-! ## Control words -/

variable {i : Instr} {want : TileOp → Bool} {d : Core} (hexec : exec i s = Machine.control k want s) (hwant : want x.op = true)
  (hrun : (s.core k.val).runControl x.op = some d)
include hexec hwant hrun

theorem endsIn_of_control : endsIn i s (updCore k.val (fun _ => d) s) := by
  obtain ⟨hawake, hruns, hnext⟩ := h
  refine endsIn_of_live hawake (hexec.trans ?_)
  unfold Machine.control
  simp only [hnext, hruns, hwant, hrun, Bool.not_true, Bool.or_false, Bool.false_eq_true, if_false]

theorem completes_of_control : completes i s (coreIs k.val d s) :=
  completes_of_endsIn (endsIn_of_control h hexec hwant hrun) (coreIs_updCore k.val (fun _ => d) s)

end Dispatch

section Control

variable {k : CoreId} {x : TileInstr} {s : State} (h : atDispatch k x s)
include h

theorem ctlNop_endsIn (hop : x.op = .ctlNop) : endsIn (.nop k none) s (updCore k.val Core.advance s) :=
  endsIn_of_control (i := .nop k none) (want := fun o => o == .ctlNop) h rfl (by rw [hop]; rfl) (by rw [hop]; rfl)

theorem loop_completes {n : BitVec 16} {b : BitVec 12} (hop : x.op = .loop n b) : completes (.loop k) s (coreIs k.val
    { s.core k.val with
      pc := (s.core k.val).pc + 1,
      loops := { first := (s.core k.val).pc + 1, last := (s.core k.val).pc + 1 + b.toNat, left := n.toNat } :: (s.core k.val).loops } s) :=
  completes_of_control (i := .loop k) h (.refl (execLoop k s)) (by rw [hop]) (by rw [hop]; rfl)

theorem seti_completes {r : BitVec 4} {v : BitVec 32} (hop : x.op = .seti r v) : completes (.seti k) s (coreIs k.val
    { s.core k.val with ix := Tab.put (s.core k.val).ix r.toNat v }.advance s) :=
  completes_of_control (i := .seti k) h (.refl (execSeti k s)) (by rw [hop]) (by rw [hop]; rfl)

theorem inc_completes {r : BitVec 4} {v : BitVec 32} (hop : x.op = .inc r v) : completes (.inc k) s (coreIs k.val
    { s.core k.val with ix := Tab.put (s.core k.val).ix r.toNat (Tab.get 0#32 (s.core k.val).ix r.toNat + v) }.advance s) :=
  completes_of_control (i := .inc k) h (.refl (execInc k s)) (by rw [hop]) (by rw [hop]; rfl)

/-- The descriptor that SETD gives, its base offset by the index register as it is (R169). -/
def setdDesc (f : SetdFields) (c : Core) : VDesc :=
  ⟨f.kind, f.fmt, sgn 32 (c.effective f.base.toNat f.ix.toNat), f.stride.toInt, f.auto⟩

theorem setd_completes {f : SetdFields} (hop : x.op = .setd f) : completes (.setd k) s (coreIs k.val
    { s.core k.val with vd := Tab.put (s.core k.val).vd f.vd.toNat (setdDesc f (s.core k.val)) }.advance s) :=
  completes_of_control (i := .setd k) h (.refl (execSetd k s)) (by rw [hop]) (by rw [hop]; rfl)

theorem halt_completes (hop : x.op = .halt) : completes (.halt k) s (coreIs k.val { s.core k.val with halted := true } s) :=
  completes_of_control (i := .halt k) h (.refl (execHalt k s)) (by rw [hop]; rfl) (by rw [hop]; rfl)

end Control

/-- Settles O49: a word for a slot by the room in its queue, then the six control words. -/
theorem tileDispatch : Obligations.TileDispatch := by
  intro k x s h c
  refine ⟨fun _ => dispatch_room h, fun _ => dispatch_full h, ctlNop_endsIn h, fun n b hop => ?_, fun r v hop => ?_, fun r v hop => ?_,
    fun f hop => ?_, fun hop => ?_⟩
  · obtain ⟨t, hexec, hcore, hothers, hframe⟩ := loop_completes h hop
    exact ⟨t, hexec, hcore, hothers, hframe⟩
  · obtain ⟨t, hexec, hcore, hothers, hframe⟩ := seti_completes h hop
    exact ⟨t, hexec, by rw [hcore]; exact get_put_same .., fun i hi => by rw [hcore]; exact get_put_ne _ _ _ hi, hothers, hframe⟩
  · obtain ⟨t, hexec, hcore, hothers, hframe⟩ := inc_completes h hop
    exact ⟨t, hexec, by rw [hcore]; exact get_put_same .., fun i hi => by rw [hcore]; exact get_put_ne _ _ _ hi, hothers, hframe⟩
  · obtain ⟨t, hexec, hcore, hothers, hframe⟩ := setd_completes h hop
    exact ⟨t, hexec, by rw [hcore]; exact get_put_same .., hothers, hframe⟩
  · obtain ⟨t, hexec, hcore, hothers, hframe⟩ := halt_completes h hop
    exact ⟨t, hexec, hcore, by rw [hcore]; rfl, hothers, hframe⟩

end Sys2Proof.Proofs
end

section
/-! PROOFS of the statement on tasks and the vision program: placing, the end of a task, and its records (R163, R217, R320 to R322,
R332, R433). -/

namespace Sys2Proof.Proofs

open Sys2Proof.Machine Sys2Proof.Safety Sys2Proof.Laws

/-! ## Placing (R217, R321, R433) -/

/-- The header of the operator list that BUF2 of a vision task holds. -/
def listHeader (x : Task) (s : State) : Bytes := bufRead (s.bufUnits x.buf2) 0 64 s

/-- A task with what a good header of its operator list states. -/
def withHeader (x : Task) (p : Program) (s : State) : Task :=
  let hdr := listHeader x s
  if p.builtin = true ∧ x.visCount = 0 ∧ listHeaderOk hdr = true then
    { x with visCores := rd hdr 6 1, visCount := rd hdr 8 4, visOff := rd hdr 0x10 8 } else x

/-- The cores that a task asks for. -/
def coresWanted (y : Task) (p : Program) : Nat := if p.builtin then y.visCores else p.cores

theorem withHeader_eq (x : Task) (p : Program) (s : State) :
    (if (p.builtin && x.visCount == 0 && listHeaderOk (listHeader x s)) = true then { x with
        visCores := rd (listHeader x s) 6 1, visCount := rd (listHeader x s) 8 4, visOff := rd (listHeader x s) 0x10 8 } else x) =
      withHeader x p s := by
  simp only [withHeader, Bool.and_eq_true, beq_iff_eq, and_assoc]

theorem withHeader_fn (x : Task) (p : Program) (s : State) : (withHeader x p s).fn = x.fn := by
  unfold withHeader
  extract_lets hdr
  split
  · rfl
  · rfl

/-- Placing, once nothing holds the task back. -/
def placeTask (n : Nat) (hdr : Bytes) (y : Task) (p : Program) (s : State) : Host.Outcome State Fault Refusal :=
  if p.builtin && y.visCount == 0 then
    live s (endTask n stOk false (bumpBy y.fn cViolVisionParam (rd hdr 8 4)
      { s with tasks := Tab.put s.tasks n { y with visSkipped := rd hdr 8 4, visFirst := 0 } }))
  else if !s.couldPlace p (coresWanted y p) then live s (endTask n eNotReady false s)
  else if s.serve.step.isSome then done s s
  else match s.findPlace p (coresWanted y p) with
    | none => done s s
    | some pl => live s (startTask n y p pl s)

section Placing

variable {n : Nat} {x : Task} {p : Program} {s : State}

theorem execTaskPlaced_eq (htask : Tab.find s.tasks n = some x) (hprog : s.prog x.prog = some p) (hplace : x.place = none)
    (hpaused : x.paused = false) (hsch : s.schRuns = true) (hcrit : s.thermal.critical = false)
    (hfirst : s.tasks.any (fun e => e.2.before x) = false) :
    execTaskPlaced n s = placeTask n (listHeader x s) (withHeader x p s) p s := by
  have hguard : ¬ (x.place.isSome || x.paused || !s.schRuns || s.thermal.critical || s.tasks.any (fun e => e.2.before x)) = true := by
    simp [hplace, hpaused, hsch, hcrit, hfirst]
  unfold execTaskPlaced
  rw [htask]
  dsimp only
  rw [hprog]
  dsimp only
  rw [if_neg hguard, ← withHeader_eq]
  rfl

theorem execTaskPlaced_placed (htask : Tab.find s.tasks n = some x) (hplace : x.place ≠ none) : execTaskPlaced n s = done s s := by
  have hguard : (x.place.isSome || x.paused || !s.schRuns || s.thermal.critical || s.tasks.any (fun e => e.2.before x)) = true := by
    simp [Option.isSome_iff_ne_none.mpr hplace]
  unfold execTaskPlaced
  rw [htask]
  dsimp only
  split
  · rfl
  · exact if_pos hguard

section Ends

variable {y : Task} {hdr : Bytes}

theorem placeTask_noRecords {f : Nat} (hfn : y.fn = f) (h : p.builtin = true ∧ y.visCount = 0) : placeTask n hdr y p s =
    live s (endTask n stOk false (bumpBy f cViolVisionParam (rd hdr 8 4)
      { s with tasks := Tab.put s.tasks n { y with visSkipped := rd hdr 8 4, visFirst := 0 } })) := by
  subst hfn
  exact if_pos (by simpa using h)

variable (h : ¬ (p.builtin = true ∧ y.visCount = 0))
include h

theorem placeTask_tooLarge (hroom : s.couldPlace p (coresWanted y p) = false) :
    placeTask n hdr y p s = live s (endTask n eNotReady false s) :=
  (if_neg (by simpa using h)).trans (if_pos (by rw [hroom]; rfl))

theorem placeTask_waits (hroom : s.couldPlace p (coresWanted y p) = true)
    (hwait : s.serve.step ≠ none ∨ s.findPlace p (coresWanted y p) = none) : placeTask n hdr y p s = done s s := by
  refine (if_neg (by simpa using h)).trans ((if_neg (by rw [hroom]; exact Bool.false_ne_true)).trans ?_)
  split
  · rfl
  next hstep =>
    rw [hwait.resolve_left (mt Option.isSome_iff_ne_none.mpr hstep)]

theorem placeTask_starts (hroom : s.couldPlace p (coresWanted y p) = true) (hstep : s.serve.step = none) {pl : Place}
    (hfound : s.findPlace p (coresWanted y p) = some pl) : placeTask n hdr y p s = live s (startTask n y p pl s) := by
  refine (if_neg (by simpa using h)).trans ((if_neg (by rw [hroom]; exact Bool.false_ne_true)).trans
    ((if_neg (by rw [hstep]; exact Bool.false_ne_true)).trans ?_))
  rw [hfound]

end Ends

end Placing

/-! ## The start of a task (R163, R217) -/

/-- Where cores are started one after another, one that is not among them stays as it is. -/
theorem core_startCores_other (l : List (Nat × Nat)) (g : State → Nat × Nat → Core → Core) {k : Nat} (hk : ∀ e ∈ l, e.1 ≠ k)
    (s : State) : (forEach l (fun e u => updCore e.1 (g u e) u) s).core k = s.core k := by
  induction l generalizing s with
  | nil => rfl
  | cons e l ih =>
    obtain ⟨he, hl⟩ := List.forall_mem_cons.mp hk
    exact (ih hl _).trans (core_updCore_ne (Ne.symm he) (g s e) s)

/-- What every start gives a core holds of each core that is started. -/
theorem core_startCores_mem {P : Core → Prop} (l : List (Nat × Nat)) {g : State → Nat × Nat → Core → Core}
    (hg : ∀ u e c, P (g u e c)) {e : Nat × Nat} (he : e ∈ l) (s : State) :
    P ((forEach l (fun e u => updCore e.1 (g u e) u) s).core e.1) := by
  induction l generalizing e s with
  | nil => nomatch he
  | cons d l ih =>
    change P ((forEach l (fun e u => updCore e.1 (g u e) u) (updCore d.1 (g s d) s)).core e.1)
    by_cases hlater : ∃ e' ∈ l, e'.1 = e.1
    · obtain ⟨e', he', hsame⟩ := hlater
      rw [← hsame]
      exact ih he' _
    · have hd : e = d := (List.mem_cons.mp he).resolve_right fun hmem => hlater ⟨e, hmem, rfl⟩
      rw [core_startCores_other l g (fun e' he' hsame => hlater ⟨e', he', hsame⟩), hd, core_updCore_same]
      exact hg ..

/-- A core has begun task n. -/
def begun (n : Nat) (c : Core) : Prop := c.task = some n ∧ c.pc = 0 ∧ c.flags = 0 ∧ c.inflight = []

theorem started_begun (c : Core) (n i : Nat) (stream : List (BitVec 64)) (r : CoreRec) : begun n (c.started n i stream r) :=
  ⟨rfl, rfl, rfl, rfl⟩

/-- From s to t tasks stay, and so does the memory below Basalt. -/
structure keepsTasks (s t : State) : Prop where
  tasks : t.tasks = s.tasks
  mem : ∀ a, a < basaltBase → memGet t.mem a = memGet s.mem a

theorem keepsTasks.trans {s t u : State} (h : keepsTasks s t) (k : keepsTasks t u) : keepsTasks s u :=
  ⟨k.tasks.trans h.tasks, fun a ha => (k.mem a ha).trans (h.mem a ha)⟩

/-- A grant keeps the tasks, the cores, and the memory below Basalt. -/
structure grants (s t : State) : Prop extends keepsTasks s t where
  cores : t.cores = s.cores

theorem grants.refl (s : State) : grants s s := ⟨⟨rfl, fun _ _ => rfl⟩, rfl⟩

theorem grants.trans {s t u : State} (h : grants s t) (k : grants t u) : grants s u :=
  ⟨h.tokeepsTasks.trans k.tokeepsTasks, k.cores.trans h.cores⟩

theorem grants_of_mem {s t : State} (htasks : t.tasks = s.tasks) (hcores : t.cores = s.cores) (hmem : t.mem = s.mem) : grants s t :=
  ⟨⟨htasks, fun _ _ => by rw [hmem]⟩, hcores⟩

theorem zero_grants (b n : Nat) (s : State) : grants s (zero (basaltBase + b) n s) :=
  ⟨⟨rfl, fun a ha => memClear_get.trans (if_neg (by omega))⟩, rfl⟩

/-- The cores of a placement, each at the start of its stream. -/
def startCores (n : Nat) (y : Task) (p : Program) (pl : Place) (s : State) : State :=
  forEach pl.cores.zipIdx (fun e u => updCore e.1 (fun c => (c.granted (u.tagOf (agCcc (e.1 / 8)) y.fn)).started n e.2
    (p.streams.getD e.2 []) (p.coreRecs.getD e.2 { spread := false, shadow := false, dataKib := 0 })) u) s

theorem startCores_keepsTasks (n : Nat) (y : Task) (p : Program) (pl : Place) (s : State) : keepsTasks s (startCores n y p pl s) :=
  forEach_rel (fun _ => ⟨rfl, fun _ _ => rfl⟩) .trans _ _ (fun _ _ => ⟨rfl, fun _ _ => rfl⟩) s

/-- A start grants counters, engines and Basalt to the cores that begin, and notes the task's place. -/
theorem startTask_eq (n : Nat) (y : Task) (p : Program) (pl : Place) (s : State) : ∃ u, grants (startCores n y p pl s) u ∧
    startTask n y p pl s = { u with tasks := Tab.put u.tasks n { y with place := some pl } } := by
  refine ⟨_, ?_, rfl⟩
  refine .trans (.trans (forEach_rel .refl .trans _ _ (fun _ _ => ?_) _) (forEach_rel .refl .trans _ _ (fun _ _ => ?_) _))
    (forEach_rel .refl .trans _ _ (fun b u => ?_) _)
  · exact grants_of_mem rfl rfl rfl
  · exact grants_of_mem rfl rfl rfl
  · extract_lets tag v
    have hv : grants u v := by
      unfold v
      split
      · exact .refl u
      · exact zero_grants _ _ u
    exact hv.trans (grants_of_mem rfl rfl rfl)

theorem startTask_spec (n : Nat) (y : Task) (p : Program) (pl : Place) (s : State) :
    let t := startTask n y p pl s
    Tab.find t.tasks n = some { y with place := some pl } ∧ (∀ m, m ≠ n → Tab.find t.tasks m = Tab.find s.tasks m) ∧
      (∀ k, k ∉ pl.cores → t.core k = s.core k) ∧ (∀ k ∈ pl.cores, begun n (t.core k)) ∧
      ∀ a, a < basaltBase → memGet t.mem a = memGet s.mem a := by
  intro t
  obtain ⟨u, hgrants, ht⟩ := startTask_eq n y p pl s
  obtain ⟨htasks, hmem⟩ := (startCores_keepsTasks n y p pl s).trans hgrants.tokeepsTasks
  have hcore (k : Nat) : t.core k = (startCores n y p pl s).core k :=
    (congrArg (fun v : State => v.core k) ht).trans (core_eq_of_cores hgrants.cores k)
  refine ⟨?_, fun m hm => ?_, fun k hk => ?_, fun k hk => ?_, fun a ha => ?_⟩
  · exact (congrArg (fun v : State => Tab.find v.tasks n) ht).trans (find_put_same ..)
  · exact (congrArg (fun v : State => Tab.find v.tasks m) ht).trans ((find_put_ne _ _ hm).trans (by rw [htasks]))
  · rw [hcore]
    exact core_startCores_other _ _ (fun e he hsame => hk (by rw [← hsame]; exact List.fst_mem_of_mem_zipIdx he)) s
  · rw [hcore]
    obtain ⟨i, hi, rfl⟩ := List.getElem_of_mem hk
    exact core_startCores_mem (e := (pl.cores[i], i)) _ (fun _ _ _ => started_begun ..) (List.mem_zipIdx_iff_getElem?.mpr (by simp)) s
  · exact (congrArg (fun v : State => memGet v.mem a) ht).trans (hmem a ha)

/-! ## The end of a task (R163) -/

theorem execTaskEnd_eq {n : Nat} {x : Task} {pl : Place} {s : State} (htask : Tab.find s.tasks n = some x) (hplace : x.place = some pl) :
    execTaskEnd n s = if pl.cores.all (fun k => (s.core k).idle) && decide (x.visCount ≤ x.visNext) then live s (endTask n stOk false s)
      else done s s := by
  unfold execTaskEnd
  rw [htask]
  dsimp only
  rw [hplace]

/-! ## Records of the vision program (R321, R322, R332) -/

/-- From s to t the memory alone has changed. -/
def onlyMem (s t : State) : Prop := { t with mem := s.mem } = s

theorem onlyMem.trans {a b c : State} (hab : onlyMem a b) (hbc : onlyMem b c) : onlyMem a c := by
  have hmem := congrArg (fun v : State => { v with mem := a.mem }) hbc
  exact hmem.trans hab

theorem forEach_onlyMem {α : Type} (l : List α) {f : α → State → State} (h : ∀ x s, onlyMem s (f x s)) (s : State) :
    onlyMem s (forEach l f s) :=
  forEach_rel (R := onlyMem) (fun _ => rfl) .trans l f h s

theorem bufWrite_onlyMem (units : List Nat) (off : Nat) (b : Bytes) (s : State) : onlyMem s (bufWrite units off b s) := by
  refine forEach_onlyMem _ (fun e t => ?_) s
  dsimp only
  split
  · rfl
  · rfl

/-- The units of buffer b of a vision task. -/
def visUnits (x : Task) (s : State) (b : Nat) : List Nat := s.bufUnits (if b = 0 then x.buf0 else if b = 1 then x.buf1 else x.buf2)

/-- What a vision task reads of its buffers. -/
def visReader (x : Task) (s : State) : Reader := fun b off k => leNat (bufRead (visUnits x s b) off k s)

/-- The record that a vision task is at. -/
def nextRec (x : Task) (s : State) : VisRec := visRec (bufRead (visUnits x s 2) (x.visOff + 128 * x.visNext) 128 s)

/-- The formats of the record that a vision task is at, where its list holds it and it runs. -/
def nextRuns (x : Task) (s : State) : Option (Fmt × Fmt) :=
  let handle := fun (b : Nat) => if b = 0 then x.buf0 else if b = 1 then x.buf1 else x.buf2
  let inList := decide (x.visOff + 128 * x.visNext + 128 ≤ (visUnits x s 2).length * unitBytes4M)
  if inList then
    (nextRec x s).runs (fun b => (visUnits x s b).length * unitBytes4M) (fun a b => handle a == handle b)
  else none

theorem nextRuns_eq (x : Task) (s : State) :
    let handle := fun (b : Nat) => if b = 0 then x.buf0 else if b = 1 then x.buf1 else x.buf2
    let units := fun (b : Nat) => s.bufUnits (handle b)
    let off := x.visOff + 128 * x.visNext
    let r := visRec (bufRead (units 2) off 128 s)
    nextRuns x s = if off + 128 ≤ (units 2).length * unitBytes4M then
      r.runs (fun b => (units b).length * unitBytes4M) (fun a b => handle a == handle b) else none := by
  exact if_congr decide_eq_true_iff rfl rfl

/-- The memory with the results of the record that a vision task is at. -/
def visWritten (x : Task) (fi fo : Fmt) (s : State) : State :=
  forEach ((nextRec x s).result (visReader x s) fi fo).1 (fun e u => bufWrite (visUnits x s (nextRec x s).outBuf) e.1 e.2 u) s

theorem visWritten_onlyMem (x : Task) (fi fo : Fmt) (s : State) : onlyMem s (visWritten x fi fo s) :=
  forEach_onlyMem _ (fun _ _ => bufWrite_onlyMem ..) s

/-- The record that a vision task is at is skipped and counted. -/
def recordSkipped (n : Nat) (x : Task) (s : State) : State :=
  bump x.fn cViolVisionParam { s with tasks := Tab.put s.tasks n { x with
    visNext := x.visNext + 1, visSkipped := x.visSkipped + 1, visFirst := if x.visSkipped = 0 then x.visNext else x.visFirst } }

/-- The record that a vision task is at is done, its results written. -/
def recordDone (n : Nat) (x : Task) (fi fo : Fmt) (s : State) : State :=
  let u := bump x.fn cVisionRecords (bumpBy x.fn cViolVisionBox ((nextRec x s).result (visReader x s) fi fo).2 (visWritten x fi fo s))
  { u with tasks := Tab.put u.tasks n { x with visNext := x.visNext + 1, visDone := x.visDone + 1 } }

theorem recordDone_spec (n : Nat) (x : Task) (fi fo : Fmt) (s : State) :
    let t := recordDone n x fi fo s
    Tab.find t.tasks n = some { x with visNext := x.visNext + 1, visDone := x.visDone + 1 } ∧ t.mem = (visWritten x fi fo s).mem ∧
      { t with tasks := s.tasks, mem := s.mem, cnt := s.cnt, fcnt := s.fcnt } = s := by
  have hmem := visWritten_onlyMem x fi fo s
  unfold recordDone
  generalize visWritten x fi fo s = w at hmem ⊢
  exact ⟨find_put_same .., rfl, congrArg (fun v : State => { v with tasks := s.tasks, cnt := s.cnt, fcnt := s.fcnt }) hmem⟩

section Records

variable {n : Nat} {x : Task} {pl : Place} {s : State} (htask : Tab.find s.tasks n = some x) (hplace : x.place = some pl)
  (hpaused : x.paused = false) (hnext : x.visNext < x.visCount) (hready : pl.cores.all (fun k => s.isReady (rCl (k / 8))) = true)
include htask hplace hpaused hnext hready

theorem execVisionRecord_eq : execVisionRecord n s = match nextRuns x s with
    | none => live s (recordSkipped n x s)
    | some (fi, fo) => live s (recordDone n x fi fo s) := by
  have hguard : ¬ (x.paused || x.visCount ≤ x.visNext || !pl.cores.all (fun k => s.isReady (rCl (k / 8)))) = true := by
    simp [hpaused, hready, hnext]
  unfold execVisionRecord
  split
  next hnone => nomatch hnone.symm.trans htask
  next x' htask' =>
    obtain rfl := Option.some.inj (htask.symm.trans htask')
    split
    next hnone => nomatch hnone.symm.trans hplace
    next pl' hplace' =>
      obtain rfl := Option.some.inj (hplace.symm.trans hplace')
      rw [if_neg hguard]
      extract_lets units handle get off r inList
      have hruns : (if inList = true then r.runs (fun b => (units b).length * unitBytes4M) (fun a b => handle a == handle b) else none) =
        nextRuns x s := rfl
      rw [hruns]
      cases nextRuns x s with
      | none => rfl
      | some formats => rfl

theorem execVisionRecord_skips (h : nextRuns x s = none) : execVisionRecord n s = live s (recordSkipped n x s) := by
  rw [execVisionRecord_eq htask hplace hpaused hnext hready, h]

theorem execVisionRecord_runs {fi fo : Fmt} (h : nextRuns x s = some (fi, fo)) :
    execVisionRecord n s = live s (recordDone n x fi fo s) := by
  rw [execVisionRecord_eq htask hplace hpaused hnext hready, h]

end Records

/-- Settles O53: placing by what the list's header and the clusters allow, then the end of a task, then a record that is skipped and one
that runs. -/
theorem tasksAndVision : Obligations.TasksAndVision := by
  intro n x s ha htask
  refine ⟨fun p hprog hplace hpaused hsch hcrit hfirst => ?_, fun hplace => execTaskPlaced_placed htask hplace,
    fun pl hplace hidle hend => ?_, fun pl hplace hidle => ?_, fun pl hplace hpaused hnext hready => ?_⟩
  · have hexec := execTaskPlaced_eq htask hprog hplace hpaused hsch hcrit hfirst
    refine ⟨fun h => ?_, fun h hroom => ?_, fun h hroom hwait => ?_, fun h hroom hstep pl hfound => ?_⟩
    · exact endsIn_of_live ha (hexec.trans (placeTask_noRecords (withHeader_fn x p s) h))
    · exact endsIn_of_live ha (hexec.trans (placeTask_tooLarge h hroom))
    · exact hexec.trans (placeTask_waits h hroom hwait)
    · obtain ⟨hfind, hothers, hcores, hbegun, hmem⟩ := startTask_spec n (withHeader x p s) p pl s
      exact ⟨endsIn_of_live ha (hexec.trans (placeTask_starts h hroom hstep hfound)), hfind, hothers, hcores, hbegun, hmem⟩
  · refine endsIn_of_live ha ((execTaskEnd_eq htask hplace).trans (if_pos ?_))
    rw [hidle, decide_eq_true hend]
    rfl
  · refine (execTaskEnd_eq htask hplace).trans (if_neg ?_)
    rw [hidle]
    exact Bool.false_ne_true
  · have hruns := nextRuns_eq x s
    have hskips := execVisionRecord_skips htask hplace hpaused hnext hready
    have hwrites {fi fo : Fmt} := execVisionRecord_runs (fi := fi) (fo := fo) htask hplace hpaused hnext hready
    refine ⟨fun h => endsIn_of_live ha (hskips (hruns.trans h)), fun fi fo h => ?_⟩
    obtain ⟨hfind, hmem, hframe⟩ := recordDone_spec n x fi fo s
    exact completes_of_endsIn (endsIn_of_live ha (hwrites (hruns.trans h)))
      ⟨hfind, hmem, congrArg (fun v : State => { v with pending := s.pending }) hframe⟩

end Sys2Proof.Proofs
end

section
/-! PROOFS of the statement on the training of HBM stacks (R201 to R203, R205). -/

namespace Sys2Proof.Proofs

open Sys2Proof.Machine Sys2Proof.Safety Sys2Proof.Laws

/-! ## The two ends of a training -/

/-- From s to t the memory, the pins, the power state, the fabric and the serving service are kept. -/
structure keepsOutside (s t : State) : Prop where
  mem : t.mem = s.mem
  pins : t.pins = s.pins
  power : t.power = s.power
  fab : t.fab = s.fab
  serve : t.serve = s.serve

theorem keepsOutside.trans {s t u : State} (h : keepsOutside s t) (k : keepsOutside t u) : keepsOutside s u :=
  ⟨k.mem.trans h.mem, k.pins.trans h.pins, k.power.trans h.power, k.fab.trans h.fab, k.serve.trans h.serve⟩

theorem keepsOutside.of_reports {s t : State} (h : reportsOnly s t) : keepsOutside s t :=
  ⟨h.mem, h.pins, h.power, h.fab, h.serve⟩

theorem setReady_keepsOutside (b : Nat) (v : Bool) (s : State) : keepsOutside s (setReady b v s) :=
  ⟨setReady_mem .., setReady_pins .., setReady_power .., setReady_fab .., setReady_serve ..⟩

/-- From s to t stack h has become y, every other stack and READY_MAP are kept, and so is what lies outside the stacks. -/
structure stackBecomes (h : Nat) (y : Hbm) (s t : State) : Prop where
  hbm : t.hbm = Tab.put s.hbm h y
  ready : t.ready = s.ready
  outside : keepsOutside s t

theorem stackBecomes.after {h : Nat} {y : Hbm} {s t u : State} (k : stackBecomes h y t u) (hst : reportsOnly s t) :
    stackBecomes h y s u :=
  ⟨by rw [k.hbm, hst.hbm], k.ready.trans hst.ready, (keepsOutside.of_reports hst).trans k.outside⟩

theorem stackBecomes.reports {h : Nat} {y : Hbm} {s t u : State} (k : stackBecomes h y s t) (htu : reportsOnly t u) :
    stackBecomes h y s u :=
  ⟨htu.hbm.trans k.hbm, htu.ready.trans k.ready, k.outside.trans (.of_reports htu)⟩

/-- The state once the rate asked for has been tried: where it fails and is not the fallback itself, that is counted (R202). -/
def rateTried (okAtRate : Bool) (s : State) : State :=
  if !okAtRate && s.settings.hbmRate != 0 then bumpPart cHbmRateFallback s else s

theorem rateTried_reports (okAtRate : Bool) (s : State) : reportsOnly s (rateTried okAtRate s) := by
  unfold rateTried
  split
  · exact bumpPart_reports ..
  · exact .refl s

/-- Stack h enters service as y; until SCH has taken its units it joins the order of the usable stacks (R201, R205). -/
def entersService (h : Nat) (y : Hbm) (s : State) : State :=
  let t := { s with hbm := Tab.put s.hbm h y }
  if t.store.schUnits = 0 then
    let l := (List.range 6).filter (fun k => (Tab.get {} t.hbm k).usable)
    { t with store := { t.store with order := l, nStacks := l.length } }
  else t

theorem entersService_becomes (h : Nat) (y : Hbm) (s : State) : stackBecomes h y s (entersService h y s) := by
  unfold entersService
  extract_lets t l
  split
  · exact ⟨rfl, rfl, rfl, rfl, rfl, rfl, rfl⟩
  · exact ⟨rfl, rfl, rfl, rfl, rfl, rfl, rfl⟩

/-- Stack h has failed as y: the management controller hears of it, and the PF once SCH runs (R205). -/
def failsTraining (h : Nat) (y : Hbm) (s : State) : State :=
  let t := pldmEvent evHbm h { s with hbm := Tab.put s.hbm h y }
  if t.schRuns then postEvent evHbm stOk h t else { t with boot := { t.boot with lateHbm := t.boot.lateHbm ++ [h] } }

theorem failsTraining_becomes (h : Nat) (y : Hbm) (s : State) : stackBecomes h y s (failsTraining h y s) := by
  have hput : stackBecomes h y s { s with hbm := Tab.put s.hbm h y } := ⟨rfl, rfl, rfl, rfl, rfl, rfl, rfl⟩
  have ht := hput.reports (pldmEvent_reports evHbm h _)
  unfold failsTraining
  extract_lets t
  split
  · exact ht.reports (postEvent_reports ..)
  · exact ⟨ht.hbm, ht.ready, ht.outside.trans ⟨rfl, rfl, rfl, rfl, rfl⟩⟩

/-! ## The command -/

/-- A stack trains at the rate asked for, or else, that not being the fallback itself, at the fallback (R202). -/
def someRateTrains (okAtRate okAtBase : Bool) (s : State) : Bool := okAtRate || (s.settings.hbmRate != 0 && okAtBase)

/-- The state that a training of stack h ends in. -/
def trainingEnds (h : Nat) (a b : Bool) (s : State) : State :=
  let x := Tab.get {} s.hbm h
  if someRateTrains a b s then setReady (rHbm h) true
    (entersService h { x with usable := true, rate := if a then s.settings.hbmRate else 0 } (rateTried a s))
  else failsTraining h { x with failed := true } (rateTried a s)

theorem hbmTrainingDone_endsIn {h : StackId} {a b : Bool} {s : State} (ha : awake s) (hdecided : s.prov.decided = true)
    (hmask : s.settings.hbmMask.getLsbD h.val = false) (husable : (Tab.get {} s.hbm h.val).usable = false)
    (hfailed : (Tab.get {} s.hbm h.val).failed = false) :
    endsIn (.hbmTrainingDone h a b) s (trainingEnds h.val a b s) := by
  refine endsIn_of_live ha ((if_neg ?_).trans (apply_ite (live s) (someRateTrains a b s = true) _ _).symm)
  rw [hdecided, hmask, husable, hfailed]
  exact Bool.false_ne_true

/-- A stack that trains enters service, and its READY_MAP bit is set. -/
theorem trainingEnds_trained {h : Nat} {a b : Bool} {s : State} (hb : rHbm h < 32) (hok : someRateTrains a b s = true) :
    Tab.get {} (trainingEnds h a b s).hbm h =
        { Tab.get {} s.hbm h with usable := true, rate := if a then s.settings.hbmRate else 0 } ∧
      (trainingEnds h a b s).isReady (rHbm h) = true ∧ keepsOutside s (trainingEnds h a b s) := by
  have hbecomes := (entersService_becomes h { Tab.get {} s.hbm h with
    usable := true, rate := if a then s.settings.hbmRate else 0 } _).after (rateTried_reports a s)
  rw [trainingEnds, if_pos hok]
  refine ⟨?_, ?_, hbecomes.outside.trans (setReady_keepsOutside ..)⟩
  · rw [setReady_hbm, hbecomes.hbm, get_put_same]
  · rw [isReady_setReady _ _ _ hb, if_pos rfl]

/-- A stack that does not has failed, and READY_MAP is kept. -/
theorem trainingEnds_failed {h : Nat} {a b : Bool} {s : State} (hok : someRateTrains a b s = false) :
    Tab.get {} (trainingEnds h a b s).hbm h = { Tab.get {} s.hbm h with failed := true } ∧
      (trainingEnds h a b s).ready = s.ready ∧ keepsOutside s (trainingEnds h a b s) := by
  have hbecomes := (failsTraining_becomes h { Tab.get {} s.hbm h with failed := true } _).after (rateTried_reports a s)
  rw [trainingEnds, if_neg (by simp [hok])]
  exact ⟨by rw [hbecomes.hbm, get_put_same], hbecomes.ready, hbecomes.outside⟩

/-- Settles O6, by whether the stack trains at one of the rates. -/
theorem hbmTrainingOutcome : Obligations.HbmTrainingOutcome := by
  intro h a b s ha hdecided hmask husable hfailed
  refine completes_of_endsIn (hbmTrainingDone_endsIn ha hdecided hmask husable hfailed) ?_
  rw [Bool.or_assoc]
  change _ = someRateTrains a b s ∧ _ = !someRateTrains a b s ∧ _ ∧ _ ∧ _ = (_ || someRateTrains a b s) ∧ _
  cases hok : someRateTrains a b s with
  | true =>
    obtain ⟨hstack, hready, hkept⟩ := trainingEnds_trained (h := h.val) (show 7 + h.val < 32 by omega) hok
    refine ⟨congrArg Hbm.usable hstack, (congrArg Hbm.failed hstack).trans hfailed, fun hrate => ?_, fun hrate _ _ => ?_,
      hready.trans (Bool.or_true _).symm, hkept.mem, hkept.pins, hkept.power, hkept.fab, hkept.serve⟩
    · exact (congrArg Hbm.rate hstack).trans (if_pos hrate)
    · exact (congrArg Hbm.rate hstack).trans (if_neg (by simp [hrate]))
  | false =>
    obtain ⟨hstack, hready, hkept⟩ := trainingEnds_failed (h := h.val) hok
    obtain ⟨hrate, hbase⟩ := Bool.or_eq_false_iff.mp hok
    refine ⟨(congrArg Hbm.usable hstack).trans husable, congrArg Hbm.failed hstack, fun htrue => ?_, fun _ hne htrue => ?_,
      (congrArg (BitVec.getLsbD · _) hready).trans (Bool.or_false _).symm, hkept.mem, hkept.pins, hkept.power, hkept.fab,
      hkept.serve⟩
    · exact absurd (hrate.symm.trans htrue) Bool.false_ne_true
    · simp [hne, htrue] at hbase

end Sys2Proof.Proofs
end

section
/-! PROOFS of what stays as it is when requests end and when a chunk of a model's copy is lost: everything but the KV page store, the
serving service, the fabric and what is reported (R279, R285, R297). -/

namespace Sys2Proof.Proofs

open Sys2Proof.Machine Sys2Proof.Safety Sys2Proof.Laws

/-- From s to t at most the KV page store, the serving service, the fabric and what operations report have changed. -/
def onlyServing (s t : State) : Prop :=
  { t with kv := s.kv, serve := s.serve, fab := s.fab, funcs := s.funcs, out := s.out, cnt := s.cnt, fcnt := s.fcnt,
           free := s.free } = s

theorem onlyServing.refl (s : State) : onlyServing s s := rfl

theorem onlyServing.trans {s t u : State} (h : onlyServing s t) (k : onlyServing t u) : onlyServing s u := by
  have hback := congrArg (fun v : State => { v with
    kv := s.kv, serve := s.serve, fab := s.fab, funcs := s.funcs, out := s.out, cnt := s.cnt, fcnt := s.fcnt, free := s.free }) k
  exact hback.trans h

/-- A step may be led by another. -/
theorem onlyServing.after {s t u : State} (k : onlyServing t u) (h : onlyServing s t) : onlyServing s u := h.trans k

theorem onlyServing.of_reports {s t : State} (h : reportsOnly s t) : onlyServing s t := by
  unfold reportsOnly at h
  exact congrArg (fun v : State => { v with kv := s.kv, serve := s.serve, fab := s.fab }) h

theorem onlyServing.store {s t : State} (h : onlyServing s t) : t.store = s.store := by
  have hstore := congrArg State.store h
  exact hstore

theorem updServe_onlyServing (g : Serve → Serve) (s : State) : onlyServing s (updServe g s) := rfl
theorem updFab_onlyServing (g : Fab → Fab) (s : State) : onlyServing s (updFab g s) := rfl
theorem updPort_onlyServing (p : Nat) (g : Port → Port) (s : State) : onlyServing s (updPort p g s) := updFab_onlyServing ..
theorem updKv_onlyServing (g : Kv → Kv) (s : State) : onlyServing s (updKv g s) := rfl
theorem bump_onlyServing (f k : Nat) (s : State) : onlyServing s (bump f k s) := .of_reports (bump_reports ..)

theorem forEach_onlyServing {α : Type} (l : List α) {f : α → State → State} (h : ∀ x s, onlyServing s (f x s)) (s : State) :
    onlyServing s (forEach l f s) := forEach_rel .refl .trans l f h s

theorem onlyServing_ite {c : Prop} [Decidable c] {s a b : State} (ha : onlyServing s a) (hb : onlyServing s b) :
    onlyServing s (if c then a else b) := by
  split
  · exact ha
  · exact hb

theorem updCtx_onlyServing (i : Nat) (g : Ctx → Ctx) (s : State) : onlyServing s (updCtx i g s) := by
  unfold updCtx
  split
  · exact .refl s
  · exact updServe_onlyServing ..

/-! ## Messages -/

theorem pump_onlyServing (p n : Nat) (s : State) : onlyServing s (pump p n s) := by
  induction n generalizing s with
  | zero => exact .refl s
  | succ n ih =>
    unfold pump
    extract_lets x owed
    split
    · exact .refl s
    · split
      · exact .refl s
      · extract_lets fr left y
        exact ((updPort_onlyServing ..).trans (.of_reports (emit_reports ..))).trans (ih _)

theorem sendMsg_onlyServing (dest cls mtype : Nat) (tag : BitVec 32) (body : Bytes) (s : State) :
    onlyServing s (sendMsg dest cls mtype tag body s) := by
  unfold sendMsg
  split
  · exact .refl s
  · exact ((updFab_onlyServing ..).trans (updPort_onlyServing ..)).trans (pump_onlyServing ..)

/-! ## Pages -/

theorem freeFrame_onlyServing (k : Nat) (s : State) : onlyServing s (freeFrame k s) := by
  have habandon : onlyServing s (abandonSeal k s) :=
    onlyServing_ite (.after (bump_onlyServing ..) (updKv_onlyServing ..)) (.refl s)
  exact habandon.trans (updKv_onlyServing ..)

theorem freePages_onlyServing (idx : Nat) (s : State) : onlyServing s (freePages idx s) := by
  refine forEach_onlyServing _ (fun k t => ?_) s
  split
  · exact .refl t
  · exact updKv_onlyServing ..
  · exact (freeFrame_onlyServing k t).trans (updKv_onlyServing ..)

/-! ## Requests -/

theorem dropShips_onlyServing (idx reason : Nat) (s : State) : onlyServing s (dropShips idx reason s) := by
  unfold dropShips
  extract_lets mine t
  have ht : onlyServing s t := updServe_onlyServing ..
  split
  · exact ht
  · refine ht.trans (forEach_onlyServing _ (fun m u => ?_) t)
    exact onlyServing_ite (.refl u) (.after (onlyServing_ite (bump_onlyServing ..) (.refl _)) (sendMsg_onlyServing ..))

theorem dropWork_onlyServing (idx : Nat) (st : Status) (s : State) : onlyServing s (dropWork idx st s) := by
  unfold dropWork
  extract_lets t u
  have ht : onlyServing s t := dropShips_onlyServing ..
  have hu : onlyServing s u := ht.trans (freePages_onlyServing idx t)
  split
  · exact ht.trans (.after (updCtx_onlyServing ..) (updServe_onlyServing ..))
  · split
    · exact hu
    · exact hu.trans (onlyServing_ite (updCtx_onlyServing ..) (updServe_onlyServing ..))

theorem checkSettled_onlyServing (f : Nat) (s : State) : onlyServing s (checkSettled f s) :=
  onlyServing_ite (.of_reports (updFn_reports ..)) (.refl s)

theorem finishHome_onlyServing (idx : Nat) (st : Status) (end1 : Bool) (s : State) : onlyServing s (finishHome idx st end1 s) := by
  unfold finishHome
  split
  · exact .refl s
  · split
    · exact .refl s
    · extract_lets e t u
      have ht : onlyServing s t := .of_reports (post_reports ..)
      have hu : onlyServing t u := onlyServing_ite (bump_onlyServing ..) (.refl t)
      exact ((ht.trans hu).trans (updCtx_onlyServing ..)).trans (checkSettled_onlyServing ..)

theorem tellHolders_onlyServing (idx : Nat) (c : Ctx) (st : Status) (s : State) : onlyServing s (tellHolders idx c st s) :=
  forEach_onlyServing _ (fun _ _ => sendMsg_onlyServing ..) s

theorem endRequest_onlyServing (idx : Nat) (st : Status) (s : State) : onlyServing s (endRequest idx st s) := by
  unfold endRequest
  split
  · exact .refl s
  · split
    · exact .refl s
    · split
      · exact ((finishHome_onlyServing ..).trans (tellHolders_onlyServing ..)).trans (dropWork_onlyServing ..)
      · extract_lets t u
        have ht : onlyServing s t := sendMsg_onlyServing ..
        have hu : onlyServing t u := onlyServing_ite (bump_onlyServing ..) (.refl t)
        exact ((ht.trans hu).trans (updCtx_onlyServing ..)).trans (dropWork_onlyServing ..)

/-! ## Copies of models -/

theorem poolChanged_onlyServing (s : State) : onlyServing s (poolChanged s) := by
  have hview (t : State) : onlyServing t (sendView t) := forEach_onlyServing _ (fun _ _ => sendMsg_onlyServing ..) t
  exact .after (hview _) (updServe_onlyServing ..)

theorem updCopy_onlyServing (k : Nat) (g : Copy → Copy) (s : State) : onlyServing s (updCopy k g s) := updServe_onlyServing ..

theorem damageCopy_onlyServing (k : Nat) (s : State) : onlyServing s (damageCopy k s) := by
  unfold damageCopy
  extract_lets t u
  have ht : onlyServing s t := .after (updServe_onlyServing ..) (updCopy_onlyServing k _ s)
  have hu : onlyServing t u := forEach_onlyServing _ (fun _ _ => endRequest_onlyServing ..) t
  exact (ht.trans hu).trans (poolChanged_onlyServing u)

theorem loseChunk_onlyServing (k chunk : Nat) (s : State) : onlyServing s (loseChunk k chunk s) := by
  unfold loseChunk
  split
  · exact .refl s
  · split
    · exact .refl s
    · extract_lets t id
      have ht : onlyServing s t := updCopy_onlyServing ..
      split
      · exact ht.trans (damageCopy_onlyServing k t)
      · exact ht.trans (.after (sendMsg_onlyServing ..) (updServe_onlyServing ..))

end Sys2Proof.Proofs
end

section
/-! PROOFS of the statement on errors of the memories: the temperature of a stack, scrubbing, the loss of a stack and uncorrectable
units (R204 to R207, R279, R341, R430, R432). -/

namespace Sys2Proof.Proofs

open Sys2Proof.Machine Sys2Proof.Safety Sys2Proof.Laws

/-! ## The critical state (R432, R433) -/

/-- From s to t at most the power state and the part's counters have changed. -/
def onlyPower (s t : State) : Prop := { t with power := s.power, cnt := s.cnt } = s

theorem onlyPower.trans {s t u : State} (h : onlyPower s t) (k : onlyPower t u) : onlyPower s u := by
  have hback := congrArg (fun v : State => { v with power := s.power, cnt := s.cnt }) k
  exact hback.trans h

theorem updPower_onlyPower (g : Power → Power) (s : State) : onlyPower s (updPower g s) := rfl

theorem abandonUp_onlyPower (s : State) : onlyPower s (abandonUp s) := by
  unfold abandonUp
  split
  · rfl
  · rfl

/-- The operating point moves in the power state alone; a change that is abandoned on the way is counted. -/
theorem setPoint_onlyPower (p : Nat) (s : State) : onlyPower s (setPoint p s) := by
  unfold setPoint
  split
  · split
    · exact updPower_onlyPower ..
    · split
      · exact updPower_onlyPower ..
      · exact (abandonUp_onlyPower s).trans (updPower_onlyPower ..)
  · extract_lets t
    have ht : onlyPower s t := updPower_onlyPower ..
    repeat' split
    all_goals exact ht.trans (updPower_onlyPower ..)

@[simp] theorem setPoint_hbm (p : Nat) (s : State) : (setPoint p s).hbm = s.hbm := by
  have h := congrArg State.hbm (setPoint_onlyPower p s)
  exact h

@[simp] theorem setPoint_kv (p : Nat) (s : State) : (setPoint p s).kv = s.kv := by
  have h := congrArg State.kv (setPoint_onlyPower p s)
  exact h

@[simp] theorem setPoint_thermal (p : Nat) (s : State) : (setPoint p s).thermal = s.thermal := by
  have h := congrArg State.thermal (setPoint_onlyPower p s)
  exact h

@[simp] theorem enterCritical_hbm (source : Nat) (temp : Int) (s : State) : (enterCritical source temp s).hbm = s.hbm := by
  unfold enterCritical
  split
  · rfl
  · simp [thermalEvent]

@[simp] theorem enterCritical_kv (source : Nat) (temp : Int) (s : State) : (enterCritical source temp s).kv = s.kv := by
  unfold enterCritical
  split
  · rfl
  · simp [thermalEvent]

theorem enterCritical_critical (source : Nat) (temp : Int) (s : State) : (enterCritical source temp s).thermal.critical = true := by
  unfold enterCritical
  split
  · assumption
  · simp [thermalEvent, updThermal]

@[simp] theorem judgeCritical_hbm (s : State) : (judgeCritical s).hbm = s.hbm := by
  unfold judgeCritical
  split
  · exact enterCritical_hbm ..
  · split
    · exact enterCritical_hbm ..
    · rfl

@[simp] theorem judgeCritical_kv (s : State) : (judgeCritical s).kv = s.kv := by
  unfold judgeCritical
  split
  · exact enterCritical_kv ..
  · split
    · exact enterCritical_kv ..
    · rfl

/-- A usable stack that reports a temperature is judged by it. -/
theorem mem_judged {s : State} {h : Nat} {v : Int} (hlt : h < 6) (husable : (s.stack h).usable = true)
    (hsilent : (s.stack h).silent = false) (htemp : (s.stack h).temp = some v) : (h, v) ∈ s.judged := by
  refine List.mem_filterMap.mpr ⟨h, List.mem_range.mpr hlt, ?_⟩
  unfold State.stack at husable hsilent htemp
  simp [husable, hsilent, htemp]

/-- A stack that is judged at 105 °C or more makes the part critical. -/
theorem judgeCritical_critical {s : State} {e : Nat × Int} (hmem : e ∈ s.judged) (hhot : 840 ≤ e.2) :
    (judgeCritical s).thermal.critical = true := by
  unfold judgeCritical
  split
  · exact enterCritical_critical ..
  · split
    · exact enterCritical_critical ..
    · next hnone => exact absurd (decide_eq_true hhot) (List.find?_eq_none.mp hnone e hmem)

/-! ## The temperature of a stack (R204, R430) -/

/-- A stack that has been read, or that has stayed silent. -/
def takesReading (temp : Option Int) (y : Hbm) : Hbm :=
  { y with silent := temp.isNone, temp := (temp.map (8 * ·)).or y.temp }

/-- A stack with refresh and throttle as a temperature in 0.125 °C sets them. -/
def adjusted (v : Int) (y : Hbm) : Hbm :=
  { y with
    halved := if 680 ≤ v then true else if v ≤ 664 then false else y.halved,
    throttled := if 760 ≤ v then true else if v ≤ 736 then false else y.throttled }

theorem stack_updStack_same (h : Nat) (g : Hbm → Hbm) (s : State) : (updStack h g s).stack h = g (s.stack h) := get_upd_same ..

theorem stack_eq_of_hbm {s t : State} (h : t.hbm = s.hbm) (k : Nat) : t.stack k = s.stack k :=
  congrArg (fun x => Tab.get ({} : Hbm) x k) h

theorem stackTemp_reports (h : Nat) (v : Int) (s : State) : reportsOnly (updStack h (adjusted v) s) (stackTemp h v s) := by
  unfold stackTemp
  extract_lets x t
  split
  · exact (bumpPart_reports ..).trans (postEvent_reports ..)
  · exact .refl t

theorem stack_stackTemp (h : Nat) (v : Int) (s : State) : (stackTemp h v s).stack h = adjusted v (s.stack h) :=
  (stack_eq_of_hbm (stackTemp_reports h v s).hbm h).trans (stack_updStack_same ..)

/-- The state in which a report of a stack has been judged. -/
def reportJudged (h : Nat) (temp : Option Int) (s : State) : State :=
  judgeCritical (stackTemp h ((temp.map (8 * ·)).getD 760) (updStack h (takesReading temp) s))

theorem reportJudged_kv (h : Nat) (temp : Option Int) (s : State) : (reportJudged h temp s).kv = s.kv :=
  (judgeCritical_kv _).trans (stackTemp_reports ..).kv

theorem reportJudged_mem (h : Nat) (temp : Option Int) (s : State) : (reportJudged h temp s).mem = s.mem :=
  (judgeCritical_mem _).trans (stackTemp_mem ..)

/-- A silent stack counts as 95 °C. -/
theorem stack_reportJudged (h : Nat) (temp : Option Int) (s : State) :
    (reportJudged h temp s).stack h = adjusted ((temp.map (8 * ·)).getD 760) (takesReading temp (s.stack h)) := by
  rw [reportJudged, stack_eq_of_hbm (judgeCritical_hbm _), stack_stackTemp, stack_updStack_same]

theorem reportJudged_critical {h : Nat} {v : Int} {s : State} (hlt : h < 6) (husable : (s.stack h).usable = true) (hv : 105 ≤ v) :
    (reportJudged h (some v) s).thermal.critical = true := by
  have hstack : (stackTemp h (8 * v) (updStack h (takesReading (some v)) s)).stack h =
      adjusted (8 * v) (takesReading (some v) (s.stack h)) := by rw [stack_stackTemp, stack_updStack_same]
  exact judgeCritical_critical (mem_judged hlt ((congrArg Hbm.usable hstack).trans husable) (congrArg Hbm.silent hstack)
    (congrArg Hbm.temp hstack)) (show 840 ≤ 8 * v by omega)

theorem hbmTempRead_endsIn {h : StackId} {s : State} (ha : awake s) (husable : (s.stack h.val).usable = true)
    (hfailed : (s.stack h.val).failed = false) (hlost : (s.stack h.val).lost = false)
    (hmask : s.settings.hbmMask.getLsbD h.val = false) (temp : Option Int) :
    endsIn (.hbmTempRead h temp) s (reportJudged h.val temp s) := by
  refine endsIn_of_live ha ((if_neg ?_).trans (if_neg ?_))
  · rw [hfailed, hlost, hmask]
    exact Bool.false_ne_true
  · rw [husable]
    exact Bool.false_ne_true

/-- What a report of a stack in use leaves of it and of the part. -/
theorem hbmTempRead_completes {h : StackId} {s : State} (ha : awake s) (husable : (s.stack h.val).usable = true)
    (hfailed : (s.stack h.val).failed = false) (hlost : (s.stack h.val).lost = false)
    (hmask : s.settings.hbmMask.getLsbD h.val = false) (temp : Option Int) :
    completes (.hbmTempRead h temp) s (fun t =>
      t.stack h.val = adjusted ((temp.map (8 * ·)).getD 760) (takesReading temp (s.stack h.val)) ∧
      (∀ v, temp = some v → 105 ≤ v → t.thermal.critical = true) ∧ t.mem = s.mem ∧ t.kv = s.kv) := by
  have hends := hbmTempRead_endsIn ha husable hfailed hlost hmask temp
  have hstack := stack_reportJudged h.val temp s
  have hcritical (v : Int) (htemp : temp = some v) (hv : 105 ≤ v) : (reportJudged h.val temp s).thermal.critical = true := by
    rw [htemp]
    exact reportJudged_critical h.isLt husable hv
  have hmem := reportJudged_mem h.val temp s
  have hkv := reportJudged_kv h.val temp s
  generalize reportJudged h.val temp s = t at *
  exact completes_of_endsIn hends ⟨hstack, hcritical, hmem, hkv⟩

/-! ## Scrubbing (R204, R206) -/

/-- The addresses of a list that lie in stack h (R201). -/
def addressesOf (h : Nat) (s : State) (l : List Nat) : List Nat :=
  l.filter (fun a => decide (a < s.totalUnits * unitBytes4M) && (s.hbmPlace a).1 == h)

/-- The state in which a scrub has counted what it corrected, and retired what it could not. -/
def scrubbed (h : Nat) (corrected uncorrectable : List Nat) (s : State) : State :=
  forEach (addressesOf h s uncorrectable) (fun a t => weightUe a (ueRead a t))
    (forEach (addressesOf h s corrected) (fun a t => bumpOwner (s.fnAt a) cHbmCe t) s)

/-- From s to t the counters alone have changed. -/
def onlyCounts (s t : State) : Prop := { t with cnt := s.cnt, fcnt := s.fcnt } = s

theorem onlyCounts.trans {s t u : State} (h : onlyCounts s t) (k : onlyCounts t u) : onlyCounts s u := by
  have hback := congrArg (fun v : State => { v with cnt := s.cnt, fcnt := s.fcnt }) k
  exact hback.trans h

theorem onlyCounts.store {s t : State} (h : onlyCounts s t) : t.store = s.store := by
  have hstore := congrArg State.store h
  exact hstore

theorem bumpOwner_onlyCounts (f : Option Nat) (k : Nat) (s : State) : onlyCounts s (bumpOwner f k s) := by
  cases f with
  | none => rfl
  | some f => rfl

theorem forEach_bumpOwner_onlyCounts {α : Type} (l : List α) (f : α → Option Nat) (k : Nat) (s : State) :
    onlyCounts s (forEach l (fun a => bumpOwner (f a) k) s) :=
  forEach_rel (R := onlyCounts) (fun _ => rfl) .trans l _ (fun a t => bumpOwner_onlyCounts (f a) k t) s

theorem retire_retired (g : Nat) (s : State) : (retire g s).store.retired =
    if s.store.retired.contains g then s.store.retired else g :: s.store.retired := by
  unfold retire
  split
  · rfl
  · rfl

theorem mem_ueRead_retired {a g : Nat} {s : State} :
    g ∈ (ueRead a s).store.retired ↔ g = a / 4096 ∨ g ∈ s.store.retired := by
  rw [ueRead, retire_retired, (bumpOwner_onlyCounts ..).store]
  split
  · next h =>
    refine ⟨.inr, fun hg => hg.elim (fun heq => ?_) id⟩
    rw [heq]
    exact List.contains_iff_mem.mp h
  · exact List.mem_cons

/-- What becomes of the weights leaves what is retired. -/
theorem weightUe_retired (a : Nat) (s : State) : (weightUe a s).store.retired = s.store.retired := by
  unfold weightUe
  extract_lets g home
  split
  · rfl
  · split
    · rw [(loseChunk_onlyServing ..).store]
      rfl
    · rfl

theorem mem_scrubUe_retired {a g : Nat} {s : State} :
    g ∈ (weightUe a (ueRead a s)).store.retired ↔ g = a / 4096 ∨ g ∈ s.store.retired := by
  rw [weightUe_retired, mem_ueRead_retired]

theorem mem_forEach_scrubUe_retired {l : List Nat} {g : Nat} {s : State} :
    g ∈ (forEach l (fun a t => weightUe a (ueRead a t)) s).store.retired ↔ (∃ a ∈ l, g = a / 4096) ∨ g ∈ s.store.retired := by
  induction l generalizing s with
  | nil => exact ⟨.inr, fun h => h.elim (fun ⟨_, ha, _⟩ => absurd ha List.not_mem_nil) id⟩
  | cons a l ih =>
    refine ih.trans ?_
    rw [mem_scrubUe_retired, List.exists_mem_cons_iff, or_assoc, or_left_comm]

/-- A scrub retires the granules with uncorrectable units of its stack, and no others. -/
theorem mem_scrubbed_retired {h : Nat} {cs us : List Nat} {g : Nat} {s : State} :
    g ∈ (scrubbed h cs us s).store.retired ↔ (∃ a ∈ addressesOf h s us, g = a / 4096) ∨ g ∈ s.store.retired := by
  have hcounted := (forEach_bumpOwner_onlyCounts (addressesOf h s cs) s.fnAt cHbmCe s).store
  rw [scrubbed, mem_forEach_scrubUe_retired, hcounted]

theorem mem_addressesOf {h : Nat} {s : State} {l : List Nat} {a : Nat} (hmem : a ∈ l) (hlt : a < s.totalUnits * unitBytes4M)
    (hplace : (s.hbmPlace a).1 = h) : a ∈ addressesOf h s l :=
  List.mem_filter.mpr ⟨hmem, by simp [hlt, hplace]⟩

theorem hbmScrub_endsIn {h : StackId} {s : State} (ha : awake s) (husable : (s.stack h.val).usable = true) (cs us : List Nat) :
    endsIn (.hbmScrub h cs us) s (scrubbed h.val cs us s) := endsIn_of_guard ha rfl (by rw [husable]; rfl)

/-! ## The loss of a stack (R205) -/

/-- A stack that has been lost. -/
def lostStack (y : Hbm) : Hbm := { y with usable := false, lost := true, silent := false, throttled := false, halved := false }

/-- Stack h is lost: its READY_MAP bit is cleared and the PF hears of it. -/
def stackLost (h : Nat) (s : State) : State := postEvent evHbm stOk h (setReady (rHbm h) false (updStack h lostStack s))

theorem stack_stackLost (h : Nat) (s : State) : (stackLost h s).stack h = lostStack (s.stack h) := by
  rw [stackLost, stack_eq_of_hbm (postEvent_hbm ..), stack_eq_of_hbm (setReady_hbm ..), stack_updStack_same]

theorem isReady_stackLost {h : Nat} {s : State} (hb : rHbm h < 32) : (stackLost h s).isReady (rHbm h) = false := by
  rw [stackLost, State.isReady, postEvent_ready]
  exact (isReady_setReady _ false _ hb).trans (if_pos rfl)

/-! ## The memories of the cores (R158, R206, R207) -/

/-- An uncorrectable unit in a core is counted for the task there, or interrupts the step. -/
theorem coreUe_endsIn {c : Instr} {s : State} {k count : Nat} {zeroed : Core → Core} (ha : awake s)
    (h : exec c s = live s (coreUe k count zeroed s)) :
    (∀ x, s.coreTask k = some x → endsIn c s (bump x.fn count (updCore k zeroed s))) ∧
      (s.coreTask k = none → endsIn c s (stepUe (bumpPart count (updCore k zeroed s)))) := by
  unfold coreUe at h
  refine ⟨fun x hx => ?_, fun hnone => ?_⟩
  · rw [hx] at h
    exact endsIn_of_live ha h
  · rw [hnone] at h
    exact endsIn_of_live ha h

theorem unit_slateUe_same (c : Core) (n : Nat) : (c.slateUe n).unit n = 0 := by
  unfold Core.unit Core.slateUe
  rw [find_put_same, Option.getD_some]

theorem unit_slateUe_ne (c : Core) {j n : Nat} (h : j ≠ n) : (c.slateUe n).unit j = c.unit j := by
  unfold Core.unit Core.slateUe
  rw [find_put_ne _ _ h]
  rfl

theorem mem_slateUe_bad (c : Core) (n : Nat) : n ∈ (c.slateUe n).bad := by
  change n ∈ if c.bad.contains n then c.bad else n :: c.bad
  split
  · next h => exact List.contains_iff_mem.mp h
  · exact List.mem_cons_self

/-! ## Basalt (R89, R206) -/

/-- A unit of Basalt reads 0 and is noted as bad. -/
def basaltZeroed (off : Nat) (s : State) : State :=
  updStore (fun x => { x with basaltBad := off / 64 :: x.basaltBad.filter (· != off / 64) }) (zero (basaltBase + off / 64 * 64) 64 s)

theorem basaltUe_owned {off n : Nat} {s : State} (ha : awake s) (hoff : off < 120 * 1048576)
    (howner : Tab.find s.store.basalt (off / 1048576) = some n) : endsIn (.uncorrectableUnit (.basalt off)) s
      (bumpOwner ((Tab.find s.tasks n).map (·.fn)) cBasaltUe (basaltZeroed off s)) := by
  refine endsIn_of_live ha ((if_neg (by omega)).trans ((if_neg (by omega)).trans ?_))
  rw [howner]
  rfl

theorem basaltUe_unowned {off : Nat} {s : State} (ha : awake s) (hoff : off < 120 * 1048576)
    (howner : Tab.find s.store.basalt (off / 1048576) = none) :
    endsIn (.uncorrectableUnit (.basalt off)) s (stepUe (bumpPart cBasaltUe (basaltZeroed off s))) := by
  refine endsIn_of_live ha ((if_neg (by omega)).trans ((if_neg (by omega)).trans ?_))
  rw [howner]
  rfl

/-! ## The statement -/

/-- Settles O54: a reading and a silence, scrubbing, the loss of a stack, then the memories unit by unit. -/
theorem memoryErrors : Obligations.MemoryErrors := by
  intro s ha
  refine ⟨fun h v husable hfailed hlost hmask => ?_, fun h husable hfailed hlost hmask => ?_, fun h cs us husable => ?_,
    fun h cs us husable => endsIn_self_of_guard rfl (by rw [husable]; rfl), fun h husable => ?_, fun k b => ?_,
    fun off hoff => ⟨fun n => basaltUe_owned ha hoff, basaltUe_unowned ha hoff⟩, fun off hlow hhigh => ?_, fun a hlt => ?_⟩
  · obtain ⟨t, hexec, hstack, hcritical, hmem, hkv⟩ := hbmTempRead_completes ha husable hfailed hlost hmask (some v)
    have hhalved : _ = if 680 ≤ 8 * v then true else if 8 * v ≤ 664 then false else (s.stack h.val).halved :=
      congrArg Hbm.halved hstack
    have hthrottled : _ = if 760 ≤ 8 * v then true else if 8 * v ≤ 736 then false else (s.stack h.val).throttled :=
      congrArg Hbm.throttled hstack
    refine ⟨t, hexec, congrArg Hbm.temp hstack, congrArg Hbm.silent hstack, fun hv => ?_, fun hv => ?_, fun hlo hhi => ?_,
      fun hv => ?_, fun hv => ?_, hcritical v rfl, hmem, hkv⟩
    · exact hhalved.trans (if_pos (by omega))
    · exact hhalved.trans ((if_neg (by omega)).trans (if_pos (by omega)))
    · exact hhalved.trans ((if_neg (by omega)).trans (if_neg (by omega)))
    · exact hthrottled.trans (if_pos (by omega))
    · exact hthrottled.trans ((if_neg (by omega)).trans (if_pos (by omega)))
  · obtain ⟨t, hexec, hstack, -⟩ := hbmTempRead_completes ha husable hfailed hlost hmask none
    exact ⟨t, hexec, congrArg Hbm.silent hstack, congrArg Hbm.halved hstack, congrArg Hbm.throttled hstack⟩
  · refine completes_of_endsIn (hbmScrub_endsIn ha husable cs us) ⟨fun a hmem hlt hplace => ?_, fun g hg => ?_, fun hnone => ?_⟩
    · exact mem_scrubbed_retired.mpr (.inl ⟨a, mem_addressesOf hmem hlt hplace, rfl⟩)
    · exact mem_scrubbed_retired.mpr (.inr hg)
    · subst hnone
      have hcounted := forEach_bumpOwner_onlyCounts (addressesOf h.val s cs) s.fnAt cHbmCe s
      have hqueue := congrArg (fun v : State => { v with pending := s.pending }) hcounted
      exact hqueue
  · exact ⟨congrArg Hbm.usable (stack_stackLost h.val s), congrArg Hbm.lost (stack_stackLost h.val s),
      isReady_stackLost (show 7 + h.val < 32 by omega), endsIn_of_guard ha rfl (by rw [husable]; rfl)⟩
  · intro ends
    refine ⟨fun r => ⟨?_, ?_, ?_⟩, fun i => ⟨?_, ?_⟩, fun i => ?_, fun n => ?_, fun c n => ?_⟩
    · exact coreUe_endsIn ha rfl
    · exact coreUe_endsIn ha rfl
    · exact coreUe_endsIn ha rfl
    · exact coreUe_endsIn ha rfl
    · exact coreUe_endsIn ha rfl
    · exact coreUe_endsIn ha rfl
    · exact coreUe_endsIn ha rfl
    · exact ⟨unit_slateUe_same c n, mem_slateUe_bad c n, fun j hj => unit_slateUe_ne c hj⟩
  · exact endsIn_of_live ha ((if_neg (by omega)).trans (if_pos (by omega)))
  · exact endsIn_of_live ha (if_neg (by omega))

end Sys2Proof.Proofs
end

section
/-! PROOFS of the statement on the events of the serving service (R226, R230, R245, R249, R251, R263, R268, R287, R290, R292, R299,
R301, R307, R380). -/

namespace Sys2Proof.Proofs

open Sys2Proof.Machine Sys2Proof.Safety Sys2Proof.Laws

/-! ## The end of a step (R226, R268) -/

/-- STEP_END finds the step not whole: a cluster is missing, a token or a row or a tier of the step is still to come, or SCH is not
running. -/
def stepUnfinished (st : Step) (rows : List PageRow) (s : State) : Bool :=
  st.lost != [] || (List.range 8).any (fun n => (s.proc (n + 3)).deferred.isSome) || !s.sampled st || !s.rowsWhole st rows ||
    !s.weightsRead st || !s.schRuns

theorem execStepEnd_eq {rows : List PageRow} {st : Step} {s : State} (hstep : s.serve.step = some st) :
    execStepEnd rows s = if stepUnfinished st rows s then done s s else live s (endStep st rows s) := by
  unfold execStepEnd
  rw [hstep]
  rfl

theorem stepUnfinished_eq_false_iff {st : Step} {rows : List PageRow} {s : State} : stepUnfinished st rows s = false ↔
    st.lost = [] ∧ (∀ n, n < 8 → (s.proc (n + 3)).deferred = none) ∧ s.sampled st = true ∧ s.rowsWhole st rows = true ∧
      s.weightsRead st = true ∧ s.schRuns = true := by
  simp [stepUnfinished, and_assoc]

theorem execStepEnd_idle {rows : List PageRow} {s : State} (hstep : s.serve.step = none) : execStepEnd rows s = done s s := by
  unfold execStepEnd
  rw [hstep]

/-! ## Jasper (R307) -/

/-- Two changes of a context that agree on what it holds are one. -/
theorem updCtx_congr {i : Nat} {g g' : Ctx → Ctx} {s : State} {c : Ctx} (hctx : s.ctx i = some c) (hg : g c = g' c) :
    updCtx i g s = updCtx i g' s := by
  unfold State.ctx at hctx
  unfold updCtx
  rw [hctx]
  exact congrArg (fun d => updServe (fun x => { x with ctxs := Tab.put x.ctxs i d }) s) hg

theorem countRow_reports (f : Nat) (logits : List (BitVec 32)) (s : State) : reportsOnly s (countRow f logits s) := by
  unfold countRow onlyIf
  split
  · exact (bump_reports ..).trans (bump_reports ..)
  · exact bump_reports ..

/-- Jasper takes the row of the last prompt chunk: it is counted, and the token that the request's profile chooses is kept. -/
theorem execJasperRow_prefill {idx k : Nat} {logits : List (BitVec 32)} {c : Ctx} {st : Step} {r : StepReq} {cp : Copy} {s : State}
    (hctx : s.ctx idx = some c) (hstep : s.serve.step = some st) (hkind : st.kind = .prefill)
    (hfind : st.reqs.find? (fun r => r.idx == idx) = some r) (hmasked : r.masked = false) (hdiscard : r.discard = false)
    (hrecompute : r.recompute = false) (hlost : st.lost = []) (hlast : r.pos + r.rows = c.promptLen) (hcopy : c.copy = some k)
    (hcp : s.copy k = some cp) (hlen : logits.length = cp.hdr.vocab) (hvocab : cp.hdr.vocab ≠ 0) (hnew : Tab.has c.samples 0 = false) :
    execJasperRow idx false 0 logits s = live s (updCtx idx (fun x => { x with
      samples := Tab.put x.samples 0 (c.prof.choose c.seed c.promptLen (c.prof.row (c.at 0).1 (c.at 0).2 logits)) })
      (countRow c.fn logits s)) := by
  have hsamples : r.samples st.kind c = true := by simp [StepReq.samples, hkind, hrecompute, hlast]
  have hpos : r.choicePos st.kind c 0 = c.promptLen := by rw [hkind]; exact hlast
  have hkept : (countRow c.fn logits s).ctx idx = some c := by rw [State.ctx, (countRow_reports ..).serve]; exact hctx
  unfold execJasperRow
  rw [hctx, hstep]
  dsimp only
  rw [hfind]
  refine (if_neg ?_).trans ((if_neg Bool.false_ne_true).trans ((if_neg ?_).trans ?_))
  · simp [hmasked, hdiscard, hlost, hsamples, hcopy, hcp, hlen, hvocab]
  · simp [hkind, hnew]
  · exact congrArg (live s) (updCtx_congr hkept (by rw [hpos]))

/-! ## Page fetches (R227, R230, R249, R251) -/

/-- The bias rows of a column, none where every query sees the whole of it (R230). -/
def biasRows (qs : List (Nat → Bool)) (col : Nat) : List Unit64 :=
  if qs.all (fun q => (List.range 64).all (fun j => q (64 * col + j))) then []
  else (qs.map (fun q => biasRow (fun j => q (64 * col + j)))).flatten

/-- Units of Slate written one after another from unit u on. -/
def putUnits (u : Nat) (l : List Unit64) (c : Core) : Core := l.zipIdx.foldl (fun d e => d.putUnit (u + e.2) e.1) c

theorem unit_putUnits {u i : Nat} {l : List Unit64} {v : Unit64} (c : Core) (h : l[i]? = some v) :
    (putUnits u l c).unit (u + i) = v := by
  induction l using List.reverseRecOn with
  | nil => simp at h
  | append_singleton l w ih =>
    have hlast : putUnits u (l ++ [w]) c = (putUnits u l c).putUnit (u + l.length) w := by
      simp [putUnits, List.zipIdx_append]
    rw [hlast]
    rcases Nat.lt_or_ge i l.length with hi | hi
    · rw [List.getElem?_append_left hi] at h
      rw [unit_putUnit_ne _ (by omega), ih h]
    · obtain ⟨rfl, rfl⟩ : i = l.length ∧ w = v := by
        obtain ⟨hlt, hget⟩ := List.getElem?_eq_some_iff.mp h
        rw [List.length_append, List.length_singleton] at hlt
        obtain rfl : i = l.length := by omega
        simpa using hget
      exact unit_putUnit_same ..

theorem owner_foldl_putUnit {α : Type} (l : List α) (u : α → Nat) (v : α → Unit64) (c : Core) :
    (l.foldl (fun d x => d.putUnit (u x) (v x)) c).owner = c.owner := by
  induction l generalizing c with
  | nil => rfl
  | cons x l ih => exact ih _

theorem owner_putUnits (u : Nat) (l : List Unit64) (c : Core) : (putUnits u l c).owner = c.owner := owner_foldl_putUnit ..

theorem owner_putPage (c : Core) (base : Nat) (elems scales : Bytes) : (c.putPage base elems scales).owner = c.owner :=
  owner_foldl_putUnit ..

/-- A core as a fetch leaves it: it belongs to no function, and holds the page and the bias rows (R121, R227, R230; log 42). -/
def fetchInto (tag : Tag) (base bias : Nat) (img : Bytes × Bytes) (rows : List Unit64) (d : Core) : Core :=
  putUnits bias rows ((d.serves tag).putPage base img.1 img.2)

theorem owner_fetchInto (tag : Tag) (base bias : Nat) (img : Bytes × Bytes) (rows : List Unit64) (d : Core) :
    (fetchInto tag base bias img rows d).owner = { tag with agent := 15 } := by
  rw [fetchInto, owner_putUnits, owner_putPage]
  rfl

/-- The rows of a page that the running step writes, whose contents are free until STEP_END (R232; log 40). -/
def rowsInStep (r : StepReq) (kind : StepKind) (c : Ctx) (p : Page) (col : Nat) : List Nat :=
  if p.st = .opened then ((r.written kind c).filter (fun x => x / 64 = col)).map (· % 64) else []

/-- What a fetch brings of a page image: K rotated by the positions of its rows (R227). -/
def fetchedImage (h : ModelHdr) (freq : List (BitVec 32)) (pos : Nat → Nat) (inStep : List Nat) (free : Nat) (img : Bytes × Bytes) :
    Bytes × Bytes :=
  let e := h.unsettled inStep free img.1 img.2
  rotatePage h freq pos e.1 e.2

/-- The state with a fetch begun, which has taken n free values and whose core has become what g makes of it. -/
def fetchBegun (x : Fetch) (k n : Nat) (g : Core → Core) (s : State) : State :=
  updKv (fun v => { v with fetches := v.fetches ++ [x] }) (updCore k g { s with free := s.free + n })

theorem core_fetchBegun_same (x : Fetch) (k n : Nat) (g : Core → Core) (s : State) : (fetchBegun x k n g s).core k = g (s.core k) :=
  core_updCore_same k g { s with free := s.free + n }

theorem core_fetchBegun_ne {x : Fetch} {j k n : Nat} (h : j ≠ k) (g : Core → Core) (s : State) :
    (fetchBegun x k n g s).core j = s.core j := core_updCore_ne h g { s with free := s.free + n }

/-- What a fetch that has begun leaves: it is the engine's newest, and the core alone has changed. -/
theorem fetchBegun_spec (x : Fetch) (k n base bias : Nat) (tag : Tag) (img : Bytes × Bytes) (rows : List Unit64) (s : State) :
    let t := fetchBegun x k n (fetchInto tag base bias img rows) s
    t.kv.fetches = s.kv.fetches ++ [x] ∧ (t.core k).owner = { tag with agent := 15 } ∧
      (∀ i v, rows[i]? = some v → (t.core k).unit (bias + i) = v) ∧ (∀ j, j ≠ k → t.core j = s.core j) ∧
      { t with cores := s.cores, kv := s.kv, free := s.free } = s := by
  refine ⟨rfl, ?_, fun i v hrow => ?_, fun j hj => core_fetchBegun_ne hj .., rfl⟩
  · rw [core_fetchBegun_same, owner_fetchInto]
  · rw [core_fetchBegun_same, fetchInto, unit_putUnits _ hrow]

/-- A page of column col in format h cannot be fetched for layer `layer` into core k by the engine. -/
def fetchBarred (eng : ClusterId) (k : CoreId) (base bias layer col : Nat) (h : ModelHdr) (p : Page) (rows : List Unit64)
    (s : State) : Bool :=
  !s.engineUp eng.val || k.val / 8 != eng.val || (s.core k.val).task.isSome || layer ≥ h.layers || col ≥ 2048 ||
    !(p.st == .opened || p.st == .sealed || p.st == .shipping) || 24576 < base + h.pageUnits || 24576 < bias + rows.length

theorem fetchBarred_eq_false {eng : ClusterId} {k : CoreId} {base bias layer col : Nat} {h : ModelHdr} {p : Page}
    {rows : List Unit64} {s : State} (hup : s.engineUp eng.val = true) (hcluster : k.val / 8 = eng.val)
    (hfree : (s.core k.val).task = none) (hlayer : layer < h.layers) (hcol : col < 2048)
    (hpage : p.st = .opened ∨ p.st = .sealed ∨ p.st = .shipping) (hbase : base + h.pageUnits ≤ 24576)
    (hbias : bias + rows.length ≤ 24576) : fetchBarred eng k base bias layer col h p rows s = false := by
  have hheld : (p.st == .opened || p.st == .sealed || p.st == .shipping) = true := by simpa [or_assoc] using hpage
  simp [fetchBarred, hup, hcluster, hfree, hlayer, hcol, hheld, hbase, hbias]

section PageFetch

variable {eng : ClusterId} {k : CoreId} {base bias idx layer col md : Nat} {draft : Bool} {c : Ctx} {st : Step} {x : Bool × ModelHdr}
  {r : StepReq} {cp : Copy} {s : State} (hctx : s.ctx idx = some c) (hstep : s.serve.step = some st)
  (hmodel : (s.ctxModels c).find? (fun x => x.1 == draft) = some x) (hfind : st.reqs.find? (fun r => r.idx == idx) = some r)
  (hcopy : (if draft then c.draft else c.copy) = some md) (hcp : s.copy md = some cp)
  (hbar : fetchBarred eng k base bias layer col x.2 (s.page (pageKey idx draft layer col))
    (biasRows (queries (st.kind == .decode) r.pos r.rows c.nodes) col) s = false)

include hctx hstep hmodel hfind hcopy hcp hbar

theorem execPageFetch_eq :
    let inStep := rowsInStep r st.kind c (s.page (pageKey idx draft layer col)) col
    let pos := fun (j : Nat) => rowPos (st.kind == .decode) r.pos c.nodes (64 * col + j)
    execPageFetch eng k base bias idx draft layer col s =
      match s.pageImage x.2 (s.page (pageKey idx draft layer col)).frame with
      | none => live s (crcFail c idx col
          (((Tab.find s.kv.frames (s.page (pageKey idx draft layer col)).frame).map (·.gmap.grans)).getD []) s)
      | some img => live s (fetchBegun { eng := eng.val, key := pageKey idx draft layer col } k.val
          (if inStep = [] then 0 else 2 * x.2.pageUnits)
          (fetchInto c.tag base bias (fetchedImage x.2 cp.freq pos inStep s.free img)
            (biasRows (queries (st.kind == .decode) r.pos r.rows c.nodes) col)) s) := by
  unfold execPageFetch
  rw [hctx, hstep]
  dsimp only
  rw [hmodel, hfind, hcopy, Option.bind_some, hcp]
  refine (if_neg (Bool.eq_false_iff.mp hbar)).trans ?_
  cases s.pageImage x.2 (s.page (pageKey idx draft layer col)).frame with
  | none => rfl
  | some img => rfl

end PageFetch

theorem execPageFetchDone_eq {eng : ClusterId} {x : Fetch} {s : State} (hfind : s.kv.fetches.find? (fun x => x.eng == eng.val) = some x) :
    execPageFetchDone eng s =
      live s (updKv (fun v => { v with fetches := v.fetches.erase x, old := fetchOver x v.old }) s) := by
  unfold execPageFetchDone
  rw [hfind]

theorem execPageFetchDone_none {eng : ClusterId} {s : State} (hfind : s.kv.fetches.find? (fun x => x.eng == eng.val) = none) :
    execPageFetchDone eng s = done s s := by
  unfold execPageFetchDone
  rw [hfind]

/-! ## Seals (R245, R249) -/

/-- The granules that a seal takes as it starts, and the state that has granted them. -/
def sealTakes (key : Nat) (s : State) : List Nat × State :=
  match s.sealGrans key with
  | none => ([], s)
  | some n => grantGrans n (s.ctxTag (keyIdx key)) false s

/-- The seal of a page runs on an engine, in granules of its own. -/
def sealStarted (key eng : Nat) (grans : List Nat) (s : State) : State :=
  updKv (fun v => { v with seals := v.seals.map (fun y =>
    if y.key = key then { y with running := true, eng := eng, grans := grans } else y) }) s

theorem execSealStart_eq {eng : ClusterId} {x : Seal} {s : State}
    (hfind : s.kv.seals.find? (fun x => !x.running && (x.eng == eng.val || !s.engineUp x.eng)) = some x)
    (hup : s.engineUp eng.val = true) (hroom : (s.kv.seals.filter (fun x => x.eng == eng.val && x.running)).length < 2)
    (hfirst : x.urgent = true ∨ s.kv.fetches.any (fun f => f.eng == eng.val) = false) :
    execSealStart eng s = live s (sealStarted x.key eng.val (sealTakes x.key s).1 (sealTakes x.key s).2) := by
  have hmine : (s.kv.seals.filter (fun x => x.eng == eng.val)).filter (·.running) =
      s.kv.seals.filter (fun x => x.eng == eng.val && x.running) := by
    rw [List.filter_filter]
    exact List.filter_congr fun _ _ => Bool.and_comm ..
  have hwaits : (!x.urgent && s.kv.fetches.any (fun f => f.eng == eng.val)) = false := by
    rcases hfirst with h | h
    · rw [h]; rfl
    · rw [h, Bool.and_false]
  unfold execSealStart
  dsimp only
  rw [hfind, hmine]
  refine (if_neg ?_).trans rfl
  rw [hup, hwaits, decide_eq_false (by omega)]
  exact Bool.false_ne_true

section SealSwitch

variable {eng : ClusterId} {second : Bool} {x : Seal} {s : State}
  (hget : (s.kv.seals.filter (fun x => x.eng == eng.val && x.running))[if second then 1 else 0]? = some x)
include hget

theorem execSealSwitch_eq {c : Ctx} {m : Bool × ModelHdr} (hctx : s.ctx (keyIdx x.key) = some c)
    (hmodel : (s.ctxModels c).find? (fun m => m.1 == keyDraft x.key) = some m) : execSealSwitch eng second s =
      live s (shipOn (keyIdx x.key) (tryOffer (keyIdx x.key) (switchPage x.key x.grans m.2 s))) := by
  unfold execSealSwitch
  rw [hget]
  dsimp only
  rw [hctx, Option.bind_some, hmodel]

/-- The seal of a request that is gone is dropped. -/
theorem execSealSwitch_gone (hctx : s.ctx (keyIdx x.key) = none) :
    execSealSwitch eng second s = live s (updKv (fun v => { v with seals := v.seals.filter (·.key != x.key) }) s) := by
  unfold execSealSwitch
  rw [hget]
  dsimp only
  rw [hctx, Option.bind_none]

end SealSwitch

/-- A seal, hurried if it is that of the page. -/
def hurried (key : Nat) (y : Seal) : Seal := if y.key = key then { y with urgent := true } else y

theorem key_hurried (key : Nat) (y : Seal) : (hurried key y).key = y.key := by
  unfold hurried
  split
  · rfl
  · rfl

/-- The seals with the page's hurried: the same pages in the same order. -/
theorem map_hurried_spec {x : Seal} {l : List Seal} (hmem : x ∈ l) :
    (∃ y ∈ l.map (hurried x.key), y.key = x.key ∧ y.urgent = true) ∧ (l.map (hurried x.key)).map (·.key) = l.map (·.key) := by
  refine ⟨⟨hurried x.key x, List.mem_map_of_mem hmem, key_hurried .., congrArg Seal.urgent (if_pos rfl)⟩, ?_⟩
  rw [List.map_map]
  exact List.map_congr_left fun y _ => key_hurried x.key y

theorem execSealStarvation_eq {eng : ClusterId} {x : Seal} {s : State}
    (hfind : s.kv.seals.find? (fun x => x.eng == eng.val && !x.urgent) = some x) :
    execSealStarvation eng s = live s (updKv (fun v => { v with seals := v.seals.map (hurried x.key) }) s) := by
  unfold execSealStarvation
  rw [hfind]
  rfl

/-! ## Tiered tensors (R268, R269) -/

/-- The state in which the running step has fetched tensor n of copy k, of `bytes` bytes: the next one goes into the other half of the
copy's stage. -/
def tierTaken (k n bytes : Nat) (st : Step) (s : State) : State :=
  updCopy k (fun c => { c with tierFetched := c.tierFetched + bytes, half := !c.half })
    (updServe (fun x => { x with step := some { st with tiers := st.tiers ++ [(k, n)] } }) s)

/-- While the part is awake, a meaning may end from a state in which the serving service has already changed. -/
theorem live_updServe {s : State} (ha : awake s) (g : Serve → Serve) (t : State) : live (updServe g s) t = live s t :=
  (live_awake (s := updServe g s) ha t).trans (live_awake ha t).symm

section TierFetch

variable {k n : Nat} {raw : List Bytes} {c : Copy} {st : Step} {y : Tensor} {s : State}
  (hcopy : s.copy k = some c) (hstep : s.serve.step = some st) (htensor : c.tensors[n]? = some y)
include hcopy hstep htensor

/-- A tensor that the step has fetched, or whose loader is fenced, is not fetched. -/
theorem execTierFetchDone_waits (h : (s.fn c.loader).fenced = true ∨ st.tiers.contains (k, n) = true) :
    execTierFetchDone k n raw s = done s s := by
  unfold execTierFetchDone
  rw [hcopy, hstep]
  dsimp only
  rw [htensor]
  refine if_pos ?_
  rcases h with h | h
  · rw [h, Bool.or_true, Bool.true_or]
  · rw [h, Bool.or_true]

variable (htiered : y.tiered = true) (hused : k ∈ s.stepCopies st) (hlen : raw.length = (y.len + 65535) / 65536)
  (hfenced : (s.fn c.loader).fenced = false) (hnew : st.tiers.contains (k, n) = false)
include htiered hused hlen hfenced hnew

theorem execTierFetchDone_eq (ha : awake s) : execTierFetchDone k n raw s = match openTensor c y raw with
    | some b => live s (regionWrite c.units (c.hbmBytes + if c.half then c.stageBytes / 2 else 0) b
        (tierTaken k n (raw.map (·.length)).sum st s))
    | none => live s (damageCopy k (bump c.loader cViolTierSource
        (updServe (fun x => { x with step := x.step.map (fun p => { p with discard := true }) })
          (tierTaken k n (raw.map (·.length)).sum st s)))) := by
  unfold execTierFetchDone
  rw [hcopy, hstep]
  dsimp only
  rw [htensor]
  refine (if_neg ?_).trans ?_
  · rw [htiered, List.contains_iff_mem.mpr hused, hfenced, hnew, hlen, bne_self_eq_false]
    exact Bool.false_ne_true
  · cases openTensor c y raw with
    | some b => exact live_updServe ha ..
    | none => exact live_updServe ha ..

end TierFetch

/-! ## Stream chunks (R47, R117, R263) -/

/-- A load with its next chunk's plaintext. -/
def withChunk (p : Bytes) (l : Load) : Load :=
  { l with next := l.next + 1, plain := l.plain ++ p, waits := none, read := decide (chunkCount l.length ≤ l.next + 1) }

/-- The bytes of a load's next chunk, tag included. -/
def nextChunkBytes (l : Load) : Nat := min chunkBytes (l.length - 64 - chunkBytes * l.next)

/-- The plaintext of a load's next chunk, none where its length or its tag is wrong. -/
def openedChunk (l : Load) (data : Bytes) : Option Bytes :=
  if data.length = nextChunkBytes l then openChunk l.key l.nonce l.modelId l.next (data.take (nextChunkBytes l)) else none

theorem openedChunk_of_length {l : Load} {data : Bytes} (h : data.length = nextChunkBytes l) :
    openedChunk l data = openChunk l.key l.nonce l.modelId l.next data := by
  rw [openedChunk, if_pos h, ← h, List.take_length]

theorem openedChunk_eq_none {l : Load} {data : Bytes}
    (h : data.length ≠ nextChunkBytes l ∨ openChunk l.key l.nonce l.modelId l.next data = none) : openedChunk l data = none := by
  by_cases hlen : data.length = nextChunkBytes l
  · exact (openedChunk_of_length hlen).trans (h.resolve_left (absurd hlen))
  · exact if_neg hlen

/-- A model load with the plaintext of its next chunk: the chunk is placed where the load has its copy, and the load goes on. -/
def modelGrown (l : Load) (p : Bytes) (s : State) : State × Bool :=
  let t := putLoad l (withChunk p l) s
  modelStep (withChunk p l) (if l.copy = 0 then t else spendChunk (withChunk p l) l.next p t)

/-- The state in which a load has taken the plaintext of its next chunk. -/
def chunkTaken (l : Load) (p : Bytes) (s : State) : State :=
  match l.kind with
  | .adapter h =>
    let t := putLoad l (withChunk p l) s
    if (withChunk p l).read then (finishAdapter (withChunk p l) h t).1 else t
  | .model => if (modelGrown l p s).2 then resumeLoads (modelGrown l p s).1 else (modelGrown l p s).1

theorem chunkTaken_adapter {l : Load} {p : Bytes} {s : State} {h : Nat} (hkind : l.kind = .adapter h) : chunkTaken l p s =
    if (withChunk p l).read then (finishAdapter (withChunk p l) h (putLoad l (withChunk p l) s)).1 else putLoad l (withChunk p l) s := by
  rw [chunkTaken, hkind]

theorem chunkTaken_model {l : Load} {p : Bytes} {s : State} (hkind : l.kind = .model) : chunkTaken l p s =
    if (modelGrown l p s).2 then resumeLoads (modelGrown l p s).1 else (modelGrown l p s).1 := by
  rw [chunkTaken, hkind]

section StreamChunk

variable {n : Nat} {data : Bytes} {l : Load} {s : State} (hload : s.serve.loads[n]? = some l)
  (hmore : l.next < chunkCount l.length)
include hload hmore

theorem execStreamChunk_fenced (hfenced : (s.fn l.fn).fenced = true) : execStreamChunk n data s = done s s := by
  unfold execStreamChunk
  rw [hload]
  exact if_pos (.inr (.inr ⟨decide_eq_true hmore, hfenced⟩))

theorem execStreamChunk_eq (hwaits : (l.waits.bind s.copy) = none) (hfenced : (s.fn l.fn).fenced = false) (hread : l.read = false) :
    execStreamChunk n data s = match openedChunk l data with
      | none => live s (resumeLoads (failLoad l eSig 1 l.next s))
      | some p => live s (chunkTaken l p s) := by
  unfold execStreamChunk
  rw [hload]
  refine (if_neg (by simp [hwaits, hread, hfenced])).trans ?_
  simp only [decide_eq_true hmore, if_true, Bool.not_true, Bool.false_eq_true, or_false]
  change (match openedChunk l data with | none => _ | some p => _) = _
  cases openedChunk l data with
  | none => rfl
  | some p =>
    dsimp only
    split
    next h hkind =>
      rw [chunkTaken_adapter hkind]
      split
      next hmissing => rw [if_neg (by simpa [withChunk] using hmissing)]; rfl
      next hread => rw [if_pos (by simpa [withChunk] using hread)]; rfl
    next hkind => exact congrArg (live s) (chunkTaken_model hkind).symm

end StreamChunk

/-! ## Timers of shipments and routes (R290, R292, R299) -/

theorem execShipOfferRetry_eq {idx : Nat} {m : Ship} {s : State} (hship : s.ship idx = some m) (hstate : m.st = .refusedAll) :
    execShipOfferRetry idx s = live s (offerTo idx [] s) := by
  unfold execShipOfferRetry
  rw [hship]
  exact if_pos hstate

theorem execShipTimeout_eq {idx : Nat} {m : Ship} {c : Ctx} {s : State} (hship : s.ship idx = some m) (hctx : s.ctx idx = some c)
    (hstate : m.st = .waitDone) : execShipTimeout idx s = live s (abandonOut idx (sendAbort c m 1 s)) := by
  unfold execShipTimeout
  rw [hship, hctx]
  exact if_pos hstate

/-- The working part cannot be reached: the request ends after its one failover, and is assigned again before it. -/
theorem execWorkRouteTimeout_eq {idx a : Nat} {c : Ctx} {s : State} (hctx : s.ctx idx = some c) (haddr : c.workAddr = some a)
    (hhome : c.home = true) (hwork : c.work = false) (hlive : c.state ≠ .ended) (hroute : s.reaches a = false) :
    execWorkRouteTimeout idx s = if 0 < c.failovers then live s (endRequest idx eFabric s)
      else live s (tryAssign idx (bump c.fn cReqFailover
        (updCtx idx (fun c => { c with failovers := c.failovers + 1, workAddr := none }) s))) := by
  unfold execWorkRouteTimeout
  rw [hctx]
  dsimp only
  rw [haddr]
  exact if_neg (by simp [hhome, hwork, hlive, hroute])

theorem execHomeRouteTimeout_eq {idx : Nat} {c : Ctx} {s : State} (hctx : s.ctx idx = some c) (hhome : c.home = false)
    (hlive : c.state ≠ .ended) (hroute : s.reaches c.homeAddr = false) : execHomeRouteTimeout idx s =
      live s (freeProfiles (dropWork idx eFabric (bump c.fn cServeOrphaned (updCtx idx (fun c => { c with state := .ended }) s)))) := by
  unfold execHomeRouteTimeout
  rw [hctx]
  exact if_neg (by simp [hhome, hlive, hroute])

/-! ## The statement -/

/-- Settles O55: steps, Jasper's row, the engines' fetches and seals, then tiers, chunks, due messages and timers. -/
theorem servingEvents : Obligations.ServingEvents := by
  intro s ha
  refine ⟨fun hsch hidle => ?_, fun h => ?_, fun rows hidle => ?_, fun rows st hstep => ?_,
    fun idx logits c st r k cp hctx hstep hkind hfind hmasked hdiscard hrecompute hlost hlast hcopy hcp hlen hvocab hnew => ?_,
    fun eng x hfind => ?_, fun eng hfind => ?_, fun eng x hfind hup hroom hfirst => ?_, fun eng second x hget => ⟨?_, ?_⟩,
    fun eng x hfind => ?_, ?_, ?_, ?_, ?_, ?_, ?_, ?_, ?_, ?_⟩
  · exact endsIn_of_guard ha rfl (by simp [hsch, hidle])
  · refine endsIn_self_of_guard rfl ?_
    rcases h with hsch | hbusy
    · simp [hsch]
    · simp [Option.isSome_iff_ne_none.mpr hbusy]
  · exact execStepEnd_idle hidle
  · have hexec : exec (.stepEnd rows) s = _ := execStepEnd_eq hstep
    refine ⟨fun hwhole => ?_, fun hpartial => ?_⟩
    · exact endsIn_of_guard ha hexec (stepUnfinished_eq_false_iff.mpr hwhole)
    · exact endsIn_self_of_guard hexec (eq_true_of_ne_false (mt stepUnfinished_eq_false_iff.mp hpartial))
  · exact endsIn_of_live ha (execJasperRow_prefill hctx hstep hkind hfind hmasked hdiscard hrecompute hlost hlast hcopy hcp hlen
      hvocab hnew)
  · exact endsIn_of_live ha (execPageFetchDone_eq hfind)
  · exact execPageFetchDone_none hfind
  · exact endsIn_of_live ha (execSealStart_eq hfind hup hroom hfirst)
  · exact fun c m hctx hmodel => endsIn_of_live ha (execSealSwitch_eq hget hctx hmodel)
  · exact fun hctx => endsIn_of_live ha (execSealSwitch_gone hget hctx)
  · obtain ⟨hurgent, hkeys⟩ := map_hurried_spec (List.mem_of_find?_eq_some hfind)
    exact completes_of_endsIn (endsIn_of_live ha (execSealStarvation_eq hfind)) ⟨hurgent, hkeys, rfl⟩
  · intro eng k base bias idx draft layer col c st x r cp md img hctx hstep hmodel hfind hcopy hcp hup hcluster hfree hlayer hcol p qs
      rows hpage hbase hbias
    have hbar := fetchBarred_eq_false (rows := rows) hup hcluster hfree hlayer hcol hpage hbase hbias
    have hexec : exec (.pageFetch eng k base bias idx draft layer col) s = _ :=
      execPageFetch_eq hctx hstep hmodel hfind hcopy hcp hbar
    refine ⟨fun himg => ?_, fun himg => ?_⟩
    · rw [himg] at hexec
      obtain ⟨hfetches, howner, hunits, hcores, hframe⟩ := fetchBegun_spec { eng := eng.val, key := pageKey idx draft layer col } k.val
        _ base bias c.tag _ rows s
      exact completes_of_endsIn (endsIn_of_live ha hexec)
        ⟨hfetches, howner, hunits, hcores, congrArg (fun v : State => { v with pending := s.pending }) hframe⟩
    · rw [himg] at hexec
      exact endsIn_of_live ha hexec
  · intro k n raw c st y hcopy hstep htensor htiered hused hlen
    refine ⟨execTierFetchDone_waits hcopy hstep htensor, fun hfenced hnew => ?_⟩
    have hexec := execTierFetchDone_eq hcopy hstep htensor htiered hused hlen hfenced hnew ha
    refine ⟨fun b hopen => endsIn_of_live ha (hexec.trans ?_), fun hopen => endsIn_of_live ha (hexec.trans ?_)⟩
    · rw [hopen]
      rfl
    · rw [hopen]
      rfl
  · intro n data l hload hwaits hmore
    refine ⟨execStreamChunk_fenced hload hmore, fun hfenced hread => ?_⟩
    have hexec : exec (.streamChunk n data) s = _ := execStreamChunk_eq hload hmore hwaits hfenced hread
    refine ⟨fun hbad => ?_, fun p hlen hopen => ?_⟩
    · rw [openedChunk_eq_none hbad] at hexec
      exact endsIn_of_live ha hexec
    · rw [openedChunk_of_length hlen, hopen] at hexec
      exact ⟨fun h hkind => endsIn_of_live ha (hexec.trans (congrArg (live s) (chunkTaken_adapter hkind))),
        fun hkind => endsIn_of_live ha (hexec.trans (congrArg (live s) (chunkTaken_model hkind)))⟩
  · exact fun hvalid hsch => endsIn_of_guard ha rfl (by simp [hvalid, hsch])
  · exact fun hvalid hsch => endsIn_of_guard ha rfl (by simp [hvalid, hsch])
  · exact fun idx m hship hstate => endsIn_of_live ha (execShipOfferRetry_eq hship hstate)
  · exact fun idx m c hship hctx hstate => endsIn_of_live ha (execShipTimeout_eq hship hctx hstate)
  · intro idx c a hctx haddr hhome hwork hlive hroute
    have hexec := execWorkRouteTimeout_eq hctx haddr hhome hwork hlive hroute
    exact ⟨fun hsecond => endsIn_of_live ha (hexec.trans (if_pos hsecond)),
      fun hfirst => endsIn_of_live ha (hexec.trans (if_neg (by omega)))⟩
  · exact fun idx c hctx hhome hlive hroute => endsIn_of_live ha (execHomeRouteTimeout_eq hctx hhome hlive hroute)

end Sys2Proof.Proofs
end

section
/-! PROOFS of the statement on Flint's events (R337 to R341). The lag as strobes less steps closed, and WR and RD modulo the ring's size,
are the model's choice (log 50). -/

namespace Sys2Proof.Proofs

open Sys2Proof.Machine Sys2Proof.Safety Sys2Proof.Laws

/-! ## A neuron (R337) -/

theorem clampI_mem_Icc {lo hi : Int} (h : lo ≤ hi) (i : Int) : clampI lo hi i ∈ Set.Icc lo hi := by
  rw [Set.mem_Icc]
  unfold clampI
  split
  · omega
  · split <;> omega

/-- Squaring a power that is at most 1.0 never raises the factor. -/
theorem decayFactor_le (n : Nat) {f p d : Nat} (hp : p ≤ 65536) : decayFactor n f p d ≤ f := by
  induction n generalizing f p d with
  | zero => exact le_rfl
  | succ n ih =>
    have hscale (m : Nat) : m * p / 65536 ≤ m := Nat.div_le_of_le_mul (by rw [mul_comm 65536]; exact Nat.mul_le_mul_left m hp)
    have hsquare : p * p / 65536 ≤ 65536 := (hscale p).trans hp
    unfold decayFactor
    split
    · exact le_rfl
    · split
      · exact (ih hsquare).trans (hscale f)
      · exact ih hsquare

/-- Decay moves a value towards 0: a range around 0 that holds the value holds what is left of it. -/
theorem decayed_mem_Icc {lo hi v : Int} {D : Nat} (d : Nat) (hlo : lo ≤ 0) (hhi : 0 ≤ hi) (hv : v ∈ Set.Icc lo hi) (hD : D < 65536) :
    decayed v D d ∈ Set.Icc lo hi := by
  obtain ⟨hge, hle⟩ := hv
  have hf : (decayFactor 33 65536 D d : Int) ≤ 65536 := by exact_mod_cast decayFactor_le 33 hD.le
  have hf0 : (0 : Int) ≤ decayFactor 33 65536 D d := Int.natCast_nonneg _
  have hlow := (mul_le_mul_of_nonpos_left hf hlo).trans (mul_le_mul_of_nonneg_right hge hf0)
  have hhigh := (mul_le_mul_of_nonneg_right hle hf0).trans (mul_le_mul_of_nonneg_left hf hhi)
  have hcancel (a : Int) : (a * 65536).tdiv 65536 = a := Int.mul_tdiv_cancel a (by decide)
  exact ⟨(hcancel lo).ge.trans (Int.tdiv_le_tdiv (by decide) hlow), (Int.tdiv_le_tdiv (by decide) hhigh).trans (hcancel hi).le⟩

/-- The value of a neuron that is not refractory once the step's input is added to what decay left, clamped to 24 bits. -/
def integrated (x : Neuron) (st : NState) (n : Nat) (acc : Int) : Int :=
  clampI (-8388608) 8388607 (decayed st.v x.decay (n - st.last) + acc)

section
variable {x : Neuron} {st : NState} {n : Nat} {acc : Int}

theorem neuronStep_refractory (h : n < st.refEnd) :
    neuronStep x st n acc = ({ st with v := decayed st.v x.decay (n - st.last), last := n }, false) := if_pos h

theorem neuronStep_fires (h : st.refEnd ≤ n) (hthr : (x.thr : Int) ≤ integrated x st n acc) :
    neuronStep x st n acc =
      ({ v := if x.resetSub then integrated x st n acc - x.thr else 0, last := n, refEnd := n + 1 + x.refrac }, true) :=
  (if_neg h.not_gt).trans (if_pos hthr)

theorem neuronStep_below (h : st.refEnd ≤ n) (hthr : integrated x st n acc < x.thr) :
    neuronStep x st n acc = ({ st with v := integrated x st n acc, last := n }, false) :=
  (if_neg h.not_gt).trans (if_neg hthr.not_ge)

/-- What a neuron can do with an input: it discards it, it stays below its threshold, or it fires. -/
theorem refractory_or_below_or_fires (x : Neuron) (st : NState) (n : Nat) (acc : Int) :
    n < st.refEnd ∨ (st.refEnd ≤ n ∧ integrated x st n acc < x.thr) ∨ (st.refEnd ≤ n ∧ (x.thr : Int) ≤ integrated x st n acc) := by
  omega

theorem neuronStep_fires_iff : (neuronStep x st n acc).2 = true ↔ st.refEnd ≤ n ∧ (x.thr : Int) ≤ integrated x st n acc := by
  obtain href | ⟨href, hthr⟩ | ⟨href, hthr⟩ := refractory_or_below_or_fires x st n acc
  · simp [neuronStep_refractory href, href.not_ge]
  · simp [neuronStep_below href hthr, hthr.not_ge]
  · simp [neuronStep_fires href hthr, href, hthr]

theorem neuronStep_fired (h : (neuronStep x st n acc).2 = true) :
    (neuronStep x st n acc).1.refEnd = n + 1 + x.refrac ∧ (x.resetSub = false → (neuronStep x st n acc).1.v = 0) := by
  obtain ⟨href, hthr⟩ := neuronStep_fires_iff.mp h
  rw [neuronStep_fires href hthr]
  exact ⟨rfl, fun hsub => by simp [hsub]⟩

theorem neuronStep_last : (neuronStep x st n acc).1.last = n := by
  obtain href | ⟨href, hthr⟩ | ⟨href, hthr⟩ := refractory_or_below_or_fires x st n acc
  · rw [neuronStep_refractory href]
  · rw [neuronStep_below href hthr]
  · rw [neuronStep_fires href hthr]

/-- A value of 24 bits stays one: decay and the clamp keep the range, and a threshold is taken off a value that reaches it. -/
theorem neuronStep_v_mem_Icc (hv : st.v ∈ Set.Icc (-8388608) 8388607) (hD : x.decay < 65536) :
    (neuronStep x st n acc).1.v ∈ Set.Icc (-8388608) 8388607 := by
  have hint : integrated x st n acc ∈ Set.Icc (-8388608) 8388607 := clampI_mem_Icc (by decide) _
  obtain href | ⟨href, hthr⟩ | ⟨href, hthr⟩ := refractory_or_below_or_fires x st n acc
  · rw [neuronStep_refractory href]
    exact decayed_mem_Icc _ (by decide) (by decide) hv hD
  · rw [neuronStep_below href hthr]
    exact hint
  · rw [neuronStep_fires href hthr]
    rw [Set.mem_Icc] at hint ⊢
    dsimp only
    split <;> omega

end

/-! ## Runs and rings (R338, R339, R341) -/

theorem execFlintRunStart_eq {net : Nat} {r : Run} {s : State} (hidle : s.activeRun net = none)
    (hfind : s.flint.runs.find? (fun r => r.net == net && !r.started && r.ended.isNone) = some r) :
    execFlintRunStart net s = live s (putRun r { r with started := true, tStart := s.ftNow } s) := by
  unfold execFlintRunStart
  rw [hidle, hfind]

/-- The records that a reader finds between RD and WR, oldest first. -/
def unreadRecords (u : List Nat) (n : Nat) (s : State) : List Bytes :=
  (List.range ((ringWr u n s + n - ringRd u n s) % n)).map (fun i => bufRead u (64 + 8 * ((ringRd u n s + i) % n)) 8 s)

theorem execFlintInputWake_eq {net n : Nat} {r : Run} {g : Net} {s : State} (hrun : s.activeRun net = some r)
    (hnet : Tab.find s.flint.nets net = some g) (hring : ringRecords (s.bufUnits r.inBuf) s = some n) :
    execFlintInputWake net s =
      let x := (unreadRecords (s.bufUnits r.inBuf) n s).foldl (fun x b => takeInput g.inputs.length b x) (r, s)
      live s (bufWrite (s.bufUnits r.inBuf) 4 (toLe 4 (ringWr (s.bufUnits r.inBuf) n s)) (putRun r x.1 x.2)) := by
  unfold execFlintInputWake
  rw [hrun, hnet]
  dsimp only
  rw [hring]
  rfl

/-- The run with a tile's oldest slot dropped (R338). -/
def dropSlot (r : Run) (tile : Nat) : Run :=
  { r with wheel := r.wheel.filter (fun e => !(e.tile == tile && e.due == r.step)), drops := r.drops + r.dueIn tile }

theorem dropSlot_dueIn (r : Run) (tile : Nat) : (dropSlot r tile).dueIn tile = 0 := by
  unfold Run.dueIn dropSlot
  rw [List.filter_filter, List.length_eq_zero_iff, List.filter_eq_nil_iff]
  simp

theorem execFlintLagOverflow_eq {net tile : Nat} {r : Run} {g : Net} {s : State} (hrun : s.activeRun net = some r)
    (hnet : Tab.find s.flint.nets net = some g) (hlag : r.step + 64 ≤ r.strobes) (hleft : Tab.get 0 r.spent tile < r.dueIn tile) :
    execFlintLagOverflow net tile s =
      live s (closeSteps g net 65 [] (dropSlot r tile) (bumpBy r.fn cFlintLagDrop (r.dueIn tile) (putRun r (dropSlot r tile) s))) := by
  unfold execFlintLagOverflow
  rw [hrun, hnet]
  exact if_neg (by omega)

theorem execFlintDurationEnd_eq {net : Nat} {r : Run} {s : State} (hrun : s.activeRun net = some r) :
    execFlintDurationEnd net s = if r.duration ≠ 0 ∧ r.duration ≤ r.step then live s (endRun r stOk false s) else done s s := by
  unfold execFlintDurationEnd
  rw [hrun]

/-! ## The statement -/

/-- Settles O57: the neuron by whether it is refractory and reaches its threshold, then the five commands of a run. -/
theorem flintEvents : Obligations.FlintEvents := by
  refine ⟨fun x st n acc hge hle hD => ?_, fun s ha => ⟨?_, ?_, ?_, ?_, ?_, ?_, ?_⟩⟩
  · obtain ⟨hlow, hhigh⟩ := neuronStep_v_mem_Icc (n := n) (acc := acc) ⟨hge, hle⟩ hD
    exact ⟨neuronStep_fires_iff, neuronStep_fired, fun href => by rw [neuronStep_refractory href], neuronStep_last, hlow, hhigh⟩
  · exact fun net r hidle hfind => endsIn_of_live ha (execFlintRunStart_eq hidle hfind)
  · exact fun hstopped => endsIn_self_of_guard rfl (by simp [hstopped])
  · exact fun hticks => endsIn_of_guard ha rfl (by simp [hticks])
  · exact fun net r g n hrun hnet hring => endsIn_of_live ha (execFlintInputWake_eq hrun hnet hring)
  · exact fun net tile r g hrun hnet hlag hleft =>
      ⟨dropSlot_dueIn r tile, endsIn_of_live ha (execFlintLagOverflow_eq hrun hnet hlag hleft)⟩
  · exact fun net r hrun hset hpast => endsIn_of_live ha ((execFlintDurationEnd_eq hrun).trans (if_pos ⟨hset, hpast⟩))
  · exact fun net r hrun hgoes => (execFlintDurationEnd_eq hrun).trans (if_neg (by omega))

end Sys2Proof.Proofs
end

section
/-! PROOFS of the statements on accesses to the register windows (R40, R55, R463), on the test access port (R451, R452) and on what a part
that is asleep ignores (R434, R447). -/

namespace Sys2Proof.Proofs

open Sys2Proof.Machine Sys2Proof.Safety Sys2Proof.Laws

/-! ## Accesses to a function that accesses reach (R39, R40, R460) -/

/-- An aligned write of 32 bits acts on the writable field at its offset, or is counted where there is none. -/
theorem regWrite_aligned32 (f : Nat) (bar4 : Bool) {off : Nat} (h : off % 4 = 0) (v : BitVec 64) (s : State) :
    regWrite f bar4 off false v s = match regWriter f bar4 off with
      | none => bump f cViolBarWrite s
      | some w => w (v.truncate 32) s := by
  unfold regWrite
  exact if_neg (by simp [h])

section Reachable

variable {f : Fn} {s : State} (hr : reachable f s)
include hr

theorem registerWrite_endsIn {bar4 : Bool} {off : BitVec 21} (hoff : off.toNat % 4 = 0) {v : BitVec 64} {t : State}
    (h : (match regWriter f.val bar4 off.toNat with
      | none => bump f.val cViolBarWrite s
      | some w => w (v.truncate 32) s) = t) :
    endsIn (.registerWrite f bar4 off false v) s t :=
  endsIn_of_barAccess hr rfl ((regWrite_aligned32 f.val bar4 hoff v s).trans h)

/-- A read of the high half of a counter returns what a read of the low half has latched. -/
theorem telemetryCounterRead_high {k : Nat} {h : BitVec 32} (hlatch : Tab.find (s.fn f.val).teleLatch k = some h) :
    endsIn (.telemetryCounterRead f k .high) s (emit (.read f.val (h.zeroExtend 64))
      (updFn f.val (fun x => { x with teleLatch := Tab.erase x.teleLatch k }) s)) :=
  endsIn_of_barAccess hr rfl (by simp only [Tab.get, hlatch, Option.getD_some])

end Reachable

/-! ## Accesses to a function under FLR (R55) -/

section UnderFlr

variable {f : Fn} {s : State} (ha : awake s) (hcfg : s.isReady rCfg = true) (hpresent : s.present f.val = true)
  (hflr : (s.fn f.val).flr = true)

include ha hcfg hpresent hflr in
/-- A memory request to a function under FLR is ignored and counted. -/
theorem endsIn_of_barAccess_flr {c : Instr} {run : State → State} (hc : exec c s = live s (barAccess f.val run s)) :
    endsIn c s (bump f.val cViolBarAccess s) := by
  have hcounted : barAccess f.val run s = bump f.val cViolBarAccess s := by simp [barAccess, hcfg, hpresent, hflr]
  exact endsIn_of_live ha (hc.trans (by rw [hcounted]))

include ha hflr

/-- A configuration write to a function under FLR is answered with Request Retry Status. -/
theorem endsIn_of_configWrite_flr {c : Instr} {run : State → State} (hc : exec c s = live s (configWrite f.val run s)) :
    endsIn c s (emit (.cfgRetry f.val) s) := by
  have hretry : configWrite f.val run s = emit (.cfgRetry f.val) s := if_pos (by rw [hflr, Bool.or_true])
  exact endsIn_of_live ha (hc.trans (by rw [hretry]))

theorem configRequest_flr (r : BitVec 12) (w : Option (BitVec 32)) : endsIn (.configRequest f r w) s (emit (.cfgRetry f.val) s) :=
  endsIn_of_live ha (if_pos (by rw [hflr, Bool.or_true]))

/-- The PF under FLR takes no enabling of VFs and no reset of SEC. -/
theorem pfWrites_flr (hpf : f.val = 0) : (∀ n e, endsIn (.vfEnable n e) s (emit (.cfgRetry 0) s)) ∧
    ∀ ok, endsIn (.secReset ok) s (emit (.cfgRetry 0) s) := by
  obtain rfl : f = 0 := Fin.ext hpf
  exact ⟨fun _ _ => endsIn_of_configWrite_flr (f := 0) ha hflr rfl,
    fun _ => endsIn_of_live ha (if_pos (by rw [show (s.fn 0).flr = true from hflr, Bool.or_true]))⟩

end UnderFlr

/-- Settles O13: the accesses that reach a function, then those that an FLR turns away. -/
theorem registerAccess : Obligations.RegisterAccess := by
  refine ⟨fun f bar4 off v k s hr => ⟨?_, ?_, fun hoff => ⟨?_, ?_⟩, ?_, ?_, ?_⟩,
    fun f s ha hcfg hpresent hflr => ⟨?_, ?_, ?_, ?_, ?_, ?_, ?_, ?_, ?_, ?_, pfWrites_flr ha hflr⟩⟩
  · exact endsIn_of_barAccess hr rfl rfl
  · exact endsIn_of_barAccess hr rfl rfl
  · exact fun w hw => registerWrite_endsIn hr hoff (by rw [hw])
  · exact fun hnone => registerWrite_endsIn hr hoff (by rw [hnone])
  · exact endsIn_of_barAccess hr rfl rfl
  · exact endsIn_of_barAccess hr rfl rfl
  · exact fun h hlatch => telemetryCounterRead_high hr hlatch
  -- memory requests under FLR
  · exact fun _ _ _ _ => endsIn_of_barAccess_flr ha hcfg hpresent hflr rfl
  · exact fun _ _ _ => endsIn_of_barAccess_flr ha hcfg hpresent hflr rfl
  · exact fun _ _ => endsIn_of_barAccess_flr ha hcfg hpresent hflr rfl
  · exact fun _ => endsIn_of_barAccess_flr ha hcfg hpresent hflr rfl
  -- configuration requests under FLR
  · exact configRequest_flr ha hflr
  · exact endsIn_of_configWrite_flr ha hflr rfl
  · exact endsIn_of_configWrite_flr ha hflr rfl
  · exact endsIn_of_configWrite_flr ha hflr rfl
  · exact endsIn_of_configWrite_flr ha hflr rfl
  · exact endsIn_of_configWrite_flr ha hflr rfl

/-! ## The test access port (R451, R452) -/

theorem takePins_perst {s : State} (h : s.pins.perst = true) (i : Jtag) :
    takePins i s = updSide (fun x => { x with ir := i, pins := true }) s := if_pos h

theorem takePins_bypass {s : State} (h : s.pins.perst = false) (i : Jtag) :
    takePins i s = bumpPart cViolJtagMode (updSide (fun x => { x with ir := .bypass, pins := false }) s) := if_neg (by simp [h])

/-- An instruction that takes the pins takes them while PERST# is asserted, and otherwise is a BYPASS that is counted. -/
theorem jtag_takesPins {c : Instr} {i : Jtag} {s : State} (hc : exec c s = done s (takePins i s)) :
    (s.pins.perst = true → endsIn c s { s with side := { s.side with ir := i, pins := true } }) ∧
    (s.pins.perst = false → completes c s (fun t => t.side = { s.side with ir := .bypass, pins := false } ∧
      t.cnt = Tab.upd 0 s.cnt cViolJtagMode (countUp cViolJtagMode 1) ∧ { t with side := s.side, cnt := s.cnt } = s)) :=
  ⟨fun h => hc.trans (congrArg (done s) (takePins_perst h i)),
    fun h => completes_of_endsIn (hc.trans (congrArg (done s) (takePins_bypass h i))) ⟨rfl, rfl, rfl⟩⟩

/-- The identification register: bit 0 is 1, the version is 1 and the part number 0x6400, whatever the manufacturer's code. -/
theorem idcode_fields : idcode.getLsbD 0 = true ∧ idcode.toNat / 2 ^ 28 = 1 ∧ idcode.toNat / 2 ^ 12 % 2 ^ 16 = 0x6400 := by
  have hjedec : Config.jedecId.toNat < 2048 := Config.jedecId.isLt
  have hval : idcode.toNat = 1 * 2 ^ 28 + 0x6400 * 2 ^ 12 + Config.jedecId.toNat * 2 + 1 := by
    rw [idcode, BitVec.toNat_ofNat, Nat.mod_eq_of_lt (by omega)]
  refine ⟨?_, ?_, ?_⟩
  · rw [BitVec.getLsbD, hval, Nat.testBit_zero, decide_eq_true_eq]
    omega
  · rw [hval]
    omega
  · rw [hval]
    omega

/-- PERST# deasserted while a test instruction holds the pins returns them with IDCODE loaded. -/
theorem perstDeassert_returnsPins {s : State} (hperst : s.pins.perst = true) (hpins : s.side.pins = true) (a : BitVec 2) :
    completes (.perstDeassert a) s (fun t =>
      t.side = { s.side with ir := .idcode, pins := false } ∧ t.pins = { s.pins with perst := false, addrSel := a } ∧
      { t with side := s.side, pins := s.pins, ft := s.ft } = s) :=
  completes_of_endsIn (if_neg (by simp [hperst])) ⟨if_pos hpins, rfl, rfl⟩

/-- Settles O41: the five instructions that take the pins, those that leave them, and PERST#. -/
theorem testAccessPort : Obligations.TestAccessPort := by
  refine fun s => ⟨?_, rfl, rfl, fun _ => rfl, ⟨idcode, ?_⟩, perstDeassert_returnsPins⟩
  · simp only [List.forall_mem_cons]
    exact ⟨jtag_takesPins rfl, jtag_takesPins rfl, jtag_takesPins rfl, jtag_takesPins rfl, jtag_takesPins rfl,
      fun _ h => absurd h List.not_mem_nil⟩
  · obtain ⟨hlow, hversion, hpart⟩ := idcode_fields
    exact ⟨hlow, hversion, hpart, rfl⟩

/-! ## A part that is asleep (R434, R447) -/

section TierFetch

variable {k n : Nat} {raw : List Bytes} {c : Copy} {st : Step} {y : Tensor} {s : State}

/-- TIER_FETCH_DONE notes the tensor in the running step before it asks whether the part is awake: an asleep part keeps the note. -/
theorem execTierFetchDone_asleep (hasleep : ¬ awake s) (hcopy : s.copy k = some c) (hstep : s.serve.step = some st)
    (htensor : c.tensors[n]? = some y) (htiered : y.tiered = true) (hused : (s.stepCopies st).contains k = true)
    (hlen : raw.length = (y.len + 65535) / 65536) (hfenced : (s.fn c.loader).fenced = false) (hnew : st.tiers.contains (k, n) = false) :
    execTierFetchDone k n raw s = .next (updServe (fun x => { x with step := some { st with tiers := st.tiers ++ [(k, n)] } }) s) := by
  have hlive (t : State) := live_asleep (s := updServe (fun x => { x with step := some { st with tiers := st.tiers ++ [(k, n)] } }) s)
    hasleep t
  unfold execTierFetchDone
  rw [hcopy, hstep]
  dsimp only
  rw [htensor]
  refine (if_neg ?_).trans ?_
  · rw [htiered, hused, hfenced, hnew, hlen, bne_self_eq_false]
    exact Bool.false_ne_true
  · cases openTensor c y raw with
    | some b => exact hlive _
    | none => exact hlive _

end TierFetch

/-- A copy of a model whose one tensor is tiered and of length 0. -/
def tieredCopy : Copy where
  hdr := { kvFmt := 0, modelId := 0, layers := 0, qHeads := 0, kvHeads := 0, dim := 0, rope := 0, freqs := 0, width := 0, ffn := 0,
           vocab := 0, context := 0, tensors := 1, tableOff := 0, freqOff := 0, plainLen := 0, digest := 0 }
  raw := []
  freq := []
  tensors := [{ role := 0, fmt := 0, layer := 0, rank := 0, rows := 0, cols := 0, off := 0, len := 0, tiered := true }]
  share := false
  spread := false
  strict := false
  state := .ready
  loader := 0
  key := 0
  src := 0
  nonce := 0
  units := []
  hbmBytes := 0
  tierBytes := 0
  stageBytes := 0
  ckey := 0

/-- A step that reads the copy. -/
def tieredStep : Step := { kind := .decode, copy := 1, reqs := [] }

/-- THERMTRIP# has stopped the clocks while a step that reads the tiered copy runs (R434). -/
def trippedInStep : State :=
  { State.reset with
    pins := { State.reset.pins with clocksStopped := true },
    serve := { State.reset.serve with copies := [(1, tieredCopy)], step := some tieredStep } }

/-- Refutes O60: in a part whose clocks THERMTRIP# has stopped, TIER_FETCH_DONE enters the tensor into the running step. -/
theorem not_asleepPartIgnoresCommands : ¬ Obligations.AsleepPartIgnoresCommands := by
  intro h
  have hsame : exec (.tierFetchDone 1 0 []) trippedInStep = .next trippedInStep := h _ _ (.inr rfl) rfl
  have hnoted := execTierFetchDone_asleep (k := 1) (n := 0) (raw := []) (c := tieredCopy) (st := tieredStep) (s := trippedInStep)
    (fun hawake => absurd hawake.2 (by decide)) rfl rfl rfl rfl rfl rfl rfl rfl
  have heq := Host.Outcome.next.inj (hnoted.symm.trans hsame)
  exact absurd (congrArg (fun t : State => t.serve.step) heq) (by decide)

end Sys2Proof.Proofs
end

section
/-! PROOFS of the statements on the phases of the regulator (R397 to R401) and on droop (R406 to R408). -/

namespace Sys2Proof.Proofs

open Sys2Proof.Machine Sys2Proof.Safety Sys2Proof.Laws

/-! ## What R400 counts -/

section Counts

variable {s t : State}

theorem phase_congr (h : t.power.phases = s.power.phases) (j : Nat) : t.phase j = s.phase j := by
  rw [State.phase, State.phase, h]

theorem dropped_congr (h : t.power.phases = s.power.phases) : t.dropped = s.dropped := by
  simp only [State.dropped, phase_congr h]

theorem untrusted_congr (h : t.power.phases = s.power.phases) : t.untrusted = s.untrusted := by
  simp only [State.untrusted, phase_congr h]

theorem phaseCeiling_congr (h : t.power.phases = s.power.phases) : t.phaseCeiling = s.phaseCeiling := by
  rw [State.phaseCeiling, State.phaseCeiling, dropped_congr h, untrusted_congr h]

/-- R400: the more phases are dropped or untrusted, the lower the highest point that is permitted. -/
theorem phaseCeiling_anti (hd : s.dropped ≤ t.dropped) (hu : s.untrusted ≤ t.untrusted) : t.phaseCeiling ≤ s.phaseCeiling := by
  unfold State.phaseCeiling
  split_ifs <;> omega

theorem phaseCeiling_eight_dropped (h : 8 ≤ s.dropped) : s.phaseCeiling = 0 := if_pos h

theorem phaseCeiling_two_untrusted (h : 2 ≤ s.untrusted) : s.phaseCeiling ≤ 3 := by
  unfold State.phaseCeiling
  rw [if_pos h]
  split <;> omega

/-- R400: the cap in force shrinks with the phases that are left. -/
theorem capMw_anti (hcaps : t.caps = s.caps) (hbrk : t.power.pwrbrk = s.power.pwrbrk) (hset : t.settings = s.settings)
    (hd : s.dropped ≤ t.dropped) : t.capMw ≤ s.capMw := by
  unfold State.capMw
  rw [hcaps, hbrk, hset]
  exact Nat.div_le_div_right (Nat.mul_le_mul_left _ (Nat.sub_le_sub_left hd 24))

end Counts

/-- A test that begins to hold at one element of a list without repetitions holds of one element more. -/
theorem length_filter_gains {p q : Nat → Bool} {k : Nat} {l : List Nat} (hl : l.Nodup) (hk : k ∈ l) (hp : p k = false)
    (hq : q k = true) (hsame : ∀ j, j ≠ k → q j = p j) : (l.filter q).length = (l.filter p).length + 1 := by
  induction l with
  | nil => simp at hk
  | cons a l ih =>
    obtain ⟨hnotin, hnodup⟩ := List.nodup_cons.mp hl
    by_cases ha : a = k
    · subst ha
      have hrest : l.filter q = l.filter p := List.filter_congr fun j hj => hsame j fun hja => hnotin (hja ▸ hj)
      simp [hp, hq, hrest]
    · have hkl : k ∈ l := (List.mem_cons.mp hk).resolve_left (Ne.symm ha)
      rw [List.filter_cons, List.filter_cons, hsame a ha]
      split
      · simp [ih hnodup hkl]
      · exact ih hnodup hkl

/-! ## A phase that fails (R401) -/

@[simp] theorem phase_updPhase_same (k : Nat) (g : Phase → Phase) (s : State) : (updPhase k g s).phase k = g (s.phase k) :=
  get_upd_same ..

theorem phase_updPhase_ne {k j : Nat} (h : j ≠ k) (g : Phase → Phase) (s : State) : (updPhase k g s).phase j = s.phase j :=
  get_upd_ne _ _ _ h

/-- The state in which a phase has failed and is counted, before anything is reported. -/
def failedPhase (k st cause key : Nat) (s : State) : State :=
  bumpPart key (updPhase k (fun p => { p with st := st, cause := cause, probing := false }) s)

/-- What the failure of a phase sets in ALERT_CAUSE: its bit, and FORCED where a limit of R400 begins. -/
def phaseAlert (bit : Nat) (before s : State) : State :=
  if (alert bit s).phaseCeiling < before.phaseCeiling then alert 4 (alert bit s) else alert bit s

theorem phaseEvent_eq (k cause bit : Nat) (before s : State) : phaseEvent k cause bit before s =
    postEvent evPhase stOk (k + cause * 2 ^ 5 + (phaseAlert bit before s).dropped * 2 ^ 8 + (phaseAlert bit before s).untrusted * 2 ^ 13)
      (phaseAlert bit before s) := rfl

theorem alert_self {bit : Nat} (h : bit < 8) (s : State) : (alert bit s).power.alert.getLsbD bit = true := by
  show (s.power.alert ||| BitVec.ofNat 8 (2 ^ bit)).getLsbD bit = true
  rw [BitVec.getLsbD_or, BitVec.getLsbD_ofNat, Nat.testBit_two_pow_self, decide_eq_true h, Bool.and_true, Bool.or_true]

theorem alert_keeps {bit : Nat} (b : Nat) {s : State} (h : s.power.alert.getLsbD bit = true) :
    (alert b s).power.alert.getLsbD bit = true := by
  show (s.power.alert ||| BitVec.ofNat 8 (2 ^ b)).getLsbD bit = true
  rw [BitVec.getLsbD_or, h, Bool.true_or]

section PhaseAlert

variable {bit : Nat} {before s : State}

theorem phaseAlert_phases : (phaseAlert bit before s).power.phases = s.power.phases := by
  unfold phaseAlert
  split <;> rfl

theorem phaseAlert_frame : { phaseAlert bit before s with power := s.power } = s := by
  unfold phaseAlert
  split <;> rfl

theorem phaseAlert_self (h : bit < 8) : (phaseAlert bit before s).power.alert.getLsbD bit = true := by
  unfold phaseAlert
  split
  · exact alert_keeps 4 (alert_self h s)
  · exact alert_self h s

theorem phaseAlert_forced (h : s.phaseCeiling < before.phaseCeiling) : (phaseAlert bit before s).power.alert.getLsbD 4 = true := by
  have hlow : (alert bit s).phaseCeiling < before.phaseCeiling := h
  rw [phaseAlert, if_pos hlow]
  exact alert_self (by decide) _

end PhaseAlert

/-- What the failure of phase k leaves: the phase, ALERT_CAUSE, the count, and event 0x0003 with its DETAIL (R401). -/
def phaseFailed (k st cause bit key : Nat) (s t : State) : Prop :=
  t.phase k = { s.phase k with st := st, cause := cause, probing := false } ∧ (∀ j, j ≠ k → t.phase j = s.phase j) ∧
  t.power.alert.getLsbD bit = true ∧ (t.phaseCeiling < s.phaseCeiling → t.power.alert.getLsbD 4 = true) ∧
  (∃ u, t = postEvent evPhase stOk (k + cause * 2 ^ 5 + t.dropped * 2 ^ 8 + t.untrusted * 2 ^ 13) u ∧
    u.cnt = Tab.upd 0 s.cnt key (countUp key 1) ∧ { u with power := s.power, cnt := s.cnt } = s)

section Failure

variable (k : Nat) {st cause bit key : Nat} {s : State}

theorem phaseEvent_phases : (phaseEvent k cause bit s (failedPhase k st cause key s)).power.phases =
    (updPhase k (fun p => { p with st := st, cause := cause, probing := false }) s).power.phases := by
  rw [phaseEvent_eq, postEvent_power, phaseAlert_phases]
  rfl

theorem phaseEvent_failed (hbit : bit < 8) :
    phaseFailed k st cause bit key s (phaseEvent k cause bit s (failedPhase k st cause key s)) := by
  have hphases := phaseEvent_phases k (st := st) (cause := cause) (bit := bit) (key := key) (s := s)
  have hpower : (phaseEvent k cause bit s (failedPhase k st cause key s)).power = (phaseAlert bit s (failedPhase k st cause key s)).power :=
    postEvent_power ..
  have hposted := congrArg Power.phases hpower
  refine ⟨?_, fun j hj => ?_, ?_, fun hlow => ?_, phaseAlert bit s (failedPhase k st cause key s), ?_, ?_, ?_⟩
  · rw [phase_congr hphases, phase_updPhase_same]
  · rw [phase_congr hphases, phase_updPhase_ne hj]
  · rw [hpower]
    exact phaseAlert_self hbit
  · rw [hpower]
    rw [phaseCeiling_congr (hposted.trans phaseAlert_phases)] at hlow
    exact phaseAlert_forced hlow
  · rw [dropped_congr hposted, untrusted_congr hposted]
    rfl
  · exact congrArg State.cnt (phaseAlert_frame (bit := bit) (before := s) (s := failedPhase k st cause key s))
  · exact congrArg (fun t : State => { t with power := s.power, cnt := s.cnt })
      (phaseAlert_frame (bit := bit) (before := s) (s := failedPhase k st cause key s))

/-- A command that ends in the failure of a phase leaves what R401 says. -/
theorem completes_phaseFailed {c : Instr} (hbit : bit < 8)
    (h : exec c s = done s (phaseEvent k cause bit s (failedPhase k st cause key s))) :
    completes c s (phaseFailed k st cause bit key s) := by
  refine ⟨phaseEvent k cause bit s (failedPhase k st cause key s), h.trans ?_, phaseEvent_failed k hbit⟩
  have hqueue : (phaseEvent k cause bit s (failedPhase k st cause key s)).pending = s.pending :=
    (postEvent_pending ..).trans (congrArg State.pending
      (phaseAlert_frame (bit := bit) (before := s) (s := failedPhase k st cause key s)) :)
  rw [done_eq, ← hqueue]

end Failure

section Phases

variable {k cause : Nat} {s : State}

theorem dropPhase_failed (h : (s.phase k).st ≠ 2) :
    dropPhase k cause s = phaseEvent k cause 1 s (failedPhase k 2 cause cPhaseDrop s) := if_neg h

theorem dropPhase_again (h : (s.phase k).st = 2) : dropPhase k cause s = s := if_pos h

theorem distrustPhase_failed (h : (s.phase k).st = 0) :
    distrustPhase k cause s = phaseEvent k cause 2 s (failedPhase k 1 cause cPhaseSenseFail s) := if_neg (by simp [h])

theorem phaseImbalance_probes (hstretch : s.power.stretch.any (fun e => decide (0 < e.2)) = false) (hbrown : s.brown.asserted = false)
    (hprobing : s.power.phases.any (·.2.probing) = false) {k : PhaseId} (hst : (s.phase k.val).st = 0) :
    endsIn (.phaseImbalance k) s (updPhase k.val (fun p => { p with probing := true }) s) :=
  if_neg (by simp [hstretch, hbrown, hprobing, hst])

theorem phaseImbalance_waits {k : PhaseId} (h : s.power.stretch.any (fun e => decide (0 < e.2)) = true ∨ s.brown.asserted = true ∨
    s.power.phases.any (·.2.probing) = true) : endsIn (.phaseImbalance k) s s := by
  refine if_pos ?_
  rcases h with h | h | h
  · rw [h, Bool.or_true, Bool.true_or, Bool.true_or]
  · rw [h, Bool.or_true, Bool.true_or]
  · rw [h, Bool.or_true]

theorem stageHot_completes {k : PhaseId} (hhot : (s.phase k.val).hot = false) (hst : (s.phase k.val).st ≠ 2) :
    completes (.stageHot k) s (fun t => t.phase k.val = { s.phase k.val with hot := true } ∧ t.power.alert = s.power.alert ||| 0x08#8 ∧
      t.cnt = Tab.upd 0 s.cnt cPhaseHot (countUp cPhaseHot 1) ∧ { t with power := s.power, cnt := s.cnt } = s) :=
  completes_of_endsIn (if_neg (by simp [hhot, hst])) ⟨phase_updPhase_same k.val (fun p => { p with hot := true }) s, rfl, rfl, rfl⟩

/-- R400: what a phase that is dropped takes away. -/
theorem dropPhase_limits (hk : k < 24) (hst : (s.phase k).st ≠ 2) :
    (dropPhase k cause s).dropped = s.dropped + 1 ∧ s.untrusted ≤ (dropPhase k cause s).untrusted ∧
      (dropPhase k cause s).capMw ≤ s.capMw ∧ (dropPhase k cause s).phaseCeiling ≤ s.phaseCeiling := by
  have hphases := phaseEvent_phases k (st := 2) (cause := cause) (bit := 1) (key := cPhaseDrop) (s := s)
  rw [dropPhase_failed hst]
  have hsame : ((phaseEvent k cause 1 s (failedPhase k 2 cause cPhaseDrop s)).phase k).st = 2 := by
    rw [phase_congr hphases, phase_updPhase_same]
  have hother (j : Nat) (hj : j ≠ k) : (phaseEvent k cause 1 s (failedPhase k 2 cause cPhaseDrop s)).phase j = s.phase j := by
    rw [phase_congr hphases, phase_updPhase_ne hj]
  have hdropped : (phaseEvent k cause 1 s (failedPhase k 2 cause cPhaseDrop s)).dropped = s.dropped + 1 :=
    length_filter_gains List.nodup_range (List.mem_range.mpr hk) (by simp [hst]) (by simp [hsame]) fun j hj => by rw [hother j hj]
  have huntrusted : s.untrusted ≤ (phaseEvent k cause 1 s (failedPhase k 2 cause cPhaseDrop s)).untrusted := by
    refine (List.monotone_filter_right _ fun j hj => ?_).length_le
    by_cases hjk : j = k
    · simp [hjk, hsame]
    · rw [hother j hjk]
      exact hj
  have hd := hdropped.ge.trans' (Nat.le_succ _)
  have hframe := phaseAlert_frame (bit := 1) (before := s) (s := failedPhase k 2 cause cPhaseDrop s)
  refine ⟨hdropped, huntrusted, capMw_anti ?_ ?_ ?_ hd, phaseCeiling_anti hd huntrusted⟩
  · exact (postEvent_caps ..).trans (congrArg State.caps hframe :)
  · rw [phaseEvent_eq, postEvent_power]
    unfold phaseAlert
    split <;> rfl
  · exact (postEvent_settings ..).trans (congrArg State.settings hframe :)

end Phases

/-- Settles O35: each event of a phase, then the limits of R400. -/
theorem phaseFailures : Obligations.PhaseFailures := by
  refine ⟨fun k s => ⟨?_, phaseImbalance_waits, ?_, ?_, ?_, ?_, ?_, stageHot_completes, ?_⟩, fun k cause s hst => ?_⟩
  · exact fun hstretch hbrown hprobing hst => phaseImbalance_probes hstretch hbrown hprobing hst
  -- the end of a probe, with and without a rise of the others' sum
  · intro hprobing hst
    refine completes_phaseFailed k.val (by decide) ((if_neg (by simp [hprobing])).trans ?_)
    exact congrArg (done s) (distrustPhase_failed hst)
  · intro hprobing hst
    refine completes_phaseFailed k.val (by decide) ((if_neg (by simp [hprobing])).trans ?_)
    exact congrArg (done s) (dropPhase_failed hst)
  -- senses, faults and hot stages without a probe
  · intro hprobing hst
    have hidle : ¬ (s.phase k.val).probing = true := by simp [hprobing]
    exact ⟨completes_phaseFailed k.val (by decide) ((if_neg hidle).trans (congrArg (done s) (distrustPhase_failed hst))),
      completes_phaseFailed k.val (by decide) ((if_neg hidle).trans (congrArg (done s) (distrustPhase_failed hst)))⟩
  · exact fun hst => ⟨completes_phaseFailed k.val (by decide) (congrArg (done s) (dropPhase_failed hst)),
      completes_phaseFailed k.val (by decide) (congrArg (done s) (dropPhase_failed hst))⟩
  · exact fun hst => ⟨congrArg (done s) (dropPhase_again hst), congrArg (done s) (dropPhase_again hst)⟩
  · exact completes_of_endsIn rfl ⟨phase_updPhase_same k.val (fun p => { p with hot := false }) s, rfl⟩
  · obtain ⟨hdropped, huntrusted, hcap, hceiling⟩ := dropPhase_limits (cause := cause) k.isLt hst
    exact ⟨hdropped, huntrusted, hcap, hceiling, phaseCeiling_eight_dropped, phaseCeiling_two_untrusted⟩

/-! ## Droop (R406 to R408) -/

/-- The state in which the supply of island k has crossed the threshold of a level: the island is stretched, and an upward change is
abandoned and held. -/
def crossed (k level : Nat) (s : State) : State :=
  updPower (fun p => { p with held := p.held || s.power.change.isSome })
    (updPower (fun p => { p with stretch := Tab.put p.stretch k level, held := p.held || p.change.isSome }) (abandonUp s))

theorem crossed_power (k level : Nat) (s : State) : (crossed k level s).power = { s.power with
    stretch := Tab.put s.power.stretch k level, held := s.power.held || s.power.change.isSome, change := none,
    target := if s.power.change.isSome then s.power.setpoint else s.power.target } := by
  unfold crossed abandonUp
  cases hchange : s.power.change with
  | none => simp [updPower, hchange]
  | some c => simp [updPower, bumpPart, bumpPartBy]

theorem crossed_frame (k level : Nat) (s : State) : { crossed k level s with power := s.power, cnt := s.cnt } = s := by
  unfold crossed abandonUp
  cases s.power.change with
  | none => rfl
  | some c => rfl

section Droop

variable {k : IslandId} {level : Fin 4} {s : State}

/-- A crossing of a higher level ends in the crossed state; the first one of a droop is counted. -/
theorem droopCrossing_endsIn (h : Tab.get 0 s.power.stretch k.val < level.val) : endsIn (.droopCrossing k level) s
    (if Tab.get 0 s.power.stretch k.val = 0 then bumpPart cDroopStretch (crossed k.val level.val s) else crossed k.val level.val s) :=
  if_neg h.not_ge

theorem droopCrossing_completes (h : Tab.get 0 s.power.stretch k.val < level.val) : completes (.droopCrossing k level) s (fun t =>
    t.power = (crossed k.val level.val s).power ∧ { t with power := s.power, cnt := s.cnt } = s) := by
  have hframe := congrArg (fun t : State => { t with pending := s.pending }) (crossed_frame k.val level.val s)
  refine completes_of_endsIn (droopCrossing_endsIn h) ?_
  split
  · exact ⟨rfl, hframe⟩
  · exact ⟨rfl, hframe⟩

theorem droopHoldEnd_asks (hheld : s.power.held = true) (hbrown : s.brown.asserted = false)
    (hstretch : s.power.stretch.any (fun e => decide (0 < e.2)) = false) :
    endsIn .droopHoldEnd s (setPoint s.power.op (updPower (fun p => { p with held := false }) s)) :=
  if_neg (by simp [hheld, hbrown, hstretch])

theorem droopHoldEnd_waits (h : s.brown.asserted = true ∨ s.power.stretch.any (fun e => decide (0 < e.2)) = true) :
    endsIn .droopHoldEnd s s := by
  refine if_pos ?_
  rcases h with h | h
  · rw [h, Bool.or_true, Bool.true_or]
  · rw [h, Bool.or_true]

end Droop

/-- Settles O36: a crossing by what `crossed` leaves, then the way back down. -/
theorem droopResponses : Obligations.DroopResponses := by
  refine fun k s => ⟨fun level hup => ?_, fun level hdown => if_pos hdown, ?_, droopHoldEnd_asks, fun _ => droopHoldEnd_waits⟩
  · obtain ⟨t, ht, hpower, hframe⟩ := droopCrossing_completes hup
    rw [crossed_power] at hpower
    refine ⟨t, ht, ?_⟩
    dsimp only
    rw [hpower]
    refine ⟨get_put_same .., fun j hj => get_put_ne _ _ _ hj, rfl, fun hsome => ?_, fun hnone => ?_, rfl, rfl, hframe⟩
    · have hchanging : s.power.change.isSome = true := Option.isSome_iff_ne_none.mpr hsome
      exact ⟨by rw [hchanging, Bool.or_true], if_pos hchanging⟩
    · exact if_neg (by simp [hnone])
  · exact completes_of_endsIn rfl ⟨get_upd_same 0 s.power.stretch k.val (fun l => l - 1),
      fun j hj => get_upd_ne 0 s.power.stretch (fun l => l - 1) hj, rfl⟩

end Sys2Proof.Proofs
end

section
/-! PROOFS of the statement on the energy meter (R424 to R428): every operation that charges adds what it is given to exactly one bucket
of the owners, and the parts of a total sum to it. -/

namespace Sys2Proof.Proofs

open Sys2Proof.Machine Sys2Proof.Safety Sys2Proof.Laws

/-! ## Parts of a total (log 13) -/

theorem split_length (total sum off before : Nat) (l : List Nat) : (split total sum off before l).length = l.length := by
  induction l generalizing before with
  | nil => rfl
  | cons w l ih => rw [split, List.length_cons, List.length_cons, ih]

/-- The parts telescope: they sum to the difference of the last and the first rounding. -/
theorem split_sum (total sum off before : Nat) (l : List Nat) : (split total sum off before l).sum =
    ((before + l.sum) * total + off) / sum - (before * total + off) / sum := by
  induction l generalizing before with
  | nil => simp [split]
  | cons w l ih =>
    have hfirst : (before * total + off) / sum ≤ ((before + w) * total + off) / sum :=
      Nat.div_le_div_right (Nat.add_le_add_right (Nat.mul_le_mul_right _ (Nat.le_add_right ..)) _)
    have hrest : ((before + w) * total + off) / sum ≤ ((before + w + l.sum) * total + off) / sum :=
      Nat.div_le_div_right (Nat.add_le_add_right (Nat.mul_le_mul_right _ (Nat.le_add_right ..)) _)
    rw [split, List.sum_cons, List.sum_cons, ih, ← Nat.add_assoc]
    omega

theorem shareOut_length (total : Nat) (l : List Nat) (s : State) : (shareOut total l s).length = l.length := by
  unfold shareOut
  split
  · exact List.length_map _
  · exact split_length ..

/-- Where some weight is positive the parts sum to the total exactly. -/
theorem shareOut_sum (total : Nat) {l : List Nat} (h : l.sum ≠ 0) (s : State) : (shareOut total l s).sum = total := by
  have hpos : 0 < l.sum := Nat.pos_of_ne_zero h
  have hoff : freeNumber s % l.sum / l.sum = 0 := Nat.div_eq_of_lt (Nat.mod_lt _ hpos)
  rw [shareOut, if_neg h, split_sum, Nat.zero_add, Nat.zero_mul, Nat.zero_add, hoff, Nat.mul_add_div hpos, hoff]
  rfl

/-! ## Charges -/

/-- What the owners' buckets hold together: every bucket but INPUT. -/
def ownersSum (s : State) : Nat := ((List.range 8).map (fun b => Tab.get 0 s.meter.buckets (b + 1))).sum

/-- Two states with the same buckets and, in what the division of energy leaves alone, the same contents. -/
structure sameLedger (s t : State) : Prop where
  mem : t.mem = s.mem
  fab : t.fab = s.fab
  kv : t.kv = s.kv
  power : t.power = s.power
  degraded : t.meter.degraded = s.meter.degraded
  buckets : t.meter.buckets = s.meter.buckets

theorem updCtx_sameLedger (i : Nat) (g : Ctx → Ctx) (s : State) : sameLedger s (updCtx i g s) := by
  unfold updCtx
  split
  · exact ⟨rfl, rfl, rfl, rfl, rfl, rfl⟩
  · exact ⟨rfl, rfl, rfl, rfl, rfl, rfl⟩

/-- An amount has been charged to the owners' buckets, modulo their 64 bits, and to nothing else. -/
structure charged (n : Nat) (s t : State) : Prop where
  mem : t.mem = s.mem
  fab : t.fab = s.fab
  kv : t.kv = s.kv
  power : t.power = s.power
  degraded : t.meter.degraded = s.meter.degraded
  input : Tab.get 0 t.meter.buckets bInput = Tab.get 0 s.meter.buckets bInput
  owners : ownersSum t ≡ ownersSum s + n [MOD 2 ^ 64]

theorem charged.zero (s : State) : charged 0 s s := ⟨rfl, rfl, rfl, rfl, rfl, rfl, rfl⟩

theorem charged.trans {a b : Nat} {s t u : State} (h : charged a s t) (k : charged b t u) : charged (a + b) s u where
  mem := k.mem.trans h.mem
  fab := k.fab.trans h.fab
  kv := k.kv.trans h.kv
  power := k.power.trans h.power
  degraded := k.degraded.trans h.degraded
  input := k.input.trans h.input
  owners := by
    rw [← Nat.add_assoc]
    exact k.owners.trans (h.owners.add_right b)

theorem charged.after {n : Nat} {s t u : State} (k : charged n t u) (h : sameLedger s t) : charged n s u where
  mem := k.mem.trans h.mem
  fab := k.fab.trans h.fab
  kv := k.kv.trans h.kv
  power := k.power.trans h.power
  degraded := k.degraded.trans h.degraded
  input := by rw [k.input, h.buckets]
  owners := by
    have hsum : ownersSum t = ownersSum s := by rw [ownersSum, ownersSum, h.buckets]
    rw [← hsum]
    exact k.owners

/-- A sum over a list without repetitions grows by what one of its terms grows by. -/
theorem sum_map_gains {m n k : Nat} {f g : Nat → Nat} {l : List Nat} (hl : l.Nodup) (hk : k ∈ l) (hgain : g k ≡ f k + n [MOD m])
    (hsame : ∀ j, j ≠ k → g j = f j) : (l.map g).sum ≡ (l.map f).sum + n [MOD m] := by
  induction l with
  | nil => simp at hk
  | cons a l ih =>
    obtain ⟨hnotin, hnodup⟩ := List.nodup_cons.mp hl
    rw [List.map_cons, List.map_cons, List.sum_cons, List.sum_cons]
    by_cases ha : a = k
    · subst ha
      have hrest : l.map g = l.map f := List.map_congr_left fun j hj => hsame j fun hja => hnotin (hja ▸ hj)
      rw [hrest, Nat.add_right_comm]
      exact hgain.add_right _
    · rw [hsame a ha, Nat.add_assoc]
      exact (ih hnodup ((List.mem_cons.mp hk).resolve_left (Ne.symm ha))).add_left _

/-- A bucket of the owners takes an amount. -/
theorem addBucket_charged {b : Nat} (hb : b < 8) (n : Nat) (s : State) : charged n s (addBucket (b + 1) n s) where
  mem := rfl
  fab := rfl
  kv := rfl
  power := rfl
  degraded := rfl
  input := get_upd_ne 0 s.meter.buckets (fun v => (v + n) % 2 ^ 64) (Nat.succ_ne_zero b).symm
  owners := by
    refine sum_map_gains List.nodup_range (List.mem_range.mpr hb) ?_ fun j hj =>
      get_upd_ne 0 s.meter.buckets (fun v => (v + n) % 2 ^ 64) (by omega)
    have hsum : Tab.get 0 (addBucket (b + 1) n s).meter.buckets (b + 1) = (Tab.get 0 s.meter.buckets (b + 1) + n) % 2 ^ 64 :=
      get_upd_same 0 s.meter.buckets (b + 1) (fun v => (v + n) % 2 ^ 64)
    rw [hsum]
    exact Nat.mod_modEq ..

/-- A function's share of a bucket and its FUNC_ENERGY take an amount. -/
def addShare (f b n : Nat) (s : State) : State :=
  { s with meter := { s.meter with
    funcs := Tab.upd 0 s.meter.funcs f (fun v => (v + n) % 2 ^ 64),
    funcBuckets := Tab.upd 0 s.meter.funcBuckets (16 * f + b) (fun v => (v + n) % 2 ^ 64) } }

theorem addFunc_eq (f b n : Nat) (s : State) : addFunc f b n s = addBucket b n (addShare f b n s) := rfl

theorem addFunc_charged (f : Nat) {b : Nat} (hb : b < 8) (n : Nat) (s : State) : charged n s (addFunc f (b + 1) n s) := by
  rw [addFunc_eq]
  exact (addBucket_charged hb n (addShare f (b + 1) n s)).after ⟨rfl, rfl, rfl, rfl, rfl, rfl⟩

/-- A part of each amount is charged by each of the owners in turn. -/
theorem forEach_zip_charged {α : Type} {f : α → Nat → State → State} (h : ∀ x n s, charged n s (f x n s)) {l : List α} {parts : List Nat}
    (hlen : parts.length ≤ l.length) (s : State) : charged parts.sum s (forEach (l.zip parts) (fun e t => f e.1 e.2 t) s) := by
  induction parts generalizing l s with
  | nil =>
    rw [List.zip_nil_right]
    exact .zero s
  | cons n parts ih =>
    cases l with
    | nil => simp at hlen
    | cons x l =>
      rw [List.sum_cons]
      exact (h x n s).trans (ih (Nat.le_of_succ_le_succ hlen) (f x n s))

/-! ## Owners (R425, R426) -/

theorem chargeCtx_charged (idx : Nat) (home : Bool) (n : Nat) (s : State) : charged n s (chargeCtx idx home n s) := by
  unfold chargeCtx
  split
  · exact addBucket_charged (b := 4) (by decide) n s
  · split
    · exact (addFunc_charged _ (b := 1) (by decide) n (bumpBy _ cServeEnergyLate n s)).after ⟨rfl, rfl, rfl, rfl, rfl, rfl⟩
    · exact (addFunc_charged _ (b := 0) (by decide) n _).after (updCtx_sameLedger ..)

theorem chargeStep_charged (n : Nat) (s : State) : charged n s (chargeStep n s) := by
  unfold chargeStep
  split
  · exact addBucket_charged (b := 4) (by decide) n s
  · next st _ =>
    extract_lets parts
    split
    · exact addBucket_charged (b := 4) (by decide) n s
    · next hsum =>
      have hlen : parts.length ≤ (st.reqs.map (·.idx)).length := by
        rw [shareOut_length, List.length_map, List.length_map]
      rw [← not_not.mp hsum]
      exact (forEach_zip_charged (fun i m t => chargeCtx_charged i false m t) hlen (tookFree s)).after
        ⟨rfl, rfl, rfl, rfl, rfl, rfl⟩

/-- Whatever the owner, its energy goes to one bucket. -/
theorem chargeOwner_charged (o : EnergyOwner) (n : Nat) (s : State) : charged n s (chargeOwner o n s) := by
  match o with
  | .step => exact chargeStep_charged n s
  | .fetch i => exact chargeCtx_charged i false n s
  | .seal i => exact chargeCtx_charged i false n s
  | .shipment i => exact chargeCtx_charged i false n s
  | .revival i => exact chargeCtx_charged i false n s
  | .home i => exact chargeCtx_charged i true n s
  | .task k =>
    dsimp only [chargeOwner]
    split
    · exact addBucket_charged (b := 4) (by decide) n s
    · exact (addFunc_charged _ (b := 2) (by decide) n { s with tasks := _ }).after ⟨rfl, rfl, rfl, rfl, rfl, rfl⟩
  | .run net =>
    dsimp only [chargeOwner]
    split
    · exact addBucket_charged (b := 4) (by decide) n s
    · exact (addFunc_charged _ (b := 3) (by decide) n { s with flint := _ }).after ⟨rfl, rfl, rfl, rfl, rfl, rfl⟩
  | .flintStatic => exact addBucket_charged (b := 3) (by decide) n s
  | .system f =>
    cases f with
    | none => exact addBucket_charged (b := 4) (by decide) n s
    | some f => exact addFunc_charged f.val (b := 4) (by decide) n s
  | .keepWarm => exact addBucket_charged (b := 5) (by decide) n s
  | .ballast =>
    exact (addBucket_charged (b := 6) (by decide) n (bumpPartBy cSlewBallast n s)).after ⟨rfl, rfl, rfl, rfl, rfl, rfl⟩

/-! ## The monitor (R423, R427) -/

theorem meterFailed_again {s : State} (h : s.meter.degraded = true) : meterFailed s = s := if_pos h

theorem meterFailed_once {s : State} (h : s.meter.degraded = false) : meterFailed s =
    pldmEvent cMeterFail 0 (bumpPart cMeterFail { s with meter := { s.meter with degraded := true } }) := if_neg (by simp [h])

/-- The first failure of a check degrades the meter and is counted. -/
theorem completes_meterFailed {c : Instr} {s : State} (h : s.meter.degraded = false) (hc : exec c s = done s (meterFailed s)) :
    completes c s (fun t => t.meter = { s.meter with degraded := true } ∧ t.cnt = Tab.upd 0 s.cnt cMeterFail (countUp cMeterFail 1) ∧
      { t with meter := s.meter, cnt := s.cnt, out := s.out } = s) :=
  completes_of_endsIn (hc.trans (congrArg (done s) (meterFailed_once h))) ⟨rfl, rfl, rfl⟩

/-! ## A window (R424) -/

/-- The state in which a window without a reading has degraded the meter. -/
def windowRead (input : Option Nat) (s : State) : State := if input.isNone then meterFailed s else s

/-- What a window adds to INPUT. -/
def windowTotal (input : Option Nat) (shares : List (EnergyOwner × Nat)) (s : State) : Nat :=
  if (windowRead input s).meter.degraded then (shares.map (·.2)).sum else input.getD 0

theorem windowRead_frame (input : Option Nat) (s : State) : { windowRead input s with meter := s.meter, cnt := s.cnt, out := s.out } = s := by
  unfold windowRead meterFailed
  split
  · split <;> rfl
  · rfl

theorem windowRead_meter (input : Option Nat) (s : State) :
    (windowRead input s).meter = { s.meter with degraded := s.meter.degraded || input.isNone } := by
  unfold windowRead
  cases input with
  | some n => simp
  | none =>
    cases hdegraded : s.meter.degraded with
    | true => simp [meterFailed_again hdegraded, ← hdegraded]
    | false => simp [meterFailed_once hdegraded, pldmEvent, bumpPart, bumpPartBy, emit]

/-- What a window adds to INPUT, it charges to the owners. -/
theorem execEnergyWindow_charged (input : Option Nat) (shares : List (EnergyOwner × Nat)) (s : State) :
    ∃ t, execEnergyWindow input shares s = live s t ∧
      charged (windowTotal input shares s) (addBucket bInput (windowTotal input shares s) (windowRead input s)) t := by
  have hlen (v : State) : (shareOut (windowTotal input shares s) (shares.map (·.2)) v).length ≤ (shares.map (·.1)).length := by
    rw [shareOut_length, List.length_map, List.length_map]
  by_cases hest : (shares.map (·.2)).sum = 0
  · exact ⟨_, if_pos hest, addBucket_charged (b := 7) (by decide) ..⟩
  · have hcharged := forEach_zip_charged (fun o n t => chargeOwner_charged o n t)
      (hlen (addBucket bInput (windowTotal input shares s) (windowRead input s)))
      (tookFree (addBucket bInput (windowTotal input shares s) (windowRead input s)))
    rw [shareOut_sum _ hest] at hcharged
    exact ⟨_, if_neg hest, hcharged.after ⟨rfl, rfl, rfl, rfl, rfl, rfl⟩⟩

/-- INPUT takes an amount, and the owners' buckets keep what they hold. -/
theorem addBucket_input (n : Nat) (s : State) : Tab.get 0 (addBucket bInput n s).meter.buckets bInput =
    (Tab.get 0 s.meter.buckets bInput + n) % 2 ^ 64 ∧ ownersSum (addBucket bInput n s) = ownersSum s :=
  ⟨get_upd_same 0 s.meter.buckets bInput (fun v => (v + n) % 2 ^ 64), congrArg List.sum (List.map_congr_left fun b _ =>
    get_upd_ne 0 s.meter.buckets (fun v => (v + n) % 2 ^ 64) (Nat.succ_ne_zero b))⟩

theorem energyWindow_completes {s : State} (ha : awake s) (input : Option Nat) (shares : List (EnergyOwner × Nat)) :
    completes (.energyWindow input shares) s (fun t => t.meter.degraded = (s.meter.degraded || input.isNone) ∧
      ∃ total, (t.meter.degraded = false → input = some total) ∧ (t.meter.degraded = true → total = (shares.map (·.2)).sum) ∧
        Tab.get 0 t.meter.buckets bInput % 2 ^ 64 = (Tab.get 0 s.meter.buckets bInput + total) % 2 ^ 64 ∧
        ownersSum t % 2 ^ 64 = (ownersSum s + total) % 2 ^ 64 ∧ t.mem = s.mem ∧ t.fab = s.fab ∧ t.kv = s.kv ∧ t.power = s.power) := by
  obtain ⟨t, hexec, hcharged⟩ := execEnergyWindow_charged input shares s
  have hmeter := windowRead_meter input s
  have hframe := windowRead_frame input s
  obtain ⟨hinput, howners⟩ := addBucket_input (windowTotal input shares s) (windowRead input s)
  have hdegraded : t.meter.degraded = (s.meter.degraded || input.isNone) :=
    hcharged.degraded.trans (congrArg Meter.degraded hmeter)
  have hsum : ownersSum (windowRead input s) = ownersSum s := by rw [ownersSum, ownersSum, hmeter]
  have htotal : windowTotal input shares s = if t.meter.degraded then (shares.map (·.2)).sum else input.getD 0 := by
    rw [windowTotal, hmeter, hdegraded]
  refine completes_of_endsIn (endsIn_of_live ha hexec) ⟨hdegraded, windowTotal input shares s, fun hwhole => ?_, fun hest => ?_, ?_, ?_,
    hcharged.mem.trans (congrArg State.mem hframe :), hcharged.fab.trans (congrArg State.fab hframe :),
    hcharged.kv.trans (congrArg State.kv hframe :), hcharged.power.trans (congrArg State.power hframe :)⟩
  · have hsome : input.isNone = false := (Bool.or_eq_false_iff.mp (hdegraded.symm.trans hwhole)).2
    rw [htotal, if_neg (by simp [show t.meter.degraded = false from hwhole])]
    cases input with
    | none => simp at hsome
    | some n => rfl
  · rw [htotal, if_pos hest]
  · show Tab.get 0 t.meter.buckets bInput % 2 ^ 64 = _
    rw [hcharged.input, hinput, Nat.mod_mod, hmeter]
  · exact hsum ▸ howners ▸ hcharged.owners

/-- Settles O37: a window by what it charges, then the monitor's checks and the refits. -/
theorem energyIsDivided : Obligations.EnergyIsDivided := by
  refine fun s => ⟨fun input shares ha => energyWindow_completes ha input shares, fun hwhole c hc => ?_, fun hdegraded => ?_, rfl,
    fun hpmc hwhole => ?_⟩
  · rcases hc with rfl | rfl
    · exact completes_meterFailed hwhole rfl
    · exact completes_meterFailed hwhole rfl
  · exact ⟨congrArg (done s) (meterFailed_again hdegraded), congrArg (done s) (meterFailed_again hdegraded)⟩
  · exact if_pos (by rw [hpmc, hwhole]; rfl)

end Sys2Proof.Proofs
end

section
/-! PROOFS of the statement on temperatures and their thresholds (R429, R432 to R434): a sample by its stages. -/

namespace Sys2Proof.Proofs

open Sys2Proof.Machine Sys2Proof.Safety Sys2Proof.Laws

/-! ## What a sample may change -/

/-- The state t with the power, cap and thermal states of s, and what reports change as s has it. -/
def withThermalOf (s t : State) : State :=
  { t with
    power := s.power, caps := s.caps, thermal := s.thermal, funcs := s.funcs, out := s.out, cnt := s.cnt, fcnt := s.fcnt, free := s.free }

/-- From s to t at most the power, cap and thermal states have changed, and what reports change. -/
def thermalOnly (s t : State) : Prop := withThermalOf s t = s

theorem thermalOnly.refl (s : State) : thermalOnly s s := rfl

theorem thermalOnly.trans {s t u : State} (h : thermalOnly s t) (k : thermalOnly t u) : thermalOnly s u :=
  have hback := congrArg (withThermalOf s) k
  (hback.trans h :)

theorem thermalOnly.of_reports {s t : State} (h : reportsOnly s t) : thermalOnly s t := (congrArg (withThermalOf s) h :)

theorem thermalOnly.of_onlyPower {s t : State} (h : onlyPower s t) : thermalOnly s t := (congrArg (withThermalOf s) h :)

theorem updThermal_thermalOnly (g : Thermal → Thermal) (s : State) : thermalOnly s (updThermal g s) := rfl

theorem thermalOnly.judged {s t : State} (h : thermalOnly s t) : t.judged = s.judged := by
  have hhbm : t.hbm = s.hbm := (congrArg State.hbm h :)
  have hsettings : t.settings = s.settings := (congrArg State.settings h :)
  rw [State.judged, State.judged, hhbm, hsettings]

theorem thermalEvent_reports (source kind : Nat) (temp : Int) (s : State) : reportsOnly s (thermalEvent source kind temp s) :=
  postEvent_reports ..

@[simp] theorem thermalEvent_thermal (source kind : Nat) (temp : Int) (s : State) :
    (thermalEvent source kind temp s).thermal = s.thermal := (thermalEvent_reports ..).thermal

/-! ## Readings (R429) -/

/-- The readings are taken in, each under its sensor's number. -/
def takenIn (l : List (Int × Nat)) (s : State) : State :=
  forEach l (fun e t => updThermal (fun x => { x with die := Tab.put x.die e.2 e.1 }) t) s

theorem takenIn_cons (e : Int × Nat) (l : List (Int × Nat)) (s : State) : takenIn (e :: l) s =
    takenIn l (updThermal (fun x => { x with die := Tab.put x.die e.2 e.1 }) s) := rfl

theorem takenIn_thermalOnly (l : List (Int × Nat)) (s : State) : thermalOnly s (takenIn l s) :=
  forEach_rel .refl .trans l _ (fun _ t => updThermal_thermalOnly _ t) s

@[simp] theorem takenIn_excluded (l : List (Int × Nat)) (s : State) : (takenIn l s).thermal.excluded = s.thermal.excluded := by
  induction l generalizing s with
  | nil => rfl
  | cons e l ih => rw [takenIn_cons, ih]; rfl

/-- Readings of later sensors leave an earlier one's. -/
theorem takenIn_find_lt (xs : List Int) {n k : Nat} (h : k < n) (s : State) :
    Tab.find (takenIn (xs.zipIdx n) s).thermal.die k = Tab.find s.thermal.die k := by
  induction xs generalizing n s with
  | nil => rfl
  | cons x xs ih =>
    rw [List.zipIdx_cons, takenIn_cons, ih (Nat.lt_succ_of_lt h)]
    exact find_put_ne _ _ (Nat.ne_of_lt h)

theorem takenIn_find {xs : List Int} {k : Nat} {r : Int} (h : xs[k]? = some r) (n : Nat) (s : State) :
    Tab.find (takenIn (xs.zipIdx n) s).thermal.die (n + k) = some r := by
  induction xs generalizing n k s with
  | nil => simp at h
  | cons x xs ih =>
    rw [List.zipIdx_cons, takenIn_cons]
    cases k with
    | zero =>
      obtain rfl : x = r := Option.some.inj h
      exact (takenIn_find_lt xs (Nat.lt_succ_self n) _).trans (find_put_same ..)
    | succ k =>
      have hlater := ih h (n + 1) (updThermal (fun y => { y with die := Tab.put y.die n x }) s)
      rwa [Nat.succ_add_eq_add_succ] at hlater

/-! ## Sensors excluded (R429) -/

theorem excludeSensor_thermalOnly (k : Nat) (s : State) : thermalOnly s (excludeSensor k s) := by
  unfold excludeSensor
  split <;> rfl

@[simp] theorem excludeSensor_die (k : Nat) (s : State) : (excludeSensor k s).thermal.die = s.thermal.die := by
  unfold excludeSensor
  split <;> rfl

theorem mem_excludeSensor {j k : Nat} {s : State} : j ∈ (excludeSensor k s).thermal.excluded ↔ j = k ∨ j ∈ s.thermal.excluded := by
  unfold excludeSensor
  split
  · next h =>
    exact (or_iff_right_of_imp fun hjk => hjk ▸ List.contains_iff_mem.mp h).symm
  · exact List.mem_cons

/-- The sensors whose readings are below -40 °C or above 150 °C are excluded. -/
def implausibleOut (l : List (Int × Nat)) (s : State) : State :=
  forEach l (fun e t => if e.1 < -320 ∨ 1200 < e.1 then excludeSensor e.2 t else t) s

theorem implausibleOut_cons (e : Int × Nat) (l : List (Int × Nat)) (s : State) : implausibleOut (e :: l) s =
    implausibleOut l (if e.1 < -320 ∨ 1200 < e.1 then excludeSensor e.2 s else s) := rfl

theorem implausibleOut_thermalOnly (l : List (Int × Nat)) (s : State) : thermalOnly s (implausibleOut l s) := by
  refine forEach_rel .refl .trans l _ (fun e t => ?_) s
  split
  · exact excludeSensor_thermalOnly ..
  · exact .refl t

@[simp] theorem implausibleOut_die (l : List (Int × Nat)) (s : State) : (implausibleOut l s).thermal.die = s.thermal.die := by
  induction l generalizing s with
  | nil => rfl
  | cons e l ih =>
    rw [implausibleOut_cons, ih]
    split
    · exact excludeSensor_die ..
    · rfl

theorem mem_implausibleOut_of_mem {j : Nat} (l : List (Int × Nat)) {s : State} (h : j ∈ s.thermal.excluded) :
    j ∈ (implausibleOut l s).thermal.excluded := by
  induction l generalizing s with
  | nil => exact h
  | cons e l ih =>
    rw [implausibleOut_cons]
    apply ih
    split
    · exact mem_excludeSensor.mpr (.inr h)
    · exact h

theorem mem_implausibleOut {e : Int × Nat} {l : List (Int × Nat)} (hmem : e ∈ l) (hbad : e.1 < -320 ∨ 1200 < e.1) (s : State) :
    e.2 ∈ (implausibleOut l s).thermal.excluded := by
  induction l generalizing s with
  | nil => simp at hmem
  | cons x l ih =>
    rw [implausibleOut_cons]
    rcases List.mem_cons.mp hmem with rfl | hrest
    · rw [if_pos hbad]
      exact mem_implausibleOut_of_mem l (mem_excludeSensor.mpr (.inl rfl))
    · exact ih hrest _

/-- The thermal state y with the readings and the excluded sensors of x. -/
def withSensorsOf (x y : Thermal) : Thermal := { y with die := x.die, excluded := x.excluded }

/-- From s to t at most the readings and the excluded sensors have changed in the thermal state. -/
def sensorsOnly (s t : State) : Prop := withSensorsOf s.thermal t.thermal = s.thermal

theorem sensorsOnly.refl (s : State) : sensorsOnly s s := rfl

theorem sensorsOnly.trans {s t u : State} (h : sensorsOnly s t) (k : sensorsOnly t u) : sensorsOnly s u :=
  have hback := congrArg (withSensorsOf s.thermal) k
  (hback.trans h :)

theorem takenIn_sensorsOnly (l : List (Int × Nat)) (s : State) : sensorsOnly s (takenIn l s) := by
  refine forEach_rel sensorsOnly.refl sensorsOnly.trans l _ (fun e t => ?_) s
  rfl

theorem implausibleOut_sensorsOnly (l : List (Int × Nat)) (s : State) : sensorsOnly s (implausibleOut l s) := by
  refine forEach_rel .refl .trans l _ (fun e t => ?_) s
  unfold excludeSensor
  repeat' split
  all_goals rfl

/-! ## Throttle (R432) -/

/-- The sample is counted as one of the cool ones or breaks their run. -/
def counted (s : State) : State :=
  updThermal (fun x => { x with
    coolFor := if s.included.all (fun e => decide (e.2 ≤ 816)) then x.coolFor + 1 else 0
    critFor := if s.included.all (fun e => decide (e.2 ≤ 840)) && s.judged.all (fun e => decide (e.2 ≤ 800)) then x.critFor + 1
      else 0 }) s

/-- Throttle begins with a sensor at 105 °C and ends after 51 cool samples. -/
def throttled (s : State) : State :=
  match s.included.find? (fun e => decide (840 ≤ e.2)) with
  | some e =>
    if s.thermal.throttle then s
    else thermalEvent e.1 0 e.2 (bumpPart cThermalThrottle (updThermal (fun x => { x with throttle := true }) s))
  | none =>
    if s.thermal.throttle && decide (51 ≤ s.thermal.coolFor) then updThermal (fun x => { x with throttle := false }) s else s

/-- The critical state ends after 501 samples below its thresholds. -/
def calmed (s : State) : State :=
  if s.thermal.critical && decide (501 ≤ s.thermal.critFor) then updThermal (fun x => { x with critical := false }) s else s

/-- Two states with the same sensors, what is in throttle, and the same run of cool samples. -/
structure sameSensors (s t : State) : Prop where
  only : thermalOnly s t
  die : t.thermal.die = s.thermal.die
  excluded : t.thermal.excluded = s.thermal.excluded
  coolFor : t.thermal.coolFor = s.thermal.coolFor

theorem sameSensors.trans {s t u : State} (h : sameSensors s t) (k : sameSensors t u) : sameSensors s u :=
  ⟨h.only.trans k.only, k.die.trans h.die, k.excluded.trans h.excluded, k.coolFor.trans h.coolFor⟩

theorem sameSensors.refl (s : State) : sameSensors s s := ⟨.refl s, rfl, rfl, rfl⟩

theorem sameSensors.included {s t : State} (h : sameSensors s t) : t.included = s.included := by
  rw [State.included, State.included, h.die, h.excluded]

theorem thermalEvent_sameSensors (source kind : Nat) (temp : Int) (s : State) : sameSensors s (thermalEvent source kind temp s) := by
  have h := thermalEvent_thermal source kind temp s
  exact ⟨.of_reports (thermalEvent_reports ..), congrArg Thermal.die h, congrArg Thermal.excluded h, congrArg Thermal.coolFor h⟩

theorem throttled_sameSensors (s : State) : sameSensors s (throttled s) := by
  unfold throttled
  split
  · split
    · exact .refl s
    · next e _ _ =>
      have hset : sameSensors s (bumpPart cThermalThrottle (updThermal (fun x => { x with throttle := true }) s)) := ⟨rfl, rfl, rfl, rfl⟩
      exact hset.trans (thermalEvent_sameSensors ..)
  · split
    · exact ⟨rfl, rfl, rfl, rfl⟩
    · exact .refl s

theorem throttled_critical (s : State) : (throttled s).thermal.critical = s.thermal.critical := by
  unfold throttled
  split
  · split
    · rfl
    · rw [thermalEvent_thermal]; rfl
  · split <;> rfl

/-- A sensor at 105 °C throttles. -/
theorem throttled_hot {s : State} (h : ∃ e ∈ s.included, 840 ≤ e.2) : (throttled s).thermal.throttle = true := by
  unfold throttled
  split
  · split
    · assumption
    · rw [thermalEvent_thermal]; rfl
  · next hnone =>
    obtain ⟨e, hmem, hhot⟩ := h
    exact absurd (decide_eq_true hhot) (List.find?_eq_none.mp hnone e hmem)

/-- Throttle ends only with 51 cool samples in a row. -/
theorem coolFor_of_throttled_ends {s : State} (h : s.thermal.throttle = true) (hend : (throttled s).thermal.throttle = false) :
    51 ≤ s.thermal.coolFor := by
  unfold throttled at hend
  split at hend
  · rw [if_pos h, h] at hend
    exact absurd hend (by decide)
  · split at hend
    · next hcool => exact of_decide_eq_true (Bool.and_eq_true_iff.mp hcool).2
    · exact absurd (h.symm.trans hend) (by decide)

/-- A sample that is not cool breaks the run. -/
theorem cool_of_counted {s : State} (h : 51 ≤ (counted s).thermal.coolFor) : ∀ e ∈ (counted s).included, e.2 ≤ 816 := by
  by_cases hcool : s.included.all (fun e => decide (e.2 ≤ 816)) = true
  · exact fun e he => of_decide_eq_true (List.all_eq_true.mp hcool e he)
  · have hzero : (counted s).thermal.coolFor = 0 := if_neg hcool
    omega

theorem calmed_sameSensors (s : State) : sameSensors s (calmed s) := by
  unfold calmed
  split
  · exact ⟨rfl, rfl, rfl, rfl⟩
  · exact .refl s

theorem calmed_throttle (s : State) : (calmed s).thermal.throttle = s.thermal.throttle := by
  unfold calmed
  split <;> rfl

/-- A part that is not critical has nothing to leave. -/
theorem calmed_of_not_critical {s : State} (h : s.thermal.critical = false) : calmed s = s := if_neg (by simp [h])

/-! ## The critical state (R432, R433) -/

theorem setPoint_op (p : Nat) (s : State) : (setPoint p s).power.op = p := by
  unfold setPoint
  split
  · repeat' split
    all_goals rfl
  · extract_lets t
    repeat' split
    all_goals rfl

/-- What the critical state sets as it begins: OP0 and the highest gating. -/
theorem enterCritical_begins (source : Nat) (temp : Int) {s : State} (h : s.thermal.critical = false) :
    (enterCritical source temp s).power.op = 0 ∧ (enterCritical source temp s).caps.gate = 12 ∧
      (enterCritical source temp s).thermal.critEnded = false := by
  rw [enterCritical, if_neg (by simp [h])]
  have hevent := thermalEvent_reports source 2 temp (updCaps (fun c => { c with gate := 12 })
    (setPoint 0 (bumpPart cThermalCritical (updThermal (fun x => { x with critical := true, critFor := 0, critEnded := false }) s))))
  refine ⟨(congrArg Power.op hevent.power).trans (setPoint_op ..), (congrArg Caps.gate hevent.caps), ?_⟩
  rw [hevent.thermal]
  exact congrArg Thermal.critEnded (setPoint_thermal ..)

theorem enterCritical_sameSensors (source : Nat) (temp : Int) (s : State) : sameSensors s (enterCritical source temp s) ∧
    (enterCritical source temp s).thermal.throttle = s.thermal.throttle := by
  unfold enterCritical
  split
  · exact ⟨.refl s, rfl⟩
  · extract_lets t
    have hset : (setPoint 0 (bumpPart cThermalCritical t)).thermal = t.thermal := setPoint_thermal ..
    have hmark : thermalOnly s (bumpPart cThermalCritical t) := rfl
    have hpoint : sameSensors s (updCaps (fun c => { c with gate := 12 }) (setPoint 0 (bumpPart cThermalCritical t))) :=
      ⟨hmark.trans (thermalOnly.of_onlyPower (setPoint_onlyPower 0 (bumpPart cThermalCritical t)) :), (congrArg Thermal.die hset :),
        (congrArg Thermal.excluded hset :),
        (congrArg Thermal.coolFor hset :)⟩
    exact ⟨hpoint.trans (thermalEvent_sameSensors ..),
      (congrArg Thermal.throttle (thermalEvent_thermal ..)).trans (congrArg Thermal.throttle hset :)⟩

/-- Judging either leaves the state or enters the critical state. -/
theorem judgeCritical_cases (s : State) : judgeCritical s = s ∨ ∃ source temp, judgeCritical s = enterCritical source temp s := by
  unfold judgeCritical
  split
  · exact .inr ⟨_, _, rfl⟩
  · split
    · exact .inr ⟨_, _, rfl⟩
    · exact .inl rfl

theorem judgeCritical_sameSensors (s : State) : sameSensors s (judgeCritical s) ∧
    (judgeCritical s).thermal.throttle = s.thermal.throttle := by
  rcases judgeCritical_cases s with h | ⟨source, temp, h⟩
  · exact h.symm ▸ ⟨.refl s, rfl⟩
  · exact h.symm ▸ enterCritical_sameSensors source temp s

/-- A die sensor at 110 °C makes the part critical. -/
theorem judgeCritical_of_included {s : State} {e : Nat × Int} (hmem : e ∈ s.included) (hhot : 880 ≤ e.2) :
    (judgeCritical s).thermal.critical = true := by
  unfold judgeCritical
  split
  · exact enterCritical_critical ..
  · next hnone => exact absurd (decide_eq_true hhot) (List.find?_eq_none.mp hnone e hmem)

theorem judgeCritical_begins {s : State} (h : s.thermal.critical = false) (hcrit : (judgeCritical s).thermal.critical = true) :
    (judgeCritical s).power.op = 0 ∧ (judgeCritical s).caps.gate = 12 ∧ (judgeCritical s).thermal.critEnded = false := by
  rcases judgeCritical_cases s with hsame | ⟨source, temp, henter⟩
  · exact absurd (h.symm.trans (hsame ▸ hcrit)) (by decide)
  · exact henter.symm ▸ enterCritical_begins source temp h

/-- What the last stages make of a state whose readings are in and counted. -/
structure judgedFrom (s t : State) : Prop where
  sensors : sameSensors s t
  throttles : (∃ e ∈ s.included, 840 ≤ e.2) → t.thermal.throttle = true
  cools : s.thermal.throttle = true → t.thermal.throttle = false → 51 ≤ s.thermal.coolFor
  hot : (∃ e ∈ s.included, 880 ≤ e.2) ∨ (∃ e ∈ s.judged, 840 ≤ e.2) → t.thermal.critical = true
  begins : s.thermal.critical = false → t.thermal.critical = true →
    t.power.op = 0 ∧ t.caps.gate = 12 ∧ t.thermal.critEnded = false

theorem judgeCritical_judgedFrom (s : State) : judgedFrom s (judgeCritical (calmed (throttled s))) := by
  have hcalmed : sameSensors s (calmed (throttled s)) := (throttled_sameSensors s).trans (calmed_sameSensors _)
  obtain ⟨hjudge, hthrottle⟩ := judgeCritical_sameSensors (calmed (throttled s))
  rw [calmed_throttle] at hthrottle
  refine ⟨hcalmed.trans hjudge, fun h => hthrottle.trans (throttled_hot h), fun h hend => ?_, fun h => ?_, fun h hcrit => ?_⟩
  · exact coolFor_of_throttled_ends h (hthrottle.symm.trans hend)
  · rcases h with ⟨e, hmem, hhot⟩ | ⟨e, hmem, hhot⟩
    · exact judgeCritical_of_included (hcalmed.included.symm ▸ hmem) hhot
    · exact judgeCritical_critical (hcalmed.only.judged.symm ▸ hmem) hhot
  · have hbefore : (throttled s).thermal.critical = false := (throttled_critical s).trans h
    rw [calmed_of_not_critical hbefore] at hcrit ⊢
    exact judgeCritical_begins hbefore hcrit

/-! ## A sample -/

/-- The state in which the readings have been taken in and judged one by one. -/
def readIn (readings : List Int) (s : State) : State :=
  implausibleOut (readings.take 96).zipIdx (takenIn (readings.take 96).zipIdx s)

/-- A sample is these stages in turn. -/
theorem execThermalSensorSample_eq (readings : List Int) (s : State) : execThermalSensorSample readings s =
    done s (judgeCritical (calmed (throttled (counted (readIn readings s))))) := rfl

theorem readIn_thermalOnly (readings : List Int) (s : State) : thermalOnly s (readIn readings s) :=
  (takenIn_thermalOnly ..).trans (implausibleOut_thermalOnly ..)

theorem readIn_sensorsOnly (readings : List Int) (s : State) : sensorsOnly s (readIn readings s) :=
  (takenIn_sensorsOnly ..).trans (implausibleOut_sensorsOnly ..)

theorem readIn_reading {readings : List Int} (hlen : readings.length ≤ 96) {k : Nat} {r : Int} (h : readings[k]? = some r) (s : State) :
    Tab.find (readIn readings s).thermal.die k = some r ∧ (r < -320 ∨ 1200 < r → k ∈ (readIn readings s).thermal.excluded) := by
  rw [readIn, List.take_of_length_le hlen, implausibleOut_die]
  refine ⟨?_, fun hbad => mem_implausibleOut (e := (r, k)) (List.mem_zipIdx_iff_getElem?.mpr h) hbad _⟩
  have hfind := takenIn_find h 0 s
  rwa [Nat.zero_add] at hfind

theorem thermalSensorSample_completes {readings : List Int} (hlen : readings.length ≤ 96) (s : State) :
    completes (.thermalSensorSample readings) s (fun t =>
      (∀ k r, readings[k]? = some r → Tab.find t.thermal.die k = some r ∧ (r < -320 ∨ 1200 < r → k ∈ t.thermal.excluded)) ∧
      (∀ k ∈ s.thermal.excluded, k ∈ t.thermal.excluded) ∧
      ((∃ e ∈ t.included, 840 ≤ e.2) → t.thermal.throttle = true) ∧
      (s.thermal.throttle = true → t.thermal.throttle = false → (∀ e ∈ t.included, e.2 ≤ 816) ∧ 51 ≤ t.thermal.coolFor) ∧
      ((∃ e ∈ t.included, 880 ≤ e.2) ∨ (∃ e ∈ t.judged, 840 ≤ e.2) → t.thermal.critical = true) ∧
      (s.thermal.critical = false → t.thermal.critical = true → t.power.op = 0 ∧ t.caps.gate = 12 ∧ t.thermal.critEnded = false) ∧
      t.mem = s.mem ∧ t.serve = s.serve ∧ t.tasks = s.tasks ∧ t.fab = s.fab ∧ t.pins = s.pins ∧ t.hbm = s.hbm) := by
  obtain ⟨t, hexec, hlast⟩ : ∃ t, endsIn (.thermalSensorSample readings) s t ∧ judgedFrom (counted (readIn readings s)) t :=
    ⟨_, execThermalSensorSample_eq readings s, judgeCritical_judgedFrom _⟩
  have hread := readIn_sensorsOnly readings s
  have hsensors := hlast.sensors
  have honly : thermalOnly s t := (readIn_thermalOnly readings s).trans ((updThermal_thermalOnly _ _).trans hsensors.only)
  refine completes_of_endsIn hexec ⟨fun k r hk => ?_, fun k hk => ?_, fun hhot => hlast.throttles (hsensors.included ▸ hhot),
    fun hthr hend => ?_, fun hhot => hlast.hot ?_, fun hcrit => hlast.begins ((congrArg Thermal.critical hread :).trans hcrit),
    (congrArg State.mem honly :), (congrArg State.serve honly :), (congrArg State.tasks honly :), (congrArg State.fab honly :),
    (congrArg State.pins honly :), (congrArg State.hbm honly :)⟩
  · rw [hsensors.die, hsensors.excluded]
    exact readIn_reading hlen hk s
  · rw [hsensors.excluded]
    exact mem_implausibleOut_of_mem _ ((takenIn_excluded _ s).symm ▸ hk)
  · have hrun := hlast.cools ((congrArg Thermal.throttle hread :).trans hthr) hend
    exact ⟨fun e he => cool_of_counted hrun e (hsensors.included ▸ he), hsensors.coolFor.symm ▸ hrun⟩
  · rw [← hsensors.included, ← hsensors.only.judged]
    exact hhot

/-- Settles O39: a sample by its stages, then what the remaining commands do. -/
theorem thermalThresholds : Obligations.ThermalThresholds := by
  refine fun s => ⟨fun readings hlen => thermalSensorSample_completes hlen s, fun k hnew => ?_, fun k hold => ?_, rfl,
    fun ha hcrit hended => ?_⟩
  · exact completes_of_endsIn (congrArg (done s) (if_neg (by rw [hnew]; exact Bool.false_ne_true))) ⟨rfl, rfl, rfl⟩
  · exact congrArg (done s) (if_pos hold)
  · exact endsIn_of_live ha (if_neg (by simp [hcrit, hended]))

end Sys2Proof.Proofs
end

section
/-! PROOFS of the statement on the recovery of ports (R352, R360 to R362): each event by what its state of the port makes of it. -/

namespace Sys2Proof.Proofs

open Sys2Proof.Machine Sys2Proof.Safety Sys2Proof.Laws

/-! ## Leaving traffic -/

theorem port_leaveTraffic_retrain {p action : Nat} (h : action ≠ 1) (mode : Nat) (lanes : BitVec 8) (cause : Nat) (s : State) :
    ((leaveTraffic p action mode lanes cause s).port p).st = .retrain ∧
      ((leaveTraffic p action mode lanes cause s).port p).attempt = action ∧
      ((leaveTraffic p action mode lanes cause s).port p).mode = mode := by
  simp [leaveTraffic, h]

/-- A request that is not for a full training leaves the port in the retrain that it asks for. -/
theorem port_requestAction_retrain {p action : Nat} (h : action ≠ 1) (mode : Nat) (lanes : BitVec 8) (cause : Nat) (s : State) :
    ((requestAction p action mode lanes cause s).port p).st = .retrain ∧
      ((requestAction p action mode lanes cause s).port p).attempt = action ∧
      ((requestAction p action mode lanes cause s).port p).mode = mode := by
  unfold requestAction
  extract_lets t u v
  rw [if_neg h]
  exact port_leaveTraffic_retrain h mode lanes cause v

/-- A request ends where it finds the port when it asks for nothing, or when the port is in no state to follow it. -/
theorem req_ends_ignored {p : PortId} {s : State} (o : OrdSet)
    (h : o.request = 0 ∨ ((s.port p.val).st ≠ .up ∧ (s.port p.val).st ≠ .retrain) ∨
    ((s.port p.val).st = .retrain ∧ (s.port p.val).request = 0)) : endsIn (.req p o) s s := by
  show execReq p o s = _
  rcases h with ho | ⟨hup, hretrain⟩ | ⟨hst, hnone⟩
  · simp [execReq, ho]; rfl
  · unfold execReq
    extract_lets x
    split
    · rfl
    · split
      · contradiction
      · contradiction
      · rfl
  · simp [execReq, hst, hnone]; rfl

section Port
variable {p : PortId} {s : State} (ha : awake s) (hal : s.allots p.val = true)
include ha hal

/-! ## What the port itself finds (R360) -/

theorem laneLockLost_ends (lane : Fin 8) (hup : (s.port p.val).st = .up) : endsIn (.laneLockLost p lane) s
    (let t := updPort p.val (fun x => { x with laneOk := x.laneOk &&& ~~~ BitVec.ofNat 8 (2 ^ lane.val) }) s
     if (s.port p.val).lanes.getLsbD lane.val then narrow p.val t else t) :=
  endsIn_of_live ha (if_neg (by simp [hal, hup]))

theorem fecBurst_ends (n : Nat) (hup : (s.port p.val).st = .up) : endsIn (.fecBurst p n) s
    (if 16 < n then requestAction p.val 2 (s.port p.val).mode (s.port p.val).lanes 2 s else s) := by
  split
  · next hmany => exact endsIn_of_live ha (if_pos (by simp [hal, hup, hmany]))
  · next hfew => exact if_neg (by simp [hfew])

theorem replayLimit_ends (hup : (s.port p.val).st = .up) : endsIn (.replayLimit p) s
    (if (s.port p.val).replay.any (fun e => decide (8 ≤ e.2)) then
      requestAction p.val 2 (s.port p.val).mode (s.port p.val).lanes 3 s else s) := by
  split
  · next hresent => exact endsIn_of_live ha (if_pos (by rw [hal, hup, hresent]; rfl))
  · next hfew => exact if_neg fun hboth => hfew (Bool.and_eq_true_iff.mp hboth).2

theorem lowModeTimer_completes (hup : (s.port p.val).st = .up) (hleader : (s.port p.val).leader = true)
    (hlow : (s.port p.val).mode < (s.port p.val).allotted s.settings.linkNrz) : completes (.lowModeTimer p) s (fun t =>
      (t.port p.val).st = .retrain ∧ (t.port p.val).attempt = 2 ∧
        (t.port p.val).mode = (s.port p.val).allotted s.settings.linkNrz) := by
  obtain ⟨t, hends, hport⟩ : ∃ t, endsIn (.lowModeTimer p) s t ∧ (t.port p.val).st = .retrain ∧ (t.port p.val).attempt = 2 ∧
      (t.port p.val).mode = (s.port p.val).allotted s.settings.linkNrz :=
    ⟨_, endsIn_of_live ha (if_pos (by simp [hal, hup, hleader, hlow])), port_requestAction_retrain (by decide) _ _ _ _⟩
  exact completes_of_endsIn hends hport

/-! ## What the partner asks for (R352, R361) -/

theorem linkReq_ends (request target cause : Nat) (hst : (s.port p.val).st = .up ∨ (s.port p.val).st = .retrain ∧ (s.port p.val).request ≠ 0) :
    endsIn (.linkReq p request target cause) s (rxLinkReq p.val request target cause s) :=
  endsIn_of_live ha (if_pos (by simpa [hal] using hst))

theorem req_ends_up (o : OrdSet) (hup : (s.port p.val).st = .up) (ho : o.request ≠ 0) :
    endsIn (.req p o) s (followReq p.val o s) := by
  have hasks : ¬ o.request = 0#3 := ho
  refine endsIn_of_live ha ?_
  show execReq p o s = _
  simp [execReq, hal, hasks, hup]

theorem req_ends_race (o : OrdSet) (hst : (s.port p.val).st = .retrain) (ho : o.request ≠ 0) (hown : (s.port p.val).request ≠ 0) :
    endsIn (.req p o) s (if (s.port p.val).leader then bumpPart cViolLinkRace s
      else followReq p.val o (updPort p.val (fun x => { x with request := 0, deferred := some x.cause }) (bumpPart cViolLinkRace s))) := by
  have hasks : ¬ o.request = 0#3 := ho
  refine endsIn_of_live ha ?_
  show execReq p o s = _
  simp [execReq, hal, hasks, hst, hown]

/-! ## Link-down (R362) -/

theorem linkDownTimeout_ends (hdown : (s.port p.val).linkDown = true) (hst : (s.port p.val).st ≠ .up) :
    endsIn (.linkDownTimeout p) s (startPorts none (renew (portEvent p.val 0 0 (handBack p.val
      (bumpPartBy cLinkCreditReclaim (Tab.vals (s.port p.val).used).sum (bumpPart cLinkDown (updPort p.val (fun x => { x with
        st := .down, attempt := 0, linkDown := false, keyed := false, replay := [], used := [], owed := [], partial_ := [],
        mode := 0, lanes := 0, request := 0, accepted := false }) s))))))) :=
  endsIn_of_live ha (if_neg (by simp [hal, hdown, hst]))

end Port

/-- Settles O44: each event by the state of its port. -/
theorem linkRecovery : Obligations.LinkRecovery := by
  refine fun p s ha hal => ⟨fun lane hup hidle => ?_, fun lane hup hused => ?_, fun n => fecBurst_ends ha hal n, replayLimit_ends ha hal,
    lowModeTimer_completes ha hal, fun hnot => ?_, fun hnot => ⟨fun lane => ?_, fun n => ?_, ?_⟩, fun request target cause hst hbad => ?_,
    fun request target cause hst => ?_, fun request target cause hst hpos hreq htarget => ?_, req_ends_up ha hal, fun o hst ho hown hleader => ?_,
    fun o hst ho hown hfollower => ?_, req_ends_ignored, linkDownTimeout_ends ha hal, fun hkept => ?_⟩
  · have h := laneLockLost_ends ha hal lane hup
    rwa [hidle] at h
  · have h := laneLockLost_ends ha hal lane hup
    rwa [hused] at h
  · exact if_neg (by simp; grind)
  · exact if_pos (by simp [hnot])
  · exact if_neg (by simp [hnot])
  · exact if_neg (by simp [hnot])
  · have h := linkReq_ends ha hal request target cause hst
    rwa [rxLinkReq, if_pos hbad] at h
  · exact if_neg (by simpa [hal] using hst)
  · have h := linkReq_ends ha hal request target cause hst
    rwa [rxLinkReq, if_neg (by omega)] at h
  · have h := req_ends_race ha hal o hst ho hown
    rwa [if_pos hleader] at h
  · have h := req_ends_race ha hal o hst ho hown
    rwa [if_neg (by simp [hfollower])] at h
  · exact if_pos (by rcases hkept with h | h <;> simp [h])

end Sys2Proof.Proofs
end

section
/-! PROOFS of the statement on frames and their order (R348 to R351, R387): one equation of a frame that the decoder passes, and the
outcomes by SEQ and key. -/

namespace Sys2Proof.Proofs

open Sys2Proof.Machine Sys2Proof.Safety Sys2Proof.Laws

/-- What the decoder corrected and could not correct is counted, up to the counters' 32 bits. -/
def codewordsCounted (p : PortId) (corr uncorr : Nat) (s : State) : State :=
  updPort p.val (fun x => { x with
    fecCorr := min (2 ^ 32 - 1) (x.fecCorr + corr), fecUncorr := min (2 ^ 32 - 1) (x.fecUncorr + uncorr) }) s

/-- The next frame in order takes its SEQ, and retires the old key where the partner sends under the new one. -/
def seqTaken (p : PortId) (seq : BitVec 16) (phase : Bool) (s : State) : State :=
  updPort p.val (fun y => { y with seqRx := seq, keyRxOld := if phase = y.phaseRx.getLsbD 0 then none else y.keyRxOld }) s

/-- What a frame in order that its key opens leaves: its acknowledgement taken and its payload delivered, but for a message on a port
whose levels clash. -/
def frameDelivered (p : PortId) (seq ack : BitVec 16) (vc : Fin 8) (nak phase : Bool) (credVc credits : Nat) (payload : Bytes)
    (s t : State) : State :=
  let u := takeAck p.val ack nak credVc credits (seqTaken p seq phase t)
  flushPort p.val (sendAck p.val false
    (if vc ≠ 0 ∧ (s.port p.val).levelBad = true then oweCredits p.val vc.val 1 u else rxPayload p.val vc.val payload u))

theorem opens_iff (x : Port) (vc : Fin 8) (phase : Bool) :
    x.opens vc.val phase = true ↔ if x.keyed then phase = x.phaseRx.getLsbD 0 ∨ x.keyRxOld.isSome = true else vc = 0 := by
  unfold Port.opens
  cases x.keyed with
  | true => simp
  | false =>
    rw [if_neg Bool.false_ne_true]
    exact (beq_iff_eq (a := vc.val) (b := 0)).trans (Fin.ext_iff (b := 0)).symm

theorem frameDelivered_link (p : PortId) (seq ack : BitVec 16) (nak phase : Bool) (credVc credits : Nat) (payload : Bytes) (s t : State) :
    frameDelivered p seq ack 0 nak phase credVc credits payload s t = flushPort p.val (sendAck p.val false
      (rxLink p.val payload (oweCredits p.val 0 1 (takeAck p.val ack nak credVc credits (seqTaken p seq phase t))))) := by
  unfold frameDelivered
  extract_lets u
  rw [if_neg fun h => h.1 rfl]
  rfl

theorem frame_ignored {p : PortId} {s : State} (h : s.allots p.val = false ∨ (s.port p.val).st ≠ .up) (seq ack : BitVec 16) (vc : Fin 8)
    (nak phase : Bool) (credVc credits : Nat) (payload : Bytes) (corr uncorr : Nat) (ok : Bool) :
    endsIn (.frame p seq ack vc nak phase credVc credits payload corr uncorr ok) s s :=
  if_pos (by rcases h with h | h <;> simp [h])

section Frame
variable {p : PortId} {s : State} (ha : awake s) (hal : s.allots p.val = true) (hup : (s.port p.val).st = .up)
  (seq ack : BitVec 16) (vc : Fin 8) (nak phase : Bool) (credVc credits : Nat) (payload : Bytes) (corr : Nat)
include ha hal hup

theorem frame_ends_bad (uncorr : Nat) (ok : Bool) (hbad : uncorr ≠ 0 ∨ ok = false) :
    endsIn (.frame p seq ack vc nak phase credVc credits payload corr uncorr ok) s
      (sendAck p.val true (codewordsCounted p corr uncorr s)) :=
  endsIn_of_live ha ((if_neg (by simp [hal, hup])).trans (if_pos (by simpa using hbad)))

/-- A frame that the decoder passes, by what it carries, its SEQ and its key. -/
theorem frame_ends : endsIn (.frame p seq ack vc nak phase credVc credits payload corr 0 true) s
    (if payload = [] then flushPort p.val (takeAck p.val ack nak credVc credits (codewordsCounted p corr 0 s))
     else if seq ≠ (s.port p.val).seqRx + 1 ∧ 32768 ≤ (seq - ((s.port p.val).seqRx + 1)).toNat then codewordsCounted p corr 0 s
     else if seq ≠ (s.port p.val).seqRx + 1 ∨ (s.port p.val).opens vc.val phase = false then
       sendAck p.val true (codewordsCounted p corr 0 s)
     else frameDelivered p seq ack vc nak phase credVc credits payload s (codewordsCounted p corr 0 s)) := by
  have hdist : (seq - ((s.port p.val).seqRx + 1)).toNat ≠ 0 ↔ seq ≠ (s.port p.val).seqRx + 1 := by
    rw [not_iff_not]
    constructor
    · intro h
      bv_omega
    · rintro rfl
      simp
  refine endsIn_of_live ha ((if_neg (by simp [hal, hup])).trans ((if_neg (by simp)).trans ?_))
  by_cases hempty : payload = []
  · exact (if_pos hempty).trans (congrArg (live s) (if_pos hempty).symm)
  · refine (if_neg hempty).trans (.trans ?_ (congrArg (live s) (if_neg hempty).symm))
    by_cases hold : seq ≠ (s.port p.val).seqRx + 1 ∧ 32768 ≤ (seq - ((s.port p.val).seqRx + 1)).toNat
    · exact (if_pos ⟨hdist.mpr hold.1, hold.2⟩).trans (congrArg (live s) (if_pos hold).symm)
    · refine (if_neg fun h => hold ⟨hdist.mp h.1, h.2⟩).trans (.trans ?_ (congrArg (live s) (if_neg hold).symm))
      by_cases hbad : seq ≠ (s.port p.val).seqRx + 1 ∨ (s.port p.val).opens vc.val phase = false
      · exact (if_pos (hbad.imp hdist.mpr fun h => by rw [h]; rfl)).trans (congrArg (live s) (if_pos hbad).symm)
      · refine (if_neg fun h => hbad (h.imp hdist.mp fun h => by simpa using h)).trans (.trans ?_ (congrArg (live s) (if_neg hbad).symm))
        unfold frameDelivered State.levelClash
        simp only [Bool.and_eq_true, decide_eq_true_eq]
        rfl

end Frame

/-- Settles O45: a frame by its outcomes, then a gap in the order of messages. -/
theorem framesAndOrder : Obligations.FramesAndOrder := by
  refine fun p s ha => ⟨frame_ignored, fun hal hup => ⟨fun seq ack vc nak ph cv c pl corr uncorr ok hbad => ?_,
    fun seq ack vc nak ph cv c corr => ?_, fun seq ack vc nak ph cv c pl corr hpl hold => ?_,
    fun seq ack vc nak ph cv c pl corr hpl hne hnew => ?_, fun ack vc nak ph cv c pl corr hpl => ⟨fun hopens => ?_, fun hclosed => ?_⟩,
    fun ack nak ph cv c pl corr hpl hkeyed => ?_⟩, fun src cls hheld => ?_, fun src cls hnone => if_pos hnone⟩
  · exact frame_ends_bad ha hal hup seq ack vc nak ph cv c pl corr uncorr ok hbad
  · have h := frame_ends ha hal hup seq ack vc nak ph cv c [] corr
    rwa [if_pos rfl] at h
  · have h := frame_ends ha hal hup seq ack vc nak ph cv c pl corr
    have hne : seq ≠ (s.port p.val).seqRx + 1 := by
      rintro rfl
      simp at hold
    rwa [if_neg hpl, if_pos ⟨hne, hold⟩] at h
  · have h := frame_ends ha hal hup seq ack vc nak ph cv c pl corr
    rwa [if_neg hpl, if_neg (by omega), if_pos (.inl hne)] at h
  · have h := frame_ends ha hal hup ((s.port p.val).seqRx + 1) ack vc nak ph cv c pl corr
    rwa [if_neg hpl, if_neg (fun hk => hk.1 rfl), if_neg (by simp [(opens_iff ..).mpr hopens])] at h
  · have h := frame_ends ha hal hup ((s.port p.val).seqRx + 1) ack vc nak ph cv c pl corr
    rwa [if_neg hpl, if_neg (fun hk => hk.1 rfl), if_pos (.inr (Bool.eq_false_iff.mpr (mt (opens_iff ..).mp hclosed)))] at h
  · have h := frame_ends ha hal hup ((s.port p.val).seqRx + 1) ack 0 nak ph cv c pl corr
    have hopens : (s.port p.val).opens (0 : Fin 8).val ph = true := (opens_iff ..).mpr (by rw [hkeyed]; rfl)
    rwa [if_neg hpl, if_neg (fun hk => hk.1 rfl),
      if_neg (fun hk => hk.elim (fun h => h rfl) (Bool.eq_false_iff.mp · hopens)), frameDelivered_link] at h
  · exact endsIn_of_live ha (if_neg (by simp [hheld]))

end Sys2Proof.Proofs
end

section
/-! PROOFS of the statement on link-state records, holds, settles and forwarding (R370 to R374, R385, R386): each command by what its
guards make of it, and that sending leaves the database. -/

namespace Sys2Proof.Proofs

open Sys2Proof.Machine Sys2Proof.Safety Sys2Proof.Laws

/-! ## Sending leaves the database -/

/-- From s to t the database of records is the same. -/
def keepsDb (s t : State) : Prop := t.fab.db = s.fab.db

theorem keepsDb.refl (s : State) : keepsDb s s := rfl

theorem keepsDb.trans {s t u : State} (h : keepsDb s t) (k : keepsDb t u) : keepsDb s u := Eq.trans k h

theorem pump_keepsDb (p n : Nat) (s : State) : keepsDb s (pump p n s) := by
  induction n generalizing s with
  | zero => exact .refl s
  | succ n ih =>
    unfold pump
    extract_lets x owed
    split
    · exact .refl s
    · split
      · exact .refl s
      · exact ih _

theorem queueFrames_keepsDb (p vc : Nat) (l : List Bytes) (s : State) : keepsDb s (queueFrames p vc l s) := pump_keepsDb p _ _

theorem sendRecord_keepsDb (r : LsRecord) (skip : Option Nat) (s : State) : keepsDb s (sendRecord r skip s) :=
  forEach_rel .refl .trans _ _ (fun p t => queueFrames_keepsDb p 7 _ t) s

theorem recordOf_storeRecord (r : LsRecord) (s : State) : (storeRecord r s).recordOf r.id = some r :=
  List.find?_cons_of_pos (decide_eq_true rfl)

/-! ## A record arrives (R368, R370, R371) -/

/-- A record is taken on a port that is UP and keyed, whose level agrees, once the bundle is loaded. -/
def takesRecords (p : Nat) (s : State) : Prop :=
  s.isReady rFw = true ∧ (s.port p).st = .up ∧ (s.port p).keyed = true ∧ (s.port p).levelBad = false

/-- The ports that a new record shows to have another level at its end. -/
def newClashes (r : LsRecord) (s : State) : List Nat :=
  (Tab.keys (storeRecord r s).fab.ports).filter (fun q => (storeRecord r s).clashes q r && !(storeRecord r s).levelClash q)

/-- The state in which a new record is stored and its clashes are marked and counted. -/
def recordTaken (r : LsRecord) (s : State) : State :=
  bumpPartBy cViolFabLevel (newClashes r s).length
    (forEach (newClashes r s) (fun q t => updPort q (fun x => { x with levelBad := true }) t) (storeRecord r s))

theorem rxRecord_untaken {p : Nat} {s : State} (h : ¬ takesRecords p s) (b : Bytes) : rxRecord p b s = s := by
  refine if_pos ?_
  by_contra hguard
  simp [State.levelClash] at hguard
  exact h ⟨hguard.1.1.1, hguard.1.1.2, hguard.1.2, hguard.2⟩

theorem rxRecord_guard {p : Nat} {s : State} (h : takesRecords p s) :
    ¬ (!s.isReady rFw || (s.port p).st != .up || !(s.port p).keyed || s.levelClash p) = true := by
  obtain ⟨hfw, hup, hkeyed, hlevel⟩ := h
  simp [State.levelClash, hfw, hup, hkeyed, hlevel]

theorem rxRecord_malformed {p : Nat} {s : State} (h : takesRecords p s) {b : Bytes} (hb : lsRecord b = none) :
    rxRecord p b s = bumpPart cViolFabMsg s := by
  refine (if_neg (rxRecord_guard h)).trans ?_
  rw [hb]

/-- A record is old when it is the part's own or the one in the database is at least as new. -/
theorem rxRecord_old {p : Nat} {s : State} (h : takesRecords p s) {b : Bytes} {r : LsRecord} (hb : lsRecord b = some r)
    (hold : r.id = Config.partId ∨ ∃ y, s.recordOf r.id = some y ∧ r.seq.toNat ≤ y.seq.toNat) : rxRecord p b s = s := by
  refine (if_neg (rxRecord_guard h)).trans ?_
  rw [hb]
  refine if_pos (hold.imp_right fun ⟨y, hy, hle⟩ => ?_)
  rw [hy]
  exact congrArg some (decide_eq_true hle)

theorem rxRecord_new {p : Nat} {s : State} (h : takesRecords p s) {b : Bytes} {r : LsRecord} (hb : lsRecord b = some r)
    (hother : r.id ≠ Config.partId) (hnew : ∀ y, s.recordOf r.id = some y → y.seq.toNat < r.seq.toNat) :
    rxRecord p b s = sendRecord r (some p) (recordTaken r s) := by
  refine (if_neg (rxRecord_guard h)).trans ?_
  rw [hb]
  refine if_neg (not_or.mpr ⟨hother, fun hold => ?_⟩)
  obtain ⟨y, hy, hle⟩ := Option.map_eq_some_iff.mp hold
  exact Nat.not_le.mpr (hnew y hy) (of_decide_eq_true hle)

theorem recordTaken_keepsDb (r : LsRecord) (s : State) : keepsDb (storeRecord r s) (recordTaken r s) :=
  forEach_rel (R := keepsDb) .refl .trans (newClashes r s) (fun q t => updPort q (fun x => { x with levelBad := true }) t)
    (fun _ _ => rfl) (storeRecord r s)

theorem recordTaken_agreeing {r : LsRecord} {s : State}
    (h : ∀ q, (storeRecord r s).clashes q r = false ∨ (storeRecord r s).levelClash q = true) :
    recordTaken r s = bumpPartBy cViolFabLevel 0 (storeRecord r s) := by
  have hnone : newClashes r s = [] := List.filter_eq_nil_iff.mpr fun q _ => by
    rcases h q with hq | hq <;> simp [hq]
  rw [recordTaken, hnone]
  rfl

/-! ## Commands -/

/-- Every record of an id is marked, and the others stay. -/
theorem filter_map_other (id : BitVec 64) (l : List LsRecord) :
    (l.map (fun r => if r.id = id then { r with aged := true } else r)).filter (fun r => r.id ≠ id) = l.filter (fun r => r.id ≠ id) := by
  induction l with
  | nil => rfl
  | cons r l ih =>
    rw [List.map_cons, List.filter_cons, List.filter_cons, ih]
    split <;> simp [*]

theorem recordAgeOut_completes {id : BitVec 64} (h : id ≠ Config.partId) {s : State} (ha : awake s) :
    completes (.recordAgeOut id) s (fun t => { t with fab := s.fab } = s ∧ (∀ r ∈ t.fab.db, r.id = id → r.aged = true) ∧
      t.fab.db.filter (fun r => r.id ≠ id) = s.fab.db.filter (fun r => r.id ≠ id)) := by
  refine completes_of_endsIn (endsIn_of_live ha (if_neg h)) ⟨rfl, fun r hr hid => ?_, filter_map_other id s.fab.db⟩
  obtain ⟨y, -, rfl⟩ := List.mem_map.mp hr
  split
  · rfl
  · next hne =>
    rw [if_neg hne] at hid
    exact absurd hid hne

theorem addressHoldExpiry_ends {a : BitVec 12} {id : BitVec 64} {s : State} (ha : awake s) (hhold : Tab.find s.fab.holds a.toNat = some id) :
    (s.recordOf id = none → endsIn (.addressHoldExpiry a) s { s with fab := { s.fab with holds := Tab.erase s.fab.holds a.toNat } }) ∧
      (∀ r, s.recordOf id = some r →
        (r.aged = false → endsIn (.addressHoldExpiry a) s s) ∧
        (r.aged = true → endsIn (.addressHoldExpiry a) s { s with fab := { s.fab with
          holds := Tab.erase s.fab.holds a.toNat, db := s.fab.db.filter (fun r => r.id ≠ id) } })) := by
  have hexec : exec (.addressHoldExpiry a) s = execAddressHoldExpiry a s := rfl
  unfold execAddressHoldExpiry at hexec
  rw [hhold] at hexec
  dsimp only at hexec
  refine ⟨fun hnone => ?_, fun r hr => ⟨fun hfresh => ?_, fun haged => ?_⟩⟩
  · rw [hnone] at hexec
    exact endsIn_of_live ha hexec
  · rw [hr] at hexec
    exact hexec.trans (if_neg (by simp [hfresh]))
  · rw [hr] at hexec
    exact endsIn_of_live ha (hexec.trans (if_pos haged))

/-- The state in which the oldest message has left, and the space that it took is owed to the port that it came on. -/
def messageTaken (p v : Nat) (m : Msg) (r : List (Nat × Nat × Msg)) (s : State) : State :=
  updPort p (fun x => { x with owed := Tab.upd 0 x.owed v (· + m.frames) }) { s with fab := { s.fab with fwd := r } }

/-- Where a message goes on: nowhere without an address or a hop left, else over its next port, or on another route. -/
def messageSent (m : Msg) (t : State) : State :=
  if !t.fab.valid then t
  else if m.hdr.hops ≤ m.hdr.hop then bumpPart cViolFabMsg t
  else if (t.port (routeHop m.hdr.route m.hdr.hop).2).st = .up ∨ (t.port (routeHop m.hdr.route m.hdr.hop).2).linkDown = true then
    sendHop m (bumpPartBy cFabForward m.frames t)
  else reroute m m.hdr.hop t

theorem messageForward_ends {p v : Nat} {m : Msg} {r : List (Nat × Nat × Msg)} {s : State} (ha : awake s) (hfwd : s.fab.fwd = (p, v, m) :: r) :
    endsIn .messageForward s (messageSent m (messageTaken p v m r s)) := by
  refine endsIn_of_live ha ?_
  show execMessageForward s = _
  unfold execMessageForward
  rw [hfwd]
  rfl

theorem messageSent_unaddressed {m : Msg} {t : State} (h : t.fab.valid = false) : messageSent m t = t := if_pos (by rw [h]; rfl)

section Addressed
variable {m : Msg} {t : State} (hvalid : t.fab.valid = true)
include hvalid

theorem messageSent_of_no_hop (h : m.hdr.hops ≤ m.hdr.hop) : messageSent m t = bumpPart cViolFabMsg t := by
  rw [messageSent, if_neg (by simp [hvalid]), if_pos h]

theorem messageSent_of_link (h : m.hdr.hop < m.hdr.hops) (hport : (t.port (routeHop m.hdr.route m.hdr.hop).2).st = .up ∨
    (t.port (routeHop m.hdr.route m.hdr.hop).2).linkDown = true) : messageSent m t = sendHop m (bumpPartBy cFabForward m.frames t) := by
  rw [messageSent, if_neg (by simp [hvalid]), if_neg (Nat.not_le.mpr h), if_pos hport]

theorem messageSent_of_no_link (h : m.hdr.hop < m.hdr.hops) (hdown : (t.port (routeHop m.hdr.route m.hdr.hop).2).st ≠ .up)
    (hlink : (t.port (routeHop m.hdr.route m.hdr.hop).2).linkDown = false) : messageSent m t = reroute m m.hdr.hop t := by
  rw [messageSent, if_neg (by simp [hvalid]), if_neg (Nat.not_le.mpr h), if_neg (not_or.mpr ⟨hdown, Bool.eq_false_iff.mp hlink⟩)]

end Addressed

/-- The head of a queue that may be dropped waits where it has a credit. -/
theorem vcHeadStall_keeps {p : PortId} {vc : Fin 8} {s : State} (h : Tab.get [] (s.port p.val).queues vc.val = [] ∨ vc = 0 ∨ vc = 7 ∨
    (s.port p.val).hasCredit vc.val = true) : endsIn (.vcHeadStall p vc) s s := by
  show execVcHeadStall p vc s = _
  unfold execVcHeadStall
  dsimp only
  split
  · rfl
  · next hq => exact if_pos (h.resolve_left (by simp [hq]))

theorem vcHeadStall_drops {p : PortId} {vc : Fin 8} {s : State} {b : Bytes} {r : List Bytes} (ha : awake s) (h0 : vc ≠ 0) (h7 : vc ≠ 7)
    (hq : Tab.get [] (s.port p.val).queues vc.val = b :: r) (hcredit : (s.port p.val).hasCredit vc.val = false) :
    endsIn (.vcHeadStall p vc) s
      (let left := Tab.get 0 (s.port p.val).txLeft vc.val
       let n := if left = 0 then (rd b 10 2 + 991) / 992 else left
       bumpPart cFabStallDrop (flushPort p.val (updPort p.val (fun x => { x with
        queues := Tab.put x.queues vc.val ((b :: r).drop n), txLeft := Tab.put x.txLeft vc.val 0 }) s))) := by
  refine endsIn_of_live ha ?_
  show execVcHeadStall p vc s = _
  unfold execVcHeadStall
  dsimp only
  rw [hq]
  exact if_neg (by simp [h0, h7, hcredit])

/-- Settles O46: records, settles, holds, forwarding and stalled heads in turn. -/
theorem recordsAndForwarding : Obligations.RecordsAndForwarding := by
  refine fun s ha => ⟨fun p body => ⟨fun hnot => ?_, fun htakes hbad => ?_, fun htakes r hr => ⟨fun hold => ?_, fun hother hnew hagree => ?_,
    fun hother hnew => ?_⟩⟩, fun hidle => ⟨?_, if_pos (by simp [hidle])⟩,
    fun hfw => ⟨?_, endsIn_of_live ha (if_neg (by simp [hfw]))⟩, if_pos rfl,
    fun id hid => recordAgeOut_completes hid ha, fun a => ⟨fun hnone => ?_, fun id => addressHoldExpiry_ends ha⟩, fun hnone => ?_,
    fun p v m r hfwd => ⟨fun hvalid => ?_, fun hvalid hend => ?_, fun hvalid hnext hport => ?_, fun hvalid hnext hdown hlink => ?_⟩,
    fun p vc => ⟨vcHeadStall_keeps, fun b r h0 h7 hq hcredit => vcHeadStall_drops ha h0 h7 hq hcredit⟩⟩
  · exact endsIn_of_live ha (congrArg (live s) (rxRecord_untaken hnot body))
  · exact endsIn_of_live ha (congrArg (live s) (rxRecord_malformed htakes hbad))
  · exact endsIn_of_live ha (congrArg (live s) (rxRecord_old htakes hr hold))
  · exact endsIn_of_live ha (congrArg (live s) ((rxRecord_new htakes hr hother hnew).trans
      (congrArg (sendRecord r (some p.val)) (recordTaken_agreeing hagree))))
  · have hdb : keepsDb (storeRecord r s) (sendRecord r (some p.val) (recordTaken r s)) :=
      (recordTaken_keepsDb r s).trans (sendRecord_keepsDb ..)
    have hrecord : (sendRecord r (some p.val) (recordTaken r s)).recordOf r.id = some r :=
      (congrArg (List.find? (fun y : LsRecord => decide (y.id = r.id))) hdb).trans (recordOf_storeRecord r s)
    exact completes_of_endsIn (endsIn_of_live ha (congrArg (live s) (rxRecord_new htakes hr hother hnew))) hrecord
  · exact endsIn_of_live ha (congrArg (live s) (if_pos (by simp [hidle])))
  · exact endsIn_of_live ha (congrArg (live s) (if_neg (by simp [hfw])))
  · show execAddressHoldExpiry a s = _
    unfold execAddressHoldExpiry
    rw [hnone]
    rfl
  · show execMessageForward s = _
    unfold execMessageForward
    rw [hnone]
    rfl
  · have h := messageForward_ends ha hfwd
    rwa [messageSent_unaddressed (t := messageTaken p v m r s) hvalid] at h
  · have h := messageForward_ends ha hfwd
    rwa [messageSent_of_no_hop (t := messageTaken p v m r s) hvalid hend] at h
  · have h := messageForward_ends ha hfwd
    rwa [messageSent_of_link (t := messageTaken p v m r s) hvalid hnext hport] at h
  · have h := messageForward_ends ha hfwd
    rwa [messageSent_of_no_link (t := messageTaken p v m r s) hvalid hnext hdown hlink] at h

end Sys2Proof.Proofs
end

section
/-! PROOFS of the statement on routes (R383, R384): every walk that the search keeps starts at the part, is as long as its steps, and stays
on the upper VC once it is there. -/

namespace Sys2Proof.Proofs

open Sys2Proof.Machine Sys2Proof.Safety Sys2Proof.Laws

/-! ## Walks of the shape of R383 -/

/-- A walk from a part of at most m hops whose hops, the last first, are on the upper VC once one before them is. -/
structure shapedWalk (me : BitVec 64) (m : Nat) (w : Walk) : Prop where
  length_le : w.hops.length ≤ m
  start : w.hops = [] → w.node = me
  lower : w.phase < 2 → ∀ h ∈ w.hops, h.1 = false
  upper : w.hops.Pairwise (fun later earlier => earlier.1 = true → later.1 = true)

theorem shapedWalk.mono {me : BitVec 64} {m n : Nat} {w : Walk} (h : shapedWalk me m w) (hmn : m ≤ n) : shapedWalk me n w :=
  { h with length_le := h.length_le.trans hmn }

theorem shapedWalk_start (me : BitVec 64) : shapedWalk me 0 ⟨me, 0, 0, []⟩ where
  length_le := Nat.le_refl 0
  start _ := rfl
  lower _ _ h := absurd h List.not_mem_nil
  upper := .nil

/-- A phase is never followed by an earlier one. -/
theorem le_nextPhase {p q : Nat} {up : Bool} (h : nextPhase p up = some q) : p ≤ q := by
  unfold nextPhase at h
  split at h
  all_goals
    simp only [Option.some.injEq, reduceCtorEq] at h
  all_goals omega

theorem shapedWalk.hop {me : BitVec 64} {m : Nat} {w : Walk} (h : shapedWalk me m w) {up : Bool} {p : Nat}
    (hp : nextPhase w.phase up = some p) (node : BitVec 64) (upper port : Nat) :
    shapedWalk me (m + 1) { node := node, phase := p, upper := upper, hops := (decide (2 ≤ p), port) :: w.hops } where
  length_le := Nat.succ_le_succ h.length_le
  start hnil := absurd hnil (List.cons_ne_nil _ _)
  lower hlow := by
    have hbefore : w.phase < 2 := Nat.lt_of_le_of_lt (le_nextPhase hp) hlow
    exact List.forall_mem_cons.mpr ⟨decide_eq_false (Nat.not_le.mpr hlow), h.lower hbefore⟩
  upper := by
    refine .cons (fun e he hup => decide_eq_true ?_) h.upper
    have hphase : 2 ≤ w.phase := by
      by_contra hlow
      exact Bool.false_ne_true ((h.lower (Nat.not_le.mp hlow) e he).symm.trans hup)
    exact hphase.trans (le_nextPhase hp)

/-! ## The search (R384) -/

theorem shapedWalk_of_mem_stepWalks {g : Graph} {me : BitVec 64} {m : Nat} {l : List Walk} (h : ∀ w ∈ l, shapedWalk me m w) :
    ∀ w ∈ stepWalks g l, shapedWalk me (m + 1) w := by
  intro w hw
  obtain ⟨hops, hmem, hw⟩ := List.mem_flatten.mp hw
  obtain ⟨v, hv, rfl⟩ := List.mem_map.mp hmem
  obtain ⟨e, -, he⟩ := List.mem_filterMap.mp hw
  obtain ⟨p, hp, rfl⟩ := Option.map_eq_some_iff.mp he
  exact (h v hv).hop hp ..

theorem mem_addWalk {l : List Walk} {v w : Walk} (h : v ∈ addWalk l w) : v ∈ l ∨ v = w := by
  induction l with
  | nil => exact .inr (List.mem_singleton.mp h)
  | cons u r ih =>
    unfold addWalk at h
    split at h
    · rcases List.mem_cons.mp h with rfl | hr
      · split
        · exact .inr rfl
        · exact .inl List.mem_cons_self
      · exact .inl (List.mem_cons_of_mem _ hr)
    · rcases List.mem_cons.mp h with rfl | hr
      · exact .inl List.mem_cons_self
      · exact (ih hr).imp_left (List.mem_cons_of_mem _)

theorem mem_foldl_addWalk {ws l : List Walk} {v : Walk} (h : v ∈ ws.foldl addWalk l) : v ∈ l ∨ v ∈ ws := by
  induction ws generalizing l with
  | nil => exact .inl h
  | cons w ws ih =>
    rcases ih h with hl | hws
    · exact (mem_addWalk hl).imp_right fun hvw => List.mem_cons.mpr (.inl hvw)
    · exact .inr (List.mem_cons_of_mem _ hws)

/-- Every walk that n steps of the search keep is of the shape, n hops longer at most than the frontier. -/
theorem shapedWalk_of_mem_walks {g : Graph} {me : BitVec 64} {n m : Nat} {front seen : List Walk}
    (hfront : ∀ w ∈ front, shapedWalk me m w) (hseen : ∀ w ∈ seen, shapedWalk me m w) :
    ∀ w ∈ walks g n front seen, shapedWalk me (m + n) w := by
  induction n generalizing m front seen with
  | zero => exact hseen
  | succ n ih =>
    have hstep := shapedWalk_of_mem_stepWalks (g := g) hfront
    have hnew : ∀ w ∈ ((stepWalks g front).filter (fun w => !seen.any (fun v => v.node = w.node && v.phase == w.phase))).foldl addWalk [],
        shapedWalk me (m + 1) w := fun w hw => by
      rcases mem_foldl_addWalk hw with hnil | hmem
      · exact absurd hnil List.not_mem_nil
      · exact hstep w (List.mem_of_mem_filter hmem)
    have hboth := List.forall_mem_append.mpr ⟨fun w hw => (hseen w hw).mono (Nat.le_succ m), hnew⟩
    have hlater := ih hnew hboth
    rwa [Nat.succ_add_eq_add_succ] at hlater

/-- The better of a walk in hand and another: the shorter, then the one that R384 prefers. -/
def betterWalk (a : Option Walk) (w : Walk) : Option Walk :=
  match a with
  | none => some w
  | some b => if w.hops.length < b.hops.length ∨ (w.hops.length = b.hops.length ∧ w.better b) then some w else some b

theorem bestWalk_eq (l : List Walk) (id : BitVec 64) : bestWalk l id = (l.filter (fun w => w.node = id)).foldl betterWalk none := rfl

theorem betterWalk_cases (a : Option Walk) (w : Walk) : betterWalk a w = a ∨ betterWalk a w = some w := by
  unfold betterWalk
  split
  · exact .inr rfl
  · split
    · exact .inr rfl
    · exact .inl rfl

theorem mem_of_foldl_betterWalk {l : List Walk} {a : Option Walk} {w : Walk} (h : l.foldl betterWalk a = some w) : a = some w ∨ w ∈ l := by
  induction l generalizing a with
  | nil => exact .inl h
  | cons v l ih =>
    rcases ih h with hbetter | hmem
    · rcases betterWalk_cases a v with ha | hv
      · exact .inl (ha.symm.trans hbetter)
      · exact .inr (Option.some.inj (hv.symm.trans hbetter) ▸ List.mem_cons_self)
    · exact .inr (List.mem_cons_of_mem _ hmem)

/-- The walk chosen is one of those to the part. -/
theorem mem_of_bestWalk {l : List Walk} {id : BitVec 64} {w : Walk} (h : bestWalk l id = some w) : w ∈ l ∧ w.node = id := by
  rw [bestWalk_eq] at h
  obtain ⟨hmem, hnode⟩ := List.mem_filter.mp ((mem_of_foldl_betterWalk h).resolve_left nofun)
  exact ⟨hmem, of_decide_eq_true hnode⟩

/-! ## Routes -/

/-- Once a hop of a route is on the upper VC, every later one is. -/
def upperKept (l : List (Bool × Nat)) : Prop :=
  ∀ i j : Nat, i ≤ j → (∃ q, l[i]? = some (true, q)) → ∀ h, l[j]? = some h → h.1 = true

theorem upperKept_of_pairwise {l : List (Bool × Nat)} (h : l.Pairwise (fun earlier later => earlier.1 = true → later.1 = true)) :
    upperKept l := by
  rintro i j hij ⟨q, hi⟩ x hj
  obtain ⟨hilt, hix⟩ := List.getElem?_eq_some_iff.mp hi
  obtain ⟨hjlt, hjx⟩ := List.getElem?_eq_some_iff.mp hj
  rcases Nat.lt_or_eq_of_le hij with hlt | rfl
  · have hlater := List.pairwise_iff_getElem.mp h i j hilt hjlt hlt
    rw [hix, hjx] at hlater
    exact hlater rfl
  · obtain rfl : (true, q) = x := Option.some.inj (hi.symm.trans hj)
    rfl

/-- What the best of the walks of at most n hops gives as a route. -/
theorem bestWalk_shape {g : Graph} {me dest : BitVec 64} {n : Nat} {w : Walk}
    (h : bestWalk (walks g n [⟨me, 0, 0, []⟩] [⟨me, 0, 0, []⟩]) dest = some w) :
    w.hops.reverse.length ≤ n ∧ (dest ≠ me → 1 ≤ w.hops.reverse.length) ∧ upperKept w.hops.reverse := by
  obtain ⟨hmem, hnode⟩ := mem_of_bestWalk h
  have hstart : ∀ v ∈ [(⟨me, 0, 0, []⟩ : Walk)], shapedWalk me 0 v := List.forall_mem_singleton.mpr (shapedWalk_start me)
  have hshape := shapedWalk_of_mem_walks hstart hstart w hmem
  rw [Nat.zero_add] at hshape
  rw [List.length_reverse]
  refine ⟨hshape.length_le, fun hne => ?_, upperKept_of_pairwise (List.pairwise_reverse.mpr hshape.upper)⟩
  by_contra hzero
  exact hne (hnode.symm.trans (hshape.start (List.length_eq_zero_iff.mp (by omega))))

/-! ## A settle -/

theorem settleTime_fab (db : List LsRecord) (g : Graph) (s : State) : (settleTime db g s).fab = s.fab := by
  unfold settleTime
  extract_lets
  split
  · exact setReady_fab ..
  · rfl

/-- The route to a part joins the table where the part has an address and a walk reaches it. -/
def putRoute (g : Graph) (all : List Walk) (gen : Nat) (t : Tab Route) (i : BitVec 64) : Tab Route :=
  match g.addr i, bestWalk all i with
  | some a, some w => Tab.put t a { hops := w.hops.reverse, gen := gen }
  | _, _ => t

theorem find_putRoute {g : Graph} {all : List Walk} {gen : Nat} {t : Tab Route} {i : BitVec 64} {a : Nat} {r : Route}
    (h : Tab.find (putRoute g all gen t i) a = some r) :
    Tab.find t a = some r ∨ ∃ w, bestWalk all i = some w ∧ r.hops = w.hops.reverse := by
  unfold putRoute at h
  split at h
  · next b w _ hw =>
    by_cases hab : a = b
    · rw [hab, find_put_same] at h
      exact .inr ⟨w, hw, (congrArg Route.hops (Option.some.inj h)).symm⟩
    · exact .inl ((find_put_ne _ _ hab).symm.trans h)
  · exact .inl h

/-- Every route of a table is one that it held, or the best walk to one of the parts. -/
theorem find_foldl_putRoute {g : Graph} {all : List Walk} {gen : Nat} {l : List (BitVec 64)} {t : Tab Route} {a : Nat} {r : Route}
    (h : Tab.find (l.foldl (putRoute g all gen) t) a = some r) :
    Tab.find t a = some r ∨ ∃ i ∈ l, ∃ w, bestWalk all i = some w ∧ r.hops = w.hops.reverse := by
  induction l generalizing t with
  | nil => exact .inl h
  | cons i l ih =>
    rcases ih h with hput | ⟨j, hj, hroute⟩
    · exact (find_putRoute hput).imp_right fun hroute => ⟨i, List.mem_cons_self, hroute⟩
    · exact .inr ⟨j, List.mem_cons_of_mem _ hj, hroute⟩

theorem settle_routes (s : State) : ∃ (g : Graph) (gen : Nat) (l : List (BitVec 64)), Config.partId ∉ l ∧ (settle s).fab.routes =
    l.foldl (putRoute g (walks g 16 [⟨Config.partId, 0, 0, []⟩] [⟨Config.partId, 0, 0, []⟩]) gen) [] := by
  unfold settle
  extract_lets db me addrs mine g lost f gen all others routes t
  refine ⟨g, gen, others, ?_, ?_⟩
  · unfold others
    split
    · exact List.not_mem_nil
    · exact fun hmem => of_decide_eq_true (List.mem_filter.mp hmem).2 rfl
  · split
    · rw [settleTime_fab]
      rfl
    · rfl

/-- Settles O47: a route is the best of the walks, all of which keep the shape. -/
theorem routesKeepTheirShape : Obligations.RoutesKeepTheirShape := by
  refine ⟨fun g me dest n l hroute => ?_, fun s a r hr => ?_⟩
  · obtain ⟨w, hw, rfl⟩ := Option.map_eq_some_iff.mp hroute
    exact bestWalk_shape hw
  · obtain ⟨g, gen, l, hme, hroutes⟩ := settle_routes s
    rw [hroutes] at hr
    obtain ⟨i, hi, w, hw, hhops⟩ := (find_foldl_putRoute hr).resolve_left nofun
    obtain ⟨hle, hpos, hkept⟩ := bestWalk_shape hw
    rw [hhops]
    exact ⟨hpos fun heq => hme (heq ▸ hi), hle, hkept⟩

end Sys2Proof.Proofs
end

section
/-! PROOFS of the statement on what clears the counters (R54, R462), part 1: counters that are kept or count up, through what reports, sends
on the fabric, and the KV store. -/

namespace Sys2Proof.Proofs

open Sys2Proof.Machine Sys2Proof.Safety Sys2Proof.Laws

/-! ## Counters that are kept or count up -/

/-- From m to n every counter has kept its value or, when it is no 64-bit one, counted up. -/
def countsUp (m n : Tab Nat) : Prop :=
  ∀ k, Tab.get 0 n k = Tab.get 0 m k ∨ (isWide (k % 4096) = false ∧ ∃ j, Tab.get 0 n k = countUp (k % 4096) j (Tab.get 0 m k))

/-- The counters of s are those of a, kept or counted up. -/
def countsFrom (a s : State) : Prop := countsUp a.cnt s.cnt ∧ countsUp a.fcnt s.fcnt

theorem countsUp.refl (m : Tab Nat) : countsUp m m := fun _ => .inl rfl

theorem countsFrom.refl (s : State) : countsFrom s s := ⟨.refl s.cnt, .refl s.fcnt⟩

theorem countsFrom.of_eq {a s t : State} (h : countsFrom a s) (hcnt : t.cnt = s.cnt) (hfcnt : t.fcnt = s.fcnt) : countsFrom a t := by
  rw [countsFrom, hcnt, hfcnt]
  exact h

/-- Counting up twice is counting up once by the sum. -/
theorem countUp_countUp {k : Nat} (hk : isWide k = false) (i j v : Nat) : countUp k j (countUp k i v) = countUp k (i + j) v := by
  unfold countUp
  rw [hk]
  simp only [Bool.false_eq_true, if_false]
  split_ifs <;> omega

theorem countsUp_upd {m n : Tab Nat} {k : Nat} (h : countsUp m n) (hk : isWide (k % 4096) = false) (j : Nat) :
    countsUp m (Tab.upd 0 n k (countUp (k % 4096) j)) := by
  intro i
  by_cases hi : i = k
  · subst hi
    rw [get_upd_same]
    rcases h i with hsame | ⟨-, l, hup⟩
    · exact .inr ⟨hk, j, by rw [hsame]⟩
    · exact .inr ⟨hk, l + j, by rw [hup, countUp_countUp hk]⟩
  · rw [get_upd_ne 0 n _ hi]
    exact h i

section Ops
variable {a s : State}

theorem countsFrom_ite {c : Prop} [Decidable c] {t u : State} (ht : countsFrom a t) (hu : countsFrom a u) :
    countsFrom a (if c then t else u) := by
  split
  · exact ht
  · exact hu

theorem forEach_countsFrom {α : Type} {l : List α} {f : α → State → State} (hf : ∀ x t, countsFrom a t → countsFrom a (f x t))
    (h : countsFrom a s) : countsFrom a (forEach l f s) :=
  forEach_rel (R := fun t u => countsFrom a t → countsFrom a u) (fun _ => id) (fun h k => k ∘ h) l f hf s h

theorem onlyIf_countsFrom {c : Bool} {f : State → State} (hf : countsFrom a (f s)) (h : countsFrom a s) : countsFrom a (onlyIf c f s) :=
  countsFrom_ite hf h

/-! ## Counting -/

theorem bumpPartBy_countsFrom {k : Nat} (n : Nat) (h : countsFrom a s) (hk : k < 4096 ∧ isWide k = false := by decide) :
    countsFrom a (bumpPartBy k n s) := by
  obtain ⟨hlt, hwide⟩ := hk
  have hmod : k % 4096 = k := Nat.mod_eq_of_lt hlt
  have hcnt := countsUp_upd h.1 (k := k) (hmod.symm ▸ hwide) n
  rw [hmod] at hcnt
  exact ⟨hcnt, h.2⟩

theorem bumpPart_countsFrom {k : Nat} (h : countsFrom a s) (hk : k < 4096 ∧ isWide k = false := by decide) :
    countsFrom a (bumpPart k s) := bumpPartBy_countsFrom 1 h hk

theorem bumpBy_countsFrom (f : Nat) {k : Nat} (n : Nat) (h : countsFrom a s) (hk : k < 4096 ∧ isWide k = false := by decide) :
    countsFrom a (bumpBy f k n s) := by
  refine bumpPartBy_countsFrom n ⟨h.1, ?_⟩ hk
  dsimp only
  split
  · obtain ⟨hlt, hwide⟩ := hk
    have hmod : (4096 * f + k) % 4096 = k := by rw [Nat.mul_add_mod, Nat.mod_eq_of_lt hlt]
    have hfcnt := countsUp_upd h.2 (k := 4096 * f + k) (hmod.symm ▸ hwide) n
    rwa [hmod] at hfcnt
  · exact h.2

theorem bump_countsFrom (f : Nat) {k : Nat} (h : countsFrom a s) (hk : k < 4096 ∧ isWide k = false := by decide) :
    countsFrom a (bump f k s) := bumpBy_countsFrom f 1 h hk

/-! ## Interrupts, rings and events -/

theorem raiseVec_countsFrom (f v : Nat) (h : countsFrom a s) : countsFrom a (raiseVec f v s) :=
  countsFrom_ite h (countsFrom_ite h h)

theorem raiseAll_countsFrom (h : countsFrom a s) : countsFrom a (raiseAll s) :=
  forEach_countsFrom (fun f _ ht => raiseVec_countsFrom f 0 ht) h

theorem setReady_countsFrom (b : Nat) (v : Bool) (h : countsFrom a s) : countsFrom a (setReady b v s) := by
  unfold setReady
  extract_lets r
  refine countsFrom_ite h ?_
  exact raiseAll_countsFrom (s := { s with ready := r }) h

theorem hold_countsFrom (f q : Nat) (e : Cqe) (h : countsFrom a s) : countsFrom a (hold f q e s) := h

theorem writeCq_countsFrom (f q : Nat) (e : Cqe) (held : Bool) (h : countsFrom a s) : countsFrom a (writeCq f q e held s) := by
  unfold writeCq
  extract_lets r t wraps signal u
  have hu : countsFrom a u := h
  exact countsFrom_ite (raiseVec_countsFrom _ _ hu) hu

theorem post_countsFrom (f q : Nat) (e : Cqe) (h : countsFrom a s) : countsFrom a (post f q e s) := by
  have hfull : countsFrom a (bump f cViolIarekCqFull (updRing f q (fun r => { r with full := true }) s)) := bump_countsFrom f h
  unfold post
  extract_lets x r e late
  split
  · exact hold_countsFrom f q e (countsFrom_ite hfull h)
  · split
    · exact hold_countsFrom f q e (countsFrom_ite h hfull)
    · exact writeCq_countsFrom f q e false h

theorem postEvent_countsFrom (code : Nat) (st : Status) (detail : Nat) (h : countsFrom a s) : countsFrom a (postEvent code st detail s) :=
  post_countsFrom 0 0 _ h

theorem complete_countsFrom (f : Nat) (q : Option Nat) (e : Cqe) (h : countsFrom a s) : countsFrom a (complete f q e s) := by
  unfold complete
  split
  · exact post_countsFrom f _ e h
  · exact h

/-! ## Sending on the fabric -/

theorem pump_countsFrom (p n : Nat) (h : countsFrom a s) : countsFrom a (pump p n s) := by
  induction n generalizing s with
  | zero => exact h
  | succ n ih =>
    unfold pump
    extract_lets x owed
    split
    · exact h
    · split
      · exact h
      · exact ih h

theorem queueFrames_countsFrom (p vc : Nat) (l : List Bytes) (h : countsFrom a s) : countsFrom a (queueFrames p vc l s) :=
  pump_countsFrom p _ h

theorem sendLink_countsFrom (p ltype : Nat) (body : Bytes) (h : countsFrom a s) : countsFrom a (sendLink p ltype body s) :=
  queueFrames_countsFrom p 0 _ h

theorem sendMsg_countsFrom (dest cls mtype : Nat) (tag : BitVec 32) (body : Bytes) (h : countsFrom a s) :
    countsFrom a (sendMsg dest cls mtype tag body s) := by
  unfold sendMsg
  split
  · exact h
  · exact queueFrames_countsFrom _ _ _ h

theorem renew_countsFrom (h : countsFrom a s) : countsFrom a (renew s) := by
  have hsend (r : LsRecord) (t : State) (ht : countsFrom a t) : countsFrom a (sendRecord r none t) :=
    forEach_countsFrom (fun p _ hu => queueFrames_countsFrom p 7 _ hu) ht
  have horiginate : countsFrom a (originate s) := by
    unfold originate
    split
    · exact h
    · exact hsend _ _ h
  exact countsFrom_ite h horiginate

theorem portEvent_countsFrom (p mode cause : Nat) (h : countsFrom a s) : countsFrom a (portEvent p mode cause s) :=
  postEvent_countsFrom _ _ _ h

theorem sendProof_countsFrom (p : Nat) (h : countsFrom a s) : countsFrom a (sendProof p s) := by
  unfold sendProof
  extract_lets x
  split
  · exact h
  · exact countsFrom_ite h (sendLink_countsFrom p 5 _ h)

theorem sendCerts_countsFrom (p : Nat) (h : countsFrom a s) : countsFrom a (sendCerts p s) := by
  unfold sendCerts
  split
  · exact h
  · extract_lets l t u
    have ht : countsFrom a t := forEach_countsFrom (fun _ _ hv => sendLink_countsFrom p 3 _ hv) h
    have hu : countsFrom a u := ht
    exact sendProof_countsFrom p (sendLink_countsFrom p 4 _ hu)

theorem keysInForce_countsFrom (p : Nat) (h : countsFrom a s) : countsFrom a (keysInForce p s) := by
  refine countsFrom_ite (renew_countsFrom ?_) h
  exact pump_countsFrom p _ h

theorem judgeProof_countsFrom (p : Nat) (sig : Bytes) (h : countsFrom a s) : countsFrom a (judgeProof p sig s) := by
  unfold judgeProof
  extract_lets x chain own pub svnOk good secret
  split
  · refine keysInForce_countsFrom p (sendLink_countsFrom p 6 _ ?_)
    exact h
  · exact portEvent_countsFrom p _ 4 (bumpPart_countsFrom h)

theorem rxKeyProof_countsFrom (p : Nat) (sig : Bytes) (h : countsFrom a s) : countsFrom a (rxKeyProof p sig s) :=
  countsFrom_ite h (countsFrom_ite h (judgeProof_countsFrom p sig h))

theorem keyWork_countsFrom (p : Nat) (h : countsFrom a s) : countsFrom a (keyWork p s) := by
  unfold keyWork
  extract_lets t u
  have hu : countsFrom a u := countsFrom_ite (sendProof_countsFrom p (sendCerts_countsFrom p h)) (sendCerts_countsFrom p h)
  split
  · exact hu
  · exact rxKeyProof_countsFrom p _ hu

/-! ## The KV store -/

theorem updCtx_countsFrom (i : Nat) (g : Ctx → Ctx) (h : countsFrom a s) : countsFrom a (updCtx i g s) := by
  unfold updCtx
  split
  · exact h
  · exact h

theorem updKv_countsFrom (g : Kv → Kv) (h : countsFrom a s) : countsFrom a (updKv g s) := h

theorem putPage_countsFrom (k : Nat) (p : Page) (h : countsFrom a s) : countsFrom a (putPage k p s) := h

theorem freeFrame_countsFrom (k : Nat) (h : countsFrom a s) : countsFrom a (freeFrame k s) := by
  have habandon : countsFrom a (abandonSeal k s) := countsFrom_ite (bump_countsFrom _ h) h
  exact updKv_countsFrom _ habandon

theorem strand_countsFrom (idx : Nat) (h : countsFrom a s) : countsFrom a (strand idx s) := by
  unfold strand
  extract_lets top
  split
  · exact h
  · exact forEach_countsFrom (fun g _ ht => bump_countsFrom _ ht) h

theorem reclaimGhost_countsFrom {t : State} (hrec : reclaimGhost s = some t) (h : countsFrom a s) : countsFrom a t := by
  unfold reclaimGhost at hrec
  split at hrec
  · cases hrec
  · cases hrec
    exact strand_countsFrom _ (bump_countsFrom _ h)

theorem trimGhosts_countsFrom (n fuel : Nat) (h : countsFrom a s) : countsFrom a (trimGhosts n fuel s) := by
  induction fuel generalizing s with
  | zero => exact h
  | succ fuel ih =>
    unfold trimGhosts
    split
    · exact h
    · split
      · exact h
      · next t ht => exact ih (reclaimGhost_countsFrom ht h)

theorem ensureGrans_countsFrom (n fuel : Nat) (h : countsFrom a s) : countsFrom a (ensureGrans n fuel s) := by
  induction fuel generalizing s with
  | zero => exact h
  | succ fuel ih =>
    unfold ensureGrans
    split
    · exact h
    · split
      · exact h
      · next t ht => exact ih (reclaimGhost_countsFrom ht h)

theorem takeGrans_countsFrom (n : Nat) (owner : Tag) (zeroing : Bool) (h : countsFrom a s) :
    countsFrom a (takeGrans n owner zeroing s).2 := h

theorem grantGrans_countsFrom (n : Nat) (owner : Tag) (zeroing : Bool) (h : countsFrom a s) :
    countsFrom a (grantGrans n owner zeroing s).2 := takeGrans_countsFrom n owner zeroing (ensureGrans_countsFrom n _ h)

theorem openPage_countsFrom (idx : Nat) (draft : Bool) (hd : ModelHdr) (layer col : Nat) (h : countsFrom a s) :
    countsFrom a (openPage idx draft hd layer col s) := by
  have hgrant := grantGrans_countsFrom hd.rawGrans (s.ctxTag idx) true h
  unfold openPage
  generalize grantGrans hd.rawGrans (s.ctxTag idx) true s = r at hgrant
  exact putPage_countsFrom _ _ (updKv_countsFrom _ hgrant)

theorem openColumn_countsFrom (idx col : Nat) (h : countsFrom a s) : countsFrom a (openColumn idx col s) := by
  unfold openColumn
  split
  · exact h
  · exact forEach_countsFrom (fun m _ ht => forEach_countsFrom (fun l _ hu =>
      countsFrom_ite (openPage_countsFrom idx m.1 m.2 l col hu) hu) ht) h

theorem dropPage_countsFrom (k : Nat) (h : countsFrom a s) : countsFrom a (dropPage k s) := by
  unfold dropPage
  extract_lets p f x keep t g
  split
  · exact h
  · exact h
  · exact h
  · exact bump_countsFrom f (putPage_countsFrom k _ (freeFrame_countsFrom k h))
  · have ht : countsFrom a t := countsFrom_ite h (trimGhosts_countsFrom _ _ h)
    split
    · exact bump_countsFrom f (bump_countsFrom f (putPage_countsFrom k _ (updKv_countsFrom _ (freeFrame_countsFrom k ht))))
    · exact bump_countsFrom f (putPage_countsFrom k _ (freeFrame_countsFrom k h))

theorem dropColumn_countsFrom (idx col : Nat) (h : countsFrom a s) : countsFrom a (dropColumn idx col s) := by
  refine strand_countsFrom idx (updCtx_countsFrom idx _ (updKv_countsFrom _ ?_))
  exact forEach_countsFrom (fun k _ ht => dropPage_countsFrom k ht) h

theorem makeRoom_countsFrom (n : Nat) (prep : List Nat) (fuel : Nat) (h : countsFrom a s) : countsFrom a (makeRoom n prep fuel s) := by
  induction fuel generalizing s with
  | zero => exact h
  | succ fuel ih =>
    unfold makeRoom
    split
    · exact h
    · split
      · exact h
      · exact ih (dropColumn_countsFrom _ _ h)

theorem roomFor_countsFrom (n : Nat) (prep : List Nat) (h : countsFrom a s) : countsFrom a (roomFor n prep s).2 :=
  makeRoom_countsFrom n prep _ h

theorem freePages_countsFrom (idx : Nat) (h : countsFrom a s) : countsFrom a (freePages idx s) := by
  refine forEach_countsFrom (fun k t ht => ?_) h
  split
  · exact ht
  · exact ht
  · exact putPage_countsFrom k _ (freeFrame_countsFrom k ht)

theorem closeUnused_countsFrom (r : StepReq) (h : countsFrom a s) : countsFrom a (closeUnused r s) :=
  forEach_countsFrom (fun _ _ ht => forEach_countsFrom (fun k _ hu => countsFrom_ite (putPage_countsFrom k _ (freeFrame_countsFrom k hu)) hu) ht) h

/-! ## Grants of units -/

/-- The state that a grant of units leaves has its counters kept or counted up. -/
def grantFrom (a : State) : Grant → Prop
  | .short => True
  | .waits t | .got _ t => countsFrom a t

theorem grantUnits_grantFrom (use : UnitUse) (owner : Tag) (n : Nat) (h : countsFrom a s) : grantFrom a (grantUnits use owner n s) := by
  unfold grantUnits
  split
  · trivial
  · extract_lets m us t
    have ht : countsFrom a (roomFor 0 [] t).2 := roomFor_countsFrom 0 [] h
    dsimp only
    split
    · exact ht
    · simp only [grantFrom, countsFrom]
      refine forEach_countsFrom (fun g u hu => ?_) (trimGhosts_countsFrom _ _ (ensureGrans_countsFrom _ _ ht))
      have htaken := takeGrans_countsFrom 1 {} false hu
      split
      · next heq =>
        rw [heq] at htaken
        exact htaken
      · next heq =>
        rw [heq] at htaken
        exact htaken

theorem grantUnits_waits_countsFrom {use : UnitUse} {owner : Tag} {n : Nat} {t : State} (hg : grantUnits use owner n s = .waits t)
    (h : countsFrom a s) : countsFrom a t := by
  have hok := grantUnits_grantFrom use owner n h
  rwa [hg] at hok

theorem grantUnits_got_countsFrom {use : UnitUse} {owner : Tag} {n : Nat} {us : List Nat} {t : State}
    (hg : grantUnits use owner n s = .got us t) (h : countsFrom a s) : countsFrom a t := by
  have hok := grantUnits_grantFrom use owner n h
  rwa [hg] at hok

end Ops

end Sys2Proof.Proofs
end

section
/-! PROOFS of the statement on what clears the counters (R54, R462), part 2: counters through the ends of requests, tasks, runs and loads,
and a Function Level Reset. -/

namespace Sys2Proof.Proofs

open Sys2Proof.Machine Sys2Proof.Safety Sys2Proof.Laws

section Ops
variable {a s : State}

/-! ## Requests, tasks and runs -/

theorem updServe_countsFrom (g : Serve → Serve) (h : countsFrom a s) : countsFrom a (updServe g s) := h

theorem checkSettled_countsFrom (f : Nat) (h : countsFrom a s) : countsFrom a (checkSettled f s) := countsFrom_ite h h

theorem dropShips_countsFrom (idx reason : Nat) (h : countsFrom a s) : countsFrom a (dropShips idx reason s) := by
  unfold dropShips
  extract_lets mine t
  have ht : countsFrom a t := h
  split
  · exact ht
  · refine forEach_countsFrom (fun m u hu => countsFrom_ite hu ?_) ht
    exact onlyIf_countsFrom (bump_countsFrom _ (sendMsg_countsFrom _ _ _ _ _ hu)) (sendMsg_countsFrom _ _ _ _ _ hu)

theorem dropWork_countsFrom (idx : Nat) (st : Status) (h : countsFrom a s) : countsFrom a (dropWork idx st s) := by
  unfold dropWork
  extract_lets t u
  have ht : countsFrom a t := dropShips_countsFrom idx _ h
  have hu : countsFrom a u := freePages_countsFrom idx ht
  split
  · exact updCtx_countsFrom idx _ (updServe_countsFrom _ ht)
  · split
    · exact hu
    · exact countsFrom_ite (updCtx_countsFrom idx _ hu) (updServe_countsFrom _ hu)

theorem finishHome_countsFrom (idx : Nat) (st : Status) (end1 : Bool) (h : countsFrom a s) :
    countsFrom a (finishHome idx st end1 s) := by
  unfold finishHome
  split
  · exact h
  · split
    · exact h
    · next c _ _ =>
      extract_lets e t u
      have ht : countsFrom a t := post_countsFrom c.fn c.q e h
      have hu : countsFrom a u := countsFrom_ite (bump_countsFrom c.fn ht) ht
      exact checkSettled_countsFrom c.fn (updCtx_countsFrom idx _ hu)

theorem tellHolders_countsFrom (idx : Nat) (c : Ctx) (st : Status) (h : countsFrom a s) : countsFrom a (tellHolders idx c st s) :=
  forEach_countsFrom (fun _ _ ht => sendMsg_countsFrom _ _ _ _ _ ht) h

theorem endRequest_countsFrom (idx : Nat) (st : Status) (h : countsFrom a s) : countsFrom a (endRequest idx st s) := by
  unfold endRequest
  split
  · exact h
  · next c _ =>
    split
    · exact h
    · split
      · exact dropWork_countsFrom idx st (tellHolders_countsFrom idx c _ (finishHome_countsFrom idx st false h))
      · extract_lets t u
        have ht : countsFrom a t := sendMsg_countsFrom _ _ _ _ _ h
        have hu : countsFrom a u := countsFrom_ite (bump_countsFrom c.fn ht) ht
        exact dropWork_countsFrom idx st (updCtx_countsFrom idx _ hu)

theorem pauseStep_countsFrom (stop : Bool) (h : countsFrom a s) : countsFrom a (pauseStep stop s) :=
  forEach_countsFrom (fun i _ ht => updCtx_countsFrom i _ ht) h

theorem pauseNow_countsFrom (h : countsFrom a s) : countsFrom a (pauseNow s) := countsFrom_ite (updServe_countsFrom _ h) h

theorem freePlace_countsFrom (p : Place) (h : countsFrom a s) : countsFrom a (freePlace p s) := by
  have hcores : countsFrom a (forEach p.cores (fun k => updCore k Core.leave) s) := forEach_countsFrom (fun _ _ ht => ht) h
  unfold freePlace
  extract_lets t u
  have hu : countsFrom a u := hcores.of_eq rfl rfl
  exact hu

theorem endTask_countsFrom (n : Nat) (st : Status) (silent : Bool) (h : countsFrom a s) : countsFrom a (endTask n st silent s) := by
  unfold endTask
  split
  · exact h
  · next t _ =>
    extract_lets u v
    have hu : countsFrom a u := by
      unfold u
      split
      · exact h
      · exact freePlace_countsFrom _ h
    have hv : countsFrom a v := hu.of_eq rfl rfl
    exact countsFrom_ite hv (checkSettled_countsFrom t.fn (post_countsFrom t.fn t.q _ hv))

theorem endRun_countsFrom (r : Run) (st : Status) (silent : Bool) (h : countsFrom a s) : countsFrom a (endRun r st silent s) := by
  unfold endRun
  refine countsFrom_ite ?_ (countsFrom_ite ?_ (checkSettled_countsFrom r.fn (post_countsFrom r.fn r.q _ ?_)))
  · exact h
  · exact h
  · exact h

/-! ## Copies and loads -/

theorem releaseUnits_countsFrom (us : List Nat) (h : countsFrom a s) : countsFrom a (releaseUnits us s) := h

theorem dropCopy_countsFrom (k : Nat) (h : countsFrom a s) : countsFrom a (dropCopy k s) := by
  unfold dropCopy
  split
  · exact h
  · exact h

theorem releaseModel_countsFrom (m : Nat) (unload : Bool) (h : countsFrom a s) : countsFrom a (releaseModel m unload s) := by
  unfold releaseModel
  split
  · exact h
  · extract_lets t
    have ht : countsFrom a t := h
    split
    · exact ht
    · exact countsFrom_ite (countsFrom_ite (updServe_countsFrom _ ht) (dropCopy_countsFrom _ ht)) ht

theorem dropAdapter_countsFrom (k : Nat) (h : countsFrom a s) : countsFrom a (dropAdapter k s) := by
  unfold dropAdapter
  split
  · exact h
  · exact h

theorem dropBuf_countsFrom (k : Nat) (h : countsFrom a s) : countsFrom a (dropBuf k s) := by
  unfold dropBuf
  split
  · exact h
  · exact h

theorem dropLoad_countsFrom (l : Load) (h : countsFrom a s) : countsFrom a (dropLoad l s) := by
  unfold dropLoad
  extract_lets t u
  have ht : countsFrom a t := h
  have hu : countsFrom a u := by
    unfold u
    split
    · exact ht
    · exact forEach_countsFrom (fun _ _ hv => sendMsg_countsFrom _ _ _ _ _ hv) ht
  split
  · exact releaseUnits_countsFrom _ hu
  · exact countsFrom_ite (dropCopy_countsFrom _ hu) (releaseUnits_countsFrom _ hu)

theorem completeLoad_countsFrom (l : Load) (st : Status) (k : Nat) (r : BitVec 320) (h : countsFrom a s) :
    countsFrom a (completeLoad l st k r s) := complete_countsFrom l.fn l.q _ h

theorem failLoad_countsFrom (l : Load) (st : Status) (reason detail : Nat) (h : countsFrom a s) :
    countsFrom a (failLoad l st reason detail s) := completeLoad_countsFrom l st 0 _ (dropLoad_countsFrom l h)

theorem handleTo_countsFrom (l : Load) (k : Nat) (attached : Bool) (h : countsFrom a s) : countsFrom a (handleTo l k attached s) := by
  have hissue : countsFrom a (issue l.fn kModel (Tab.keys s.serve.models) s).2 := h
  unfold handleTo
  generalize issue l.fn kModel (Tab.keys s.serve.models) s = r at hissue
  refine completeLoad_countsFrom l stOk _ _ ?_
  exact hissue

theorem putLoad_countsFrom (l m : Load) (h : countsFrom a s) : countsFrom a (putLoad l m s) := h

theorem poolChanged_countsFrom (h : countsFrom a s) : countsFrom a (poolChanged s) :=
  forEach_countsFrom (fun _ _ ht => sendMsg_countsFrom _ _ _ _ _ ht) (updServe_countsFrom _ h)

theorem sendLoadEnd_countsFrom (f id : Nat) (members : List Nat) (keep : Bool) (h : countsFrom a s) :
    countsFrom a (sendLoadEnd f id members keep s) := forEach_countsFrom (fun _ _ ht => sendMsg_countsFrom _ _ _ _ _ ht) h

theorem finishModel_countsFrom (l : Load) (h : countsFrom a s) : countsFrom a (finishModel l s) := by
  unfold finishModel
  extract_lets hd
  split
  · exact failLoad_countsFrom _ _ _ _ h
  · split
    · exact failLoad_countsFrom _ _ _ _ h
    · split
      · exact h
      · extract_lets t
        have ht : countsFrom a t := by
          unfold t
          split
          · exact sendLoadEnd_countsFrom _ _ _ _ h
          · exact h
        exact poolChanged_countsFrom (handleTo_countsFrom l _ false (updServe_countsFrom _ ht))

theorem regionWrite_countsFrom (units : List Nat) (off : Nat) (b : Bytes) (h : countsFrom a s) :
    countsFrom a (regionWrite units off b s) := by
  refine forEach_countsFrom (fun e t ht => ?_) h
  dsimp only
  split
  · exact ht
  · exact ht

theorem spendChunk_countsFrom (l : Load) (c : Nat) (plain : Bytes) (h : countsFrom a s) : countsFrom a (spendChunk l c plain s) := by
  have hwritten : countsFrom a (writeChunk l.copy c plain s) := by
    unfold writeChunk
    split
    · exact h
    · exact forEach_countsFrom (fun _ _ ht => regionWrite_countsFrom _ _ _ ht) h
  unfold spendChunk forwardChunk
  split
  · exact hwritten
  · exact forEach_countsFrom (fun _ _ ht => forEach_countsFrom (fun _ _ hu => sendMsg_countsFrom _ _ _ _ _ hu) ht) hwritten

/-! ## Placement of a load -/

/-- The state that the placing of a load leaves has its counters kept or counted up. -/
def placingFrom (a : State) : Placing → Prop
  | .refused .. => True
  | .waits t | .done _ t => countsFrom a t

theorem placeHere_placingFrom (l : Load) (h : countsFrom a s) : placingFrom a (placeHere l s) := by
  unfold placeHere
  dsimp only
  split
  · trivial
  · split
    · trivial
    · next hg => exact grantUnits_waits_countsFrom hg h
    · next us t hg =>
      have ht : countsFrom a t := grantUnits_got_countsFrom hg h
      exact ht

theorem placeRod_placingFrom (l : Load) (h : countsFrom a s) : placingFrom a (placeRod l s) := by
  unfold placeRod
  dsimp only
  split
  · trivial
  · split
    · trivial
    · next hg => exact grantUnits_waits_countsFrom (s := { s with free := s.free + 64 * 64 }) hg h
    · next us t hg =>
      have ht : countsFrom a t := grantUnits_got_countsFrom (s := { s with free := s.free + 64 * 64 }) hg h
      refine forEach_countsFrom (fun _ _ hu => sendMsg_countsFrom _ _ _ _ _ hu) ?_
      exact ht

theorem modelStep_countsFrom (l : Load) (h : countsFrom a s) : countsFrom a (modelStep l s).1 := by
  have hplaced : placingFrom a (if l.spread then placeRod l s else placeHere l s) := by
    split
    · exact placeRod_placingFrom l h
    · exact placeHere_placingFrom l h
  unfold modelStep
  split
  · exact failLoad_countsFrom _ _ _ _ h
  · extract_lets all hd
    split
    · exact countsFrom_ite (finishModel_countsFrom l h) h
    · split
      · exact countsFrom_ite (failLoad_countsFrom _ _ _ _ h) h
      · split
        · exact countsFrom_ite (handleTo_countsFrom l _ true h) (putLoad_countsFrom _ _ h)
        · split
          · exact failLoad_countsFrom _ _ _ _ h
          · next heq => rwa [heq] at hplaced
          · next m t heq =>
            rw [heq] at hplaced
            have hchunks := forEach_countsFrom (l := List.range m.next)
              (f := fun c t => spendChunk { m with waits := none } c (slice m.plain (65536 * c) 65536) t)
              (fun c _ hu => spendChunk_countsFrom _ c _ hu) (putLoad_countsFrom l { m with waits := none } hplaced)
            exact countsFrom_ite (finishModel_countsFrom _ hchunks) hchunks

theorem resumeLoads_countsFrom (h : countsFrom a s) : countsFrom a (resumeLoads s) := by
  refine forEach_countsFrom (fun l t ht => ?_) h
  split
  · exact ht
  · split
    · exact countsFrom_ite (handleTo_countsFrom l _ true ht) ht
    · exact modelStep_countsFrom _ (putLoad_countsFrom _ _ ht)

/-! ## Function Level Reset (R54, R55) -/

theorem silenceRequests_countsFrom (f : Nat) (h : countsFrom a s) : countsFrom a (silenceRequests f s) :=
  forEach_countsFrom (fun e _ ht => dropWork_countsFrom e.1 _ (tellHolders_countsFrom e.1 e.2 _ (updCtx_countsFrom e.1 _ ht))) h

theorem dropNets_countsFrom (f : Nat) (h : countsFrom a s) : countsFrom a (dropNets f s) := h

theorem updFn_countsFrom (f : Nat) (g : Func → Func) (h : countsFrom a s) : countsFrom a (updFn f g s) := h

theorem functionReset_countsFrom (f : Nat) (h : countsFrom a s) : countsFrom a (functionReset f s) := by
  unfold functionReset
  extract_lets silenced untasked unrun unloaded unmodelled unadapted unbuffered unwired unserved sec prov t
  have hsilenced : countsFrom a silenced := silenceRequests_countsFrom f h
  have huntasked : countsFrom a untasked := forEach_countsFrom (fun n _ ht => endTask_countsFrom n _ true ht) hsilenced
  have hunrun : countsFrom a unrun := forEach_countsFrom (fun r _ ht => endRun_countsFrom r _ true ht) huntasked
  have hunloaded : countsFrom a unloaded := forEach_countsFrom (fun l _ ht => dropLoad_countsFrom l ht) hunrun
  have hunmodelled : countsFrom a unmodelled := forEach_countsFrom (fun m _ ht => releaseModel_countsFrom m false ht) hunloaded
  have hunadapted : countsFrom a unadapted := forEach_countsFrom (fun k _ ht => dropAdapter_countsFrom k ht) hunmodelled
  have hunbuffered : countsFrom a unbuffered := forEach_countsFrom (fun k _ ht => dropBuf_countsFrom k ht) hunadapted
  have hunserved : countsFrom a unserved := updServe_countsFrom _ (dropNets_countsFrom f hunbuffered)
  clear_value unserved
  have ht : countsFrom a t := hunserved
  exact updFn_countsFrom f _ ht

theorem endVfs_countsFrom (h : countsFrom a s) : countsFrom a (endVfs s) := by
  have hreset : countsFrom a (forEach ((List.range s.link.numVfs).map (· + 1)) functionReset s) :=
    forEach_countsFrom (fun f _ ht => functionReset_countsFrom f ht) h
  exact resumeLoads_countsFrom (setReady_countsFrom rVf false (hreset.of_eq rfl rfl))

end Ops

end Sys2Proof.Proofs
end

section
/-! PROOFS of the statement on what clears the counters (R54, R462), part 3: counters through faults, revocations, restarts and handoffs of
the processors. -/

namespace Sys2Proof.Proofs

open Sys2Proof.Machine Sys2Proof.Safety Sys2Proof.Laws

section Ops
variable {a s : State}

theorem updProc_countsFrom (p : Nat) (g : Proc → Proc) (h : countsFrom a s) : countsFrom a (updProc p g s) := h

theorem updBrown_countsFrom (g : Brown → Brown) (h : countsFrom a s) : countsFrom a (updBrown g s) := h

theorem procEvent_countsFrom (p cause : Nat) (h : countsFrom a s) : countsFrom a (procEvent p cause s) := by
  unfold procEvent
  extract_lets d
  refine countsFrom_ite (postEvent_countsFrom _ _ _ h) ?_
  exact h

/-! ## Work of a cluster (R90, R91, R100) -/

theorem requeueSeals_countsFrom (n : Nat) (h : countsFrom a s) : countsFrom a (requeueSeals n s) :=
  forEach_countsFrom (fun _ _ ht => bump_countsFrom _ ht) (updKv_countsFrom _ h)

theorem reopenStep_countsFrom (h : countsFrom a s) : countsFrom a (reopenStep s) := by
  refine forEach_countsFrom (fun r t ht => countsFrom_ite ht ?_) h
  have hroom := roomFor_countsFrom (t.newPages r) t.running ht
  exact countsFrom_ite (forEach_countsFrom (fun c _ hu => openColumn_countsFrom r.idx c hu) hroom)
    (endRequest_countsFrom r.idx eEvicted hroom)

theorem stepLoses_countsFrom (n : Nat) (h : countsFrom a s) : countsFrom a (stepLoses n s) := by
  unfold stepLoses
  split
  · exact h
  · split
    · exact h
    · next st _ _ =>
      extract_lets fns t
      have hclosed : countsFrom a (forEach st.reqs closeUnused s) := forEach_countsFrom (fun r _ ht => closeUnused_countsFrom r ht) h
      have ht : countsFrom a t := countsFrom_ite (forEach_countsFrom (fun f _ hu => bump_countsFrom f hu) hclosed) h
      exact pauseStep_countsFrom true (updServe_countsFrom _ ht)

theorem stepRegains_countsFrom (n : Nat) (h : countsFrom a s) : countsFrom a (stepRegains n s) := by
  unfold stepRegains
  split
  · exact h
  · split
    · exact h
    · extract_lets t
      have ht : countsFrom a t := updServe_countsFrom _ h
      exact countsFrom_ite (pauseStep_countsFrom false (reopenStep_countsFrom ht)) ht

theorem displace_countsFrom (n : Nat) (h : countsFrom a s) : countsFrom a (displace n s) := by
  refine forEach_countsFrom (fun k t ht => ?_) h
  split
  · exact ht
  · split
    · exact ht
    · refine countsFrom_ite (freePlace_countsFrom _ ?_) ht
      exact ht

theorem clusterStops_countsFrom (n : Nat) (h : countsFrom a s) : countsFrom a (clusterStops n s) :=
  requeueSeals_countsFrom n (stepLoses_countsFrom n (displace_countsFrom n h))

theorem freeCluster_countsFrom (n : Nat) (h : countsFrom a s) : countsFrom a (freeCluster n s) := h

theorem freeChipDma_countsFrom (h : countsFrom a s) : countsFrom a (freeChipDma s) := h

/-! ## Revocations (R97 to R99) -/

theorem revokeNow_countsFrom (p cause : Nat) (h : countsFrom a s) : countsFrom a (revokeNow p cause s) := by
  unfold revokeNow
  extract_lets t u
  have ht : countsFrom a t := updProc_countsFrom p _ h
  have hu : countsFrom a u := by
    unfold u
    split
    · exact freeChipDma_countsFrom ht
    · next n =>
      extract_lets v
      have hstops := clusterStops_countsFrom n ht
      have hv : countsFrom a v := countsFrom_ite hstops (freeCluster_countsFrom n hstops)
      exact countsFrom_ite (stepRegains_countsFrom n hv) hv
    · exact ht
  exact countsFrom_ite (procEvent_countsFrom p cause hu) hu

theorem revoke_countsFrom (p cause : Nat) (h : countsFrom a s) : countsFrom a (revoke p cause s) :=
  countsFrom_ite (updProc_countsFrom p _ h) (revokeNow_countsFrom p cause h)

theorem revokeFaulty_countsFrom (p cause : Nat) (h : countsFrom a s) : countsFrom a (revokeFaulty p cause s) :=
  countsFrom_ite (revoke_countsFrom p cause h) (countsFrom_ite h (updProc_countsFrom p _ h))

/-! ## Processors that stop (R90, R102) -/

theorem abortLoads_countsFrom (h : countsFrom a s) : countsFrom a (abortLoads s) :=
  forEach_countsFrom (fun l _ ht => complete_countsFrom l.fn l.q _ (dropLoad_countsFrom l ht)) h

theorem journal_countsFrom (st : JState) (y x tries : Nat) (h : countsFrom a s) : countsFrom a (journal st y x tries s) := by
  unfold journal appendEntry
  extract_lets j b
  refine countsFrom_ite ?_ ?_
  · exact h
  · exact h

theorem abortStage_countsFrom (h : countsFrom a s) : countsFrom a (abortStage s) := by
  unfold abortStage
  split
  · next f q tag _ e _ _ =>
    extract_lets prov t u
    have ht : countsFrom a t := h
    have hu : countsFrom a u := by
      unfold u
      split
      · exact journal_countsFrom _ _ _ _ ht
      · exact journal_countsFrom _ _ _ _ ht
      · exact journal_countsFrom _ _ _ _ ht
      · exact journal_countsFrom _ _ _ _ ht
      · exact ht
    exact countsFrom_ite (complete_countsFrom f q _ hu) hu
  · exact h

theorem stopped_countsFrom (p : Nat) (h : countsFrom a s) : countsFrom a (stopped p s) := by
  have hready : countsFrom a (setReady (procReady p) false s) := setReady_countsFrom _ false h
  unfold stopped
  extract_lets t
  have ht : countsFrom a t := hready
  split
  · exact ht.of_eq rfl rfl
  · exact ht.of_eq rfl rfl
  · exact pauseNow_countsFrom (abortStage_countsFrom (abortLoads_countsFrom ht))
  · exact stepLoses_countsFrom _ ht

theorem finishUpdate_countsFrom (st : Status) (h : countsFrom a s) : countsFrom a (finishUpdate st s) := by
  unfold finishUpdate
  split
  · exact h
  · next u _ =>
    extract_lets boot t
    have ht : countsFrom a t := h
    refine countsFrom_ite ht (complete_countsFrom u.fn u.q _ ?_)
    exact ht

theorem stageBusy_countsFrom (h : countsFrom a s) : countsFrom a (stageBusy s) := by
  unfold stageBusy
  split
  · exact h
  · next f q tag _ _ =>
    extract_lets prov t
    have ht : countsFrom a t := h
    exact countsFrom_ite (complete_countsFrom f q _ ht) ht

theorem forceOp0_countsFrom (h : countsFrom a s) : countsFrom a (forceOp0 s) := by
  have habandon : countsFrom a (abandonUp s) := by
    unfold abandonUp
    split
    · exact h
    · exact bumpPart_countsFrom h
  exact habandon.of_eq rfl rfl

theorem haltProc_countsFrom (p cause : Nat) (h : countsFrom a s) : countsFrom a (haltProc p cause s) := by
  unfold haltProc
  extract_lets recent third t u v
  have hu : countsFrom a u := stopped_countsFrom p (updProc_countsFrom p _ h)
  have hv : countsFrom a v := countsFrom_ite (hu.of_eq rfl rfl) hu
  exact countsFrom_ite (forceOp0_countsFrom hv) hv

theorem closeHandoff_countsFrom (p : Nat) (h : countsFrom a s) : countsFrom a (closeHandoff p s) := h

theorem procFault_countsFrom (p cause : Nat) (h : countsFrom a s) : countsFrom a (procFault p cause s) := by
  unfold procFault
  extract_lets t u v
  have ht : countsFrom a t := closeHandoff_countsFrom p (haltProc_countsFrom p cause h)
  have hu : countsFrom a u := countsFrom_ite (finishUpdate_countsFrom eBusy ht) ht
  have hv : countsFrom a v := countsFrom_ite (stageBusy_countsFrom (procEvent_countsFrom 0 cause hu)) hu
  exact revokeFaulty_countsFrom p cause hv

theorem rollBack_countsFrom (p : Nat) (fault : Bool) (h : countsFrom a s) : countsFrom a (rollBack p fault s) := by
  have hhalt := haltProc_countsFrom p 6 h
  unfold rollBack
  extract_lets hand halted restarted t
  have ht : countsFrom a t := by
    refine countsFrom_ite (countsFrom_ite (revoke_countsFrom 0 6 hhalt) (revokeFaulty_countsFrom p 6 hhalt)) ?_
    exact countsFrom_ite (updProc_countsFrom p _ h) (revoke_countsFrom p 6 (stopped_countsFrom p (updProc_countsFrom p _ h)))
  exact finishUpdate_countsFrom eLevel ht

/-! ## Brownouts (R32, R33) -/

theorem brownCheck_countsFrom (h : countsFrom a s) : countsFrom a (brownCheck s) := by
  refine countsFrom_ite (forEach_countsFrom (fun d t ht => ?_) (updBrown_countsFrom _ h)) h
  exact countsFrom_ite (postEvent_countsFrom _ _ _ ht) (countsFrom_ite (updBrown_countsFrom _ ht) ht)

theorem clusterFaulted_countsFrom (n : Nat) (h : countsFrom a s) : countsFrom a (clusterFaulted n s) :=
  countsFrom_ite (brownCheck_countsFrom (updBrown_countsFrom _ h)) h

theorem faultOf_countsFrom (p cause : Nat) (h : countsFrom a s) : countsFrom a (faultOf p cause s) := by
  unfold faultOf
  extract_lets x t
  have ht : countsFrom a t := countsFrom_ite (rollBack_countsFrom p true h) (procFault_countsFrom p cause h)
  exact countsFrom_ite (clusterFaulted_countsFrom _ ht) ht

/-! ## Processors that run (R22, R90, R93, R102, R104) -/

theorem loadImage_countsFrom (p : Nat) (h : countsFrom a s) : countsFrom a (loadImage p s) := by
  unfold loadImage loadFrom
  split
  · exact h
  · split
    · exact h
    · exact updProc_countsFrom p _ h

theorem mendJournal_countsFrom (h : countsFrom a s) : countsFrom a (mendJournal s) := by
  have hfuses (b : Bytes) : countsFrom a (programFuses b s) := by
    unfold programFuses
    extract_lets r f owner
    exact countsFrom_ite h h
  unfold mendJournal
  split
  · exact h
  · split
    · exact h
    · extract_lets y x ok
      split
      · exact journal_countsFrom _ _ _ _ h
      · exact journal_countsFrom _ _ _ _ h
      · exact countsFrom_ite (journal_countsFrom _ _ _ _ h) (journal_countsFrom _ _ _ _ h)
      · exact journal_countsFrom _ _ _ _ (hfuses _)
      · exact h

theorem clusterUp_countsFrom (n : Nat) (h : countsFrom a s) : countsFrom a (clusterUp n s) :=
  countsFrom_ite h (brownCheck_countsFrom (updBrown_countsFrom _
    (forEach_countsFrom (fun k _ ht => stepRegains_countsFrom k ht) (setReady_countsFrom _ true h))))

theorem issueVision_countsFrom (h : countsFrom a s) : countsFrom a (issueVision s) := forEach_countsFrom (fun _ _ ht => ht) h

theorem takeTables_countsFrom (h : countsFrom a s) : countsFrom a (takeTables s) := countsFrom_ite h h

theorem takeOver_countsFrom (h : countsFrom a s) : countsFrom a (takeOver s) := h

theorem finishRuns_countsFrom (h : countsFrom a s) : countsFrom a (finishRuns s) :=
  forEach_countsFrom (fun r _ ht => endRun_countsFrom r _ false ht) h

theorem schUp_countsFrom (h : countsFrom a s) : countsFrom a (schUp s) := by
  unfold schUp
  extract_lets served clustered flinted late hbm kept boot unkept keptPosted hbmPosted
  have hserved : countsFrom a served :=
    takeOver_countsFrom (issueVision_countsFrom (takeTables_countsFrom (setReady_countsFrom rSch true h)))
  have hclustered : countsFrom a clustered :=
    forEach_countsFrom (fun n _ ht => countsFrom_ite (clusterUp_countsFrom n ht) ht) hserved
  have hflinted : countsFrom a flinted := setReady_countsFrom rFlint true hclustered
  have hunkept : countsFrom a unkept := hflinted.of_eq rfl rfl
  have hkept : countsFrom a keptPosted := forEach_countsFrom (fun _ _ ht => postEvent_countsFrom _ _ _ ht) hunkept
  have hhbm : countsFrom a hbmPosted := forEach_countsFrom (fun _ _ ht => postEvent_countsFrom _ _ _ ht) hkept
  exact finishRuns_countsFrom (forEach_countsFrom (fun _ _ ht => postEvent_countsFrom _ _ _ ht) hhbm)

theorem secUp_countsFrom (reset : Bool) (h : countsFrom a s) : countsFrom a (secUp reset s) := by
  unfold secUp
  extract_lets link side up unalerted mended keyed
  have hup : countsFrom a up := setReady_countsFrom rSecRom true 
    (s := { s with side := { s.side with up := true }, link := { s.link with secResetBusy := false } }) h
  have hunalerted : countsFrom a unalerted := hup.of_eq rfl rfl
  have hmended : countsFrom a mended := countsFrom_ite (procEvent_countsFrom 0 5 (mendJournal_countsFrom hunalerted)) hunalerted
  have hkeyed : countsFrom a keyed := forEach_countsFrom (fun p _ ht => keyWork_countsFrom p ht) hmended
  exact forEach_countsFrom (fun p _ ht => revoke_countsFrom p _ (updProc_countsFrom p _ ht)) hkeyed

/-! ## FW_UPDATE (R92 to R94) -/

theorem nextTarget_countsFrom (h : countsFrom a s) : countsFrom a (nextTarget s) := by
  unfold nextTarget
  split
  · exact h
  · split
    · exact finishUpdate_countsFrom stOk h
    · next p r _ =>
      extract_lets t
      have ht : countsFrom a t := h
      exact countsFrom_ite (updProc_countsFrom p _ ht) (revoke_countsFrom p 0 (stopped_countsFrom p (updProc_countsFrom p _ ht)))

theorem replaced_countsFrom (p : Nat) (handoff : Bool) (h : countsFrom a s) : countsFrom a (replaced p handoff s) :=
  procEvent_countsFrom p _ (updProc_countsFrom p _ (closeHandoff_countsFrom p h))

end Ops

end Sys2Proof.Proofs
end

section
/-! PROOFS of the statement on what clears the counters (R54, R462), part 4: the whole reset clears every counter, and the commands that
keep them. -/

namespace Sys2Proof.Proofs

open Sys2Proof.Machine Sys2Proof.Safety Sys2Proof.Laws

/-- A command completes with every counter kept or counted up. -/
def keepsCounts (c : Instr) (s : State) : Prop := completes c s (countsFrom s)

theorem keepsCounts_of_done {c : Instr} {s t : State} (hexec : exec c s = done s t) (h : countsFrom s t) : keepsCounts c s :=
  completes_of_endsIn hexec (h.of_eq rfl rfl)

theorem keepsCounts_idle {c : Instr} {s : State} (hexec : exec c s = done s s) : keepsCounts c s :=
  keepsCounts_of_done hexec (.refl s)

theorem keepsCounts_of_live {c : Instr} {s t : State} (hexec : exec c s = live s t) (h : countsFrom s t) : keepsCounts c s := by
  unfold live at hexec
  split at hexec
  · exact keepsCounts_idle hexec
  · exact keepsCounts_of_done hexec h

/-- A command that may only change nothing or go on keeps the counters where what it goes on to does. -/
theorem keepsCounts_of_guard {c : Instr} {s t : State} {b : Prop} [Decidable b] (hexec : exec c s = if b then live s t else done s s)
    (h : countsFrom s t) : keepsCounts c s := by
  split at hexec
  · exact keepsCounts_of_live hexec h
  · exact keepsCounts_idle hexec

/-! ## Resets of the whole part and of a function -/

theorem framesFree_of_reset (s : State) (p : Pins) : ({ wholeReset s with pins := p } : State).framesFree = 0 := by
  simp [State.framesFree, State.framesTotal, State.granules, State.topUnit, State.totalUnits, wholeReset]

/-- After a whole reset every counter reads 0, the two levels among them. -/
theorem counter_of_reset (s : State) (p : Pins) (f k : Nat) : ({ wholeReset s with pins := p } : State).counter f k = 0 := by
  unfold State.counter
  split_ifs
  · rfl
  · exact framesFree_of_reset s p
  all_goals rfl

theorem configWrite_countsFrom {a s : State} {f : Nat} {run : State → State} (hrun : countsFrom a (run s)) (h : countsFrom a s) :
    countsFrom a (configWrite f run s) := countsFrom_ite h (countsFrom_ite hrun h)

theorem flrComplete_keepsCounts (f : Fn) (s : State) : keepsCounts (.flrComplete f) s := by
  have hreset : countsFrom s (resumeLoads (functionReset f.val s)) := resumeLoads_countsFrom (functionReset_countsFrom f.val (.refl s))
  have hexec : exec (.flrComplete f) s = execFlrComplete f s := rfl
  unfold execFlrComplete at hexec
  split at hexec
  · exact keepsCounts_idle hexec
  · exact keepsCounts_of_live hexec (countsFrom_ite (endVfs_countsFrom hreset) hreset)

/-! ## Processors -/

theorem processorRunning_keepsCounts (p : AgentId) (s : State) : keepsCounts (.processorRunning p) s := by
  have hexec : exec (.processorRunning p) s = execProcessorRunning p s := rfl
  unfold execProcessorRunning at hexec
  split at hexec
  · exact keepsCounts_idle hexec
  · extract_lets x again loaded opened capped imaged ran told at hexec
    have hloaded : countsFrom s loaded := updProc_countsFrom p.val _ (countsFrom_ite (.refl s) (loadImage_countsFrom p.val (.refl s)))
    have hopened : countsFrom s opened := countsFrom_ite (closeHandoff_countsFrom p.val hloaded) hloaded
    have hcapped : countsFrom s capped := countsFrom_ite (hopened.of_eq rfl rfl) hopened
    have himaged : countsFrom s imaged := by
      unfold imaged
      split
      · exact hopened
      · exact hopened.of_eq rfl rfl
    have hran : countsFrom s ran := by
      unfold ran
      split
      · exact secUp_countsFrom _ hopened
      · exact countsFrom_ite (setReady_countsFrom rPmc true hcapped) hcapped
      · exact countsFrom_ite himaged (schUp_countsFrom himaged)
      · exact clusterUp_countsFrom _ hopened
    exact keepsCounts_of_live hexec (pauseNow_countsFrom (countsFrom_ite (procEvent_countsFrom p.val _ hran) hran))

theorem revocationDeferred_keepsCounts (p : AgentId) (s : State) : keepsCounts (.revocationDeferred p) s := by
  have hexec : exec (.revocationDeferred p) s = execRevocationDeferred p s := rfl
  unfold execRevocationDeferred at hexec
  split at hexec
  · next c _ _ _ =>
    split at hexec
    · exact keepsCounts_idle hexec
    · exact keepsCounts_of_live hexec (revokeNow_countsFrom p.val c (.refl s))
  · exact keepsCounts_idle hexec

theorem fwTargetReplaced_keepsCounts (p : AgentId) (s : State) : keepsCounts (.fwTargetReplaced p) s := by
  have hexec : exec (.fwTargetReplaced p) s = execFwTargetReplaced p s := rfl
  unfold execFwTargetReplaced at hexec
  dsimp only at hexec
  split at hexec
  · exact keepsCounts_idle hexec
  · split at hexec
    · exact keepsCounts_idle hexec
    · exact keepsCounts_of_live hexec (nextTarget_countsFrom (replaced_countsFrom p.val _ (.refl s)))

theorem handoffSafePoint_keepsCounts (p : AgentId) (block : Bytes) (s : State) : keepsCounts (.handoffSafePoint p block) s := by
  have hexec : exec (.handoffSafePoint p block) s = execHandoffSafePoint p block s := rfl
  unfold execHandoffSafePoint at hexec
  dsimp only at hexec
  split at hexec
  · exact keepsCounts_idle hexec
  · split at hexec
    · exact keepsCounts_idle hexec
    · exact keepsCounts_of_live hexec ((countsFrom.refl s).of_eq rfl rfl)

theorem secReset_keepsCounts (ok : Bool) (s : State) : keepsCounts (.secReset ok) s := by
  have hexec : exec (.secReset ok) s = execSecReset ok s := rfl
  unfold execSecReset at hexec
  split at hexec
  · exact keepsCounts_of_live hexec ((countsFrom.refl s).of_eq rfl rfl)
  · split at hexec
    · exact keepsCounts_of_live hexec (bump_countsFrom 0 (.refl s))
    · extract_lets cur unstaged released finished restarting link revoked bootNow boot at hexec
      have hunstaged : countsFrom s unstaged := stageBusy_countsFrom (.refl s)
      have hreleased : countsFrom s released := by
        clear_value cur
        unfold released
        split
        · exact hunstaged
        · split
          · exact replaced_countsFrom _ _ hunstaged
          · exact updProc_countsFrom _ _ hunstaged
      have hfinished : countsFrom s finished := countsFrom_ite (finishUpdate_countsFrom eBusy hreleased) hreleased
      have hrestarting : countsFrom s restarting := updProc_countsFrom 0 _ hfinished
      have hrevoked : countsFrom s revoked := revoke_countsFrom 0 5 (stopped_countsFrom 0 (hrestarting.of_eq rfl rfl))
      exact keepsCounts_of_live hexec (hrevoked.of_eq rfl rfl)

/-- Settles O8: the resets of the whole part by what they leave, and each other command by the functions that it runs. -/
theorem countersKept : Obligations.CountersKept := by
  refine fun s => ⟨fun c hc hup => ?_, fun f => ⟨?_, flrComplete_keepsCounts f s⟩, fun p => ⟨processorRunning_keepsCounts p s, ?_, ?_, ?_,
    revocationDeferred_keepsCounts p s, ?_, fwTargetReplaced_keepsCounts p s, fun block => handoffSafePoint_keepsCounts p block s⟩,
    fun ok => secReset_keepsCounts ok s⟩
  · rcases hc with rfl | rfl
    · exact completes_of_endsIn (if_neg (by simp [hup])) fun f k => counter_of_reset s _ f k
    · exact completes_of_endsIn (if_neg (by simp [hup])) fun f k => counter_of_reset s _ f k
  · have hkept : countsFrom s (configWrite f.val (updFn f.val (fun x => { x with flr := true })) s) :=
      configWrite_countsFrom (updFn_countsFrom f.val _ (.refl s)) (.refl s)
    exact keepsCounts_of_live rfl hkept
  · exact keepsCounts_of_guard rfl (faultOf_countsFrom p.val 2 (.refl s))
  · exact keepsCounts_of_guard rfl (faultOf_countsFrom p.val 3 (.refl s))
  · exact keepsCounts_of_guard rfl (faultOf_countsFrom p.val 4 (.refl s))
  · exact keepsCounts_of_guard rfl (rollBack_countsFrom p.val false (.refl s))

end Sys2Proof.Proofs
end
